-- ==== Sys2Proof/Word.lean ====
section
/-! DEFINITION. The word types of the SV961 and their plainest arithmetic. Numbers in registers, slots and frames
are little-endian bit vectors (conventions of spec/00); a field taken out of a word is a plain Nat. -/

namespace Sys2Proof

/-- A register, dot pair or data-bus word (32 bits). -/
abbrev Word := BitVec 32

/-- A byte of memory, of a slot or of a frame. -/
abbrev Byte := BitVec 8

/-- A flash word or an SRAM codeword's data (64 bits). -/
abbrev DWord := BitVec 64

/-- The field of `w` bits at bit `lo` of a number. -/
def fieldOf (v lo w : Nat) : Nat := v / 2 ^ lo % 2 ^ w

/-- The field of `w` bits at bit `lo` of a register word. -/
def Word.fld (v : Word) (lo w : Nat) : Nat := fieldOf v.toNat lo w

/-- Bit `i` of a register word. -/
def Word.bit (v : Word) (i : Nat) : Bool := v.getLsbD i

/-- A Bool as the value of a one-bit field. -/
def bitNat (b : Bool) : Nat := if b then 1 else 0

/-- The register word with the low 32 bits of a number. -/
def wordOf (n : Nat) : Word := BitVec.ofNat 32 n

/-- A number read as two's complement in `w` bits. -/
def signedOf (w n : Nat) : Int := if 2 ^ (w - 1) ≤ n % 2 ^ w then (n % 2 ^ w : Int) - 2 ^ w else (n % 2 ^ w : Int)

/-- An integer written in two's complement in `w` bits. -/
def twosOf (w : Nat) (i : Int) : Nat := (i % (2 ^ w : Int)).toNat

/-- A value held between two bounds. -/
def clampNat (lo hi v : Nat) : Nat := if v < lo then lo else if hi < v then hi else v

/-- An integer held between two bounds. -/
def clampInt (lo hi v : Int) : Int := if v < lo then lo else if hi < v then hi else v

/-- A count that stops at its largest value and never wraps (R26 and every "saturates" of the spec). -/
def satAdd (max n k : Nat) : Nat := if n + k ≤ max then n + k else max

/-- A count of 16 bits that saturates at 65,535. -/
def sat16 (n : Nat) : Nat := satAdd 65535 n 1

/-- The Nat of a list of bytes, least significant byte first. -/
def leNat : List Byte → Nat
  | [] => 0
  | b :: bs => b.toNat + 256 * leNat bs

/-- The Nat of a list of bytes, most significant byte first. -/
def beNat (bs : List Byte) : Nat := leNat bs.reverse

/-- `k` bytes of a number, least significant byte first. -/
def leBytes : Nat → Nat → List Byte
  | 0, _ => []
  | k + 1, n => BitVec.ofNat 8 n :: leBytes k (n / 256)

/-- `k` bytes of a number, most significant byte first. -/
def beBytes (k n : Nat) : List Byte := (leBytes k n).reverse

/-- The bytes of a list from `i`, `k` of them, zero past its end. -/
def bytesAt (bs : List Byte) (i k : Nat) : List Byte :=
  (List.range k).map fun j => bs.getD (i + j) 0

/-- The little-endian number of `k` bytes at `i` of a list. -/
def natAt (bs : List Byte) (i k : Nat) : Nat := leNat (bytesAt bs i k)

/-- A list padded with zero bytes, or cut, to `k` bytes. -/
def padTo (k : Nat) (bs : List Byte) : List Byte := bytesAt bs 0 k

end Sys2Proof
end

