-- ==== Sys2Proof/Syntax.lean ====
section
/-! DEFINITION. The commands of the SV961: one constructor for each row of spec/opcode_table.json, in its order.
An operand is what the outside decides (an address, data, a sample, a measured time); a condition that holds within
the block is read from the state. -/

namespace Sys2Proof

/-- A command (or an event) of the part. -/
inductive Instr where
  /-- BOUNDARY: the boundary of the next sill tick (R310); for each display port, the pads whose readback mismatched in
  the frame that ends (R314). -/
  | boundary (mis : List (BitVec 12))
  /-- TICK_SET: a TICK set on UP; `phase` is its arrival instant less the own boundary in ns, `held` the ns it spent on its way to DN (R244). -/
  | tickSet (flags low : Byte) (lead : BitVec 24) (chk : Byte) (codeErr : Bool) (phase : Int) (held : Nat)
  /-- DSYNC_EDGE: a rising edge of DSYNC_IN, `phase` ns from the own boundary (R444). -/
  | dsyncEdge (phase : Int)
  /-- DSYNC_CLASSIFY: DSYNC_IN falls, or has been high for 8,100 ns; its pulse is high for `high` ns in all (R31,
  R444). -/
  | dsyncClassify (high : Nat)
  /-- WINDOW_END: the window of R50 ends without an arrival; the pads as at BOUNDARY. -/
  | windowEnd (mis : List (BitVec 12))
  /-- LOOP_SLOT: slot 1; the four die temperatures in 0.1 °C (R380, R383). -/
  | loopSlot (die : List Int)
  /-- FLASH_SLOT: slot 2 (R187). -/
  | flashSlot
  /-- ADC_SLOT: slot 3 (R365). -/
  | adcSlot
  /-- CMD_SLOT: the CMD slot of that number, even, 4 to 34 (R42). -/
  | cmdSlot (slot : Nat)
  /-- SRAM_SCRUB_STEP: slots 36 and 37 (R162). -/
  | sramScrubStep
  /-- FLASH_SCRUB_READ: slot 36 of a K-th tick (R163). -/
  | flashScrubRead
  /-- COALESCE_SWEEP: slot 38 (R122). -/
  | coalesceSweep
  /-- GUARD_SLOT: slot 39 (R309, R264). -/
  | guardSlot
  /-- TICK_NUMBER_READ: a read of PG_TICK of a page, or of TICK_NUM_LO (R44). -/
  | tickNumberRead (page : Option (Fin 32))
  /-- TICK_NUM_SET_LOAD: a write of TICK_NUM_SET_HI (R46). -/
  | tickNumSetLoad (v : Word)
  /-- REGISTER_WRITE: tenant `t` writes a register of its page (`cfg` false) or of config space (R6). -/
  | registerWrite (t : Fin 32) (cfg : Bool) (off : Nat) (v : Word) (beN : BitVec 4)
  /-- READ_CLEAR: tenant `t` reads a register (R6). -/
  | readClear (t : Fin 32) (cfg : Bool) (off : Nat)
  /-- GRANT_STAGE: a write of SYS_GRANT_DATA (R60). -/
  | grantStage (v : Word)
  /-- DOOR_NONE: SYS_DOOR_CTRL NONE (R68). -/
  | doorNone (t : Fin 32)
  /-- DOOR_OPEN: SYS_DOOR_CTRL OPEN (R68). -/
  | doorOpen (t : Fin 32)
  /-- DOOR_SHUT: SYS_DOOR_CTRL SHUT (R67). -/
  | doorShut (t : Fin 32)
  /-- DOOR_OPEN_FLUSH: SYS_DOOR_CTRL OPEN_FLUSH (R68). -/
  | doorOpenFlush (t : Fin 32)
  /-- LEAK_COUNT_EXPIRY: the leak count of a tenant has reached LEAK_TICKS (R69). -/
  | leakCountExpiry (t : Fin 32)
  /-- SEC_DOOR_CFG_WRITE: a write of SEC_DOOR_CFG (R69). -/
  | secDoorCfgWrite (v : Word)
  /-- HEARTBEAT_WRITE: a write of HEARTBEAT (R70). -/
  | heartbeatWrite (t : Fin 32) (v : Word)
  /-- HEARTBEAT_EXPIRY: HB_TICKS ticks have passed (R71). -/
  | heartbeatExpiry (t : Fin 32)
  /-- KEY_LOAD: SEC_KEY_CTRL with LOAD (R78, R79). -/
  | keyLoad (persist : Bool)
  /-- KEY_ERASE: SEC_KEY_CTRL with ERASE, and LOAD or not (R78). -/
  | keyErase (load : Bool)
  /-- HOST_READ: a port (0 A, 1 B) samples a read of a page offset (R88, R89). -/
  | hostRead (p : Fin 2) (page : Fin 32) (off : BitVec 16)
  /-- HOST_WRITE: a port samples a write (R98). -/
  | hostWrite (p : Fin 2) (page : Fin 32) (off : BitVec 16) (v : Word) (beN : BitVec 4)
  /-- HOST_ACCESS_COMPLETE: a waiting access gets its target's result (R92). -/
  | hostAccessComplete (p : Fin 2)
  /-- HOST_STROBE_RELEASE: the host drives its strobes high after completion (R89). -/
  | hostStrobeRelease (p : Fin 2)
  /-- ACCESS_ABANDON: the host drives its strobes high before completion (R91). -/
  | accessAbandon (p : Fin 2)
  /-- WAIT_GUARD_EXPIRY: the wait guard expires (R92). -/
  | waitGuardExpiry (p : Fin 2)
  /-- POSTED_WRITE_DRAIN: the oldest posted write of a port takes effect (R99). -/
  | postedWriteDrain (p : Fin 2)
  /-- FENCE_READ: a read of PG_FENCE (R99, R100). -/
  | fenceRead (p : Fin 2) (page : Fin 32)
  /-- PAGE_MASK_WRITE: a write of SYS_PORTA_PAGES (0) or SYS_PORTB_PAGES (1), through a port or by command (R85). -/
  | pageMaskWrite (via : Option (Fin 2)) (which : Fin 2) (v : Word) (beN : BitVec 4)
  /-- DOORBELL: a write of CQ_TAIL (R109). -/
  | doorbell (t : Fin 32) (v : BitVec 6)
  /-- RQ_HEAD_WRITE: a write of RQ_HEAD (R110). -/
  | rqHeadWrite (t : Fin 32) (v : BitVec 6)
  /-- EQ_HEAD_WRITE: a write of EQ_HEAD (R110). -/
  | eqHeadWrite (t : Fin 32) (v : BitVec 7)
  /-- WIN_COMMIT_REG: a write of WIN_COMMIT (R129). -/
  | winCommitReg (t : Fin 32) (v : Word)
  /-- WINDOW_CONFIG_WRITE: a write of Wn_CTRL or Wn_BASE (R123). -/
  | windowConfigWrite (t : Fin 32) (w : Fin 4) (ctrl : Bool) (v : Word)
  /-- ECHO: command 0x01 of a tenant runs (R119). -/
  | echo (t : Fin 32)
  /-- CFG_READ: command 0x02 runs (R119). -/
  | cfgRead (t : Fin 32)
  /-- CFG_WRITE: command 0x03 runs (R119). -/
  | cfgWrite (t : Fin 32)
  /-- CFG_MODIFY: command 0x04 runs (R119). -/
  | cfgModify (t : Fin 32)
  /-- PAGE_READ: command 0x05 runs (R134). -/
  | pageRead (t : Fin 32)
  /-- PAGE_WRITE: command 0x06 runs (R134). -/
  | pageWrite (t : Fin 32)
  /-- EQ_READ: command 0x07 runs (R119). -/
  | eqRead (t : Fin 32)
  /-- WIN_WRITE: command 0x10 runs (R124). -/
  | winWrite (t : Fin 32)
  /-- WIN_COMMIT: command 0x11 runs (R126). -/
  | winCommit (t : Fin 32)
  /-- FLIP_ARM: command 0x20 runs (R306). -/
  | flipArm (t : Fin 32)
  /-- FLIP_CANCEL: command 0x21 runs (R306). -/
  | flipCancel (t : Fin 32)
  /-- FLASH_READ: command 0x30 runs (R191). -/
  | flashRead (t : Fin 32)
  /-- FLASH_PROG: command 0x31 runs (R191). -/
  | flashProg (t : Fin 32)
  /-- SECTOR_ERASE: command 0x32 runs (R187). -/
  | sectorErase (t : Fin 32)
  /-- STORE: command 0x38 runs (R221). -/
  | store (t : Fin 32)
  /-- LOAD: command 0x39 runs (R222). -/
  | load (t : Fin 32)
  /-- SELF_TEST: command 0x40 runs (R119). -/
  | selfTest (t : Fin 32)
  /-- SELF_TEST_END: a self-test ends within its hold limit (R17); `detail` names what failed where the block records it,
  and `pass` is the outcome of any other block. -/
  | selfTestEnd (block : Fin 10) (pass : Bool) (detail : Word)
  /-- SELF_TEST_ABORT: a self-test reaches its hold limit (R17). -/
  | selfTestAbort (block : Fin 10)
  /-- GRANT: command 0x50 runs (R60). -/
  | grant (t : Fin 32)
  /-- PWR_REQ: command 0x52 runs (R262). -/
  | pwrReq (t : Fin 32)
  /-- BUSY_RETRY: 2 ticks have passed since a command of the tenant was accepted (R117). -/
  | busyRetry (t : Fin 32)
  /-- COMMAND_COMPLETE: the oldest finished command of the tenant is answered (R114). -/
  | commandComplete (t : Fin 32)
  /-- EVENT_TEST: a write of SYS_EV_TEST (R151). -/
  | eventTest (v : Word)
  /-- PWR_REQ_OPEN: SYS_PWR_REQ STATE 0 (R262). -/
  | pwrReqOpen (force : Bool)
  /-- PWR_REQ_AJAR: SYS_PWR_REQ STATE 1 (R263). -/
  | pwrReqAjar (force : Bool)
  /-- PWR_REQ_LOUVRED: SYS_PWR_REQ STATE 2 (R264). -/
  | pwrReqLouvred (force : Bool)
  /-- PWR_REQ_LATCHED: SYS_PWR_REQ STATE 3 (R264). -/
  | pwrReqLatched (force : Bool)
  /-- WAKE_HOLD_LAPSE: WAKE_HOLD.TICKS has reached 0 (R141). -/
  | wakeHoldLapse (t : Fin 32)
  /-- GRANT_VIEW_READ: a read of GRANT_VIEW1 (R142). -/
  | grantViewRead (t : Fin 32)
  /-- TIME_SUB_READ: a read of TIME_SUB of a page, or of SYS_RTC_SUB (R143). -/
  | timeSubRead (page : Option (Fin 32))
  /-- RTC_SEC_WRITE: a write of SYS_RTC_SEC (R150). -/
  | rtcSecWrite (v : Word)
  /-- RTC_SUB_WRITE: a write of SYS_RTC_SUB (R150). -/
  | rtcSubWrite (v : Word)
  /-- RTC_TRIM_WRITE: a write of SYS_RTC_TRIM (R447). -/
  | rtcTrimWrite (v : Word)
  /-- SOFT_RESET: a write of SYS_RESET_CTRL (R145). -/
  | softReset (v : Word)
  /-- SHUTTER_RELEASE: a write of SYS_SHUTTER_REL (R146). -/
  | shutterRelease (v : Word)
  /-- SWING: SYS_LEAF SWING (R219). -/
  | swing
  /-- SWING_END: the swing ends (R219). -/
  | swingEnd
  /-- BOOT_CONFIRM: SYS_LEAF CONFIRM (R148). -/
  | bootConfirm
  /-- KSTORE_SAVE: SYS_KSTORE_CTRL SAVE (R149). -/
  | kstoreSave
  /-- SAVE_COMPLETE: a keeper-store record write ends (R221). -/
  | saveComplete
  /-- SERVICE_RESTART: firmware restarts the service that uses a core-SRAM word (R171). -/
  | serviceRestart (addr : BitVec 32)
  /-- FIELD_REPAIR: firmware tests a section; whether the test fails, and then which row or, true, column (R174). -/
  | fieldRepair (sect : Fin 128) (fails : Bool) (line : Bool × Nat)
  /-- PROT_CLEAR: a write of PROT_CLEAR (R168). -/
  | protClear (v : Word)
  /-- PROT_INJECT: a write of PROT_INJECT (R177). -/
  | protInject (v : Word)
  /-- FLASH_SECTOR_ERASE: sequence code 0xE5 is complete, on the system path or the window path (R187). -/
  | flashSectorErase (sys : Bool) (sect : BitVec 12)
  /-- FLASH_WORD_PROGRAM: sequence code 0x70 and its data are complete (R185). -/
  | flashWordProgram (sys : Bool) (word : BitVec 20) (data : DWord)
  /-- ERASE_SUSPEND: code 0xB0 (R189). -/
  | eraseSuspend
  /-- RESUME: code 0xD0 (R189). -/
  | resume
  /-- STATUS_READ: code 0x90 (R183). -/
  | statusRead
  /-- RESET_TO_READ: code 0xF0 (R183). -/
  | resetToRead
  /-- PROGRAM_START: a waiting program starts, that many µs before slot 39 (R190, R36). -/
  | programStart (usToGuard : Nat)
  /-- PROGRAM_END: a program ends after that many pulses, its last verify passing or not (R185). -/
  | programEnd (pulses : Nat) (pass : Bool)
  /-- ERASE_PULSE_END: an erase pulse and its verify end (R187). -/
  | erasePulseEnd (pass : Bool)
  /-- SUSPEND_LIMIT: suspended time reaches 1,000 µs (R189). -/
  | suspendLimit
  /-- BOR_TRIP: VDDA falls below 1.62 V (R198). -/
  | borTrip
  /-- BOR_RELEASE: VDDA rises above 1.66 V (R198). -/
  | borRelease
  /-- RESET_ASSERT: RESET_N goes low (R281). -/
  | resetAssert
  /-- RESET_RELEASE: RESET_N rises with these strap levels, and with the supplies of banks HA (bit 0) and HB (bit 1) at
  3.3 V or at 1.8 V (R214, R408, R410). -/
  | resetRelease (pins : BitVec 4 × BitVec 2)
  /-- LEDGER_RECOVERY: firmware restores the ledger; the margin read and the recovery erase (R205). -/
  | ledgerRecovery (marginFails pass : Bool) (pulses : Nat)
  /-- BOOT_COMPLETE: step 10 of the boot (R214). -/
  | bootComplete
  /-- FRAME_RECEIVE: a frame ends on the UP or DN port, with that many code errors in it (R232). -/
  | frameReceive (dn : Bool) (hseq notHseq : Byte) (bytes : List Byte) (codeErrs : Nat) (abort : Bool)
  /-- ACK_RECEIVE: an ACK set (R233). -/
  | ackReceive (dn : Bool) (cls hseq : Byte) (codeErr : Bool)
  /-- NAK_RECEIVE: a NAK set (R233). -/
  | nakReceive (dn : Bool) (cls hseq reason : Byte) (codeErr : Bool)
  /-- RETRANSMIT_TIMEOUT: 20 µs without ACK or NAK for a class (R233). -/
  | retransmitTimeout (dn rsp : Bool)
  /-- CREDIT_RECEIVE: a CREDIT set (R234). -/
  | creditReceive (dn : Bool) (cls count : Byte) (codeErr : Bool)
  /-- RECEIVER_LOCK: 128 symbols without a code error (R230). -/
  | receiverLock (dn : Bool)
  /-- TRAINING_TIMEOUT: 10 ms in TRAINING (R230). -/
  | trainingTimeout (dn : Bool)
  /-- SYMBOL_LOSS: the hop of a port is lost, with the code errors met on it outside frames and sets since the last one
  (R231). -/
  | symbolLoss (loss : Bool × Nat)
  /-- DLY_REQ: a DLY_REQ set, answered after `turn` ns; its ID is none where the set has a code error (R227, R230). -/
  | dlyReq (dn : Bool) (id : Option Byte) (turn : BitVec 16)
  /-- DLY_RSP: a DLY_RSP set after a round trip of that many ns; its ID is none where the set has a code error (R227,
  R230). -/
  | dlyRsp (dn : Bool) (id : Option Byte) (turn : BitVec 16) (round : Nat)
  /-- DELAY_REMEASURE: 256 ticks have passed (R230). -/
  | delayRemeasure (dn : Bool)
  /-- LINKCTL_BREAK: LINKCTL BREAK on a port; its CODE is none where the set has a code error (R227, R242). -/
  | linkctlBreak (dn : Bool) (code : Option Byte) (notCode : Byte)
  /-- LINKCTL_SLEEP: LINKCTL SLEEP on a port; its CODE is none where the set has a code error (R227, R231). -/
  | linkctlSleep (dn : Bool) (code : Option Byte) (notCode : Byte)
  /-- CMD: the oldest local frame, a CMD, is delivered (R237). -/
  | cmd
  /-- WIN: the oldest local frame, a WIN, is delivered (R237). -/
  | win
  /-- TICKNUM: the oldest local frame, a TICKNUM, is delivered (R247). -/
  | ticknum
  /-- WAKE: the oldest local frame, a WAKE, is delivered (R251). -/
  | wake
  /-- ENUM: the oldest local frame, an ENUM, is delivered (R241). -/
  | enum
  /-- CMD_RSP_SEND: the oldest link response buffer whose slots all have responses is sent (R238). -/
  | cmdRspSend
  /-- WAKE_MESSAGE: what the UP receiver sees of a wake message, from 20 µs of idle line to the next: its pulses in order,
  each with whether it is positive and its length in ns (R249, R250). -/
  | wakeMessage (line : List (Bool × Nat))
  /-- WAKE_REPEAT: a wake message is repeated on DN (R248). -/
  | wakeRepeat
  /-- PATH_HOLD_END: IDLE_MS without a SOF (R252). -/
  | pathHoldEnd
  /-- WAKE_N_TAKEN: WAKE_N has been low for 10 µs (R260). -/
  | wakeNTaken
  /-- RTC_ALARM: TIME_SEC becomes equal to the alarm (R397). -/
  | rtcAlarm
  /-- KEY_ROW_WAKE: a row (0 to 15 SK, 16 to 23 KP) has been low for 1 ms (R261). -/
  | keyRowWake (row : Fin 24)
  /-- LOUVRE: a louvre: the reference in mV where REF selects one from outside, and for each entry its samples: the input
  in nV, and how far the slice's code lies from the ideal one (R276, R356). -/
  | louvre (q : Nat × List (List (Int × Int)))
  /-- ENTRY_COMPLETE: the entry completes that long after the commit point (R271). -/
  | entryComplete (us : Nat)
  /-- RESTORE_STAGE_DONE: a domain's restore stage is ready, that long after the exit started (R272). -/
  | restoreStageDone (dom : Fin 16) (us : Nat)
  /-- VAO_LOSS: the selector connects VCOIN (R258). -/
  | vaoLoss
  /-- VAO_RECONNECT: VAO is reconnected (R258). -/
  | vaoReconnect
  /-- POWER_UP: power returns after both supplies were absent (R259). -/
  | powerUp
  /-- GO_UP: SEQ_CTRL GO_UP (R285). -/
  | goUp
  /-- GO_DOWN: SEQ_CTRL GO_DOWN (R286). -/
  | goDown
  /-- SEQ_STEP_DELAY_END: the DLY of the step expires (R285). -/
  | seqStepDelayEnd
  /-- SEQ_PG_CHANGE: inputs have held new levels for 50 µs; `pg` is all 24 of them, `late` the rails whose PG_TO expires in
  the same cycle (R284, R289). -/
  | seqPgChange (pg late : BitVec 24)
  /-- PG_TIMEOUT: the PG_TO of each rail of a set expires in one cycle (R289). -/
  | pgTimeout (late : BitVec 24)
  /-- SEQ_MAN_WRITE: a write of SEQ_MAN (R288). -/
  | seqManWrite (v : Word)
  /-- BAT_Q_WRITE: a write of BAT_Q (R291). -/
  | batQWrite (v : Word)
  /-- COIN_GO: COIN_CTRL GO (R292). -/
  | coinGo
  /-- COIN_PERIOD: PERIOD_H hours have passed (R292). -/
  | coinPeriod
  /-- COIN_MEASURE_END: VCOIN is converted under load (R292). -/
  | coinMeasureEnd (mv : Nat)
  /-- SWITCHING_PERIOD: a switching period of a lamp channel: the sample, over-current, pads that misread, VSTR and LEDK_MV (R320). -/
  | switchingPeriod (n : Fin 16) (iCode : Nat) (oc : Bool) (pinBad : BitVec 2) (vstr ledk : Nat)
  /-- DIMMING_PERIOD: a dimming period starts (R328). -/
  | dimmingPeriod (n : Fin 16)
  /-- TARGET_WRITE: a write of LCn_LEVEL (R326). -/
  | targetWrite (n : Fin 16) (v : Word)
  /-- FADE_END: the fade time has passed (R326). -/
  | fadeEnd (n : Fin 16)
  /-- LAMP_FAULT_CLEAR: a write of LCn_FAULT (R337). -/
  | lampFaultClear (n : Fin 16) (v : Word)
  /-- ENGINE_RUN: PEk_CTRL with RUN 1 (R330). -/
  | engineRun (k : Fin 4) (start : Fin 32)
  /-- ENGINE_STOP: PEk_CTRL with RUN 0 (R330). -/
  | engineStop (k : Fin 4)
  /-- RAMP: engine k executes its step, a RAMP (R329). -/
  | ramp (k : Fin 4)
  /-- ROTATE: engine k executes a ROTATE (R329). -/
  | rotate (k : Fin 4)
  /-- HOLD: engine k executes a HOLD (R329). -/
  | hold (k : Fin 4)
  /-- LOOP: engine k executes a LOOP (R330). -/
  | loop (k : Fin 4)
  /-- EVENT: engine k executes an EVENT (R329). -/
  | event (k : Fin 4)
  /-- END: engine k executes an END (R329). -/
  | peEnd (k : Fin 4)
  /-- ENGINE_ERROR: engine k meets an op code 0x6 to 0xF (R329). -/
  | engineError (k : Fin 4)
  /-- KEY_COLUMN_STEP: a column of SK or KP is stepped; the rows read low (R341). -/
  | keyColumnStep (kp : Bool) (col : Fin 16) (rows : BitVec 16)
  /-- SHELF_ROW_DETECT: an SK_ROW pin has been low for 1 ms (R342). -/
  | shelfRowDetect
  /-- KEY_STUCK: a key has been pressed for STUCK_S (R352); with it the cycles of CK_RTC that have passed while commands
  ran. -/
  | keyStuck (q : Fin 320 × Nat)
  /-- KEY_MASK_WRITE: a write of KEYk_CFG (R352). -/
  | keyMaskWrite (k : Fin 320) (v : Word)
  /-- CONVERSION_END: the conversion of pair A or B ends: sample by sample the input in nV, and how far the codes of its two
  lanes lie from the ideal one (R356, R361). -/
  | conversionEnd (b : Bool) (samples : List (Int × Int × Int))
  /-- CALIBRATION: PERIOD_MS has passed and the spare is calibrated (R359). -/
  | calibration
  /-- SLICE_SWAP: a calibration ends: offset in codes, largest gain error in 1/10,000 (R359, R360). -/
  | sliceSwap (offset gainErr : Int)
  /-- REF_SELECT: a write of ADC_REF (R357). -/
  | refSelect (v : Word)
  /-- REF_SETTLED: the settling time ends with the selected reference (REFP - REFN, or VDDA) at that many mV (R357). -/
  | refSettled (mv : Nat)
  /-- INJECT: a write of ADCn_INJ (R367). -/
  | inject (n : Fin 32) (v : Word)
  /-- TAP_RESET: TRST_N low, or five TCK edges with TMS high (R432). -/
  | tapReset
  /-- EXTEST: instruction EXTEST; the register shifted in (R433). -/
  | extest (pins : BitVec 474)
  /-- SAMPLE_PRELOAD: instruction SAMPLE/PRELOAD; the register captured or loaded (R433). -/
  | samplePreload (pins : BitVec 474)
  /-- IDCODE: instruction IDCODE (R435). -/
  | idcode
  /-- HIGHZ: instruction HIGHZ (R433). -/
  | highz
  /-- CLAMP: instruction CLAMP (R433). -/
  | clamp
  /-- BYPASS: instruction BYPASS or an unknown code (R433). -/
  | bypass
  /-- FLASH_ACC_WRITE: FLASH_ACC OP 1; flash offset [22:2] (R437). -/
  | flashAccWrite (addr : BitVec 21) (data : Word)
  /-- FLASH_ACC_READ: FLASH_ACC OP 2 (R437). -/
  | flashAccRead (addr : BitVec 21)
  /-- FLASH_ACC_STATUS: FLASH_ACC OP 3 (R437). -/
  | flashAccStatus
  /-- UNLOCK: SYS_DBG_LOCK UNLOCK (R440). -/
  | unlock
  /-- CHALLENGE_READ: a read of SYS_DBG_CHAL (R440). -/
  | challengeRead
  /-- CHALLENGE_RESPONSE: a write of SYS_DBG_CHAL (R440). -/
  | challengeResponse (v : Word)
  /-- RELOCK: SYS_DBG_LOCK RELOCK (R442). -/
  | relock
  /-- PEEP_GROUP_WRITE: a write of PEEP_CTRL (R438). -/
  | peepGroupWrite (v : Word)
  /-- DATA_MODE_SYMBOLS_RECEIVED: a port in OFF receives data-mode symbols (R230). -/
  | dataModeSymbolsReceived (dn : Bool)
  /-- BOTH_SUPPLIES_ABSENT: AO loses its supply (R259). -/
  | bothSuppliesAbsent
  /-- TACH_EDGE: a falling edge of FANn_TACH, that many µs after the one before (R382). -/
  | tachEdge (n : Fin 8) (us : Nat)
  /-- TACH_SILENCE: STALL_MS without a falling edge (R390). -/
  | tachSilence (n : Fin 8)
  /-- ROW_WATCHED_AGAIN: a row that was low at the commit point has been high for 1 ms (R261). -/
  | rowWatchedAgain (row : Fin 24)
  deriving DecidableEq, Repr

end Sys2Proof
end

