-- ==== Sys2Proof/Decode.lean ====
section
/-! DEFINITION. The part has no instruction decoder: no row of spec/opcode_table.json gives bits, so no word spells a
command. Commands of the letterbox are decoded from their slots in Machine/Letterbox.lean (Table 5.5). -/

namespace Sys2Proof

/-- The command that a word spells by the bits of the table: the table gives no row any bits, so none. -/
def decodeTableWord (_nbits _w : Nat) : Option Instr := none

end Sys2Proof
end

