-- ==== Sys2Proof/Config.lean ====
section
/-! DEFINITION. What one part fixes (fuses, stepping) and the values the spec leaves open. A constant without a
body is free: nothing can be proved about which value it is. -/

namespace Sys2Proof.Config

/-- SYS_UID_LO and SYS_UID_HI: the part's 64-bit UID, in fuses (Table 6.7). -/
opaque uid : BitVec 64

/-- SYS_FUSE.GRADE (Table 6.8): the ordering code of the part. -/
opaque gradeFuse : Bool

/-- The SHA-256 of the leaf signing key, in fuses (R209). -/
opaque keyHash : BitVec 256

/-- The 15 DEC-TED check bits of a flash word (Table 7.2 names the code and not its matrix). Free. -/
opaque flashCheckBits : DWord → BitVec 15

/-- Whether one of a word's stored bits in error is a 0 where the new codeword holds 1 (R186; which bits are in error
is not kept). Free. -/
opaque badBitLow : Nat → Bool

/-- µs that a suspend has lasted when it is resumed before the limit (R189; a resume carries no time). Free. -/
opaque suspendedUs : Nat → Nat

/-- What a word with more errors than its code detects reads as (R158, R159): 0 uncorrectable, 1 corrected to a wrong
value, 2 a valid word with wrong data. Free, one draw a time. -/
opaque beyondCode : Nat → Fin 3

/-- Whether a flash word that is corrected to a wrong value counts as corrected in two bits, or in one (R159). Free. -/
opaque beyondTwo : Nat → Bool

/-- Whether the program of a ledger record word reaches its pulse limit (R197; the rows in which the controller writes
records carry no outcome). Free, one draw a word. -/
opaque recordFails : Nat → Bool

/-- What a word holds after a program that failed as NOT_ERASED, its data and the stored bits in error (R186: its pulses
can only have cleared bits). Free. -/
opaque overData : Nat → DWord
opaque overBad : Nat → Nat

/-- Which of the two sealed-key sectors a sealed record goes to, and the words programmed for it from the first of that
sector (R79; the layout of the record is not given). Free. -/
opaque sealedSector : Nat → Bool
opaque sealedWords : Nat → DWord × List DWord

/-- The levels of DPn_COL in a cycle of the frame of a port in which nothing is shifted (R300 names none). Free. -/
opaque colIdle : Nat → Nat → BitVec 4

/-- Whether a conversion that starts at an instant which only the slot tells ends before slot 39 (R365, log entry 10). Free,
one draw a time. -/
opaque fits : Nat → Bool

/-- Whether REF_RDY still reads 1 while the samples that run at a change of the reference end (R357, log entry 152).
Free. -/
opaque refHigh : Nat → Bool

/-- Whether the SPIN grace of a fan has passed when its tach changes in Louvred (R387, R390, log entry 153). Free, one draw
a time. -/
opaque spinOver : Nat → Bool

/-- The wrong data such a word reads as (R158, R159). Free. -/
opaque beyondData : Nat → DWord

/-- The latitude of R327: minus 1, 0 or plus 1 on a CIE fade. Free. -/
opaque cieLatitude : Nat → Fin 3

/-- The latitude of R379: minus 1, 0 or plus 1 on a thermistor's temperature. Free. -/
opaque thermLatitude : Nat → Fin 3

/-- The challenge the SEC engines draw at an unlock (R440). Free. -/
opaque challenge : Nat → BitVec 128

/-- The TAG of the command by which a register row's write reaches config space (R396; the row does not carry it).
Free. -/
opaque cfgTag : Nat → BitVec 16

/-- What RESULTS byte 4 of GRANT reads for a routed event, whose entry takes no write and is not refused under R62
(Table 5.5 states no result). Free. -/
opaque grantRouted : Nat → Bool

/-- The TAG that EV71 names for a frame lost in a link buffer (Table 7.4; the buffer cannot be read). Free. -/
opaque lostTag : Nat → BitVec 16

/-- Whether a word of the link frame area belongs to the buffer that is read (R234; the layout of the area is not
given). Free, one draw a word. -/
opaque linkBufWord : Nat → Bool

/-- Whether a word of core SRAM belongs to the response that a resend is answered with (R116, R172; no map of core SRAM
is given). Free, one draw a word. -/
opaque heldWord : Nat → Bool

/-- What a port drives on HA_D from the start of a read to its end (Table 4.2: driven, not yet valid). Free. -/
opaque busUnsettled : Nat → BitVec 32

/-- Whether WAKE_N, low when it was last seen, has gone high since (R260; no row tells of its rise). Free. -/
opaque wakeHigh : Nat → Bool

/-- The rows of SK and KP that are low at a commit point: SK in [15:0], KP in [23:16] (R261; no row tells their levels).
Free. -/
opaque rowsLow : Nat → BitVec 24

/-- The length in µs of a louvre that a wake source cuts short, and whether PD_ADC had power by then when no sample had
been converted (R276, R278; the row does not tell the instant). Free. -/
opaque lvCutUs : Nat → Nat
opaque lvPowered : Nat → Bool

/-- The on-time in ns of a pulse that an over-current ends (R335). Free; never above the time requested. -/
opaque pulseCut : Nat → Nat

/-- The clocks of SYS_CLK_STATUS that run, as its detectors find them at a read (R446; no row tells of a clock that stops
or comes back). Free, one draw a read. -/
opaque clocks : Nat → BitVec 5

/-- Signals of the peephole group selected, as sampled at a read (R438, Table 21.2 gives no order of the signals in
most groups). Free. -/
opaque peepSignals : Nat → BitVec 16

/-- The service that uses a core-SRAM word (R171; no map of core SRAM to services is given). Free. -/
opaque serviceOf : Nat → Byte

/-- Whether a service of core SRAM is the one that runs the commands of an opcode (R171; not given). Free. -/
opaque serviceRuns : Byte → Nat → Bool

/-- The bytes of a keeper-store body (R149; the layout of the body is not given). Free: a body of 1 to 12,272 bytes
for a snapshot number. -/
opaque keeperBody : Nat → List Byte

/-- What the 48-bit charge accumulator holds where a sum or a written value does not fit it (R291 states no result).
Free. -/
opaque chargeBeyond : Nat → BitVec 48

/-- Whether a flash operation that the boot makes before firmware runs, an erase or a program of a selector sector,
succeeds within its pulse limit (R211, R215; a reset carries no outcome). Free. -/
opaque bootFlash : Nat → Bool

/-- Which of several equal candidates is taken, by its place in their list (R359, Table 17.2: the lane whose slice has
the oldest calibration, the hottest die sensor; the spec breaks no tie). Free. -/
opaque tie : List Nat → Nat

/-- The typical erase pulses left to expect (R117). -/
def typicalPulses : Nat := 3

/-- The command capacity in units per tick (R42). -/
def capacity : Nat := 160

end Sys2Proof.Config
end

