-- ==== Sys2Proof/Machine/Store.lean ====
section
/-! DEFINITION. Sparse storage in one canonical form: a list of (key, value) pairs whose keys rise strictly and whose
values differ from what an unlisted key reads as. Memory, flash, the register file and every numbered family of the
spec (tenants, cells, lamps, keys ...) are kept so. -/

namespace Sys2Proof.Machine

/-- A sparse store of values by number. -/
abbrev SMap (α : Type) := List (Nat × α)

/-- The value of a key; an unlisted key reads as `d` gives. -/
def SMap.get {α : Type} (d : Nat → α) : SMap α → Nat → α
  | [], k => d k
  | (j, v) :: m, k => if j = k then v else SMap.get d m k

/-- The store without a key. -/
def SMap.erase {α : Type} : SMap α → Nat → SMap α
  | [], _ => []
  | (j, v) :: m, k => if j = k then SMap.erase m k else (j, v) :: SMap.erase m k

/-- The store with a pair put where its key belongs. -/
def SMap.ins {α : Type} (k : Nat) (v : α) : SMap α → SMap α
  | [] => [(k, v)]
  | (j, w) :: m => if k < j then (k, v) :: (j, w) :: m else (j, w) :: SMap.ins k v m

/-- The store after a write. Writing what an unlisted key reads as removes the entry. -/
def SMap.set {α : Type} [DecidableEq α] (d : Nat → α) (m : SMap α) (k : Nat) (v : α) : SMap α :=
  if v = d k then SMap.erase m k else SMap.ins k v (SMap.erase m k)

/-- The store with one value changed by a function. -/
def SMap.upd {α : Type} [DecidableEq α] (d : Nat → α) (m : SMap α) (k : Nat) (f : α → α) : SMap α :=
  SMap.set d m k (f (SMap.get d m k))

/-- The canonical form: keys strictly rising, no entry equal to what its key reads as when unlisted. -/
def SMap.wf {α : Type} [DecidableEq α] (d : Nat → α) : SMap α → Bool
  | [] => true
  | (j, v) :: m => decide (v ≠ d j) && m.all (fun q => decide (j < q.1)) && SMap.wf d m

/-- The store with every key from `lo` up to but not including `hi` unlisted again. -/
def SMap.clear {α : Type} (m : SMap α) (lo hi : Nat) : SMap α := m.filter fun q => q.1 < lo || hi ≤ q.1

end Sys2Proof.Machine
end

