-- ==== Sys2Proof/Machine/State.lean ====
section
/-! DEFINITION. The state of the SV961: every register, queue, buffer, counter, mode and pin the spec gives it, as
plain data, and the queue of the commands that wait. Each structure is one block of the spec. -/

namespace Sys2Proof.Machine

/-- Why the model stops with a fault: never. The spec gives every software error a bus error, a status or a clamp (R25),
and every fault of the part an effect. No one raises a fault. -/
inductive Fault where
  deriving DecidableEq, Repr

/-- Why the model refuses a command. -/
inductive Refusal where
  /-- A command without a meaning, by its mnemonic. Safe: nothing follows from it. -/
  | notModelled (mnemonic : String)
  deriving DecidableEq, Repr

/-! ## Tenants and doors (spec/03, spec/05, spec/06) -/

/-- The state of a door (Table 3.4). -/
inductive DoorSt where
  | shut
  | opened
  | fire
  deriving DecidableEq, Repr

/-- A word staged through a window, with the bytes it holds (R124). -/
structure Staged where
  val : Word
  be : BitVec 4
  deriving DecidableEq, Repr

/-- A pending event: its occurrences, tick number [15:0] and latest data word (R121, R402). -/
structure PendEv where
  count : Nat
  tick : Nat
  data : Word
  deriving DecidableEq, Repr

/-- A commit requested through WIN_COMMIT (R129). -/
structure CommitReq where
  win : Nat
  off : Nat
  len : Nat
  crc : Word
  deriving DecidableEq, Repr

/-- A command in the tag history: its number, its tag, and its final response once it exists (R116). -/
structure HistEnt where
  id : Nat
  tag : Nat
  resp : Option (List Byte)
  deriving DecidableEq, Repr

/-- One tenant: its door, its authentication record, its page registers and its queues' indices. -/
structure Tenant where
  -- the door (R68, R69); its state is State.doors
  cause : Nat
  /-- A pending OPEN (false) or OPEN_FLUSH (true). -/
  doorPend : Option Bool
  chkCnt : Nat
  authCnt : Nat
  replay : Nat
  leak : Nat
  /-- SEC_DOOR_CFG: CHK_LIMIT, AUTH_LIMIT, LEAK_TICKS. -/
  doorCfg : Word
  hbTicks : Nat
  hbLeft : Nat
  authReq : Bool
  /-- The key in effect, as the number its 32 bytes spell, byte 0 first and most significant. -/
  key : Option (BitVec 256)
  /-- A loaded key waiting for slot 0, with PERSIST. -/
  keyNew : Option (BitVec 256 × Bool)
  acntH : Nat
  acntMap : BitVec 64
  /-- H and the map wait for NUM_VALID (R76). -/
  acntLost : Bool
  /-- The response count of R229 within the tick it names. -/
  rspAcnt : Nat × Nat
  -- the page registers (Tables 6.3 to 6.5)
  /-- PG_CTRL: RQ_THR, EQ_THR. -/
  ctrl : Word
  clamps : Nat
  /-- PG_BERR_CAUSE, as Table 4.10 packs it. -/
  berr : Word
  berrAddr : Word
  tickHi : Nat
  quotaSet : Nat
  quota : Nat
  spent : Nat
  deferred : Bool
  deferNow : Bool
  /-- A command of this tenant has started in this tick (R40). -/
  started : Bool
  /-- The tenant's service has ended for this tick (R41). -/
  ended : Bool
  cqHead : BitVec 6
  cqTail : BitVec 6
  rqHead : BitVec 6
  rqTail : BitVec 6
  /-- RQ slots whose exit check has been reported as failing (R172). -/
  exitBad : BitVec 32
  eqHead : BitVec 7
  eqTail : BitVec 7
  pause : Bool
  irqClamp : Bool
  irqWin : Bool
  irqEn : BitVec 7
  evMask : BitVec 256
  winType : SMap Nat
  winBase : SMap Nat
  /-- Staged words, keyed by 2,048 × window + word. -/
  staged : SMap (Option Staged)
  winCheck : Word
  winState : Nat
  winRej : Bool
  winFull : Bool
  winResult : Nat
  winReq : Option CommitReq
  wakeHold : Bool
  wakeTicks : Nat
  wakeLapse : Bool
  /-- GRANT_VIEW0. -/
  gv : Word
  timeSec : Word
  scratch : Word
  heartbeat : Word
  /-- Pending events by number; count 0 means the pending bit is clear. -/
  pend : SMap PendEv
  /-- The last 64 commands taken as new, newest first. -/
  hist : List HistEnt
  deriving DecidableEq, Repr

/-- How far an accepted command has come. -/
inductive RunSt where
  /-- Accepted and not yet executed. -/
  | accepted
  /-- Executing: what it still waits for is in the flash queue or a self-test. -/
  | working
  /-- Finished, with a status and RESULTS bytes 4 to 59. -/
  | finished (status : Nat) (results : List Byte)
  deriving DecidableEq, Repr

/-- A grant entry: its owner, and the first member and the members of an extent. -/
structure Grant where
  owner : Nat
  base : Nat
  count : Nat
  deriving DecidableEq, Repr

/-- An accepted command (R111). -/
structure Run where
  /-- Its number, in order of acceptance: what tells it from a later command with the same tag (R116). -/
  id : Nat
  ten : Nat
  slot : List Byte
  /-- Boundaries since it was accepted (R117). -/
  age : Nat
  /-- The CMD slot in which it was accepted or, once cut, has been continued: the first of a tick (R54). -/
  at_ : Nat
  /-- The link response buffer and the slot's place in its frame, for a command from the link (R130). -/
  link : Option (Nat × Nat)
  busySent : Bool
  st : RunSt
  /-- The grant table, and the sectors still to wipe, as they stood at its start: the grants that it runs under
  (R61). -/
  table : SMap Grant
  wipe : List (Nat × Nat)
  deriving DecidableEq, Repr

/-! ## Host ports (spec/04) -/

/-- A host access (R88). -/
structure Access where
  page : Nat
  off : Nat
  write : Bool
  val : Word
  beN : BitVec 4
  /-- Its step of a flash sequence has been made (R182). -/
  stepped : Bool
  deriving DecidableEq, Repr

/-- How an access has ended: the level of HA_BERR_N and the data of a read, as the host samples them (R88, R93). -/
structure PortEnd where
  berrN : Bool
  data : Option Word
  deriving DecidableEq, Repr

/-- One host port. -/
structure HPort where
  sync : Bool
  clkOk : Bool
  postEn : Bool
  guard : Nat
  pages : BitVec 32
  /-- An access that waits, with HA_RDY low. -/
  acc : Option Access
  rdy : Bool
  berrN : Bool
  /-- What the port drives on HA_D; none while it is released. -/
  dOut : Option Word
  /-- The access that has ended and whose strobes the host still drives low. -/
  ended : Option PortEnd
  /-- The posting buffer, oldest first. -/
  post : List Access
  /-- Per page, the cause of the first posted write that failed since the last fence (R100). -/
  fence : SMap Nat
  deriving DecidableEq, Repr

/-! ## The sill tick (spec/02) -/

/-- TICK_STATUS.STATE (Table 2.8). -/
inductive TickSt where
  | localTick
  | lockedLink
  | lockedDsync
  | holdover
  | slewing
  deriving DecidableEq, Repr

/-- How a source is being counted for the lock of R52. -/
structure Lock where
  count : Nat
  first : Int
  arrived : Bool
  deriving DecidableEq, Repr

/-- The TICK block. -/
structure Tick where
  /-- TICK_CTRL: SRC, TOUT_EN, DSYNC_EN, EV_DIV. -/
  ctrl : Word
  /-- SRC and DSYNC_EN in force (R32). -/
  srcF : Nat
  dsyncF : Bool
  /-- TICK_PERIOD as written, and in force (R34). -/
  period : Nat
  periodF : Nat
  st : TickSt
  /-- The source that is being slewed to: LINK (false) or DSYNC (true). -/
  slewDs : Bool
  slewFirst : Int
  slewExp : Int
  link : Lock
  dsync : Lock
  numValid : Bool
  loadRej : Bool
  holdTicks : Nat
  num : BitVec 48
  hiLatch : Nat
  setLo : Word
  load : Option (BitVec 48)
  /-- The load comes from the link (R247). -/
  loadLink : Bool
  /-- TICK_PHASE.ERR in ns. -/
  phase : Int
  dly : Nat
  overrun : Nat
  qIdx : Nat
  defer : Nat
  slot : Nat
  first : Nat
  capLeft : Nat
  /-- The flip indication of the source in use for the boundary to come (R33). -/
  flipInd : Bool
  /-- The boundary of an armed tick waits for the pulse to be classified (R444). -/
  flipWait : Bool
  dsHigh : Bool
  /-- What the last pulse marks: 0 no boundary, 1 the one to come, 2 the one made last. -/
  dsMark : Nat
  /-- The high time of the last pulse in ns. -/
  dsWidth : Nat
  /-- An arrival announced by a TICK set for an instant after the boundary to come: its phase and FLIP (R244). -/
  later : Option (Int × Bool)
  /-- An arrival that a DSYNC_IN edge before the boundary to come gives after it, by TICK_DSYNC.DLY: its phase (R444). -/
  laterDs : Option Int
  /-- The change of slot 39 of this tick in ns (R52). -/
  adj39 : Int
  /-- The width of the last TICK_OUT pulse in ns; 0 while TOUT_EN is 0. -/
  tickOut : Nat
  /-- A TICKNUM that waits for the TICK with its LOW (R247). -/
  ticknum : Option (BitVec 48)
  /-- Ticks before EV20 may be raised again (R247). -/
  lowWait : Nat
  /-- Ticks to the next flash scrub read (R163). -/
  fscrub : Nat
  deriving DecidableEq, Repr

/-! ## Grants (spec/03) -/

/-- A staged entry, with KEEP (R60). -/
structure StagedGrant where
  owner : Nat
  keep : Bool
  base : Nat
  count : Nat
  deriving DecidableEq, Repr

/-- The grant table: entries keyed by 512 × class + index. -/
structure Grants where
  idx : Nat
  cls : Nat
  ainc : Bool
  err : Bool
  table : SMap Grant
  staged : SMap (Option StagedGrant)
  /-- Shelf-store sectors still to wipe, each with the extent entry it belongs to (R64). -/
  wipe : List (Nat × Nat)
  deriving DecidableEq, Repr

/-! ## System registers, power, platform (spec/06, spec/09, spec/11, spec/12) -/

/-- Keeper system registers that belong to no other block. -/
structure Sys where
  tenSel : Nat
  doorSel : Nat
  linkAddr : Nat
  group : BitVec 15
  resetCause : BitVec 5
  straps : BitVec 4
  bootDone : Bool
  leaf : Bool
  fallback : Bool
  sweep : Bool
  selGen : Nat
  selLeaf : Bool
  leafSt : Nat
  fwVer : Word
  halted : Bool
  /-- The verification of the swing is still to come: the leaf cannot be read yet (R184, R219). -/
  swingDue : Bool
  /-- The leaf has failed its verification, or the selector word could not be written. -/
  swingBad : Bool
  scrubSram : Bool
  scrubFlash : Bool
  passes : Nat
  locked : Bool
  dbgFail : Bool
  rtcSec : Nat
  rtcSub : Nat
  rtcAcc : Nat
  rtcStage : Word
  /-- The seconds and the sub-count that the next edge of CK_RTC loads (R150). -/
  rtcLoad : Option (Nat × Nat)
  rtcAlarm : Word
  /-- TIME_SEC has been equal to the alarm since before it last changed, or the alarm has been taken (R397). -/
  alarmDone : Bool
  rtcTrim : BitVec 8
  /-- The seconds as the last read of SYS_RTC_SUB latched them (R143). -/
  rtcLatch : Word
  aoIdx : Nat
  aoInc : Bool
  ao : SMap Word
  kstSt : Nat
  kstResult : Nat
  kstGen : Nat
  bootCnt : Nat
  /-- The clocks whose state SYS_CLK_STATUS shows: none in reset (R446). -/
  clkOk : BitVec 5
  /-- RESET_N as driven by the board. -/
  resetN : Bool
  /-- The pads of banks HA (bit 0) and HB (bit 1) are set for 3.3 V, else for 1.8 V (R408). -/
  padsHigh : BitVec 2
  /-- A reset written through a host port has been acknowledged and has not begun (R145). -/
  resetPend : Bool
  deriving DecidableEq, Repr

/-- A power state (Table 11.1). -/
inductive PState where
  | opened
  | ajar
  | louvred
  | latched
  | shuttered
  | off
  deriving DecidableEq, Repr

/-- SYS_PWR_STATE.PHASE (Table 6.6). -/
inductive Phase where
  | idle
  | query
  | delayed
  | committed
  | restoring
  deriving DecidableEq, Repr

/-- The power controller and its louvre sequencer. -/
structure Pwr where
  st : PState
  phase : Phase
  rej : Bool
  result : Nat
  refuser : Nat
  reqState : Nat
  force : Bool
  /-- A requested Ajar waits for slot 39 (R263). -/
  ajarPend : Bool
  /-- Queries made since the request (R267). -/
  queries : Nat
  wakeSrc : BitVec 6
  replayed : Bool
  wakeLatch : BitVec 6
  wakeEn : BitVec 5
  /-- Sources taken in the entry, for EV80. -/
  taken : BitVec 6
  domOn : BitVec 16
  domReady : BitVec 16
  /-- Restore stages done, per domain, 0 to 4 (R272). -/
  stage : SMap Nat
  closed : BitVec 6
  shutRej : Bool
  autoHA : Bool
  autoHB : Bool
  ans : Word
  entryUs : Nat
  exitUs : Nat
  /-- The state an exit leaves, for EV81. -/
  left : Nat
  lvCount : Nat
  lvEntry : Nat
  lvOnUs : Nat
  lvCons : SMap Nat
  /-- PWR_LV_RESk. -/
  lvRes : SMap Word
  shutSec : Word
  /-- Rows that are not watched until they have been high (R261): SK in [15:0], KP in [23:16]. -/
  unwatched : BitVec 24
  vao : Bool
  vcoin : Bool
  pathHold : Bool
  /-- An EV82 that waits for Open (R282). -/
  lvEv : Option Word
  /-- WAKE_N has been low for 10 µs, and nothing has shown it high since (Table 11.2). -/
  wakeLow : Bool
  /-- The restore stage that PD_ADC had reached in a louvre that was cut short (R278). -/
  lvStage : Nat
  /-- The domains kept on over the last entry whose pads in bank GEN have stayed live since (R274). -/
  live : BitVec 16
  /-- The levels of SEQ_EN, and the fans whose FANn_PWM is high, while their pads are held (Table 11.5). -/
  enHeld : BitVec 24
  fanHeld : BitVec 8
  deriving DecidableEq, Repr

/-- The platform sequencer and the battery watch. -/
structure Seq where
  st : Nat
  upDone : Bool
  step : Nat
  rej : Bool
  result : Nat
  en : BitVec 24
  pg : BitVec 24
  fault : BitVec 24
  man : BitVec 24
  /-- Rails the current step waits on. -/
  wait : BitVec 24
  /-- Manual rails turned on that have not read good yet. -/
  manWait : BitVec 24
  /-- The DLY of the current step is running. -/
  dlyRun : Bool
  /-- The power-good inputs are to be read anew, after a restore of PD_SEQ (R294). -/
  reread : Bool
  batV : Nat
  batI : Int
  batT : Nat
  batAcc : Int
  batOut : BitVec 6
  /-- Consecutive updates against the present state, by quantity: 0 voltage, 1 current, 2 temperature. -/
  batCnt : SMap Nat
  invalid : BitVec 3
  stale : BitVec 3
  gap : Bool
  gapDue : Bool
  coinMv : Nat
  coinBusy : Bool
  coinSkip : Bool
  coinLow : Bool
  deriving DecidableEq, Repr

/-! ## Display (spec/13) -/

/-- A self-test that runs: the block's unit, and the number of the command it answers. -/
structure Test where
  unit : Nat
  run : Nat
  deriving DecidableEq, Repr

/-- One label cell. -/
structure Cell where
  arm : Option (BitVec 48)
  dark : Bool
  why : Nat
  front : Bool
  /-- The verification of slot 39: none, or its WHY (0 passes). -/
  verdict : Option Nat
  /-- An uncorrectable front word has been met: dark from the next frame start (R313). -/
  bad : Bool
  deriving DecidableEq, Repr

/-- One display port. -/
structure DPort where
  unit : Nat
  row : Nat
  fault : BitVec 12
  active : Bool
  /-- Pads that mismatched in the frame before. -/
  mis : BitVec 12
  /-- A frame has started since the port was enabled (R301), with its u (R302) and PRE. -/
  frame : Bool
  u : Nat
  pre : Nat
  /-- ROWEN and ROWA when the frame started (R304). -/
  prev : Bool × Nat
  /-- The frame is blanked by a pad fault (R314). -/
  blanked : Bool
  /-- A self-test runs in the frame (R315). -/
  test : Bool
  deriving DecidableEq, Repr

/-- The DISP block. -/
structure Disp where
  cells : SMap Cell
  ports : SMap DPort
  /-- A port's self-test that waits for the next frame start (R315). -/
  due : Option Test
  flipTick : BitVec 48
  flipped : Nat
  darkened : Nat
  deriving DecidableEq, Repr

/-! ## Lamps and engines (spec/14) -/

/-- A fade in progress: from `a` to `b`, `el` of `tot` ns done. -/
structure Fade where
  a : Nat
  b : Nat
  el : Nat
  tot : Nat
  cie : Bool
  deriving DecidableEq, Repr

/-- One lamp channel, less its plain RW registers. -/
structure Lamp where
  /-- The TARGET that the owner wrote (LCn_LEVEL). -/
  own : Nat
  /-- The TARGET in effect: the owner's, or the followed lane's (R331). -/
  target : Nat
  out : Nat
  fade : Option Fade
  pf : Nat
  pfFade : Option Fade
  ieff : Nat
  c : Nat
  d : Nat
  derating : Bool
  fault : BitVec 5
  pins : BitVec 3
  test : Bool
  iCode : Nat
  vstr : Nat
  ledk : Nat
  /-- The duty word d in 1/16 ns. -/
  duty : Nat
  ePrev : Int
  owed : Nat
  skip : Bool
  /-- t_on of the current period in ns. -/
  tOn : Nat
  /-- N, the on-periods of the dimming period, and the periods done in it. -/
  onN : Nat
  perDone : Nat
  ocCnt : Nat
  pinCnt : Nat
  openCnt : Nat
  shortCnt : Nat
  ledkCnt : Nat
  /-- The on-time was at its maximum in every switching period since the last update. -/
  allMax : Bool
  /-- Some period has switched since the last update. -/
  anyPer : Bool
  deriving DecidableEq, Repr

/-- A lane of an engine: its level, and the time (ms) and curve of its last change. -/
structure Lane where
  level : Nat
  ms : Nat
  cie : Bool
  deriving DecidableEq, Repr

/-- One pattern engine, less its step words. -/
structure Engine where
  start : Nat
  st : Nat
  pc : Nat
  lanes : SMap Lane
  lc : Nat
  /-- ms left before the next step. -/
  left : Nat
  /-- Untimed steps in a row (R330). -/
  quick : Nat
  deriving DecidableEq, Repr

/-! ## Keys (spec/15) -/

/-- One key, less its configuration. -/
structure Key where
  down : Bool
  count : Nat
  amb : Bool
  /-- Ticks pressed. -/
  ticks : Nat
  /-- Repeats raised since the press. -/
  reps : Nat
  /-- Ticks to the next repeat; 0 before the first one of a series (R347). -/
  repLeft : Nat
  stuck : Bool
  /-- The count of CK_RTC cycles when its stuck time started (R352). -/
  since : Nat
  deriving DecidableEq, Repr

/-- The KEY block. -/
structure Keys where
  keys : SMap Key
  raw : BitVec 320
  active : Bool
  quiet : Nat
  ghosts : Nat
  testRes : Nat
  testKp : Bool
  testHeld : Bool
  testPins : BitVec 16
  /-- SHELF_ROW_DETECT has happened: active from the next slot 4. -/
  wakeScan : Bool
  /-- Cycles of CK_RTC, by which stuck times are measured (R352). -/
  cyc : Nat
  deriving DecidableEq, Repr

/-! ## Conversion (spec/16) -/

/-- One converter channel, less its plain RW registers. -/
structure Chan where
  res : Word
  injRes : Word
  out : Bool
  ovr : Bool
  injRej : Bool
  /-- Ticks since the last result, saturating at 17. -/
  age : Nat
  /-- The next result counts as following an inside one (R369). -/
  fresh : Bool
  deriving DecidableEq, Repr

/-- An injected request (R367). -/
structure Inj where
  ch : Nat
  pairB : Bool
  gain : Nat
  smp : Nat
  ovs : Nat
  /-- The channel's owner has changed: the result is discarded (R373). -/
  drop : Bool
  /-- It does not end before slot 39 and waits for slot 0 (R367). -/
  late : Bool
  deriving DecidableEq, Repr

/-- A conversion of a sequence: its channel, its item (the entry of sequencer B, or the channel again), GAIN, SMP and
OVS. `drop`: the channel's owner has changed and the result is discarded (R373). -/
structure Conv where
  ch : Nat
  entry : Nat
  gain : Nat
  smp : Nat
  ovs : Nat
  drop : Bool
  deriving DecidableEq, Repr

/-- The sequence of a pair: what is left to convert (channels of A, entries of B, each with whether its channel has
changed owner) and what converts now. -/
structure SeqRun where
  left : List (Nat × Bool)
  run : Option Conv
  made : Nat
  /-- Slots 3 before the next start. -/
  wait : Nat
  /-- Stopped for the tick: it continues at the next slot 3 (R365). -/
  cut : Bool
  /-- When what the pair converts has started, in cycles of CK_ADC from the boundary, and whether that is exact. -/
  at_ : Nat × Bool
  deriving DecidableEq, Repr

/-- The ADC block. -/
structure Adc where
  chans : SMap Chan
  resB : SMap Word
  refSel : Nat
  refRdy : Bool
  refBad : Bool
  /-- A CAL_ALL pass is due when the reference has settled (R357). -/
  calAll : Bool
  /-- The slice that a CAL_ALL pass calibrates. -/
  calPass : Option Nat
  /-- Samples that ran when the reference was changed may not have ended yet (R357). -/
  refWait : Bool
  /-- V_REF in mV. -/
  vref : Nat
  /-- A deep self-test that waits for slot 0 (R374). -/
  due : Option Test
  spare : Nat
  lanes : SMap Nat
  retired : BitVec 5
  deep : Bool
  skips : Nat
  testRes : Nat
  testSlices : BitVec 5
  testMux : Bool
  seqA : SeqRun
  seqB : SeqRun
  inj : List Inj
  /-- The injected request that a pair is converting. -/
  injA : Option Inj
  injB : Option Inj
  /-- A calibration of the spare runs. -/
  calRun : Bool
  /-- Calibrations since the slice was last calibrated. -/
  calAge : SMap Nat
  deriving DecidableEq, Repr

/-! ## Thermal and fans (spec/17) -/

/-- One sensor. -/
structure Sensor where
  t : Int
  kind : Nat
  testBad : Bool
  deriving DecidableEq, Repr

/-- One zone. -/
structure Zone where
  t : Int
  floor : Nat
  alarm : Bool
  deriving DecidableEq, Repr

/-- One fan, less its plain RW registers. -/
structure Fan where
  dutyEff : Nat
  stall : Bool
  rpm : Nat
  /-- The last edge intervals in µs, newest first, at most 4. -/
  edges : List Nat
  /-- STALL_MS has passed without an edge. -/
  silent : Bool
  /-- Updates left of the SPIN grace, in µs. -/
  spin : Nat
  deriving DecidableEq, Repr

/-- The THERM/FAN block. -/
structure Therm where
  sensors : SMap Sensor
  zones : SMap Zone
  fans : SMap Fan
  crit : Bool
  testRes : Nat
  testSens : BitVec 16
  deriving DecidableEq, Repr

/-! ## Memory protection and flash (spec/07, spec/08) -/

/-- Stored bits in error of an SRAM word, or poison (R158, R165). -/
inductive EccSt where
  | good
  | bits (n : Nat)
  | poisoned
  deriving DecidableEq, Repr

/-- A programmed entry of the repair map (R175): the row or the column of a section that a spare takes the place of. -/
structure Repair where
  sect : Nat
  col : Bool
  line : Nat
  /-- A field entry (R174); else one from the factory. -/
  field : Bool
  /-- Switched in by the last reset. -/
  live : Bool
  deriving DecidableEq, Repr

/-- The PROT block. -/
structure Prot where
  ceSram : Nat
  ceOne : Nat
  ceTwo : Nat
  /-- EV67 raised since the count was last cleared: bit 0 SRAM, 1 flash ONE, 2 flash TWO. -/
  ceDone : BitVec 3
  ue : Nat
  region : Nat
  ueAddr : Word
  exitFail : Nat
  flipFail : Nat
  pos : Nat
  lastS : Nat
  passUs : Nat
  fpos : Nat
  lastH : Nat
  fpassUs : Nat
  /-- EV70 raised in the running pass of SRAM, of flash. -/
  lateS : Bool
  lateH : Bool
  /-- The repair fuses that are programmed: at most 192 from the factory and 32 field entries (R175). -/
  fuses : List Repair
  /-- Words corrected in the running pass and in the one before (R174). -/
  fixed : SMap Bool
  fixedPrev : SMap Bool
  /-- A core-SRAM service has been restarted: service and ticks since (R171). -/
  restarts : SMap Nat
  deriving DecidableEq, Repr

/-- A flash word as stored: its data and the stored bits in error. `toward`: a collapse cut its program, and this is the
data that was being programmed (R186). -/
structure FWord where
  data : DWord
  bad : Nat
  toward : Option DWord
  deriving DecidableEq, Repr

/-- Table 8.4's states. -/
inductive FlashSt where
  | idle
  | prog
  | erasePulse
  | eraseGap
  | eraseSusp
  | suspProg
  deriving DecidableEq, Repr

/-- What a flash operation was asked for. -/
inductive Job where
  /-- A letterbox command, by its number. -/
  | cmd (run : Nat)
  /-- A sequence through a keeper FLASH window of port 0 or 1, or through FLASH_ACC (2). -/
  | window (p : Nat)
  /-- A sequence on the system path. -/
  | sys
  /-- The keeper-store record. -/
  | save
  /-- The wipe of an extent entry (512 × class + index). -/
  | wipe (entry : Nat)
  /-- The selector word of a swing. -/
  | swing
  /-- A ring sector of the erase journal (R202). -/
  | ring
  /-- The other half of the grown bad table (R204). -/
  | half
  /-- The sealed record of a tenant's key; without a key, its clearing (R79). -/
  | sealing (ten : Nat) (key : Option (BitVec 256))
  /-- Spare `idx` prepared for a logical sector of another job; with the program that failed, its word and data
  (R193, R194). -/
  | spare (idx logical : Nat) (word : Option (Nat × DWord)) (of : Job)
  deriving DecidableEq, Repr

/-- A flash operation still to do. Sectors and words are logical numbers; the remap table applies when it starts. -/
inductive FlashOp where
  /-- Erase a sector, with the REASON of Table 8.6. -/
  | erase (sect reason : Nat) (job : Job)
  /-- Program a word (256 × sector + word). -/
  | prog (word : Nat) (data : DWord) (job : Job)
  /-- The words of the failing sector are read and copied into the spare that has been erased for it (R194). -/
  | copy (job : Job)
  /-- The job's last operation has ended: a record of that slot and GEN is read back, and the job reports. Of a
  FLASH_PROG, `gen` is its COUNT as cut; of a spare, `slot` 1 says that a word was lost; of a sealed record, `slot` is
  its sector. -/
  | done (slot gen : Nat) (job : Job)
  deriving DecidableEq, Repr

/-- An erase in progress, the pulses applied to it, and the ring sector that holds its INTENT. -/
structure EraseRun where
  sect : Nat
  reason : Nat
  job : Job
  pulses : Nat
  ring : Nat
  deriving DecidableEq, Repr

/-- A step of a command sequence (R181). -/
structure SeqStep where
  sect : Nat
  /-- Steps made: 1, 2; 3 means code 0x70 is given; 4 its low word. -/
  n : Nat
  addr : Nat
  low : Word
  deriving DecidableEq, Repr

/-- A remap entry (R180). -/
inductive Remap where
  | free
  | mapped (logical : Nat) (grown : Bool)
  | retired
  deriving DecidableEq, Repr

/-- The flash array and its controller. -/
structure Flash where
  words : SMap FWord
  remap : SMap Remap
  suspect : SMap Bool
  st : FlashSt
  fail : Bool
  cause : Nat
  seqErr : Bool
  suspRej : Bool
  bor : Bool
  borSeen : Bool
  borCnt : Nat
  statMode : Bool
  pulses : Nat
  sector : Nat
  /-- Sequences under way on the window path and the system path. -/
  seqWin : Option SeqStep
  seqSys : Option SeqStep
  /-- Operations waiting, oldest first. -/
  queue : List FlashOp
  /-- Operations asked for during an entry: they join the queue when it ends (R265). -/
  wait : List FlashOp
  /-- The erases in progress, at most one of a wipe and one other, the one served longest ago first; the first is the
  one whose pulse runs. -/
  erases : List EraseRun
  /-- The program that runs. -/
  prog : Option FlashOp
  /-- Its first case is case 1 of R186: a stored bit is 0 where the codeword holds 1. -/
  progBad : Bool
  suspCnt : Nat
  suspUs : Nat
  resumeDue : Bool
  /-- A wipe's pulse was the last one made, or the two kinds of erase did not both wait (R64). -/
  lastWipe : Bool
  /-- Records (TYPE, SECTOR, AUX) that wait for the other half of the grown bad table (R204). -/
  badPend : List (Nat × Nat × Nat)
  /-- EV74 has been raised since reset for the count at POOL_WARN, and for a spare that was not there (R196). -/
  warned : Bool
  dry : Bool
  marginRes : Nat
  marginWords : Nat
  ring : Nat
  ringWord : Nat
  /-- Ring sectors that have failed and are skipped (R197). -/
  ringBad : BitVec 8
  half : Bool
  seq : Nat
  recSector : Nat
  recKind : Nat
  recPulses : Nat
  /-- FLASH_ACC's captured DATA, BUSY and ERR (R437). -/
  accData : Word
  accBusy : Bool
  accErr : Bool
  /-- The address FLASH_ACC reads, while the read waits. -/
  accAddr : Nat
  deriving DecidableEq, Repr

/-! ## The link (spec/10) -/

/-- What a transmitter sends. -/
inductive LinkItem where
  | frame (hseq : Nat) (bytes : List Byte)
  | ack (cls hseq : Nat)
  | nak (cls hseq reason : Nat)
  | credit (cls count : Nat)
  | tick (flags low lead : Nat)
  | dlyReq (id : Nat)
  | dlyRsp (id turn : Nat)
  | breakSet
  | sleepSet
  | wakeMsg (bits : BitVec 16)
  deriving DecidableEq, Repr

/-- Table 10.5. -/
inductive HopSt where
  | off
  | training
  | up
  | down
  deriving DecidableEq, Repr

/-- A frame sent and not acknowledged: its HSEQ, its transmissions, and whether it holds a relay buffer of the other
port. -/
structure Sent where
  hseq : Nat
  bytes : List Byte
  tx : Nat
  relay : Bool
  deriving DecidableEq, Repr

/-- One traffic class on one port: the receiving and the sending end of its hop. -/
structure LinkCls where
  expect : Nat
  hseq : Nat
  /-- CREDIT.COUNT received, frames sent, and buffers freed since the hop came UP. -/
  credit : Nat
  sent : Nat
  freed : Nat
  /-- Frames sent and not acknowledged, oldest first. -/
  unacked : List Sent
  /-- Frames that wait for credit, each with whether it holds a relay buffer of the other port. -/
  queue : List (Bool × List Byte)
  deriving DecidableEq, Repr

/-- One link port. -/
structure LinkPort where
  en : Bool
  st : HopSt
  rxLock : Bool
  gotCredit : Bool
  req : LinkCls
  rsp : LinkCls
  /-- Hop-delay measurements, newest first, at most 8. -/
  dly : List Nat
  dlyId : Nat
  /-- What the transmitter has sent, newest first. -/
  sent : List LinkItem
  deriving DecidableEq, Repr

/-- A link response buffer in use (R238). -/
structure RspBuf where
  ten : Nat
  /-- The request frame's header fields: FTAG, unicast, tagged. -/
  ftag : Nat
  unicast : Bool
  tagged : Bool
  /-- One response for each slot of the request. -/
  slots : List (Option (List Byte))
  /-- A slot was discarded before acceptance: never answered (R130). -/
  dead : Bool
  deriving DecidableEq, Repr

/-- The LINK block and the link frame area. -/
structure Link where
  up : LinkPort
  dn : LinkPort
  bound : Bool
  last : Nat
  segid : Nat
  tickLead : Nat
  tickLow : Nat
  lowErr : Nat
  late : Nat
  pholdCnt : Nat
  retries : Nat
  drops : Nat
  fcs : Nat
  code : Nat
  proto : Nat
  grpMiss : Nat
  /-- Local receive buffers in use, oldest frame first. -/
  loc : List (List Byte)
  /-- Request frames that hold a relay buffer of UP and wait for a local buffer. -/
  hold : List (List Byte)
  /-- Link response buffers in use, by number. -/
  bufs : SMap (Option RspBuf)
  /-- Which CQ slots came from the link: keyed by 32 × tenant + slot, the buffer and place in its frame. -/
  cqFrom : SMap (Option (Nat × Nat))
  /-- Wake messages to send on DN, oldest first. -/
  wakeRpt : List (BitVec 16)
  /-- The NOTICEs AWAKE owed, oldest first: the FTAG of a unicast WAKE frame, or none for a wake by message (R251). -/
  awake : List (Option Nat)
  deriving DecidableEq, Repr

/-! ## Self-tests, debug (spec/01, spec/21) -/

/-- A request that a self-test holds (R17). -/
inductive Request where
  /-- A write or a read of a register of config space by a tenant. -/
  | regWrite (ten addr : Nat) (v : Word) (be : BitVec 4)
  | regRead (ten addr : Nat)
  /-- The access that waits at a host port, and the oldest posted write of a port. -/
  | access (p : Nat)
  | posted (p : Nat)
  /-- An accepted command, by its number. -/
  | run (id : Nat)
  /-- A tenant's turn that has met a CQ slot or the range of a register commit. -/
  | turn (ten : Nat)
  /-- The response of the tenant's oldest finished command. -/
  | response (ten : Nat)
  /-- The oldest frame of the local link buffers. -/
  | frame
  /-- A start of sequencer A (false) or B (R374). -/
  | start (b : Bool)
  /-- A column step of a key matrix (R351). -/
  | column (kp : Bool) (col : Nat) (rows : BitVec 16)
  /-- A completed flash sequence: on the system path or not, its sector, and its command (code, place, data). -/
  | sequence (sys : Bool) (sect : Nat) (code place : Nat) (data : DWord)
  deriving DecidableEq, Repr

/-- The TAP instruction in force (Table 21.1). -/
inductive TapIr where
  | extest
  | samplePreload
  | idcode
  | highz
  | clamp
  | flashAcc
  | bypass
  deriving DecidableEq, Repr

/-- The TAP, the peephole and the debug lock's challenge. -/
structure Dbg where
  ir : TapIr
  bsr : BitVec 474
  chal : Option (BitVec 128)
  rdPos : Nat
  wrPos : Nat
  resp : List Byte
  /-- TIME_SEC × 32,768 + TIME_SUB of the last failure (R441). -/
  failAt : Option Nat
  peepEn : Bool
  peepGroup : Nat
  deriving DecidableEq, Repr

/-- Who an occurrence goes to (R59, R398): the owner of its grant entry, a tenant, or the owner of a resource, of a
flash sector or of an SRAM address. -/
inductive Dest where
  | granted
  | tenant (n : Nat)
  | res (cls idx : Nat)
  | sector (n : Nat)
  | addr (a : Nat)
  deriving DecidableEq, Repr

/-- An occurrence held by its source until PD_FAB is back or boot completes (R403), for the owner it was resolved to
or, before boot completes, for what will resolve it. -/
structure Held where
  ev : Nat
  dest : Dest
  count : Nat
  tick : Nat
  data : Word
  deriving DecidableEq, Repr

/-- The snapshot that a keeper-store record holds (R149). -/
structure KSnap where
  doors : SMap Bool
  fires : SMap Nat
  pagesA : BitVec 32
  pagesB : BitVec 32
  hpA : Bool × Nat
  hpB : Bool × Nat
  grants : SMap Grant
  quotas : SMap Nat
  wakeEn : BitVec 5
  secCfg : SMap Word
  secHb : SMap Nat
  secAuth : SMap Bool
  deriving DecidableEq, Repr

/-- What the fuses and the mask of the part fix for good: stepping A0 or B1, and SYS_FUSE.DBG_FUSE and KEYHASH (R3, R8,
R209, R439). -/
structure Part where
  a0 : Bool
  dbgFuse : Bool
  keyHash : Bool
  deriving DecidableEq, Repr

/-- The whole part. -/
structure State where
  /-- The commands that wait, first in first out. -/
  pending : List Instr
  /-- The state of every door (Table 3.4). -/
  doors : SMap DoorSt
  tens : SMap Tenant
  runs : List Run
  /-- The number of the next command taken as new. The model's own. -/
  nextRun : Nat
  portA : HPort
  portB : HPort
  tick : Tick
  grants : Grants
  sys : Sys
  pwr : Pwr
  seq : Seq
  disp : Disp
  lamps : SMap Lamp
  engines : SMap Engine
  keys : Keys
  adc : Adc
  therm : Therm
  prot : Prot
  flash : Flash
  link : Link
  tests : SMap (Option Test)
  /-- The requests that self-tests hold, in the order of their arrival (R18). -/
  waiting : List Request
  dbg : Dbg
  held : List Held
  /-- Occurrences raised once Open is reached or boot has completed, placed after the sweep of the held ones (R403). -/
  after : List Held
  /-- The staged key of SEC_KEY0 to SEC_KEY7 and SEC_TENANT (Table 3.13). -/
  keyStage : BitVec 256
  secTen : Nat
  /-- The plain RW registers of config space, by address. -/
  regs : SMap Word
  /-- SRAM bytes by internal address (Table 1.2). -/
  mem : List Host.Cell
  /-- Stored-bit errors of SRAM words, by word address; of check words, by 2^32 + 8 × (192 × bank + cell). -/
  ecc : SMap EccSt
  /-- The check arrays, by 192 × bank + cell (R157). -/
  chk : SMap Word
  /-- The keeper-store snapshots that the records hold, by GEN. -/
  ksnap : SMap (Option KSnap)
  /-- The sealed records that the sealed-key sectors hold, each with its sector: 542 (false) or 543 (R79). -/
  sealed : SMap (Option (Bool × BitVec 256))
  /-- The value the last read command returned. The model's own. -/
  rdata : Word
  /-- What the free values of Config are applied to. The model's own. -/
  free : Nat
  part : Part
  deriving DecidableEq, Repr

/-! ## The machine right after reset: every field at the value the spec states -/

/-- The doors after reset: the keeper's OPEN and every other SHUT (R57). -/
def doorReset (t : Nat) : DoorSt := if t = 0 then .opened else .shut

/-- A tenant after reset: quota 16 or 4 (Table 2.8), thresholds 1
(Table 6.3), the limits of Table 3.13. -/
def Tenant.reset (t : Nat) : Tenant where
  cause := 0
  doorPend := none
  chkCnt := 0
  authCnt := 0
  replay := 0
  leak := 0
  doorCfg := 0x00C80408#32
  hbTicks := 0
  hbLeft := 0
  authReq := false
  key := none
  keyNew := none
  acntH := 0
  acntMap := 0
  acntLost := true
  rspAcnt := (0, 0)
  ctrl := 0x00000101#32
  clamps := 0
  berr := 0
  berrAddr := 0
  tickHi := 0
  quotaSet := if t = 0 then 16 else 4
  quota := if t = 0 then 16 else 4
  spent := 0
  deferred := false
  deferNow := false
  started := false
  ended := false
  cqHead := 0
  cqTail := 0
  rqHead := 0
  rqTail := 0
  exitBad := 0
  eqHead := 0
  eqTail := 0
  pause := false
  irqClamp := false
  irqWin := false
  irqEn := 0
  evMask := 0
  winType := []
  winBase := []
  staged := []
  winCheck := 0
  winState := 0
  winRej := false
  winFull := false
  winResult := 0
  winReq := none
  wakeHold := false
  wakeTicks := 0
  wakeLapse := false
  gv := 0
  timeSec := 0
  scratch := 0
  heartbeat := 0
  pend := []
  hist := []

/-- A port after reset: asynchronous until a strap is sampled (R81), guard 64 µs, only page 0 (Tables 4.8, 4.9), HA_RDY
low and HA_BERR_N high (R83). -/
def HPort.reset : HPort where
  sync := false
  clkOk := false
  postEn := false
  guard := 64
  pages := 1
  acc := none
  rdy := false
  berrN := true
  dOut := none
  ended := none
  post := []
  fence := []

/-- The TICK block after reset (Tables 2.7 and 2.8). -/
def Tick.reset : Tick where
  ctrl := 0
  srcF := 0
  dsyncF := false
  period := 5000
  periodF := 5000
  st := .holdover
  slewDs := false
  slewFirst := 0
  slewExp := 0
  link := ⟨0, 0, false⟩
  dsync := ⟨0, 0, false⟩
  numValid := false
  loadRej := false
  holdTicks := 0
  num := 0
  hiLatch := 0
  setLo := 0
  load := none
  loadLink := false
  phase := 0
  dly := 0
  overrun := 0
  qIdx := 0
  defer := 0
  slot := 0
  first := 1
  capLeft := Config.capacity
  flipInd := false
  flipWait := false
  dsHigh := false
  dsMark := 0
  dsWidth := 0
  later := none
  laterDs := none
  adj39 := 0
  tickOut := 0
  ticknum := none
  lowWait := 0
  fscrub := 0

/-- The grant table after reset: every resource the keeper's (R58, Tables 3.9 to 3.11). -/
def Grants.reset : Grants where
  idx := 0
  cls := 0
  ainc := false
  err := false
  table := []
  staged := []
  wipe := []

/-- The keeper system registers after a power-up: AO registers at their reset values, SYS_RESET_CAUSE.POWER (R259). -/
def Sys.reset : Sys where
  tenSel := 0
  doorSel := 0
  linkAddr := 0
  group := 0
  resetCause := 1
  straps := 0
  bootDone := false
  leaf := false
  fallback := false
  sweep := false
  selGen := 0
  selLeaf := false
  leafSt := 0
  fwVer := 0
  halted := false
  swingDue := false
  swingBad := false
  scrubSram := true
  scrubFlash := true
  passes := 0
  locked := true
  dbgFail := false
  rtcSec := 0
  rtcSub := 0
  rtcAcc := 0
  rtcStage := 0
  rtcLoad := none
  rtcAlarm := 0
  alarmDone := true
  rtcTrim := 0
  rtcLatch := 0
  aoIdx := 0
  aoInc := false
  ao := []
  kstSt := 0
  kstResult := 0
  kstGen := 0
  bootCnt := 0
  clkOk := 0
  resetN := true
  padsHigh := 0
  resetPend := false

/-- The power controller after reset: Open, every domain on and released, every shutter closed (Table 6.6). -/
def Pwr.reset : Pwr where
  st := .opened
  phase := .idle
  rej := false
  result := 0
  refuser := 0
  reqState := 0
  force := false
  ajarPend := false
  queries := 0
  wakeSrc := 0
  replayed := false
  wakeLatch := 0
  wakeEn := 0x1F
  taken := 0
  domOn := 0xFFFF
  domReady := 0xFFFF
  stage := []
  closed := 0x3F
  shutRej := false
  autoHA := true
  autoHB := true
  ans := 0
  entryUs := 0
  exitUs := 0
  left := 0
  lvCount := 0
  lvEntry := 0
  lvOnUs := 0
  lvCons := []
  lvRes := []
  shutSec := 0
  unwatched := 0
  vao := true
  vcoin := true
  pathHold := false
  lvEv := none
  wakeLow := false
  lvStage := 0
  live := 0
  enHeld := 0
  fanHeld := 0

/-- The sequencer after reset: every enable low, IDLE, UP_DONE 0 (R295). -/
def Seq.reset : Seq where
  st := 0
  upDone := false
  step := 0
  rej := false
  result := 0
  en := 0
  pg := 0
  fault := 0
  man := 0
  wait := 0
  manWait := 0
  dlyRun := false
  reread := false
  batV := 0
  batI := 0
  batT := 0
  batAcc := 0
  batOut := 0
  batCnt := []
  invalid := 0
  stale := 0
  gap := false
  gapDue := false
  coinMv := 0
  coinBusy := false
  coinSkip := false
  coinLow := false

/-- A cell after reset: FRONT 0 (R305), not armed, not dark (Table 13.6). -/
def Cell.reset : Cell where
  arm := none
  dark := false
  why := 0
  front := false
  verdict := none
  bad := false

/-- A display port after reset (Table 13.6). -/
def DPort.reset : DPort where
  unit := 0
  row := 0
  fault := 0
  active := false
  mis := 0
  frame := false
  u := 0
  pre := 0
  prev := (false, 0)
  blanked := false
  test := false

/-- The DISP block after reset (Table 13.7). -/
def Disp.reset : Disp where
  cells := []
  ports := []
  due := none
  flipTick := 0
  flipped := 0
  darkened := 0

/-- A lamp channel after reset: OFF, factors 4,096, PF 0 (Table 14.8, R332). -/
def Lamp.reset : Lamp where
  own := 0
  target := 0
  out := 0
  fade := none
  pf := 0
  pfFade := none
  ieff := 0
  c := 4096
  d := 4096
  derating := false
  fault := 0
  pins := 0
  test := false
  iCode := 0
  vstr := 0
  ledk := 0
  duty := 0
  ePrev := 0
  owed := 0
  skip := false
  tOn := 0
  onN := 0
  perDone := 0
  ocCnt := 0
  pinCnt := 0
  openCnt := 0
  shortCnt := 0
  ledkCnt := 0
  allMax := true
  anyPer := false

/-- A lane after reset. -/
def Lane.reset : Lane := ⟨0, 0, false⟩

/-- An engine after reset: STOPPED at step 0, lanes 0 (Table 14.9). -/
def Engine.reset : Engine where
  start := 0
  st := 0
  pc := 0
  lanes := []
  lc := 0
  left := 0
  quick := 0

/-- A key after reset: released. -/
def Key.reset : Key := ⟨false, 0, false, 0, 0, 0, false, 0⟩

/-- The KEY block after reset: the shelf matrix idle (Table 15.3). -/
def Keys.reset : Keys where
  keys := []
  raw := 0
  active := false
  quiet := 0
  ghosts := 0
  testRes := 0
  testKp := false
  testHeld := false
  testPins := 0
  wakeScan := false
  cyc := 0

/-- A converter channel after reset. -/
def Chan.reset : Chan := ⟨0, 0, false, false, false, 17, false⟩

/-- A sequence that does not run. -/
def SeqRun.reset : SeqRun := ⟨[], none, 0, 0, false, (0, false)⟩

/-- The ADC block after reset: slices 0 to 3 in lanes 0 to 3, slice 4 the spare, reference not ready (Table 16.8). -/
def Adc.reset : Adc where
  chans := []
  resB := []
  refSel := 0
  refRdy := false
  refBad := false
  calAll := false
  calPass := none
  refWait := false
  vref := 2500
  due := none
  spare := 4
  lanes := []
  retired := 0
  deep := false
  skips := 0
  testRes := 0
  testSlices := 0
  testMux := false
  seqA := SeqRun.reset
  seqB := SeqRun.reset
  inj := []
  injA := none
  injB := none
  calRun := false
  calAge := []

/-- A sensor after reset: −40.0 °C, not faulty (Table 17.3). -/
def Sensor.reset : Sensor := ⟨-400, 0, false⟩

/-- A zone after reset (Table 17.3). -/
def Zone.reset : Zone := ⟨-400, 0, false⟩

/-- A fan after reset (Table 17.4). -/
def Fan.reset : Fan := ⟨0, false, 0, [], true, 0⟩

/-- The THERM/FAN block after reset. -/
def Therm.reset : Therm := ⟨[], [], [], false, 0, 0⟩

/-- The PROT block after reset (Table 7.5). -/
def Prot.reset : Prot where
  ceSram := 0
  ceOne := 0
  ceTwo := 0
  ceDone := 0
  ue := 0
  region := 0
  ueAddr := 0
  exitFail := 0
  flipFail := 0
  pos := 0
  lastS := 0
  passUs := 0
  fpos := 0
  lastH := 0
  fpassUs := 0
  lateS := false
  lateH := false
  fuses := []
  fixed := []
  fixedPrev := []
  restarts := []

/-- A flash word that nothing has written: all ones (R159). -/
def FWord.erased : FWord := ⟨BitVec.allOnes 64, 0, none⟩

/-- The flash controller after reset: IDLE, nothing under way (Table 8.9), over an erased array. -/
def Flash.reset : Flash where
  words := []
  remap := []
  suspect := []
  st := .idle
  fail := false
  cause := 0
  seqErr := false
  suspRej := false
  bor := false
  borSeen := false
  borCnt := 0
  statMode := false
  pulses := 0
  sector := 0
  seqWin := none
  seqSys := none
  queue := []
  wait := []
  erases := []
  prog := none
  progBad := false
  suspCnt := 0
  suspUs := 0
  resumeDue := false
  lastWipe := true
  badPend := []
  warned := false
  dry := false
  marginRes := 0
  marginWords := 0
  ring := 0
  ringWord := 0
  ringBad := 0
  half := false
  seq := 0
  recSector := 0
  recKind := 0
  recPulses := 0
  accData := 0
  accBusy := false
  accErr := false
  accAddr := 0

/-- One class of a hop that has just come UP. -/
def LinkCls.reset : LinkCls := ⟨0, 0, 0, 0, 0, [], []⟩

/-- A link port after reset: enabled, OFF (Table 10.12). -/
def LinkPort.reset : LinkPort := ⟨true, .off, false, false, LinkCls.reset, LinkCls.reset, [], 0, []⟩

/-- The LINK block after reset (Table 10.12). -/
def Link.reset : Link where
  up := LinkPort.reset
  dn := LinkPort.reset
  bound := false
  last := 0
  segid := 0
  tickLead := 0
  tickLow := 0
  lowErr := 0
  late := 0
  pholdCnt := 0
  retries := 0
  drops := 0
  fcs := 0
  code := 0
  proto := 0
  grpMiss := 0
  loc := []
  hold := []
  bufs := []
  cqFrom := []
  wakeRpt := []
  awake := []

/-- The TAP in Test-Logic-Reset with IDCODE (R432), no challenge, peephole off (Table 21.4). -/
def Dbg.reset : Dbg := ⟨.idcode, 0, none, 0, 0, [], none, false, 0⟩

/-- A part of stepping B1 (R3, R209, R439). -/
def Part.b1 : Part := ⟨false, true, true⟩

/-- The machine right after reset: a power-up's reset, before RESET_RELEASE runs the boot of Table 9.5. Every register
holds the value of its table, memory lists nothing, and no command waits. The part is a B1 (log entry 1). -/
def State.reset : State where
  pending := []
  doors := []
  tens := []
  runs := []
  nextRun := 0
  portA := HPort.reset
  portB := HPort.reset
  tick := Tick.reset
  grants := Grants.reset
  sys := Sys.reset
  pwr := Pwr.reset
  seq := Seq.reset
  disp := Disp.reset
  lamps := []
  engines := []
  keys := Keys.reset
  adc := Adc.reset
  therm := Therm.reset
  prot := Prot.reset
  flash := Flash.reset
  link := Link.reset
  tests := []
  waiting := []
  dbg := Dbg.reset
  held := []
  after := []
  keyStage := 0
  secTen := 0
  regs := []
  mem := []
  ecc := []
  chk := []
  ksnap := []
  sealed := []
  rdata := 0
  free := 0
  part := Part.b1

end Sys2Proof.Machine
end

