-- ==== Sys2Proof/Machine/Ops.lean ====
section
/-! DEFINITION. The named operations over the state that every block shares: a member of each numbered family, bytes
of memory, the address map, ownership, the power of a domain, and the CRC-32C. -/

namespace Sys2Proof.Machine

/-! ## Members of the numbered families -/

/-- The state of a door. -/
def State.door (s : State) (t : Nat) : DoorSt := SMap.get doorReset s.doors t

/-- A door set to a state. The keeper's door is always open (R56). -/
def State.setDoor (s : State) (t : Nat) (d : DoorSt) : State :=
  if t = 0 then s else { s with doors := SMap.set doorReset s.doors t d }

/-- A tenant. -/
def State.ten (s : State) (t : Nat) : Tenant := SMap.get Tenant.reset s.tens t

/-- A tenant changed. -/
def State.updTen (s : State) (t : Nat) (f : Tenant → Tenant) : State :=
  { s with tens := SMap.upd Tenant.reset s.tens t f }

/-- A host port: 0 is A, anything else B. -/
def State.port (s : State) (p : Nat) : HPort := if p = 0 then s.portA else s.portB

/-- A host port changed. -/
def State.updPort (s : State) (p : Nat) (f : HPort → HPort) : State :=
  if p = 0 then { s with portA := f s.portA } else { s with portB := f s.portB }

/-- A label cell. -/
def State.cell (s : State) (c : Nat) : Cell := SMap.get (fun _ => Cell.reset) s.disp.cells c

/-- A label cell changed. -/
def State.updCell (s : State) (c : Nat) (f : Cell → Cell) : State :=
  { s with disp := { s.disp with cells := SMap.upd (fun _ => Cell.reset) s.disp.cells c f } }

/-- A display port. -/
def State.dport (s : State) (p : Nat) : DPort := SMap.get (fun _ => DPort.reset) s.disp.ports p

/-- A display port changed. -/
def State.updDport (s : State) (p : Nat) (f : DPort → DPort) : State :=
  { s with disp := { s.disp with ports := SMap.upd (fun _ => DPort.reset) s.disp.ports p f } }

/-- A lamp channel. -/
def State.lamp (s : State) (n : Nat) : Lamp := SMap.get (fun _ => Lamp.reset) s.lamps n

/-- A lamp channel changed. -/
def State.updLamp (s : State) (n : Nat) (f : Lamp → Lamp) : State :=
  { s with lamps := SMap.upd (fun _ => Lamp.reset) s.lamps n f }

/-- A pattern engine. -/
def State.engine (s : State) (k : Nat) : Engine := SMap.get (fun _ => Engine.reset) s.engines k

/-- A pattern engine changed. -/
def State.updEngine (s : State) (k : Nat) (f : Engine → Engine) : State :=
  { s with engines := SMap.upd (fun _ => Engine.reset) s.engines k f }

/-- A key. -/
def State.key (s : State) (k : Nat) : Key := SMap.get (fun _ => Key.reset) s.keys.keys k

/-- A key changed. -/
def State.updKey (s : State) (k : Nat) (f : Key → Key) : State :=
  { s with keys := { s.keys with keys := SMap.upd (fun _ => Key.reset) s.keys.keys k f } }

/-- A converter channel. -/
def State.chan (s : State) (n : Nat) : Chan := SMap.get (fun _ => Chan.reset) s.adc.chans n

/-- A converter channel changed. -/
def State.updChan (s : State) (n : Nat) (f : Chan → Chan) : State :=
  { s with adc := { s.adc with chans := SMap.upd (fun _ => Chan.reset) s.adc.chans n f } }

/-- A sensor. -/
def State.sensor (s : State) (i : Nat) : Sensor := SMap.get (fun _ => Sensor.reset) s.therm.sensors i

/-- A sensor changed. -/
def State.updSensor (s : State) (i : Nat) (f : Sensor → Sensor) : State :=
  { s with therm := { s.therm with sensors := SMap.upd (fun _ => Sensor.reset) s.therm.sensors i f } }

/-- A zone. -/
def State.zone (s : State) (k : Nat) : Zone := SMap.get (fun _ => Zone.reset) s.therm.zones k

/-- A zone changed. -/
def State.updZone (s : State) (k : Nat) (f : Zone → Zone) : State :=
  { s with therm := { s.therm with zones := SMap.upd (fun _ => Zone.reset) s.therm.zones k f } }

/-- A fan. -/
def State.fan (s : State) (n : Nat) : Fan := SMap.get (fun _ => Fan.reset) s.therm.fans n

/-- A fan changed. -/
def State.updFan (s : State) (n : Nat) (f : Fan → Fan) : State :=
  { s with therm := { s.therm with fans := SMap.upd (fun _ => Fan.reset) s.therm.fans n f } }

/-- A flash word as stored. -/
def State.fword (s : State) (w : Nat) : FWord := SMap.get (fun _ => FWord.erased) s.flash.words w

/-- A flash word stored. -/
def State.setFword (s : State) (w : Nat) (v : FWord) : State :=
  { s with flash := { s.flash with words := SMap.set (fun _ => FWord.erased) s.flash.words w v } }

/-- A function applied for each number of a list, in its order. -/
def State.each (s : State) (ns : List Nat) (f : State → Nat → State) : State := ns.foldl f s

/-- The next free value: the counter that the free values of Config are applied to moves on. -/
def State.drawn (s : State) : State := { s with free := s.free + 1 }

/-- One of several equal candidates, which of them is open (log entry 118). -/
def oneOf : List Nat → Nat
  | [x] => x
  | xs => xs.getD (Config.tie xs % xs.length) 0

/-! ## Memory -/

/-- An SRAM byte that nothing has written since the sweep reads zero (R160, R161). -/
def memDefault (_ : Nat) : Byte := 0

/-- The canonical form of memory: addresses strictly rising, no listed byte equal to what an unlisted one reads as. -/
def Memory.wf (m : List Host.Cell) : Bool := SMap.wf memDefault m

/-- A byte of SRAM. -/
def State.rdByte (s : State) (a : Nat) : Byte := SMap.get memDefault s.mem a

/-- A byte of SRAM written. -/
def State.wrByte (s : State) (a : Nat) (b : Byte) : State := { s with mem := SMap.set memDefault s.mem a b }

/-- `k` bytes of SRAM from an address. -/
def State.rdBytes (s : State) (a k : Nat) : List Byte := (List.range k).map fun i => s.rdByte (a + i)

/-- Bytes written to SRAM in ascending address order. -/
def State.wrBytes (s : State) (a : Nat) : List Byte → State
  | [] => s
  | b :: bs => (s.wrByte a b).wrBytes (a + 1) bs

/-- A 32-bit word of SRAM, little-endian. -/
def State.rd32 (s : State) (a : Nat) : Word := wordOf (leNat (s.rdBytes a 4))

/-- The bytes of a 32-bit word whose enables are high, written; bit i of `be` enables byte i. -/
def State.wr32 (s : State) (a : Nat) (v : Word) (be : BitVec 4) : State :=
  s.each (List.range 4) fun s i => if be.getLsbD i then s.wrByte (a + i) (BitVec.ofNat 8 (fieldOf v.toNat (8 * i) 8)) else s

/-- A word with some of its bytes replaced; bit i of `be` enables byte i. -/
def mergeBytes (old new : Word) (be : BitVec 4) : Word :=
  wordOf (leNat ((List.range 4).map fun i =>
    BitVec.ofNat 8 (fieldOf (if be.getLsbD i then new else old).toNat (8 * i) 8)))

/-- SRAM from `lo` up to but not including `hi` written to zero with a valid check (R160, R168). -/
def State.zeroMem (s : State) (lo hi : Nat) : State :=
  { s with mem := SMap.clear s.mem lo hi, ecc := SMap.clear s.ecc lo hi }

/-- Keys of `ecc` for the check word of a cell in a bank (R157: alone in one codeword). -/
def chkKey (bank c : Nat) : Nat := 2 ^ 32 + 8 * (192 * bank + c)

/-- The ECC state of the word at a key. -/
def State.eccOf (s : State) (k : Nat) : EccSt := SMap.get (fun _ => EccSt.good) s.ecc k

/-- The ECC state of a word set. -/
def State.setEcc (s : State) (k : Nat) (e : EccSt) : State :=
  { s with ecc := SMap.set (fun _ => EccSt.good) s.ecc k e }

/-- Bytes written in whole 64-bit words, which clears any error in them (R168). -/
def State.wrWhole (s : State) (a : Nat) (bs : List Byte) : State :=
  (s.wrBytes a bs).each (List.range ((bs.length + 7) / 8)) fun s i => s.setEcc ((a / 8 + i) * 8) .good

/-- The CRC-32C of the 1,024 zero bytes of a cleared cell. -/
def zeroCellCrc : Word := 0xEEAEDE7C#32

/-- The check word of a cell in a bank. -/
def State.chkOf (s : State) (bank c : Nat) : Word := SMap.get (fun _ => zeroCellCrc) s.chk (192 * bank + c)

/-- A check word made (R157). -/
def State.setChk (s : State) (bank c : Nat) (v : Word) : State :=
  { s with chk := SMap.set (fun _ => zeroCellCrc) s.chk (192 * bank + c) v }.setEcc (chkKey bank c) .good

/-! ## CRC-32C (R155) -/

/-- One bit of the reflected CRC-32C. -/
def crcBit (c : Word) : Word := if c.getLsbD 0 then (c >>> 1) ^^^ 0x82F63B78#32 else c >>> 1

/-- One byte of the reflected CRC-32C. -/
def crcByte (c : Word) (b : Byte) : Word :=
  crcBit (crcBit (crcBit (crcBit (crcBit (crcBit (crcBit (crcBit (c ^^^ b.setWidth 32))))))))

/-- The CRC-32C of bytes in ascending order (R155). -/
def crc32c (bs : List Byte) : Word := bs.foldl crcByte 0xFFFFFFFF#32 ^^^ 0xFFFFFFFF#32

/-- Bytes with their CRC-32C behind them, little-endian. -/
def withCrc (bs : List Byte) : List Byte := bs ++ leBytes 4 (crc32c bs).toNat

/-! ## The address map (Table 1.2) -/

def coreBase : Nat := 0x10000000
def lbxBase : Nat := 0x20000000
def bankBase (b : Nat) : Nat := 0x21000000 + 0x30000 * b
def scratchBase : Nat := 0x22000000

/-- The regions of SRAM in ascending order: base, size. -/
def sramRegions : List (Nat × Nat) :=
  [(coreBase, 0x100000), (lbxBase, 0x40000), (bankBase 0, 0x30000), (bankBase 1, 0x30000), (scratchBase, 0x60000)]

/-- The number of an SRAM address's region (PROT_UE.REGION), if it lies in SRAM. -/
def sramRegion (a : Nat) : Option Nat :=
  sramRegions.findIdx? fun r => r.1 ≤ a && a < r.1 + r.2

/-- The domain that holds an SRAM address (Table 1.2). -/
def sramDomain (a : Nat) : Nat :=
  match sramRegion a with
  | some 0 => 0
  | some 2 => 6
  | some 3 => 7
  | _ => 1

/-- The address of word `i` of an SRAM pass, 0 to 262,143 (R162). -/
def sramWordAddr (i : Nat) : Nat :=
  if i < 131072 then coreBase + 8 * i
  else if i < 163840 then lbxBase + 8 * (i - 131072)
  else if i < 188416 then bankBase 0 + 8 * (i - 163840)
  else if i < 212992 then bankBase 1 + 8 * (i - 188416)
  else scratchBase + 8 * (i - 212992)

/-- The first address of an SRAM section (R445). -/
def sectionBase (n : Nat) : Nat := sramWordAddr (2048 * n)

/-- The letterbox memory of a tenant (R106). -/
def cqAddr (t k : Nat) : Nat := lbxBase + t * 0x1200 + 64 * (k % 32)
def rqAddr (t k : Nat) : Nat := lbxBase + t * 0x1200 + 0x800 + 64 * (k % 32)
def eqAddr (t k : Nat) : Nat := lbxBase + t * 0x1200 + 0x1000 + 8 * (k % 64)

/-! ## Ownership (R58, R59, R398) -/

/-- The entries of a class (Table 3.2). -/
def classSize : Nat → Nat
  | 0 => 192 | 1 => 16 | 2 => 4 | 3 => 320 | 4 => 32 | 5 => 8 | 6 => 24 | 7 => 256 | 8 => 64 | 9 => 64 | _ => 0

/-- A grant entry that nothing has changed: the keeper's (Tables 3.10 and 3.11). -/
def grantReset (k : Nat) : Grant := ⟨0, if k / 512 = 8 then 800 else 0, 0⟩

/-- The grant entry in effect. -/
def State.grant (s : State) (cls i : Nat) : Grant := SMap.get grantReset s.grants.table (512 * cls + i)

/-- Events that are routed (Table 18.1). -/
def evRouted (e : Nat) : Bool :=
  e == 4 || (32 ≤ e && e ≤ 66) || e == 71 || e == 72 || e == 76 || (96 ≤ e && e ≤ 143 && e % 4 < 2) ||
  (144 ≤ e && e ≤ 180) || (184 ≤ e && e ≤ 188) || (200 ≤ e && e ≤ 231) || e == 234 || e == 236 ||
  (240 ≤ e && e ≤ 247)

/-- Events that never occur (Table 18.1). -/
def evNever (e : Nat) : Bool :=
  (12 ≤ e && e ≤ 15) || (24 ≤ e && e ≤ 31) || e == 78 || e == 79 || (85 ≤ e && e ≤ 95) || (181 ≤ e && e ≤ 183) ||
  (190 ≤ e && e ≤ 199) || e == 239 || e == 251

/-- The owner of a resource of classes 0x0 to 0x6, or of a granted event. Rails are the keeper's (R58). -/
def State.owner (s : State) (cls i : Nat) : Nat := if cls = 6 then 0 else (s.grant cls i).owner

/-- The valid extent entry that holds a sector or granule (R62: COUNT above 0). -/
def State.extentOf (s : State) (cls n : Nat) : Option Nat :=
  (List.range 64).find? fun i =>
    let g := s.grant cls i
    decide (g.base ≤ n ∧ n < g.base + g.count)

/-- The owner of what lies in no extent or in one (R58). -/
def State.extentOwner (s : State) (cls n : Nat) : Nat :=
  match s.extentOf cls n with
  | some i => (s.grant cls i).owner
  | none => 0

/-- The owner of a flash sector (R58, R398): extents, settings areas, the keeper. -/
def State.sectorOwner (s : State) (n : Nat) : Nat :=
  if 800 ≤ n ∧ n < 4032 then s.extentOwner 8 n
  else if 544 ≤ n ∧ n < 800 then (n - 544) / 8
  else 0

/-- The owner of an SRAM address (R165). -/
def State.addrOwner (s : State) (a : Nat) : Nat :=
  match sramRegion a with
  | some 1 => if a - lbxBase < 32 * 0x1200 then (a - lbxBase) / 0x1200 else 0
  | some 2 => s.owner 0 ((a - bankBase 0) / 1024)
  | some 3 => s.owner 0 ((a - bankBase 1) / 1024)
  | some 4 => s.extentOwner 9 ((a - scratchBase) / 2048)
  | _ => 0

/-- The tenant that an occurrence goes to (R59, R398). -/
def State.resolve (s : State) (e : Nat) : Dest → Nat
  | .granted => s.owner 7 e
  | .tenant n => n
  | .res cls i => s.owner cls i
  | .sector n => s.sectorOwner n
  | .addr a => s.addrOwner a

/-- A sector or granule of an extent entry whose wipe is under way (R64). -/
def State.wiping (s : State) (cls i : Nat) : Bool := s.grants.wipe.any fun q => q.2 == 512 * cls + i

/-- A sector that waits to be wiped. -/
def State.sectorWiping (s : State) (n : Nat) : Bool :=
  s.grants.wipe.any (fun q => q.1 == n) ||
  match s.extentOf 8 n with
  | some i => s.wiping 8 i
  | none => false

/-! ## Power of the domains (Table 6.6) -/

/-- A domain is on and its logic released. -/
def State.up (s : State) (d : Nat) : Bool := s.pwr.domOn.getLsbD d && s.pwr.domReady.getLsbD d

/-- The domain of a config block (Table 1.9); 16 is AO, which is never off. -/
def blockDomain : Nat → Nat
  | 0 => 1 | 1 => 1 | 2 => 4 | 3 => 5 | 4 => 1 | 5 => 16 | 6 => 13 | 7 => 8 | 8 => 9 | 9 => 11 | 10 => 10 | 11 => 12
  | 12 => 15 | _ => 14

/-- A config block whose domain is on (R30). -/
def State.blockOn (s : State) (b : Nat) : Bool := blockDomain b == 16 || s.up (blockDomain b)

/-- The bank whose shutter is closed (SYS_SHUTTER_STATUS: 0 HA, 1 HB, 2 DP, 3 LC, 4 KEY, 5 GEN). -/
def State.shut (s : State) (bank : Nat) : Bool := s.pwr.closed.getLsbD bank

/-- The pads of a domain in bank GEN are held (R274): 1 PD_FAB, 12 PD_THRM, 13 PD_SEQ, 15 PD_DBG. -/
def State.genHeld (s : State) (d : Nat) : Bool := s.shut 5 && !s.pwr.live.getLsbD d

/-- PG_ID[15:0] (R8). -/
def Part.step (p : Part) : Nat := if p.a0 then 0x00A0 else 0x00B1

/-! ## Time -/

/-- The tick number as a Nat. -/
def State.now (s : State) : Nat := s.tick.num.toNat

/-- µs of the period in force (R34). -/
def State.periodUs (s : State) : Nat := s.tick.periodF

end Sys2Proof.Machine
end

