-- ==== Sys2Proof/Machine/Regs.lean ====
section
/-! DEFINITION. The plain RW registers of config space: their fields, reset values and clamp ranges, as the register
tables give them, and one function that writes such a register (R6, R7, R25, R26). -/

namespace Sys2Proof.Machine

/-- A writable field: `w` bits at bit `lo`, two's complement when `sgn`, clamped to `mn` to `mx`. -/
structure Fld where
  lo : Nat
  w : Nat
  sgn : Bool
  mn : Int
  mx : Int

/-- An unsigned field with a clamp range. -/
def uf (lo w mn mx : Nat) : Fld := ⟨lo, w, false, mn, mx⟩
/-- An unsigned field that every value is legal in. -/
def pf (lo w : Nat) : Fld := ⟨lo, w, false, 0, 2 ^ w - 1⟩
/-- A two's complement field with a clamp range. -/
def sf (lo w : Nat) (mn mx : Int) : Fld := ⟨lo, w, true, mn, mx⟩

/-- The number a field holds in a word. -/
def Fld.get (f : Fld) (v : Word) : Int := if f.sgn then signedOf f.w (v.fld f.lo f.w) else (v.fld f.lo f.w : Int)

/-- A number put into a field, as the word's part. -/
def Fld.put (f : Fld) (i : Int) : Nat := twosOf f.w i * 2 ^ f.lo

/-- Fields written from a word: the value they then hold, and the number of fields clamped. Bits in no field are
reserved and read 0 (R7). -/
def writeFields (fs : List Fld) (v : Word) : Nat × Nat :=
  fs.foldl (fun a f =>
    let i := f.get v
    let c := clampInt f.mn f.mx i
    (a.1 + f.put c, a.2 + if c = i then 0 else 1)) (0, 0)

/-- A second field whose least legal value is one above the first (LCn_DERATE, THERM_ZONEk_FL): clamped after it. -/
def writePair (a b : Fld) (v : Word) : Nat × Nat :=
  let i := a.get v
  let c := clampInt a.mn a.mx i
  let j := b.get v
  let d := clampInt (c + 1) b.mx j
  (a.put c + b.put d, (if c = i then 0 else 1) + if d = j then 0 else 1)

/-- How a plain register is written: by fields, or as such a pair. -/
inductive RegSpec where
  | fields (fs : List Fld)
  | pair (a b : Fld)

/-- The value and clamps of a write of a word. -/
def RegSpec.write : RegSpec → Word → Nat × Nat
  | .fields fs, v => writeFields fs v
  | .pair a b, v => writePair a b v

/-- LCn registers that are plain (Table 14.8): offset, reset value, fields. -/
def lampSpec : Nat → Option (Word × RegSpec)
  | 0x00 => some (0, .fields [pf 0 8])
  | 0x04 => some (0x001903E8#32, .fields [uf 0 11 500 2000, uf 16 7 10 80])
  | 0x08 => some (0x00000630#32, .fields [pf 0 16])
  | 0x0C => some (0, .fields [pf 0 12])
  | 0x14 => some (0, .fields [pf 0 32])
  | 0x18 => some (2000#32, .fields [uf 0 16 64 65535])
  | 0x1C => some (0x00FA0000#32, .fields [pf 0 32])
  | 0x20 => some (0x02001000#32, .fields [uf 0 13 0 4096, pf 16 3, pf 20 3, pf 24 2])
  | 0x24 => some (0x03520258#32, .pair (sf 0 16 (-400) 1499) (sf 16 16 (-400) 1500))
  | 0x28 => some (1024#32, .fields [uf 0 13 0 4096])
  | 0x2C => some (0x000407D0#32, .fields [uf 0 16 500 20000, uf 16 4 1 15])
  | _ => none

/-- ADCn registers that are plain (Table 16.9). -/
def adcChanSpec (n : Nat) : Nat → Option (Word × RegSpec)
  | 0x00 => some (0x00000140#32, .fields [pf 0 4, uf 4 10 20 1000, pf 16 3])
  | 0x04 => some (if n ≤ 15 then 0x7FFF8000#32 else 0xFFFF0000#32, .fields [pf 0 32])
  | 0x08 => some (0, .fields [pf 0 2])
  | _ => none

/-- FANn registers that are plain (Table 17.4). -/
def fanSpec : Nat → Option (Word × RegSpec)
  | 0x00 => some (0, .fields [uf 0 10 0 1000])
  | 0x04 => some (8#32, .fields [pf 0 4])
  | 0x08 => some (0x011403E8#32, .fields [uf 0 16 100 10000, uf 16 8 1 255, pf 24 2])
  | 0x0C => some (300#32, .fields [pf 0 16])
  | _ => none

/-- Registers of the FLASH, PROT and PWR blocks that are plain. -/
def lowSpec : Nat → Option (Word × RegSpec)
  | 0x30020018 => some (2000#32, .fields [uf 0 16 10 65535])
  | 0x30030004 => some (8#32, .fields [uf 0 6 1 63])
  | 0x30030014 => some (0, .fields [pf 0 12])
  | 0x30030018 => some (0, .fields [pf 0 6, pf 8 1])
  | 0x30030020 => some (0, .fields [pf 0 12])
  | 0x30040000 => some (1000#32, .fields [uf 0 16 1 65535])
  | 0x30050000 => some (400#32, .fields [uf 0 16 1 65535, pf 16 2])
  | 0x3005000C => some (0x00C803E8#32, .fields [uf 0 16 10 65535, uf 16 12 10 4000, uf 28 2 0 2])
  | 0x30060200 => some (0, .fields [pf 0 5, pf 8 5, pf 16 5, pf 24 3])
  | 0x30060204 => some (4096#32, .fields [pf 0 32])
  | 0x30060208 => some (4096#32, .fields [pf 0 32])
  | 0x3006021C => some (0xFFFF0000#32, .fields [pf 0 32])
  | 0x30060220 => some (0x7FFF7FFF#32, .fields [uf 0 16 0 32767, uf 16 16 0 32767])
  | 0x30060224 => some (0xFFFF0000#32, .fields [pf 0 32])
  | 0x30060228 => some (0, .fields [pf 0 1])
  | 0x30060230 => some (0x09601800#32, .fields [pf 8 8, uf 16 16 2000 3300])
  | _ => none

/-- Registers of the KEY, ADC and THERM blocks that are plain and stand alone. -/
def highSpec : Nat → Option (Word × RegSpec)
  | 0x3007C000 => some (1#32, .fields [pf 0 1])
  | 0x30090000 => some (0x00000804#32, .fields [uf 0 4 1 10, uf 8 8 1 255])
  | 0x30090004 => some (60#32, .fields [uf 0 12 1 3600])
  | 0x300A0000 => some (1#32, .fields [pf 0 1])
  | 0x300A000C => some (200#32, .fields [uf 0 14 10 10000])
  | 0x300A0014 => some (0, .fields [pf 0 10])
  | 0x300A001C => some (0x00010000#32, .fields [pf 0 10, uf 16 5 1 16])
  | _ => none

/-- Registers that come in numbered rows: PWR_LV_ENTk, SEQ_RAILn, DPn_CTRL, LCn, PEk_STEPs, KEYk_CFG, ADC_B_ENTk,
ADCn, THERM_EXTj, THERM_ZONEk and FANn. -/
def rowSpec (a : Nat) : Option (Word × RegSpec) :=
  let o := a % 0x10000
  match a / 0x10000 with
  | 0x3005 =>
    if 0x20 ≤ o ∧ o < 0x60 then
      if o % 8 = 0 then some (0, .fields [pf 0 12, pf 15 1]) else some (0xFFFF0000#32, .fields [pf 0 32])
    else none
  | 0x3006 =>
    if 0x100 ≤ o ∧ o < 0x1C0 then
      if o % 8 = 0 then some (31#32, .fields [pf 0 5, uf 8 5 0 23, uf 16 2 0 2, pf 20 1])
      else some (0x00640000#32, .fields [pf 0 16, uf 16 16 1 65535])
    else none
  | 0x3007 =>
    if o < 0xC000 ∧ o % 0x1000 = 0 then some (0x01000640#32, .fields [pf 0 2, uf 4 10 10 1000, uf 16 9 1 256]) else none
  | 0x3008 =>
    if o < 0x1000 then lampSpec (o % 0x100)
    else if 0x2000 ≤ o ∧ o < 0x2400 ∧ 0x80 ≤ o % 0x100 then some (0, .fields [pf 0 32]) else none
  | 0x3009 =>
    if 0x400 ≤ o ∧ o < 0x900 then
      some (0x14640440#32, .fields [pf 0 2, uf 4 4 1 15, uf 8 4 1 15, uf 16 8 1 255, uf 24 8 1 255])
    else none
  | 0x300A =>
    if 0x100 ≤ o ∧ o < 0x140 then some (0x00001400#32, .fields [pf 0 8, uf 8 10 20 1000, pf 18 3, pf 31 1])
    else if 0x1000 ≤ o ∧ o < 0x1400 then adcChanSpec ((o - 0x1000) / 0x20) (o % 0x20) else none
  | 0x300B =>
    if 0x60 ≤ o ∧ o < 0xC0 then
      if o % 8 = 0 then
        some (wordOf (0x10000000 + 16 + (o - 0x60) / 8), .fields [pf 0 5, pf 6 2, uf 16 16 1 65535])
      else some (3950#32, .fields [uf 0 16 1000 10000])
    else if 0x100 ≤ o ∧ o < 0x180 then
      match o % 0x10 with
      | 0 => some (if o = 0x100 then 15#32 else 0, .fields [pf 0 16])
      | 4 => some (0x03E80352#32, .pair (sf 0 16 (-400) 1499) (sf 16 16 (-400) 1500))
      | 8 => some (0x041A012C#32, .fields [uf 0 10 10 1000, pf 16 16])
      | _ => none
    else if 0x1000 ≤ o ∧ o < 0x1100 then fanSpec (o % 0x20) else none
  | _ => none

/-- The reset value and the fields of a plain register at an internal address. -/
def regSpec (a : Nat) : Option (Word × RegSpec) :=
  (lowSpec a <|> highSpec a) <|> rowSpec a

/-- UP_STEP of SEQ_RAILn_A: 24 to 30 are clamped to 23, 31 stands for manual (Table 12.4). -/
def railStep (a : Nat) (r : Nat × Nat) : Nat × Nat :=
  if a / 0x10000 = 0x3006 ∧ 0x100 ≤ a % 0x10000 ∧ a % 0x10000 < 0x1C0 ∧ a % 8 = 0 ∧
      24 ≤ r.1 % 32 ∧ r.1 % 32 ≤ 30 then
    (r.1 - r.1 % 32 + 23, r.2 + 1)
  else r

/-- The reset value of a plain register. -/
def regReset (a : Nat) : Word := match regSpec a with
  | some r => r.1
  | none => 0

/-- A plain register. -/
def State.reg (s : State) (a : Nat) : Word := SMap.get regReset s.regs a

/-- A plain register set to a value that its fields hold. -/
def State.setReg (s : State) (a : Nat) (v : Word) : State := { s with regs := SMap.set regReset s.regs a v }

/-- A field of a plain register. -/
def State.fld (s : State) (a lo w : Nat) : Nat := (s.reg a).fld lo w

/-- A two's complement field of a plain register. -/
def State.sfld (s : State) (a lo w : Nat) : Int := signedOf w (s.fld a lo w)

/-- A bit of a plain register. -/
def State.rbit (s : State) (a i : Nat) : Bool := (s.reg a).bit i

/-- A plain register written under byte enables: the state, and the clamps to count. -/
def State.writeReg (s : State) (a : Nat) (v : Word) (be : BitVec 4) : State × Nat :=
  match regSpec a with
  | some r =>
    let q := railStep a (r.2.write (mergeBytes (s.reg a) v be))
    (s.setReg a (wordOf q.1), q.2)
  | none => (s, 0)

/-- Registers of a range put back to their reset values. -/
def State.resetRegs (s : State) (lo hi : Nat) : State := { s with regs := SMap.clear s.regs lo hi }

/-! ## Addresses of the register sets -/

def lampReg (n o : Nat) : Nat := 0x30080000 + n * 0x100 + o
def peReg (k o : Nat) : Nat := 0x30082000 + k * 0x100 + o
def keyCfg (k : Nat) : Nat := 0x30090400 + 4 * k
def adcReg (n o : Nat) : Nat := 0x300A1000 + n * 0x20 + o
def fanReg (n o : Nat) : Nat := 0x300B1000 + n * 0x20 + o
def extReg (j o : Nat) : Nat := 0x300B0060 + 8 * j + o
def zoneReg (k o : Nat) : Nat := 0x300B0100 + 0x10 * k + o
def dpReg (p o : Nat) : Nat := 0x30070000 + p * 0x1000 + o
def railReg (n o : Nat) : Nat := 0x30060100 + 8 * n + o
def lvReg (k o : Nat) : Nat := 0x30050020 + 8 * k + o
def dispCtrl : Nat := 0x3007C000

end Sys2Proof.Machine
end

