-- ==== Sys2Proof/Machine/Flags.lean ====
section
/-! DEFINITION. Every flag the spec computes for a tenant (IRQ_STATUS, IRQ_PEND, TIRQ_N), the delivery of events
(R395 to R404, R121, R122), clamp counting (R137, R396) and bus-error recording (R94). -/

namespace Sys2Proof.Machine

/-! ## Queue levels (R107) -/

/-- Entries between RQ_HEAD and RQ_TAIL. -/
def Tenant.rqCount (T : Tenant) : Nat := (T.rqTail - T.rqHead).toNat
/-- Slots between CQ_HEAD and CQ_TAIL. -/
def Tenant.cqCount (T : Tenant) : Nat := (T.cqTail - T.cqHead).toNat
/-- Entries between EQ_HEAD and EQ_TAIL. -/
def Tenant.eqCount (T : Tenant) : Nat := (T.eqTail - T.eqHead).toNat
/-- EQ_PENDING: the pending bits set (R121). -/
def Tenant.eqPending (T : Tenant) : Nat := T.pend.length

/-- Response slots of a tenant reserved and not yet written: its accepted commands from the host that have had no
BUSY_RETRY (R111, R117). -/
def State.reserved (s : State) (t : Nat) : Nat :=
  (s.runs.filter fun r => r.ten == t && r.link.isNone && !r.busySent).length

/-- LBX_CTRL.RQ_FREE: RQ slots neither written nor reserved (R111). -/
def State.rqFree (s : State) (t : Nat) : Nat := 32 - (s.ten t).rqCount - s.reserved t

/-! ## IRQ_STATUS (Table 6.1) -/

/-- Bit 6, HB_WARN. -/
def State.hbWarn (s : State) (t : Nat) : Bool :=
  let T := s.ten t
  decide (t ≠ 0 ∧ T.hbTicks ≠ 0 ∧ s.pwr.st = .opened ∧ T.hbLeft ≤ T.hbTicks / 4)

/-- The seven conditions of IRQ_STATUS (R138, Table 6.1). -/
def State.irqStatus (s : State) (t : Nat) : Nat :=
  let T := s.ten t
  bitNat (decide (T.ctrl.fld 0 6 ≤ T.rqCount)) +
  2 * bitNat (decide (T.ctrl.fld 8 7 ≤ T.eqCount) || T.eqPending != 0) +
  4 * bitNat (T.berr.fld 0 3 != 0) +
  8 * bitNat T.irqClamp +
  16 * bitNat T.irqWin +
  32 * bitNat (s.door t == .fire) +
  64 * bitNat (s.hbWarn t)

/-- IRQ_PEND: IRQ_STATUS AND IRQ_ENABLE (R138). -/
def State.irqPend (s : State) (t : Nat) : Nat := s.irqStatus t &&& (s.ten t).irqEn.toNat

/-- TIRQ_N[n] is driven low (R103). While the shutter of bank HA is closed it is high-impedance (R274). -/
def State.tirqLow (s : State) (t : Nat) : Bool := s.irqPend t != 0 && s.door t != .shut && !s.shut 0

/-! ## Events -/

/-- An event entry (Table 5.4). -/
def eventEntry (e flags tick : Nat) (data : Word) : List Byte :=
  [BitVec.ofNat 8 e, BitVec.ofNat 8 flags] ++ leBytes 2 tick ++ leBytes 4 data.toNat

/-- An entry written at EQ_TAIL, which advances (R121). -/
def State.eqPut (s : State) (t e flags tick : Nat) (data : Word) : State :=
  (s.wrWhole (eqAddr t (s.ten t).eqTail.toNat) (eventEntry e flags tick data)).updTen t
    fun T => { T with eqTail := T.eqTail + 1 }

/-- Occurrences added to an event's pending bit: the count saturates at 127 and the latest tick and data stay (R402). -/
def State.pendAdd (s : State) (t e count tick : Nat) (data : Word) : State :=
  s.updTen t fun T => { T with
    pend := SMap.upd (fun _ => ⟨0, 0, 0⟩) T.pend e fun p => ⟨satAdd 127 p.count count, tick, data⟩ }

/-- An occurrence of a tick placed while the EQ has room and no pending bit is set, else coalesced (R121). -/
def State.place (s : State) (t e tick : Nat) (data : Word) : State :=
  if (s.ten t).eqCount < 64 ∧ (s.ten t).eqPending = 0 then s.eqPut t e 2 tick data else s.pendAdd t e 1 tick data

/-- An occurrence is discarded at the instant it arises: its tenant masks it (R140). -/
def State.masked (s : State) (t e : Nat) : Bool := (s.ten t).evMask.getLsbD e

/-- An occurrence delivered to a tenant now: discarded at a SHUT door (R400) or under its mask. -/
def State.deliver (s : State) (t e : Nat) (data : Word) : State :=
  if s.door t = .shut ∨ s.masked t e = true then s else s.place t e (s.now % 65536) data

/-- Occurrences are held while boot is not complete or PD_FAB is off (R403). -/
def State.holding (s : State) : Bool := !s.sys.bootDone || !s.up 1

/-- An occurrence added to those that a source holds (R403): a count and the latest data for each event and each
owner, or each thing that will name the owner. -/
def heldAdd (e : Nat) (d : Dest) (tick : Nat) (data : Word) : List Held → List Held
  | [] => [⟨e, d, 1, tick, data⟩]
  | h :: hs =>
    if h.ev = e ∧ h.dest = d then { h with count := satAdd 127 h.count 1, tick := tick, data := data } :: hs
    else h :: heldAdd e d tick data hs

/-- An occurrence of an event (R398, R403). While PD_FAB is off its owner is resolved at once; before boot completes
it is not. -/
def State.raise (s : State) (e : Nat) (d : Dest) (data : Word) : State :=
  if s.holding then
    if s.sys.bootDone then
      if s.masked (s.resolve e d) e then s
      else { s with held := heldAdd e (.tenant (s.resolve e d)) (s.now % 65536) data s.held }
    else { s with held := heldAdd e d (s.now % 65536) data s.held }
  else s.deliver (s.resolve e d) e data

/-- A held event becomes a pending bit of its owner, when its door is OPEN or FIRE (R403, R400). -/
def State.releaseOne (s : State) (h : Held) : State :=
  let t := s.resolve h.ev h.dest
  if s.door t = .shut then s else s.pendAdd t h.ev h.count h.tick h.data

/-- Every held event becomes a pending bit (R403). -/
def State.releaseHeld (s : State) : State := { s.held.foldl State.releaseOne s with held := [] }

/-- One pending event moved into the EQ, if there is room (R122). -/
def State.sweepOne (s : State) (t : Nat) (q : Nat × PendEv) : State :=
  if (s.ten t).eqCount < 64 then
    (s.eqPut t q.1 (1 + 2 * q.2.count) q.2.tick q.2.data).updTen t
      fun T => { T with pend := SMap.set (fun _ => ⟨0, 0, 0⟩) T.pend q.1 ⟨0, 0, 0⟩ }
  else s

/-- The coalescing sweep of one tenant: pending events in ascending number (R122). -/
def State.sweepTen (s : State) (t : Nat) : State := (s.ten t).pend.foldl (fun s q => s.sweepOne t q) s

/-! ## Clamps (R25, R137, R396) -/

/-- How an access reached the part, for EV4: a host port and HA_A[20:2], or a command or link frame. -/
inductive Path where
  | host (port addr : Nat)
  | cmd (op tag : Nat)
  deriving DecidableEq, Repr

/-- The data word of EV4 (R396). -/
def Path.ev4 : Path → Word
  | .host _ addr => wordOf (addr / 4 % 2 ^ 19 * 4)
  | .cmd op tag => wordOf (2 ^ 31 + op % 256 + tag % 65536 * 256)

/-- The port that PG_STATUS.PORT reads (R135). -/
def Path.portBit : Path → Nat
  | .host p _ => p
  | .cmd _ _ => 0

/-- `k` clamps counted for a tenant: the count saturates, IRQ_STATUS.CLAMP is set, and EV4 is raised when the count
leaves 0 (R137, R396). -/
def State.clamps (s : State) (t : Nat) (p : Path) (k : Nat) : State :=
  if k = 0 then s
  else
    let s1 := s.updTen t fun T => { T with clamps := satAdd 65535 T.clamps k, irqClamp := true }
    if (s.ten t).clamps = 0 then s1.raise 4 (.tenant t) p.ev4 else s1

/-! ## Bus errors (R93, R94) -/

/-- Why an access or a command fails at its target (Tables 1.8 and 4.5). `off` is R30. -/
inductive Err where
  | door
  | unmapped
  | off
  | uncorrectable
  | check
  | stall
  deriving DecidableEq, Repr

/-- The code of Table 4.5. -/
def Err.cause : Err → Nat
  | .door => 1
  | .uncorrectable => 2
  | .stall => 3
  | .unmapped => 4
  | .off => 4
  | .check => 5

/-- The status of Table 5.6 that a command ends with. -/
def Err.status : Err → Nat
  | .door => 2
  | .unmapped => 2
  | .uncorrectable => 4
  | .check => 3
  | .off => 10
  | .stall => 7

/-- A bus error recorded in the addressed page: the first since the last read, then only OVF (R94). -/
def State.berrRecord (s : State) (page port addr : Nat) (write posted : Bool) (e : Err) : State :=
  s.updTen page fun T =>
    if T.berr.fld 0 3 = 0 then
      { T with berr := wordOf (e.cause + 8 * port + 16 * bitNat write + 32 * bitNat posted),
               berrAddr := wordOf (addr / 4 % 2 ^ 19 * 4) }
    else { T with berr := T.berr ||| 0x40#32 }

end Sys2Proof.Machine
end

