-- ==== Sys2Proof/Machine/Protect.lean ====
section
/-! DEFINITION. SRAM under its SEC-DED code (R158, R161, R165 to R169): what a read corrects, poisons and counts, and
what a write of part of a word meets. -/

namespace Sys2Proof.Machine

/-- A count of corrections that has reached CE_THR raises EV67 once until a read clears it (R176). `i` names the
count: 0 SRAM, 1 flash ONE, 2 flash TWO. -/
def State.ceReached (s : State) (i n : Nat) : State :=
  if s.fld 0x30040000 0 16 ≤ n ∧ s.prot.ceDone.getLsbD i = false then
    { s with prot := { s.prot with ceDone := s.prot.ceDone ||| BitVec.ofNat 3 (2 ^ i) } }.raise 67 .granted
      (if i = 0 then 1 else 2)
  else s

/-- A 1-bit SRAM correction counted (Table 7.5). -/
def State.countCe (s : State) : State :=
  { s with prot := { s.prot with ceSram := sat16 s.prot.ceSram } }.ceReached 0 (sat16 s.prot.ceSram)

/-- An uncorrectable word counted and recorded (R165). -/
def State.countUe (s : State) (region : Nat) (a : Nat) : State :=
  { s with prot := { s.prot with ue := sat16 s.prot.ue, region := region, ueAddr := wordOf a } }

/-- The region code and the internal address of an ECC key. A check array has no internal address: its word is named
by the first byte of its cell (log entry 6). -/
def eccPlace (k : Nat) : Nat × Nat :=
  if k < 2 ^ 32 then ((sramRegion k).getD 0, k)
  else (6, bankBase ((k - 2 ^ 32) / 8 / 192) + (k - 2 ^ 32) / 8 % 192 * 1024)

/-- An uncorrectable word found by a read: poisoned, reported and recorded (R165). -/
def State.poison (s : State) (k : Nat) : State :=
  let p := eccPlace k
  ((s.setEcc k .poisoned).countUe p.1 p.2).raise 64 (.addr p.2) (wordOf p.2)

/-- The word at a key replaced by other data, without an error (R158 beyond the code). -/
def State.wrongData (s : State) (k : Nat) (v : DWord) : State :=
  if k < 2 ^ 32 then (s.wrBytes k (leBytes 8 v.toNat)).setEcc k .good
  else s.setChk ((k - 2 ^ 32) / 8 / 192) ((k - 2 ^ 32) / 8 % 192) (wordOf v.toNat)

/-- A read of the word at a key: the state after, and whether the word is uncorrectable (R158, R165). -/
def State.eccRead (s : State) (k : Nat) : State × Bool :=
  match s.eccOf k with
  | .good => (s, false)
  | .poisoned => (s, true)
  | .bits 0 => (s.setEcc k .good, false)
  | .bits 1 => ((s.setEcc k .good).countCe, false)
  | .bits 2 => (s.poison k, true)
  | .bits _ =>
    match Config.beyondCode s.free with
    | 0 => (s.drawn.poison k, true)
    | 1 => ((s.wrongData k (Config.beyondData s.free)).drawn.countCe, false)
    | 2 => ((s.wrongData k (Config.beyondData s.free)).drawn, false)

/-- The 64-bit words that `n` bytes from an address touch, as keys. -/
def wordKeys (a n : Nat) : List Nat := (List.range ((a % 8 + n + 7) / 8)).map fun i => (a / 8 + i) * 8

/-- The words at some keys read in order; true when one of them is uncorrectable. -/
def State.eccReadAll (s : State) : List Nat → State × Bool
  | [] => (s, false)
  | k :: ks =>
    let r := s.eccRead k
    let q := r.1.eccReadAll ks
    (q.1, r.2 || q.2)

/-- `n` bytes of SRAM read under the code. -/
def State.sramRead (s : State) (a n : Nat) : State × Bool := s.eccReadAll (wordKeys a n)

/-- A 32-bit word of SRAM written where its bytes are enabled: a read-modify-write of its 64-bit word, which has no
effect on an uncorrectable one (R158, R168). -/
def State.sramWrite32 (s : State) (a : Nat) (v : Word) (be : BitVec 4) : State × Bool :=
  let r := s.sramRead a 4
  if r.2 then (r.1, true) else (r.1.wr32 a v be, false)

/-! ## The repair map (R174, R175) -/

/-- Every programmed entry is switched in, as at each reset. -/
def Prot.switchIn (p : Prot) : Prot := { p with fuses := p.fuses.map fun r : Repair => { r with live := true } }

/-- SYS_FUSE.REPAIRS: the entries in effect. -/
def Prot.repairs (p : Prot) : Nat := (p.fuses.filter fun r => r.live).length

/-- PROT_REPAIR.USED: the field entries programmed. -/
def Prot.fieldUsed (p : Prot) : Nat := (p.fuses.filter fun r => r.field).length

/-- PROT_REPAIR.PENDING: those programmed since the last reset. -/
def Prot.fieldPend (p : Prot) : Nat := (p.fuses.filter fun r => r.field && !r.live).length

end Sys2Proof.Machine
end

