-- ==== Sys2Proof/Machine/Runs.lean ====
section
/-! DEFINITION. Commands that have been accepted and not yet answered (R111, R114): finding the one a row executes, and
recording how it finished. -/

namespace Sys2Proof.Machine

/-- OPCODE of a slot (Table 5.2). -/
def slotOp (b : List Byte) : Nat := natAt b 0 1
/-- FLAGS of a slot. -/
def slotFlags (b : List Byte) : Nat := natAt b 1 1
/-- TAG of a slot. -/
def slotTag (b : List Byte) : Nat := natAt b 2 2

/-- A number of ARGS, at a byte of the slot. -/
def Run.arg (r : Run) (i k : Nat) : Nat := natAt r.slot i k
/-- The path of the clamps that a command counts (R396). -/
def Run.path (r : Run) : Path := .cmd (slotOp r.slot) (slotTag r.slot)

/-- The oldest accepted command of a tenant with an opcode, not yet executed. -/
def State.runOf (s : State) (t op : Nat) : Option Run :=
  s.runs.find? fun r => decide (r.ten = t ∧ slotOp r.slot = op ∧ r.st = .accepted)

/-- A run by its number. -/
def State.runById (s : State) (id : Nat) : Option Run := s.runs.find? fun r => decide (r.id = id)

/-- A run changed. -/
def State.updRun (s : State) (id : Nat) (f : Run → Run) : State :=
  { s with runs := s.runs.map fun r => if r.id = id then f r else r }

/-- A run put into a state. -/
def State.setRun (s : State) (id : Nat) (st : RunSt) : State := s.updRun id fun r => { r with st := st }

/-- A run finished with a status and results (RESULTS from byte 4). It moves behind the others, so that the finished
runs stand in the order in which they finished (R114). -/
def State.finishId (s : State) (id status : Nat) (results : List Byte) : State :=
  match s.runById id with
  | some r => { s with runs := s.runs.filter (fun q => q.id != id) ++ [{ r with st := .finished status results }] }
  | none => s

/-- A run that a row has executed finished. -/
def State.finish (s : State) (r : Run) (status : Nat) (results : List Byte) : State := s.finishId r.id status results

/-- The state with the grants under which a command runs: those in effect at its start (R61). What a command reaches is
judged in it; nothing else reads it. -/
def State.under (s : State) (r : Run) : State :=
  { s with grants := { s.grants with table := r.table, wipe := r.wipe } }

/-- A run finished with OK. -/
def State.ok (s : State) (r : Run) (results : List Byte) : State := s.finish r 0 results

/-- A run that fails at its target. -/
def State.failed (s : State) (r : Run) (e : Err) : State := s.finish r e.status []

/-- The meaning of a command row: the oldest accepted command of the tenant with that opcode runs; with none, nothing
happens (log entry 8). -/
def State.withRun (s : State) (t op : Nat) (f : State → Run → State) : State :=
  match s.runOf t op with
  | some r => f s r
  | none => s

/-! ## Holds by a self-test (R17, Table 1.6) -/

/-- The self-test that a block runs. -/
def State.testOf (s : State) (block : Nat) : Option Test := SMap.get (fun _ => none) s.tests block

/-- A self-test runs in a block: its requests are held. -/
def State.testing (s : State) (block : Nat) : Bool := (s.testOf block).isSome

/-- The unit under test in a block. -/
def State.testUnit (s : State) (block : Nat) : Option Nat := (s.testOf block).map fun t => t.unit

/-- A request held behind those that arrived before it (R18); one that is held already keeps its place. -/
def State.hold (s : State) (q : Request) : State :=
  if s.waiting.contains q then s else { s with waiting := s.waiting ++ [q] }

/-- A register row held: each one is a request of its own. -/
def State.holdRow (s : State) (q : Request) : State := { s with waiting := s.waiting ++ [q] }

end Sys2Proof.Machine
end

