-- ==== Sys2Proof/Machine/Adc.lean ====
section
/-! DEFINITION. The conversion subsystem (spec/16): pairs of lanes, sequences, injected requests, result words, window
comparators, the reference, calibration and rotation. Instants within a tick are counted in cycles of CK_ADC, 80 to a
µs, so that a slot lasts 2 × PERIOD_US of them (log entry 10). -/

namespace Sys2Proof.Machine

/-! ## Slices and lanes (R355, R359, R360, Table 16.2) -/

/-- The slice in a lane; 7 for none. After reset slices 0 to 3 are in lanes 0 to 3. -/
def State.laneOf (s : State) (l : Nat) : Nat := SMap.get (fun l => l) s.adc.lanes l

/-- A slice put into a lane. -/
def State.setLaneOf (s : State) (l v : Nat) : State :=
  { s with adc := { s.adc with lanes := SMap.set (fun l => l) s.adc.lanes l v } }

/-- Working slices. -/
def Adc.working (a : Adc) : Nat := ((List.range 5).filter fun i => !a.retired.getLsbD i).length

/-- The lanes filled by a number of working slices (Table 16.2). -/
def lanesFor : Nat → List Nat
  | 0 => []
  | 1 => [0]
  | 2 => [0, 2]
  | 3 => [0, 1, 2]
  | _ => [0, 1, 2, 3]

/-- Lanes filled anew: slices stay where Table 16.2 keeps their lane, and the others move up. -/
def State.refill (s : State) : State :=
  let want := lanesFor s.adc.working
  let busy (l : Nat) : Bool := s.laneOf l < 5 && !s.adc.retired.getLsbD (s.laneOf l)
  let spare := if s.adc.spare < 5 ∧ s.adc.retired.getLsbD s.adc.spare = false then [s.adc.spare] else []
  let moved := spare ++ ((List.range 4).filter fun l => busy l && !want.contains l).map fun l => s.laneOf l
  let gaps := want.filter fun l => !busy l
  let s1 := s.each (List.range 4) fun s' l =>
    if want.contains l then
      (if busy l then s' else s'.setLaneOf l (moved.getD (gaps.findIdx fun g => g == l) 7))
    else s'.setLaneOf l 7
  { s1 with adc := { s1.adc with spare := moved.getD gaps.length 7 } }

/-- A slice retired (R360): kind 1 calibration, 2 deep test. -/
def State.retire (s : State) (slice kind : Nat) : State :=
  if s.adc.retired.getLsbD slice then s
  else
    ({ s with adc := { s.adc with
        retired := s.adc.retired ||| BitVec.ofNat 5 (2 ^ slice) } }.refill).raise 235 .granted
      (wordOf (slice + 256 * kind))

/-- The first lane of a pair is filled (Table 16.2). -/
def State.pairFilled (s : State) (b : Bool) : Bool := s.laneOf (2 * bitNat b) < 5

/-- The second lane of a pair is filled; otherwise results are SINGLE (R355). -/
def State.pairDouble (s : State) (b : Bool) : Bool := s.laneOf (2 * bitNat b + 1) < 5

/-- A pair may convert, with REF_RDY or without (ADC_CTRL.EN, Table 16.2, R374). -/
def State.pairAble (s : State) (b : Bool) : Bool :=
  s.up 10 && s.rbit 0x300A0000 0 && s.pairFilled b && !s.testing 9

/-- Samples may start on a pair (R358). -/
def State.adcReady (s : State) (b : Bool) : Bool := s.pairAble b && s.adc.refRdy

/-! ## Sequences and injected requests (R363 to R368, R371) -/

/-- The sequence of a pair. -/
def State.seqOf (s : State) (b : Bool) : SeqRun := if b then s.adc.seqB else s.adc.seqA

/-- The sequence of a pair changed. -/
def State.updSeq (s : State) (b : Bool) (f : SeqRun → SeqRun) : State :=
  if b then { s with adc := { s.adc with seqB := f s.adc.seqB } }
  else { s with adc := { s.adc with seqA := f s.adc.seqA } }

/-- The injected request that a pair converts. -/
def State.injOf (s : State) (b : Bool) : Option Inj := if b then s.adc.injB else s.adc.injA

/-- The injected request of a pair set. -/
def State.setInj (s : State) (b : Bool) (i : Option Inj) : State :=
  if b then { s with adc := { s.adc with injB := i } } else { s with adc := { s.adc with injA := i } }

/-- The control register of a sequencer. -/
def seqCtrl (b : Bool) : Nat := if b then 0x300A001C else 0x300A0014

/-- A sequence has not ended. -/
def SeqRun.open (q : SeqRun) : Bool := q.run.isSome || !q.left.isEmpty

/-- An entry into Louvred or Latched is in progress, from its first query on (R371). -/
def State.entering (s : State) : Bool := s.pwr.phase == .delayed || s.pwr.phase == .committed

/-- What a sequence is to convert: the channels of A (R363), the entries of B (R364), each with whether its channel has
changed owner since. -/
def State.seqProgram (s : State) (b : Bool) : List (Nat × Bool) :=
  ((if b then List.range 16 else (List.range 32).filter fun n => s.rbit (adcReg n 0) 0)).map fun n => (n, false)

/-- An item of a program as the conversion that it asks for now: none for an entry of B that is not enabled or lies
beyond LEN. -/
def State.convOf (s : State) (b : Bool) (x : Nat × Bool) : Option Conv :=
  if b then
    let e := s.reg (0x300A0100 + 4 * x.1)
    if x.1 < s.fld 0x300A001C 16 5 ∧ e.bit 31 then
      some { ch := e.fld 0 5, entry := x.1, gain := e.fld 5 3, smp := e.fld 8 10, ovs := e.fld 18 3, drop := x.2 }
    else none
  else
    let c := s.reg (adcReg x.1 0)
    some { ch := x.1, entry := x.1, gain := c.fld 1 3, smp := c.fld 4 10, ovs := c.fld 16 3, drop := x.2 }

/-- The next conversion of a sequence, and what is left after it. -/
def State.nextConv (s : State) (b : Bool) : List (Nat × Bool) → Option (Conv × List (Nat × Bool))
  | [] => none
  | x :: xs =>
    match s.convOf b x with
    | some c => some (c, xs)
    | none => s.nextConv b xs

/-- Cycles of a conversion of 2^OVS samples. -/
def convCycles (smp ovs : Nat) : Nat := 2 ^ ovs * (smp + 60)

/-- EV237 (Table 16.7). -/
def State.ev237 (s : State) (b : Bool) (kind : Nat) : State := s.raise 237 .granted (wordOf (bitNat b + 256 * kind))

/-- A start that falls due is skipped (R365). -/
def State.seqSkip (s : State) (b : Bool) (kind : Nat) : State :=
  { s with adc := { s.adc with skips := sat16 s.adc.skips } }.ev237 b kind

/-- A sequence ends (R366). -/
def State.seqEnd (s : State) (b : Bool) : State :=
  if s.rbit (seqCtrl b) 9 then
    s.raise (if b then 233 else 232) .granted (wordOf (s.now % 65536 + (s.seqOf b).made % 256 * 65536))
  else s

/-- An instant of a tick: not before that many cycles from its boundary, and exactly there or not. -/
abbrev Instant := Nat × Bool

/-- The present instant as far as the slot tells it. -/
def State.someInstant (s : State) : Instant := (2 * s.periodUs * s.tick.slot, false)

/-- Whether work of some cycles that starts at an instant ends before slot 39 begins (R365). Where the slot alone does
not tell, it is open (log entry 10). -/
def State.fits (s : State) (t : Instant) (cycles : Nat) : State × Bool :=
  if 78 * s.periodUs ≤ t.1 + cycles then (s, false)
  else if t.2 then (s, true)
  else (s.drawn, Config.fits s.free)

/-- The oldest queued request of a pair. -/
def State.injNext (s : State) (b : Bool) : Option Inj := s.adc.inj.find? fun i => i.pairB == b

/-- A request of the queue starts on its pair. -/
def State.injStart (s : State) (b : Bool) (t : Instant) (i : Inj) : State :=
  (({ s with adc := { s.adc with inj := s.adc.inj.erase i } }).setInj b (some i)).updSeq b fun q => { q with at_ := t }

/-- The oldest request starts where it ends before slot 39; otherwise it waits for slot 0, and those behind it with it
(R367, log entry 151). -/
def State.injGo (s : State) (b : Bool) (t : Instant) : State :=
  match s.injNext b with
  | none => s
  | some i =>
    if s.entering ∨ i.late then s
    else
      let r := s.fits t (convCycles i.smp i.ovs)
      if r.2 then r.1.injStart b t i
      else { r.1 with adc := { r.1.adc with inj := r.1.adc.inj.map fun x => if x = i then { x with late := true } else x } }

/-- The sequence of an idle pair goes on, stops until slot 3 of the next tick, or has ended (R365, R366). -/
def State.seqGo (s : State) (b : Bool) (t : Instant) : State :=
  let q := s.seqOf b
  if q.cut ∨ q.left.isEmpty then s
  else match s.nextConv b q.left with
  | none => (s.updSeq b fun q => { q with left := [] }).seqEnd b
  | some (c, rest) =>
    let r := s.fits t (convCycles c.smp c.ovs)
    if r.2 then r.1.updSeq b fun q => { q with left := rest, run := some c, at_ := t }
    else r.1.updSeq b fun q => { q with cut := true }

/-- A pair that converts nothing goes on: with its oldest injected request, then with its sequence (R367, R368). -/
def State.pairGo (s : State) (b : Bool) (t : Instant) : State :=
  if s.adcReady b = false ∨ (s.seqOf b).run.isSome ∨ (s.injOf b).isSome then s
  else
    let s1 := s.injGo b t
    if (s1.injOf b).isSome then s1 else s1.seqGo b t

/-- Both pairs go on, at an instant that only the slot tells. -/
def State.pairsGo (s : State) : State := (s.pairGo false s.someInstant).pairGo true s.someInstant

/-- A sequence starts. One with nothing to convert ends at once. -/
def State.seqStart (s : State) (b : Bool) (t : Instant) : State :=
  let s1 := s.updSeq b fun q => { q with left := s.seqProgram b, made := 0, cut := false }
  if (s1.nextConv b (s1.seqOf b).left).isNone then (s1.updSeq b fun q => { q with left := [] }).seqEnd b
  else s1.pairGo b t

/-- A start that falls due (R365, R358, R371). -/
def State.seqDue (s : State) (b : Bool) (t : Instant) : State :=
  if s.rbit 0x300A0000 0 = false ∨ s.entering then s
  else if (s.seqOf b).open then s.seqSkip b 1
  else if s.adcReady b = false then s.seqSkip b 2
  else s.seqStart b t

/-- Slot 3 of one sequencer: a cut sequence continues, and every DIV-th slot 3 a start falls due, which the deep
self-test holds (R365, R374). -/
def State.adcSlotSeq (s : State) (b : Bool) : State :=
  let t : Instant := (6 * s.periodUs, true)
  let s1 := (s.updSeq b fun q => { q with cut := false }).pairGo b t
  let div := s.fld (seqCtrl b) 0 8
  if div = 0 then s1
  else if 0 < (s1.seqOf b).wait then s1.updSeq b fun q => { q with wait := q.wait - 1 }
  else
    let s2 := s1.updSeq b fun q => { q with wait := div - 1 }
    if s.testing 9 then s2.hold (.start b) else s2.seqDue b t

/-- Slot 3 (R365). -/
def State.adcSlot (s : State) : State :=
  if s.up 10 = false then s else (s.adcSlotSeq false).adcSlotSeq true

/-- A conversion put back in front of what its sequence has left, to be made again from its first sample. -/
def SeqRun.back (q : SeqRun) : SeqRun :=
  { q with
    left := (match q.run with
      | some c => (c.entry, c.drop) :: q.left
      | none => q.left), run := none }

/-- Slot 39 of one pair: the sequence stops, and during an entry what is left of it is dropped (R365, R371). No
conversion starts that would still run then, so that one which does has been delayed, by a change of the reference,
by EN or by a deep self-test; it is made again (log entry 10). -/
def State.adcGuardSeq (s : State) (b : Bool) : State :=
  let q := s.seqOf b
  let s1 := s.updSeq b fun q => { q.back with cut := true }
  if q.open ∧ s.entering then (s1.updSeq b fun q => { q with left := [] }).ev237 b 3 else s1

/-- Slot 39 (R365). -/
def State.adcGuard (s : State) : State :=
  if s.up 10 = false then s else (s.adcGuardSeq false).adcGuardSeq true

/-- Slot 0: a deep self-test that waited for it starts, and requests that did not fit in the tick before (R367, R374). -/
def State.adcSlot0 (s : State) : State :=
  let s1 := { s with adc := { s.adc with inj := s.adc.inj.map fun i : Inj => { i with late := false } } }
  let s2 := match s1.adc.due with
    | some t =>
      { s1 with adc := { s1.adc with due := none, deep := true }, tests := SMap.set (fun _ => none) s1.tests 9 (some t) }
    | none => s1
  (s2.pairGo false (0, true)).pairGo true (0, true)

/-- A channel has a request queued or running (ADCn_STATUS.INJ_PEND). -/
def State.injPend (s : State) (n : Nat) : Bool :=
  (s.adc.inj ++ s.adc.injA.toList ++ s.adc.injB.toList).any fun i => i.ch == n

/-- A request under ABORT: where it ends before slot 39, the running conversion of the sequence is stopped, to be
converted again (R368). -/
def State.injAbort (s : State) (b : Bool) (i : Inj) : State :=
  let t : Instant := (max s.someInstant.1 (s.seqOf b).at_.1, false)
  let s1 := s.injGo b t
  if (s1.injOf b) = some i then s1.updSeq b fun q => { q.back with at_ := t } else s1

/-- A write of ADCn_INJ (R367, R368): the state, and the clamps of the fields written. -/
def State.injectGo (s : State) (n : Nat) (v : Word) : State × Nat :=
  let smp := clampNat 20 1000 (v.fld 5 10)
  let k := if smp = v.fld 5 10 then 0 else 1
  if v.bit 0 = false then (s, k)
  else if s.injPend n ∨ 4 ≤ (s.adc.inj ++ s.adc.injA.toList ++ s.adc.injB.toList).length then
    (s.updChan n fun c => { c with injRej := true }, 0)
  else
    let b := v.bit 1
    let i : Inj := { ch := n, pairB := b, gain := v.fld 2 3, smp := smp, ovs := v.fld 15 3, drop := false, late := false }
    let first := (s.injNext b).isNone && (s.injOf b).isNone
    let s1 := { s with adc := { s.adc with inj := s.adc.inj ++ [i] } }
    (if s.rbit (seqCtrl b) 8 ∧ s.adcReady b ∧ s.entering = false ∧ first ∧ (s.seqOf b).run.isSome then
      s1.injAbort b i else s1.pairGo b s.someInstant, k)

/-! ## Results (R355, R356, R361, R362, R369, R370) -/

/-- A code of a channel, at the end of its range beyond it (R356). -/
def codeIn (n : Nat) (c : Int) : Int := if n < 16 then clampInt (-32768) 32767 c else clampInt 0 65535 c

/-- The code and over-range flag of an input: `v` is G × V and `r` V_REF, in the same unit (R356). -/
def idealCode (n : Nat) (v : Int) (r : Nat) : Int × Bool :=
  let full : Int := if n < 16 then 32768 else 65536
  (codeIn n ((2 * full * v + r) / (2 * r)),
    if n < 16 then decide (v < -(r : Int) ∨ (r : Int) ≤ v) else decide (v < 0 ∨ (r : Int) ≤ v))

/-- A sample of an input at `nv` nV, at a gain and a reference in mV, by a slice whose code is `d` codes from the ideal
one: its code and whether it is over range. An input over range reads as the end of its range (R356). -/
def sampleCode (n gain mv : Nat) (nv d : Int) : Int × Bool :=
  let q := idealCode n (nv * 2 ^ gain) (mv * 1000000)
  (if q.2 then q.1 else codeIn n (q.1 + d), q.2)

/-- A sample of a pair: the input in nV, and how far each lane's code lies from the ideal one. -/
abbrev PairSample := Int × Int × Int

/-- The value of a conversion: the mean of its sample values, each the mean of the lanes' codes, both rounded toward
minus infinity (R355, R361). -/
def convValue (n gain mv : Nat) (double : Bool) (samples : List PairSample) : Int :=
  let code (v d : Int) : Int := (sampleCode n gain mv v d).1
  let vs := samples.map fun p => if double then (code p.1 p.2.1 + code p.1 p.2.2) / 2 else code p.1 p.2.1
  vs.sum / (vs.length : Int)

/-- A slice of a pair has a calibration older than 6 periods while rotation is stopped (Table 16.2). -/
def State.calOld (s : State) (b : Bool) : Bool :=
  decide (s.adc.working ≤ 4) && [2 * bitNat b, 2 * bitNat b + 1].any fun l =>
    let i := s.laneOf l
    decide (i < 5 ∧ 6 ≤ SMap.get (fun _ => 0) s.adc.calAge i)

/-- The result word of a conversion at a gain (Table 16.3). -/
def State.resultWord (s : State) (b : Bool) (n gain src : Nat) (samples : List PairSample) : Word :=
  let ovr := samples.any fun p => (sampleCode n gain s.adc.vref p.1 0).2
  wordOf (twosOf 16 (convValue n gain s.adc.vref (s.pairDouble b) samples) + 2 ^ 16 * bitNat ovr +
    2 ^ 17 * bitNat (!s.pairDouble b) + 2 ^ 18 * bitNat (s.calOld b) + 2 ^ 20 * src + 2 ^ 24 * (s.now % 256))

/-- CODE of a result word as the number that its channel's format gives (R361). -/
def resultCode (n : Nat) (w : Word) : Int := if n < 16 then signedOf 16 (w.fld 0 16) else (w.fld 0 16 : Int)

/-- A result is outside its channel's window (R369). -/
def State.outside (s : State) (n : Nat) (w : Word) : Bool :=
  let lim (lo : Nat) : Int := if n < 16 then s.sfld (adcReg n 4) lo 16 else (s.fld (adcReg n 4) lo 16 : Int)
  decide (resultCode n w < lim 0 ∨ lim 16 < resultCode n w) || w.bit 16

/-- A result compared with its window, with EV200 + n (R369). -/
def State.compare (s : State) (n : Nat) (w : Word) : State :=
  let c := s.reg (adcReg n 8)
  if c.bit 0 = false then s
  else
    let out := s.outside n w
    let was := (s.chan n).out && !(s.chan n).fresh
    let s1 := s.updChan n fun x => { x with out := out, fresh := false }
    if (out ∧ was = false) ∨ (out = false ∧ was ∧ c.bit 1) then
      s1.raise (200 + n) (.res 4 n) (wordOf (n + 256 * bitNat out + w.fld 0 16 * 65536))
    else s1

/-- A result of a channel: its registers and its events (R362, R369, R370). -/
def State.result (s : State) (n : Nat) (w : Word) : State :=
  let was := (s.chan n).ovr
  let s1 := s.updChan n fun x => { x with res := w, ovr := w.bit 16, age := 0 }
  let s2 := s1.compare n w
  if w.bit 16 ∧ was = false then s2.raise 236 (.res 4 n) (wordOf (n + w.fld 0 16 * 65536)) else s2

/-- The instant at which a conversion of some cycles ends on a pair. -/
def State.endInstant (s : State) (b : Bool) (cycles : Nat) : Instant :=
  ((s.seqOf b).at_.1 + cycles, (s.seqOf b).at_.2)

/-- A conversion of a sequence ends (R361 to R366). -/
def State.seqConvEnd (s : State) (b : Bool) (c : Conv) (samples : List PairSample) : State :=
  let w := s.resultWord b c.ch c.gain (bitNat b) samples
  let s0 := s.updSeq b fun q => { q with run := none, made := q.made + 1 }
  let s1 := if c.drop then s0
    else
      let s2 := if b then
          { s0 with adc := { s0.adc with resB := SMap.set (fun _ => 0) s0.adc.resB c.entry w } } else s0
      s2.result c.ch w
  let s3 := if (s1.nextConv b (s1.seqOf b).left).isNone then (s1.updSeq b fun q => { q with left := [] }).seqEnd b else s1
  s3.pairGo b (s.endInstant b (convCycles c.smp c.ovs))

/-- An injected conversion ends (R362, R367). A dropped one leaves no result and no event (R373). -/
def State.injConvEnd (s : State) (b : Bool) (i : Inj) (samples : List PairSample) : State :=
  let w := s.resultWord b i.ch i.gain 2 samples
  let s0 := s.setInj b none
  let s1 := if i.drop then s0
    else
      ((s0.updChan i.ch fun x => { x with injRes := w }).result i.ch w).raise 234 (.res 4 i.ch)
        (wordOf (i.ch + w.fld 0 16 * 65536))
  s1.pairGo b (s.endInstant b (convCycles i.smp i.ovs))

/-- A pair converts. -/
def State.pairRuns (s : State) (b : Bool) : Bool := (s.seqOf b).run.isSome || (s.injOf b).isSome

/-- A change of the reference waits for no sample any more. -/
def State.refWaited (s : State) : State :=
  if s.pairRuns false ∨ s.pairRuns true then s else { s with adc := { s.adc with refWait := false } }

/-- A conversion of a pair ends, with 2^OVS samples. One whose last sample runs when the reference changes ends too
(R357). -/
def State.convEnd (s : State) (b : Bool) (samples : List PairSample) : State :=
  if s.pairAble b = false ∨ (s.adc.refRdy = false ∧ s.adc.refWait = false) then s
  else match s.injOf b, (s.seqOf b).run with
  | some i, _ => if samples.length = 2 ^ i.ovs then (s.injConvEnd b i samples).refWaited else s
  | none, some c => if samples.length = 2 ^ c.ovs then (s.seqConvEnd b c samples).refWaited else s
  | none, none => s

/-! ## Reference and calibration (R357 to R360, R372) -/

/-- The instants of both pairs are no more known than the slot tells. -/
def State.loosen (s : State) : State :=
  let f (q : SeqRun) : SeqRun := { q with at_ := (q.at_.1, false) }
  { s with adc := { s.adc with seqA := f s.adc.seqA, seqB := f s.adc.seqB } }

/-- A write of ADC_REF.SEL: 3 is clamped to 2; after a change no sample starts, and those that run end (R357). -/
def State.refSelect (s : State) (v : Word) : State × Nat :=
  let sel := min 2 (v.fld 0 2)
  let k := if v.fld 0 2 = 3 then 1 else 0
  if sel = s.adc.refSel then (s, k)
  else
    ({ s.loosen with adc := { s.loosen.adc with
        refSel := sel, refRdy := false, refBad := false, calAll := true, calPass := none, calRun := false,
        refWait := s.adc.refRdy && (s.pairRuns false || s.pairRuns true) } }, k)

/-- REF_RDY is set (R357): what waited for it goes on. -/
def State.refReady (s : State) : State :=
  ({ s with adc := { s.adc with refRdy := true, calAll := false, calPass := none } }.raise 238 .granted
    (wordOf (1 + 16 * s.adc.refSel))).pairsGo

/-- The working slice from a number on that a CAL_ALL pass calibrates next. -/
def Adc.nextSlice (a : Adc) (from_ : Nat) : Option Nat :=
  (List.range 5).find? fun i => from_ ≤ i && !a.retired.getLsbD i

/-- A CAL_ALL pass goes on with the slices from a number on; after the last one REF_RDY is set. -/
def State.calPassGo (s : State) (from_ : Nat) : State :=
  match s.adc.nextSlice from_ with
  | some i => { s with adc := { s.adc with calPass := some i } }
  | none => s.refReady

/-- The settling time has ended, with REFP − REFN or VDDA at some mV (R357): REF_BAD, a CAL_ALL pass where one is due,
or REF_RDY. -/
def State.refSettled (s : State) (mv : Nat) : State :=
  if s.up 10 = false ∨ s.adc.refRdy ∨ s.adc.calPass.isSome then s
  else if s.adc.refSel = 1 ∧ ¬(1000 ≤ mv ∧ mv ≤ 2700) then
    { s with adc := { s.adc with refBad := true, refWait := false } }.raise 238 .granted (wordOf (2 + 16 * s.adc.refSel))
  else
    let s1 := { s with adc := { s.adc with
      refBad := false, refWait := false, vref := if s.adc.refSel = 0 then 2500 else mv } }
    if s.adc.calAll then s1.calPassGo 0 else s1.refReady

/-- PERIOD_MS has passed (R359): every slice's calibration is one period older, and the spare's starts. -/
def State.calibrate (s : State) : State :=
  if s.up 10 = false ∨ s.rbit 0x300A0000 0 = false ∨ s.adc.refRdy = false ∨ s.adc.calRun ∨ s.testing 9 then s
  else
    { s with adc := { s.adc with
      calAge := (List.range 5).foldl (fun m i => SMap.upd (fun _ => 0) m i fun n => satAdd 6 n 1) s.adc.calAge,
      calRun := decide (s.adc.spare < 5) } }

/-- The lane whose slice has the oldest calibration. Which of several is open (log entry 118). -/
def State.oldestLane (s : State) : Nat :=
  let age (l : Nat) := SMap.get (fun _ => 0) s.adc.calAge (s.laneOf l)
  oneOf ((List.range 4).filter fun l => (List.range 4).all fun m => decide (age m ≤ age l))

/-- A calibration fails: an offset beyond 256 codes, or a gain error beyond 1 % (R360). -/
def calFails (offset gainErr : Int) : Bool := decide (256 < offset ∨ offset < -256 ∨ 100 < gainErr ∨ gainErr < -100)

/-- A slice has been calibrated; one that fails is retired (R360). -/
def State.calibrated (s : State) (i : Nat) (offset gainErr : Int) : State :=
  let s1 := { s with adc := { s.adc with calAge := SMap.set (fun _ => 0) s.adc.calAge i 0 } }
  if calFails offset gainErr then s1.retire i 1 else s1

/-- The calibration of the spare ends: it takes the lane whose slice has the oldest calibration (R359, R360). -/
def State.spareSwap (s : State) (offset gainErr : Int) : State :=
  let s1 := { s with adc := { s.adc with calRun := false } }.calibrated s.adc.spare offset gainErr
  if calFails offset gainErr then s1
  else
    let l := s.oldestLane
    let s2 := s1.setLaneOf l s.adc.spare
    { s2 with adc := { s2.adc with spare := s.laneOf l } }

/-- A calibration ends: of the slice that a CAL_ALL pass is at, which is then at the next one (R357, log entry 11), or
of the spare. None runs with EN at 0 or during a deep self-test (R374). -/
def State.sliceSwap (s : State) (offset gainErr : Int) : State :=
  if s.up 10 = false ∨ s.rbit 0x300A0000 0 = false ∨ s.testing 9 then s
  else match s.adc.calPass with
  | some i => (s.calibrated i offset gainErr).calPassGo (i + 1)
  | none => if s.adc.calRun = false ∨ 5 ≤ s.adc.spare then s else s.spareSwap offset gainErr

/-- PD_ADC comes back (R372): REF_RDY reads 0 until the reference has settled, without a CAL_ALL pass. -/
def State.adcRestore (s : State) : State :=
  { s with adc := { s.adc with refRdy := false, calAll := false, calPass := none, refWait := false, calRun := false } }

/-! ## Change of owner (R373) -/

/-- A conversion marked as its channel's owner changes. -/
def Conv.dropFor (n : Nat) (c : Conv) : Conv := if c.ch = n then { c with drop := true } else c

/-- A running injected request marked. -/
def Inj.dropFor (n : Nat) (i : Inj) : Inj := if i.ch = n then { i with drop := true } else i

/-- The entries of sequencer B that name a channel, enabled or not. -/
def State.entriesOf (s : State) (n : Nat) : List Nat :=
  (List.range 16).filter fun k => s.fld (0x300A0100 + 4 * k) 0 5 == n

/-- What a sequence has left of a channel that changes owner, marked: A still converts it, and its result is
discarded. -/
def SeqRun.dropFor (n : Nat) (q : SeqRun) (b : Bool) : SeqRun :=
  { q with
    left := if b then q.left else q.left.map fun x => if x.1 = n then (x.1, true) else x
    run := q.run.map (Conv.dropFor n) }

/-- A channel changes owner with KEEP 0. -/
def State.chanOwner (s : State) (n : Nat) : State :=
  let ks := s.entriesOf n
  let s1 := s.setReg (adcReg n 0) ((s.reg (adcReg n 0)) &&& 0xFFFFFFFE#32)
  let s2 := s1.each ks fun s k =>
    let s' := s.setReg (0x300A0100 + 4 * k) ((s.reg (0x300A0100 + 4 * k)) &&& 0x7FFFFFFF#32)
    { s' with adc := { s'.adc with resB := SMap.set (fun _ => 0) s'.adc.resB k 0 } }
  let s3 := s2.resetRegs (adcReg n 4) (adcReg n 0x0C)
  let s4 := { s3 with adc := { s3.adc with
    inj := s3.adc.inj.filter fun i => i.ch != n,
    injA := s3.adc.injA.map (Inj.dropFor n), injB := s3.adc.injB.map (Inj.dropFor n),
    seqA := s3.adc.seqA.dropFor n false, seqB := s3.adc.seqB.dropFor n true } }
  s4.updChan n fun c => { c with res := 0, injRes := 0, fresh := true }

/-! ## ADC_STATUS and ADC_SLICE (Table 16.8) -/

/-- ADC_STATUS. Whether REF_RDY is clear yet while the samples that run at a change of the reference end is open (log
entry 152). -/
def State.adcStatus (s : State) : Word :=
  let a := s.adc
  wordOf (bitNat (a.refRdy || (a.refWait && Config.refHigh s.free)) + 4 * bitNat a.calPass.isSome + 2 * bitNat a.refBad + 16 * a.spare + 256 * a.retired.toNat + 2 ^ 13 * bitNat a.deep +
    65536 * a.skips)

/-- ADC_SLICE. -/
def State.adcSlice (s : State) : Word :=
  wordOf (s.laneOf 0 + 16 * s.laneOf 1 + 256 * s.laneOf 2 + 4096 * s.laneOf 3)

end Sys2Proof.Machine
end

