-- ==== Sys2Proof/Machine/Crypto.lean ====
section
/-! DEFINITION. The SEC engines (spec/03 R73, spec/09 R209, spec/21 R440): SHA-256, HMAC-SHA-256 and the verification
of an ECDSA signature over P-256. The spec names these functions and does not write them out; they are taken from
FIPS 180-4, RFC 2104 and FIPS 186-4 (PRESUMED, log entry 7). -/

namespace Sys2Proof.Crypto

/-- The round constants of SHA-256. -/
def shaK : List Word :=
  [0x428A2F98#32, 0x71374491#32, 0xB5C0FBCF#32, 0xE9B5DBA5#32, 0x3956C25B#32, 0x59F111F1#32, 0x923F82A4#32, 0xAB1C5ED5#32]
  ++ [0xD807AA98#32, 0x12835B01#32, 0x243185BE#32, 0x550C7DC3#32, 0x72BE5D74#32, 0x80DEB1FE#32, 0x9BDC06A7#32, 0xC19BF174#32]
  ++ [0xE49B69C1#32, 0xEFBE4786#32, 0x0FC19DC6#32, 0x240CA1CC#32, 0x2DE92C6F#32, 0x4A7484AA#32, 0x5CB0A9DC#32, 0x76F988DA#32]
  ++ [0x983E5152#32, 0xA831C66D#32, 0xB00327C8#32, 0xBF597FC7#32, 0xC6E00BF3#32, 0xD5A79147#32, 0x06CA6351#32, 0x14292967#32]
  ++ [0x27B70A85#32, 0x2E1B2138#32, 0x4D2C6DFC#32, 0x53380D13#32, 0x650A7354#32, 0x766A0ABB#32, 0x81C2C92E#32, 0x92722C85#32]
  ++ [0xA2BFE8A1#32, 0xA81A664B#32, 0xC24B8B70#32, 0xC76C51A3#32, 0xD192E819#32, 0xD6990624#32, 0xF40E3585#32, 0x106AA070#32]
  ++ [0x19A4C116#32, 0x1E376C08#32, 0x2748774C#32, 0x34B0BCB5#32, 0x391C0CB3#32, 0x4ED8AA4A#32, 0x5B9CCA4F#32, 0x682E6FF3#32]
  ++ [0x748F82EE#32, 0x78A5636F#32, 0x84C87814#32, 0x8CC70208#32, 0x90BEFFFA#32, 0xA4506CEB#32, 0xBEF9A3F7#32, 0xC67178F2#32]

/-- The initial hash value. -/
def shaH : List Word := [0x6A09E667#32, 0xBB67AE85#32, 0x3C6EF372#32, 0xA54FF53A#32, 0x510E527F#32, 0x9B05688C#32, 0x1F83D9AB#32, 0x5BE0CD19#32]

/-- A word rotated right. -/
def rotr (x : Word) (n : Nat) : Word := x.rotateRight n

/-- The message schedule, kept as the last 16 words, newest first: the next word. -/
def shaNext (w : List Word) : Word :=
  let a := w.getD 14 0
  let b := w.getD 1 0
  w.getD 15 0 + (rotr a 7 ^^^ rotr a 18 ^^^ (a >>> 3)) + w.getD 6 0 + (rotr b 17 ^^^ rotr b 19 ^^^ (b >>> 10))

/-- `n` more words of the schedule, newest first. -/
def shaExtend : Nat → List Word → List Word
  | 0, w => w
  | n + 1, w => shaExtend n (shaNext w :: w)

/-- The working variables a to h. -/
structure Sha where
  a : Word
  b : Word
  c : Word
  d : Word
  e : Word
  f : Word
  g : Word
  h : Word

/-- One round with its constant and schedule word. -/
def shaRound (v : Sha) (k : Word × Word) : Sha :=
  let t1 := v.h + (rotr v.e 6 ^^^ rotr v.e 11 ^^^ rotr v.e 25) + ((v.e &&& v.f) ^^^ (~~~v.e &&& v.g)) + k.1 + k.2
  let t2 := (rotr v.a 2 ^^^ rotr v.a 13 ^^^ rotr v.a 22) +
    ((v.a &&& v.b) ^^^ (v.a &&& v.c) ^^^ (v.b &&& v.c))
  ⟨t1 + t2, v.a, v.b, v.c, v.d + t1, v.e, v.f, v.g⟩

/-- One block of 16 words folded into the hash value. -/
def shaBlock (h : List Word) (ws : List Word) : List Word :=
  let w := (shaExtend 48 ws.reverse).reverse
  let i : Sha := ⟨h.getD 0 0, h.getD 1 0, h.getD 2 0, h.getD 3 0, h.getD 4 0, h.getD 5 0, h.getD 6 0, h.getD 7 0⟩
  let v := (shaK.zip w).foldl shaRound i
  [i.a + v.a, i.b + v.b, i.c + v.c, i.d + v.d, i.e + v.e, i.f + v.f, i.g + v.g, i.h + v.h]

/-- The big-endian words of bytes. -/
def beWords : List Byte → List Word
  | a :: b :: c :: d :: bs => wordOf (beNat [a, b, c, d]) :: beWords bs
  | _ => []

/-- The padded message. -/
def shaPad (bs : List Byte) : List Byte :=
  bs ++ [0x80#8] ++ List.replicate ((119 - bs.length % 64) % 64) 0 ++ beBytes 8 (8 * bs.length)

/-- Blocks of 16 words folded in order. -/
def shaBlocks : Nat → List Word → List Word → List Word
  | 0, h, _ => h
  | n + 1, h, ws => shaBlocks n (shaBlock h (ws.take 16)) (ws.drop 16)

/-- SHA-256: 32 bytes. -/
def sha256 (bs : List Byte) : List Byte :=
  let ws := beWords (shaPad bs)
  (shaBlocks (ws.length / 16) shaH ws).flatMap fun w => beBytes 4 w.toNat

/-- HMAC-SHA-256 with a 32-byte key. -/
def hmac (key : List Byte) (msg : List Byte) : List Byte :=
  let k := padTo 64 key
  sha256 (k.map (· ^^^ 0x5C#8) ++ sha256 (k.map (· ^^^ 0x36#8) ++ msg))

/-! ## P-256 -/

def p256 : Nat := 0xFFFFFFFF00000001000000000000000000000000FFFFFFFFFFFFFFFFFFFFFFFF
def n256 : Nat := 0xFFFFFFFF00000000FFFFFFFFFFFFFFFFBCE6FAADA7179E84F3B9CAC2FC632551
def b256 : Nat := 0x5AC635D8AA3A93E7B3EBBD55769886BC651D06B0CC53B0F63BCE3C3E27D2604B
def gx256 : Nat := 0x6B17D1F2E12C4247F8BCE6E563A440F277037D812DEB33A0F4A13945D898C296
def gy256 : Nat := 0x4FE342E2FE1A7F9B8EE7EB4A7C0F9E162BCE33576B315ECECBB6406837BF51F5

/-- x to the power e modulo m, over the low `k` bits of e. -/
def powMod (m : Nat) : Nat → Nat → Nat → Nat
  | 0, _, _ => 1
  | k + 1, x, e => (if e % 2 = 1 then x else 1) * powMod m k (x * x % m) (e / 2) % m

/-- The inverse modulo a 256-bit prime. -/
def invMod (m x : Nat) : Nat := powMod m 256 (x % m) (m - 2)

/-- a minus b modulo m. -/
def subMod (m a b : Nat) : Nat := (a % m + m - b % m) % m

/-- The sum of two points; none is the point at infinity. -/
def ptAdd : Option (Nat × Nat) → Option (Nat × Nat) → Option (Nat × Nat)
  | none, q => q
  | q, none => q
  | some (x1, y1), some (x2, y2) =>
    if x1 = x2 ∧ (y1 + y2) % p256 = 0 then none
    else
      let l := if x1 = x2 then (3 * x1 * x1 + (p256 - 3)) * invMod p256 (2 * y1) % p256
        else subMod p256 y2 y1 * invMod p256 (subMod p256 x2 x1) % p256
      let x := subMod p256 (l * l) (x1 + x2)
      some (x, subMod p256 (l * subMod p256 x1 x) y1)

/-- A multiple of a point, over the low `k` bits of the factor. -/
def ptMul : Nat → Nat → Option (Nat × Nat) → Option (Nat × Nat)
  | 0, _, _ => none
  | k + 1, e, q => ptAdd (if e % 2 = 1 then q else none) (ptMul k (e / 2) (ptAdd q q))

/-- ECDSA verification over P-256 of a hash, a public key and a signature. -/
def ecdsaVerify (x y : Nat) (hash : List Byte) (r s : Nat) : Bool :=
  let onCurve := x < p256 && y < p256 && (y * y % p256 == (x * x * x + (p256 - 3) * x + b256) % p256)
  let w := invMod n256 s
  let q := ptAdd (ptMul 256 (beNat hash * w % n256) (some (gx256, gy256)))
    (ptMul 256 (r * w % n256) (some (x, y)))
  onCurve && 1 ≤ r && r < n256 && 1 ≤ s && s < n256 &&
    match q with
    | some (qx, _) => qx % n256 == r
    | none => false

end Sys2Proof.Crypto
end

