-- ==== Sys2Proof/Machine/Display.lean ====
section
/-! DEFINITION. The display ports (spec/13): geometry, frame timing and levels, arming, verification, the flip,
copy-forward, uncorrectable front words and pad faults. -/

namespace Sys2Proof.Machine

/-! ## Geometry (R297 to R299) -/

/-- The bank of a cell's front sash, and of its back sash (R305). -/
def State.frontBank (s : State) (c : Nat) : Nat := bitNat (s.cell c).front
def State.backBank (s : State) (c : Nat) : Nat := 1 - s.frontBank c

/-- A cell's base address in a bank (R297). -/
def cellAddr (bank c : Nat) : Nat := bankBase bank + 0x400 * c

/-- A dot's address in a bank (R297). -/
def dotAddr (bank c x y : Nat) : Nat := cellAddr bank c + 2 * (32 * y + x)

/-- A byte of a front sash as scan-out reads it: none from an uncorrectable word (R313). -/
def State.scanByte (s : State) (a : Nat) : Option Byte :=
  match s.eccOf (a / 8 * 8) with
  | .good => some (s.rdByte a)
  | .poisoned => none
  | .bits 0 => some (s.rdByte a)
  | .bits 1 => some (s.rdByte a)
  | .bits 2 => none
  | .bits _ => if Config.beyondCode s.free = 0 then none else 
    some ((Config.beyondData s.free >>> (8 * (a % 8))).setWidth 8)

/-- The grey of colour A (false) or B (true) of a dot as scan-out reads it from the front sash (R298). A dark cell is
unlit (R311), and so are the dots of an uncorrectable word (R313). -/
def State.grey (s : State) (c x y : Nat) (b : Bool) : Nat :=
  if (s.cell c).dark then 0
  else match s.scanByte (dotAddr (s.frontBank c) c x y + bitNat b) with
    | some v => v.toNat % 64
    | none => 0

/-- The bit that sink output `m` of lane `k` of a port holds in plane `b` of a row (R299). -/
def State.sinkBit (s : State) (p k row b m : Nat) : Bool :=
  let col := 128 * k + m / 2
  (s.grey (16 * p + col / 32) (col % 32) row (m % 2 == 1)).testBit b

/-! ## Frame timing (R301 to R304), in CK_SCAN cycles -/

def rowCycles (period : Nat) : Nat := (50 * period - 800) / 16

/-- The unit u: the largest integer for which max(u, 256) + 62u fits in the row (R302). -/
def unitCycles (sRow pre : Nat) : Nat :=
  let room := sRow - pre - 60
  let u := room / 63
  if 256 ≤ u then u else min 256 ((room - 256) / 62)

def unitEff (u bright : Nat) : Nat := max 1 (u * bright / 256)

/-- The on-slot of plane `b`. -/
def onSlot (u b : Nat) : Nat := max (u * 2 ^ b) 256

/-- What the scan of a port does in one CK_SCAN cycle. What is shifted is the row, the plane and the index of the bit,
the last being sink output 0. -/
structure Scan where
  oeN : Bool
  lat : Bool
  rowen : Bool
  rowa : Nat
  shift : Option (Nat × Nat × Nat)
  deriving DecidableEq, Repr

/-- The levels of a port's 12 output pads. -/
structure Pads where
  col : BitVec 4
  clk : Bool
  lat : Bool
  oeN : Bool
  rowa : BitVec 4
  rowen : Bool
  deriving DecidableEq, Repr

/-- The held levels of bank DP (Table 11.5). -/
def Pads.held : Pads := ⟨0, false, false, true, 0, false⟩

/-- The plane of a row at a cycle from the row's end of pre-discharge: the plane and the cycle within it. -/
def planeAt (u : Nat) : Nat → Nat → Option (Nat × Nat)
  | 0, _ => none
  | n + 1, z => if z < 10 + onSlot u n then some (n, z) else planeAt u n (z - (10 + onSlot u n))

/-- The scan at a cycle of a frame of rows of `sRow` cycles, unit `u` and `ue` effective (Tables 13.2 and 13.3). ROWEN
and ROWA change where Table 13.3 says, and until row 0 begins they stay as `prev` gives them. -/
def scanAt (sRow u ue pre : Nat) (prev : Bool × Nat) (z : Nat) : Scan :=
  let row := (z - 300) / sRow
  let y := (z - 300) % sRow
  if z < 300 then ⟨true, false, prev.1, prev.2, if z < 256 then some (0, 5, z) else none⟩
  else if 16 ≤ row then ⟨true, false, true, 15, none⟩
  else if y < pre then
    ⟨true, false, false, if pre / 2 ≤ y then row else if row = 0 then prev.2 else row - 1, none⟩
  else match planeAt u 6 (y - pre) with
  | none => ⟨true, false, true, row, none⟩
  | some (b, g) =>
    { oeN := !(10 ≤ g && g < 10 + ue * 2 ^ b), lat := 3 ≤ g && g < 5, rowen := true, rowa := row,
      shift := if 6 ≤ g ∧ g < 262 then
          (if 0 < b then some (row, b - 1, g - 6) else if row < 15 then some (row + 1, 5, g - 6) else none)
        else none }

/-- The bit on DPn_COL[k] in a cycle in which something is shifted: colour B of the last column comes first (R299). -/
def State.colBit (s : State) (p k : Nat) (sh : Nat × Nat × Nat) : Bool := s.sinkBit p k sh.1 sh.2.1 (255 - sh.2.2)

/-- A port's scan-out is enabled: PD_SCAN on and EN at 1. -/
def State.portOn (s : State) (p : Nat) : Bool := s.up 8 && s.rbit (dpReg p 0) 0

/-- The pads of a pattern as DPn_FAULT numbers them. -/
def Pads.ofBits (b : BitVec 12) : Pads :=
  ⟨b.setWidth 4, b.getLsbD 4, b.getLsbD 5, b.getLsbD 6, (b >>> 7).setWidth 4, b.getLsbD 11⟩

/-- Pattern `i` of the 24 of a self-test: each pad in turn high with every other low, then low with every other high.
ROWEN and OE_N never light a row together: while OE_N is low for its own pattern ROWEN is low, else OE_N is high with
ROWEN (R315). -/
def testPattern (i : Nat) : BitVec 12 :=
  let own : BitVec 12 := BitVec.ofNat 12 (2 ^ (i / 2))
  let v := if i % 2 = 0 then own else ~~~own
  if v.getLsbD 11 ∧ v.getLsbD 6 = false then (if i / 2 = 6 then v &&& 0x7FF else v ||| 0x040) else v

/-- The scan of the frame that a port is in, at a cycle: OE_N is high under BLANK, in a frame blanked by a fault, whose
ROWEN is low too, and in row 0 of a frame with a self-test (R314, R315, Table 13.6). -/
def State.portScan (s : State) (p z : Nat) : Scan :=
  let d := s.dport p
  let q := scanAt d.row d.u d.unit d.pre d.prev z
  { q with
    oeN := q.oeN || d.blanked || s.rbit (dpReg p 0) 1 || (d.test && decide (z < 300 + d.row)),
    rowen := q.rowen && !d.blanked }

/-- A port's pads as driven in cycle `z` of its frame: held while EN is 0, while no frame has started, and while bank DP
is shuttered (Table 13.6, Table 11.5). A self-test takes 200 cycles for each of its patterns. CLK is high in the second
half (`late`) of a cycle that shifts a bit, so that COL changes as it falls (R300); the level of COL while nothing is
shifted is free (log entry 148). -/
def State.portPads (s : State) (p z : Nat) (late : Bool) : Pads :=
  let d := s.dport p
  if s.shut 2 ∨ s.portOn p = false ∨ d.frame = false then Pads.held
  else if d.test ∧ z < 4800 then Pads.ofBits (testPattern (z / 200))
  else
    let q := s.portScan p z
    { col := match q.shift with
        | some sh => BitVec.ofNat 4 (((List.range 4).map fun k => if s.colBit p k sh then 2 ^ k else 0).sum)
        | none => Config.colIdle p z
      clk := late && q.shift.isSome
      lat := q.lat
      oeN := q.oeN
      rowa := BitVec.ofNat 4 q.rowa
      rowen := q.rowen }

/-! ## Arms (R306) -/

/-- The cells armed for a tick. -/
def State.armedFor (s : State) (n : BitVec 48) : List Nat := (List.range 192).filter fun c => (s.cell c).arm == some n

/-- Some cell is armed. -/
def State.anyArmed (s : State) : Bool := s.disp.cells.any fun q => q.2.arm.isSome

/-- A cell's arm ended. -/
def State.unarm (s : State) (c : Nat) : State := s.updCell c fun x => { x with arm := none, verdict := none }

/-- EV97 + 4p for a cell (Table 13.5): 1 dark outside a flip, 2 not qualified, 3 skipped. -/
def State.ev97 (s : State) (c kind : Nat) : State :=
  s.raise (97 + 4 * (c / 16)) (.res 0 c) (wordOf (c % 16 + 256 * kind))

/-- The arms of a tick ended without a flip (R307, R308). -/
def State.endArms (s : State) (kind : Nat) (cells : List Nat) : State :=
  s.each cells fun s c => (s.unarm c).ev97 c kind

/-- The arms for ticks above `old` and below `new`: no boundary of theirs occurs (R308). -/
def State.skipArms (s : State) (old new : Nat) : State :=
  s.endArms 3 ((List.range 192).filter fun c => match (s.cell c).arm with
    | some a => decide (old < a.toNat ∧ a.toNat < new)
    | none => false)

/-- A write to SRAM has touched a cell's back sash: after its verification began it fails with WHY 3 (R309). -/
def State.cellWritten (s : State) (a : Nat) : State :=
  match sramRegion a with
  | some r =>
    if r = 2 ∨ r = 3 then
      let c := (a - bankBase (r - 2)) / 1024
      if (s.cell c).verdict.isSome ∧ s.backBank c = r - 2 then s.updCell c fun x => { x with verdict := some 3 } else s
    else s
  | none => s

/-! ## Verification (R170, R309) -/

/-- The check of a cell's back sash: every word and the check word read, and the CRC compared. WHY 0 passes. -/
def State.verifyCell (s : State) (c : Nat) : State × Nat :=
  let b := s.backBank c
  let r := s.sramRead (cellAddr b c) 1024
  let k := r.1.eccRead (chkKey b c)
  if r.2 ∨ k.2 then (k.1, 1)
  else if crc32c (k.1.rdBytes (cellAddr b c) 1024) = k.1.chkOf b c then (k.1, 0) else (k.1, 1)

/-- Slot 39: every cell armed for the next tick is verified (R309). -/
def State.verifyArmed (s : State) : State :=
  s.each (s.armedFor (s.tick.num + 1)) fun s c =>
    let r := s.verifyCell c
    r.1.updCell c fun x => { x with verdict := some r.2 }

/-! ## The flip (R307, R310 to R312) -/

/-- The boundary of an armed tick is qualified (R307, R48). -/
def State.qualified (s : State) : Bool :=
  !s.rbit dispCtrl 0 || s.tick.srcF == 3 || s.tick.flipInd || s.tick.st == .holdover || s.tick.st == .slewing

/-- One armed cell at the boundary of its tick: FRONT inverted, or the cell made dark. A cell that no slot 39 has
verified is verified now. -/
def State.flipCell (s : State) (c : Nat) : State :=
  let r := match (s.cell c).verdict with
    | some w => (s, w)
    | none => s.verifyCell c
  if r.2 = 0 then
    r.1.updCell c fun x => { x with
      front := !x.front, dark := false, why := 0, bad := false, arm := none, verdict := none }
  else
    { r.1 with prot := { r.1.prot with flipFail := sat16 r.1.prot.flipFail } }.updCell c
      fun x => { x with dark := true, why := r.2, arm := none, verdict := none }

/-- A front cell met uncorrectable: EV97 kind 1, and dark with WHY 2 from the next frame start (R313). -/
def State.frontBad (s : State) (c : Nat) : State :=
  if (s.cell c).dark ∨ (s.cell c).bad then s else (s.updCell c fun x => { x with bad := true }).ev97 c 1

/-- A front word carried to the back bank: an uncorrectable one as a poisoned word (R312). -/
def State.copyWord (s : State) (c i : Nat) : State :=
  let f := cellAddr (s.frontBank c) c + 8 * i
  let b := cellAddr (s.backBank c) c + 8 * i
  let r := s.eccRead f
  if r.2 then (r.1.setEcc b .poisoned).frontBad c else r.1.wrWhole b (r.1.rdBytes f 8)

/-- Copy-forward of one cell with its check word (R312). An uncorrectable check word is carried as poisoned. -/
def State.copyForward (s : State) (c : Nat) : State :=
  let s1 := s.each (List.range 128) fun s i => s.copyWord c i
  let r := s1.eccRead (chkKey (s1.frontBank c) c)
  let s2 := r.1.setChk (r.1.backBank c) c (r.1.chkOf (r.1.frontBank c) c)
  if r.2 then s2.setEcc (chkKey (s2.backBank c) c) .poisoned else s2

/-- The occurrence of EV96 + 4p for one owner: only that owner's cells (R316). -/
def State.ev96 (s : State) (p : Nat) (flipped dark : List Nat) (o : Nat) : State :=
  let bits (cs : List Nat) : Nat :=
    ((cs.filter fun c => c / 16 == p && s.owner 0 c == o).map fun c => 2 ^ (c % 16)).sum
  s.raise (96 + 4 * p) (.tenant o) (wordOf (bits flipped + 65536 * bits dark))

/-- The flip of the tick that has begun (R307, R310 steps 1 and 2, Table 13.5), and the cells that have flipped. -/
def State.flip (s : State) : State × List Nat :=
  let cells := s.armedFor s.tick.num
  if cells.isEmpty then (s, [])
  else
    let q := s.qualified
    let s1 := if q then s.each cells State.flipCell else s.endArms 2 cells
    let flipped := if q then cells.filter fun c => !(s1.cell c).dark else []
    let dark := if q then cells.filter fun c => (s1.cell c).dark else []
    let s2 := { s1 with disp := { s1.disp with
      flipTick := s.tick.num, flipped := flipped.length, darkened := dark.length } }
    let s3 := s2.raise 10 .granted (wordOf (flipped.length + 256 * dark.length + s.now % 65536 * 65536))
    let s4 := if q then
        s3.each (cells.map fun c => c / 16).dedup fun s p =>
          s.each ((cells.filter fun c => c / 16 == p).map fun c => s.owner 0 c).dedup fun s o => s.ev96 p flipped dark o
      else s3
    (s4, flipped)

/-! ## Scan-out (R301, R313, R314) -/

/-- A port's frame that ends has read every front word: corrections, and cells with an uncorrectable word, which are
dark from the next frame (R313). Dark cells are not read. -/
def State.scanFront (s : State) : State :=
  s.each (s.ecc.map fun q => q.1) fun s k =>
    match sramRegion k with
    | some r =>
      let c := (k - bankBase (r - 2)) / 1024
      if (r = 2 ∨ r = 3) ∧ s.frontBank c = r - 2 ∧ s.portOn (c / 16) ∧ (s.dport (c / 16)).frame ∧
          (s.cell c).dark = false then
        let q := s.eccRead k
        if q.2 then q.1.frontBad c else q.1
      else s
    | none => s

/-- Pads of a port faulted (R314): DPn_FAULT, ACTIVE and EV98 + 4p. -/
def State.padFault (s : State) (p : Nat) (bad : BitVec 12) : State :=
  let f := (s.dport p).fault ||| bad
  (s.updDport p fun d => { d with fault := f, active := true }).raise (98 + 4 * p) .granted (wordOf f.toNat)

/-- The pads of one port that mismatched in the frame that ends: those that also did in the frame before are faulted
(R314). Readback is suspended while the port is off or bank DP is shuttered. -/
def State.portMismatch (s : State) (m : BitVec 12) (p : Nat) : State :=
  let m := if s.portOn p = false ∨ (s.dport p).frame = false ∨ s.shut 2 then 0 else m
  let bad := m &&& (s.dport p).mis
  let s1 := if (bad &&& ~~~(s.dport p).fault) != 0 then s.padFault p bad else s
  s1.updDport p fun d => { d with mis := m }

/-- The readback of every port over the frame that ends. -/
def State.padReadback (s : State) (mis : List (BitVec 12)) : State :=
  s.each (List.range 12) fun s p => s.portMismatch (mis.getD p 0) p

/-- A cell whose front sash has been met uncorrectable is dark from this frame start on (R313). -/
def State.cellFrame (s : State) (c : Nat) : State :=
  if (s.cell c).bad = false then s
  else s.updCell c fun x =>
    { x with bad := false, dark := true, why := if x.dark then x.why else 2 }

/-- A port that software has freed of every fault bit resumes (R314). -/
def State.portResume (s : State) (p : Nat) : State :=
  let d := s.dport p
  if d.active ∧ d.fault = 0 then
    (s.updDport p fun d => { d with active := false }).raise (99 + 4 * p) .granted 0
  else s

/-- A frame starts on one port (R301, Table 13.6): its figures are taken, and whether it is blanked (R314). ROWEN and
ROWA go on from where the frame before left them; a frame that the boundary has cut short is not told from a whole one
(log entry 148). -/
def State.portFrame (s : State) (p : Nat) : State :=
  if s.portOn p = false then
    s.updDport p fun d => { d with frame := false, blanked := false, test := false, prev := (false, 0) }
  else
    let s1 := (s.each ((List.range 16).map fun c => 16 * p + c) State.cellFrame).portResume p
    let sRow := rowCycles s.periodUs
    let pre := s.fld (dpReg p 0) 4 10
    let u := unitCycles sRow pre
    s1.updDport p fun d => { d with
      row := sRow, u := u, pre := pre, unit := unitEff u (s.fld (dpReg p 0) 16 9),
      prev := if d.frame then (true, 15) else (false, 0), frame := true, blanked := d.active, test := false }

/-- The self-test that waited for a frame start begins (R315, log entry 149). -/
def State.dispTest (s : State) : State :=
  match s.disp.due with
  | some t =>
    ({ s with disp := { s.disp with due := none }, tests := SMap.set (fun _ => none) s.tests 5 (some t) }).updDport
      t.unit fun d => { d with test := true }
  | none => s

/-- PD_SCAN goes off: no frame runs. -/
def State.scanOff (s : State) : State :=
  s.each (List.range 12) fun s p => s.updDport p fun d => { d with frame := false, blanked := false, test := false }

/-- The frame starts on every enabled port (R301). -/
def State.frameStart (s : State) : State := (s.each (List.range 12) State.portFrame).dispTest

/-- Steps 1 to 4 of R310: the flip, the frame start, and copy-forward of the cells that have flipped. -/
def State.frameSteps (s : State) : State :=
  let r := s.flip
  r.1.frameStart.each r.2 State.copyForward

/-! ## A change of owner of a cell (R63, R312) -/

/-- An armed flip is cancelled; with KEEP 0 the back-sash cell is cleared with a valid check. -/
def State.cellOwnerChange (s : State) (c : Nat) (keep : Bool) : State :=
  let s1 := s.unarm c
  if keep then s1
  else
    let b := s1.backBank c
    (s1.zeroMem (cellAddr b c) (cellAddr b c + 1024)).setChk b c zeroCellCrc

end Sys2Proof.Machine
end

