-- ==== Sys2Proof/Machine/Flash.lean ====
section
/-! DEFINITION. The flash array and its controller (spec/08): reads under DEC-TED, the ledger's records, command
sequences, programs, erase pulses, suspends, remapping and the comparator. -/

namespace Sys2Proof.Machine

/-! ## Remapping (R180) -/

/-- A remap entry. -/
def State.remapOf (s : State) (i : Nat) : Remap := SMap.get (fun _ => Remap.free) s.flash.remap i

/-- A remap entry set. -/
def State.setRemap (s : State) (i : Nat) (r : Remap) : State :=
  { s with flash := { s.flash with remap := SMap.set (fun _ => Remap.free) s.flash.remap i r } }

/-- An entry that maps a logical sector. -/
def Remap.maps (r : Remap) (n : Nat) : Bool :=
  match r with
  | .mapped l _ => l == n
  | _ => false

/-- The spare that a logical sector is mapped to. Sectors 512 to 529 are never remapped. -/
def State.spareOf (s : State) (n : Nat) : Option Nat :=
  if 512 ≤ n ∧ n ≤ 529 then none else (List.range 64).find? fun i => (s.remapOf i).maps n

/-- The physical sector of a logical one. -/
def State.phys (s : State) (n : Nat) : Nat :=
  match s.spareOf n with
  | some i => 4032 + i
  | none => n

/-- The physical word of a logical one. -/
def State.physWord (s : State) (w : Nat) : Nat := s.phys (w / 256) * 256 + w % 256

/-- FREE spares. -/
def State.freeSpares (s : State) : List Nat := (List.range 64).filter fun i => s.remapOf i == .free

/-- A physical sector marked suspect (R166). -/
def State.suspect (s : State) (p : Nat) : Bool := SMap.get (fun _ => false) s.flash.suspect p

/-- A mark set or cleared. -/
def State.setSuspect (s : State) (p : Nat) (b : Bool) : State :=
  { s with flash := { s.flash with suspect := SMap.set (fun _ => false) s.flash.suspect p b } }

/-- The owner to whom the events of a physical sector go: that of the logical sector which reaches it. -/
def State.logicalOf (s : State) (p : Nat) : Nat :=
  if 4032 ≤ p then
    match s.remapOf (p - 4032) with
    | .mapped l _ => l
    | _ => p
  else p

/-! ## Ledger records (R199, Tables 8.5 and 8.6) -/

/-- Bits [15:0] of the CRC-32C over bytes 2 to 7 of a word. -/
def chk16 (w : DWord) : Nat := (crc32c ((leBytes 8 w.toNat).drop 2)).toNat % 65536

/-- A 64-bit record with its CHK in [15:0]. -/
def withChk (n : Nat) : DWord :=
  let w : DWord := BitVec.ofNat 64 (n / 65536 * 65536)
  w ||| BitVec.ofNat 64 (chk16 w)

/-- A record word. -/
def recWord (type sector aux seq : Nat) : DWord :=
  withChk (type % 256 * 2 ^ 56 + sector % 4096 * 2 ^ 44 + aux % 4096 * 2 ^ 32 + seq % 65536 * 2 ^ 16)

/-- A field of a flash word. -/
def dfld (w : DWord) (lo k : Nat) : Nat := fieldOf w.toNat lo k

/-- A stored word that reads as erased (R159). -/
def FWord.isErased (v : FWord) : Bool := v == FWord.erased

/-- The record types of an area: the factory map, the grown table, the journal. -/
def factoryTypes : List Nat := [0x1F]
def grownTypes : List Nat := [0x2B, 0x2E, 0x35, 0x36, 0x5E]
def journalTypes : List Nat := [0x4A, 0x4D]

/-- A stored word is a valid record of an area (R199): it reads without uncorrectable error, with its TYPE and CHK. -/
def FWord.validIn (v : FWord) (types : List Nat) : Bool :=
  v.bad ≤ 2 && types.contains (dfld v.data 56 8) && dfld v.data 0 16 == chk16 v.data

/-- A word that holds data, all its stored bits right. -/
def FWord.of (d : DWord) : FWord := ⟨d, 0, none⟩

/-- A physical sector whose every word reads as erased. -/
def State.sectorErased (s : State) (p : Nat) : Bool := !s.flash.words.any fun q => q.1 / 256 == p

/-- A pulse-limit failure in the ledger (R197): CAUSE LEDGER and EV77 with the physical sector. -/
def State.ledgerFail (s : State) (p : Nat) : State :=
  { s with flash := { s.flash with fail := true, cause := 4 } }.raise 77 .granted (wordOf p)

/-- A record programmed into the first of some erased words that takes it: the state, and the word. A word whose program
reaches its limit is left torn, and the next one is tried (R197, R199; log entry 121). -/
def State.putRecordIn (s : State) (type sector aux : Nat) : List Nat → State × Option Nat
  | [] => (s, none)
  | w :: ws =>
    let d := recWord type sector aux s.flash.seq
    if Config.recordFails s.free then
      ((s.drawn.setFword w ⟨d, 3, none⟩).ledgerFail (w / 256)).putRecordIn type sector aux ws
    else
      let s1 := s.drawn.setFword w (FWord.of d)
      ({ s1 with flash := { s1.flash with seq := (s.flash.seq + 1) % 65536 } }, some w)

/-- The ring sectors that may follow the active one, in order: those that have not failed (R197, R202). -/
def State.ringsAfter (s : State) : List Nat :=
  ((List.range 7).map fun i => (s.flash.ring + 1 + i) % 8).filter fun r => !s.flash.ringBad.getLsbD r

/-- The next ring sector is wholly erased. -/
def State.ringNextErased (s : State) : Bool :=
  match s.ringsAfter with
  | r :: _ => s.sectorErased (522 + r)
  | [] => false

/-- The words that a journal record may go to: the next erased one of the active ring sector, else the first of each
wholly erased one that follows (R199, R202). -/
def State.journalWords (s : State) : List Nat :=
  let base := (522 + s.flash.ring) * 256
  let here := ((List.range 256).filter fun i => s.flash.ringWord ≤ i).find? fun i => (s.fword (base + i)).isErased
  (here.map fun i => base + i).toList ++
    ((s.ringsAfter.filter fun r => s.sectorErased (522 + r)).map fun r => (522 + r) * 256)

/-- A record of the erase journal (R202). A ring sector in which the program failed is skipped from then on (R197). -/
def State.putJournal (s : State) (type sector aux : Nat) : State :=
  let q := s.putRecordIn type sector aux s.journalWords
  match q.2 with
  | none => q.1
  | some w =>
    let r := w / 256 - 522
    let failed := ((s.journalWords.takeWhile fun x => x != w).map fun x => 2 ^ (x / 256 - 522)).sum
    { q.1 with flash := { q.1.flash with
        ring := r, ringWord := w % 256 + 1, ringBad := q.1.flash.ringBad ||| BitVec.ofNat 8 failed } }

/-- The words of a half of the grown bad table. -/
def halfWords (h : Nat) : List Nat := (List.range 768).map fun i => (516 + 3 * h) * 256 + i

/-- The erased words of a half. -/
def State.halfFree (s : State) (h : Nat) : List Nat := (halfWords h).filter fun w => (s.fword w).isErased

/-- The half of the grown bad table in force, as a number. -/
def State.halfNo (s : State) : Nat := bitNat s.flash.half

/-- Operations put behind those that wait. -/
def State.enqueue (s : State) (ops : List FlashOp) : State :=
  { s with flash := { s.flash with queue := s.flash.queue ++ ops } }

/-- An entry into a lower state is in progress: no new flash operation starts (R265). -/
def State.inEntry (s : State) : Bool := s.pwr.phase != .idle

/-- Operations newly asked for: they wait for the end of an entry (R265). -/
def State.enqueueNew (s : State) (ops : List FlashOp) : State :=
  if s.inEntry then { s with flash := { s.flash with wait := s.flash.wait ++ ops } } else s.enqueue ops

/-- The end of an entry: what waited for it joins the queue. -/
def State.enqueueWaiting (s : State) : State :=
  { s with flash := { s.flash with queue := s.flash.queue ++ s.flash.wait, wait := [] } }

/-- Operations put in front of those that wait. -/
def State.enqueueFront (s : State) (ops : List FlashOp) : State :=
  { s with flash := { s.flash with queue := ops ++ s.flash.queue } }

/-- A record of the grown bad table waits while the other half is erased (R204). -/
def State.grownWait (s : State) (type sector aux : Nat) : State :=
  let s1 := { s with flash := { s.flash with badPend := s.flash.badPend ++ [(type, sector, aux)] } }
  if s.flash.badPend.isEmpty then
    let o := 516 + 3 * (1 - s.halfNo)
    s1.enqueueFront [.erase o 5 .half, .erase (o + 1) 5 .half, .erase (o + 2) 5 .half, .done 0 0 .half]
  else s1

/-- A record of the grown bad table: into the half in force, or waiting when that half is full (R204). -/
def State.putGrown (s : State) (type sector aux : Nat) : State :=
  if s.flash.badPend.isEmpty then
    let q := s.putRecordIn type sector aux (s.halfFree s.halfNo)
    if q.2.isSome then q.1 else q.1.grownWait type sector aux
  else s.grownWait type sector aux

/-! ## Reads (R159, R164, R166, R184) -/

/-- An uncorrectable flash word (R166): counted and recorded by its physical address (log entry 122), its sector marked
suspect, EV65. In the ledger's sectors it is torn and marks nothing (R200). -/
def State.flashUe (s : State) (w : Nat) : State :=
  let p := s.phys (w / 256)
  if 512 ≤ p ∧ p ≤ 529 then s
  else
    let s1 := s.countUe 5 (0x04000000 + 8 * s.physWord w)
    let s2 := if s.suspect p then s1 else (s1.setSuspect p true).putGrown 0x35 p 0
    s2.raise 65 (.sector (w / 256)) (wordOf (w / 256))

/-- A correction of a flash word counted; one of two bits raises EV66 (R159, R164). -/
def State.flashCe (s : State) (w : Nat) (two : Bool) : State :=
  if two then
    ({ s with prot := { s.prot with ceTwo := sat16 s.prot.ceTwo } }.ceReached 2 (sat16 s.prot.ceTwo)).raise 66
      (.sector (w / 256)) (wordOf (8 * w))
  else { s with prot := { s.prot with ceOne := sat16 s.prot.ceOne } }.ceReached 1 (sat16 s.prot.ceOne)

/-- What a logical word's stored bits read as: corrected, uncorrectable, or, beyond the code, one of the outcomes that
R159 allows. -/
def State.flashDecode (s : State) (w : Nat) : State × Option DWord :=
  let v := s.fword (s.physWord w)
  match v.bad with
  | 0 => (s, some v.data)
  | 1 => (s.flashCe w false, some v.data)
  | 2 => (s.flashCe w true, some v.data)
  | 3 => (s.flashUe w, none)
  | _ =>
    match Config.beyondCode s.free with
    | 0 => (s.drawn.flashUe w, none)
    | 1 => (s.drawn.flashCe w (Config.beyondTwo s.free), some (Config.beyondData s.free))
    | 2 => (s.drawn, some (Config.beyondData s.free))

/-- A read of a logical word. In a suspect sector every read fails (R166). -/
def State.flashRead (s : State) (w : Nat) : State × Option DWord :=
  if s.suspect (s.phys (w / 256)) then (s, none) else s.flashDecode w

/-- Words read in order; none when one of them is uncorrectable. -/
def State.flashReads (s : State) : List Nat → State × Option (List DWord)
  | [] => (s, some [])
  | w :: ws =>
    let r := s.flashRead w
    let q := r.1.flashReads ws
    (q.1, match r.2, q.2 with
      | some d, some ds => some (d :: ds)
      | _, _ => none)

/-- The logical words that `n` bytes of flash from an offset touch. -/
def flashWords (off n : Nat) : List Nat := (List.range ((off % 8 + n + 7) / 8)).map fun i => off / 8 + i

/-- `n` bytes of flash from an offset. -/
def State.flashBytes (s : State) (off n : Nat) : State × Option (List Byte) :=
  let r := s.flashReads (flashWords off n)
  (r.1, r.2.map fun ds => bytesAt (ds.flatMap fun d => leBytes 8 d.toNat) (off % 8) n)

/-! ## Jobs -/

/-- The job that a spare is prepared for. -/
def Job.root : Job → Job
  | .spare _ _ _ j => j.root
  | j => j

/-- The job of an operation. -/
def FlashOp.job : FlashOp → Job
  | .erase _ _ j => j
  | .prog _ _ j => j
  | .copy j => j
  | .done _ _ j => j

/-- The operations of a root job taken out of the queue. -/
def dropJob (j : Job) (q : List FlashOp) : List FlashOp := q.filter fun o => o.job.root != j

/-- The operation without its first occurrence. -/
def dropOp (o : FlashOp) : List FlashOp → List FlashOp
  | [] => []
  | p :: q => if p = o then q else p :: dropOp o q

/-- The job whose operations come one after the other. The sequences of a path are commands of their own. -/
def Job.order : Job → Option Job
  | .window _ => none
  | .sys => none
  | j => some j

/-- The sector whose content a job works on while a spare is prepared for it. -/
def Job.kept : Job → List Nat
  | .spare _ l _ _ => [l]
  | _ => []

/-- The sector that an operation erases or programs. -/
def FlashOp.sect : FlashOp → Option Nat
  | .erase n _ _ => some n
  | .prog w _ _ => some (w / 256)
  | _ => none

/-- The operations that nothing before them holds back, in queue order: the first of each job, and the first on each
sector. `jobs` and `sects` are those of the operations before. -/
def eligible : List Job → List Nat → List FlashOp → List FlashOp
  | _, _, [] => []
  | jobs, sects, o :: q =>
    let j := o.job.root.order
    let free := (match j with
      | some j => !jobs.contains j
      | none => true) && match o.sect with
      | some n => !sects.contains n
      | none => true
    let rest := eligible (j.toList ++ jobs) (o.sect.toList ++ o.job.kept ++ sects) q
    if free then o :: rest else rest

/-- The operations under way: the program that runs and the erases in progress, as operations. -/
def Flash.running (f : Flash) : List FlashOp := f.prog.toList ++ f.erases.map fun e => .erase e.sect e.reason e.job

/-- The operations that may start now: none is behind one of its job or of its sector that is under way (R190, R193,
R194). -/
def State.ready (s : State) : List FlashOp :=
  let r := s.flash.running
  eligible (r.filterMap fun o => o.job.root.order) (r.flatMap fun o => o.sect.toList ++ o.job.kept) s.flash.queue

/-- An erase of a wipe (R64). -/
def Job.isWipe (j : Job) : Bool :=
  match j.root with
  | .wipe _ => true
  | _ => false

/-- The records of an erase find room: the next ring sector is erased, or the active one has room for them beside those
of the erases in progress and of a ring erase (R202). -/
def State.ringRoom (s : State) : Bool := s.ringNextErased || decide (s.flash.ringWord + 6 ≤ 256)

/-- A ring sector may be erased (R202): it is not the active one, each INTENT in it has its DONE, and no CLEAR waits to
be programmed. -/
def State.ringClear (s : State) (r : Nat) : Bool :=
  r != s.flash.ring && !(s.flash.erases.any fun e => e.pulses != 0 && e.ring == r) &&
    !(s.flash.badPend.any fun q => q.1 == 0x36)

/-- An erase may be accepted as far as the others go (Table 8.4, R202). A path's sequence waits for every erase in
progress. -/
def State.mayErase (s : State) (n : Nat) (j : Job) : Bool :=
  match j with
  | .ring => s.ringClear (n - 522)
  | .window _ => s.flash.erases.isEmpty && s.ringRoom
  | _ => s.ringRoom

/-- The first erase that waits and may be accepted, of a wipe or of another job. -/
def State.nextOf (s : State) (wipe : Bool) : Option FlashOp :=
  s.ready.find? fun o => match o with
    | .erase n _ j => j.isWipe == wipe && s.mayErase n j
    | _ => false

/-- The erases accepted for the next start of slot 2 (R187): at most one of a wipe and one other are in progress, whose
pulses alternate (R64, R202; log entry 123). -/
def State.newErases (s : State) : List FlashOp :=
  [false, true].filterMap fun wipe =>
    if s.flash.erases.any fun e => e.job.isWipe == wipe then none else s.nextOf wipe

/-- An erase of a logical sector is in progress or accepted (R184). -/
def State.erasing (s : State) (n : Nat) : Bool :=
  (s.flash.erases.any fun e => e.sect == n) || s.newErases.any fun o => o.sect == some n

/-- A pulse or a verify runs, of a program or of an erase not suspended (R184); none while the comparator is tripped
(R198). -/
def State.flashBusy (s : State) : Bool :=
  !s.flash.bor && (s.flash.st == .prog || s.flash.st == .erasePulse || s.flash.st == .suspProg)

/-- A read of a logical sector must wait (R184), for a pulse, an erase of the sector, or a self-test (R206). -/
def State.flashWaits (s : State) (n : Nat) : Bool := s.flashBusy || s.erasing n || s.testing 2

/-! ## Records in the settings and the keeper store (R213, R221) -/

/-- The stored record of an area is valid: its LEN, GEN and body (R213). `first` is the slot's first word, `cap` the
body capacity. Reads have their side effects. -/
def State.readRecord (s : State) (first kind ten cap : Nat) : State × Option (Nat × List Byte) × Bool :=
  let r := s.flashReads [first, first + 1]
  match r.2 with
  | none => (r.1, none, true)
  | some ds =>
    let w0 := ds.getD 0 0
    let w1 := ds.getD 1 0
    let len := dfld w0 16 16
    let gen := dfld w1 0 32
    if dfld w0 48 16 = 0x5E77 ∧ dfld w0 40 8 = kind ∧ dfld w0 32 8 = ten ∧ dfld w0 0 16 = chk16 w0 ∧
        1 ≤ len ∧ len ≤ cap ∧ 1 ≤ gen ∧ gen ≤ 0xFFFFFFFE then
      let b := r.1.flashBytes (8 * first + 16) len
      match b.2 with
      | none => (b.1, none, true)
      | some body =>
        let head := leBytes 8 w0.toNat ++ leBytes 4 gen
        if (crc32c (head ++ body)).toNat = dfld w1 32 32 then (b.1, some (gen, body), false) else (b.1, none, false)
    else (r.1, none, false)

/-- The first word of slot `i` of a tenant's settings area, or of the keeper store (Table 9.3). -/
def areaWord (keeper : Bool) (t i : Nat) : Nat :=
  if keeper then (530 + 6 * i) * 256 else (544 + 8 * t + 4 * i) * 256

/-- The body capacity of an area. -/
def areaCap (keeper : Bool) : Nat := if keeper then 12272 else 8176

/-- The record in force of an area: its slot, GEN and body (R213), and whether a read was uncorrectable. Of two valid
records with one GEN, which the rule does not settle, the one of slot 0 is taken (log entry 124). -/
def State.inForce (s : State) (keeper : Bool) (t : Nat) : State × Option (Nat × Nat × List Byte) × Bool :=
  let kind := if keeper then 2 else 1
  let ten := if keeper then 0 else t
  let a := s.readRecord (areaWord keeper t 0) kind ten (areaCap keeper)
  let b := a.1.readRecord (areaWord keeper t 1) kind ten (areaCap keeper)
  (b.1,
    match a.2.1, b.2.1 with
    | none, none => none
    | some x, none => some (0, x)
    | none, some y => some (1, y)
    | some x, some y => if x.1 < y.1 then some (1, y) else some (0, x),
    a.2.2 || b.2.2)

/-- The operations that write a record (R221): erases of the sectors not wholly erased or marked suspect (R224), the
body, word 0, word 1 and the read-back. -/
def State.recordOps (s : State) (keeper : Bool) (t slot gen : Nat) (body : List Byte) (reason : Nat) (j : Job) :
    List FlashOp :=
  let first := areaWord keeper t slot
  let n := (16 + body.length + 2047) / 2048
  let w0 := withChk (0x5E77 * 2 ^ 48 + (if keeper then 2 else 1) * 2 ^ 40 + (if keeper then 0 else t) * 2 ^ 32 +
    body.length * 65536)
  let crc := (crc32c (leBytes 8 w0.toNat ++ leBytes 4 gen ++ body)).toNat
  let w1 : DWord := BitVec.ofNat 64 (gen % 2 ^ 32 + crc * 2 ^ 32)
  let sects := (List.range n).map fun i => first / 256 + i
  (sects.filter fun x => !s.sectorErased (s.phys x) || s.suspect (s.phys x)).map (fun x => FlashOp.erase x reason j) ++
    (List.range ((body.length + 7) / 8)).map (fun i =>
      FlashOp.prog (first + 2 + i) (BitVec.ofNat 64 (natAt body (8 * i) 8)) j) ++
    [.prog first w0 j, .prog (first + 1) w1 j, .done slot gen j]

/-! ## Ends of jobs -/

/-- FLASH_FAIL or NO_SPACE set in the status register (Table 8.9: CAUSE). -/
def State.flashFail (s : State) (cause : Nat) : State :=
  { s with flash := { s.flash with fail := true, cause := cause } }

/-- RESULTS of a FLASH_PROG: its words programmed, which are its COUNT as cut less the programs left (R191). -/
def State.progDone (s : State) (id : Nat) : List Byte :=
  let ops := s.flash.queue.filter fun o => o.job == .cmd id
  let count := ops.findSome? fun o => match o with
    | .done _ n _ => some n
    | _ => none
  let left := (ops.filter fun o => match o with
    | .prog _ _ _ => true
    | _ => false).length
  match s.runById id, count with
  | some r, some n => if slotOp r.slot = 0x31 then [BitVec.ofNat 8 (n - left)] else []
  | _, _ => []

/-- A sector whose wipe has ended: EV7 when it was the entry's last (R64). -/
def State.wiped (s : State) (sect entry : Nat) : State :=
  let s1 := { s with grants := { s.grants with wipe := s.grants.wipe.filter fun q => q != (sect, entry) } }
  if s1.grants.wipe.any fun q => q.2 == entry then s1
  else s1.raise 7 .granted (wordOf (entry / 512 + entry % 512 * 256))

/-- A root job fails with a status of Table 5.6: its operations leave the queue, and it is answered where its chapter
says. Records that waited for a half which cannot be erased are given up (R197; log entry 121). -/
def State.failJob (s : State) (j : Job) (status : Nat) : State :=
  let s1 := if j.order.isNone then s else { s with flash := { s.flash with queue := dropJob j s.flash.queue } }
  match j with
  | .cmd id => s1.finishId id status (s.progDone id)
  | .save =>
    { s1 with sys := { s1.sys with kstResult := status },
              flash := { s1.flash with queue := s1.flash.queue ++ [.done 0 0 .save] } }
  | .swing => { s1 with sys := { s1.sys with swingBad := true } }
  | .half => { s1 with flash := { s1.flash with badPend := [] } }
  | _ => s1

/-- The half of the grown bad table that has just been erased takes every live record, those that wait, and the SEAL
(R204). -/
def State.compact (s : State) : State :=
  let old := halfWords s.halfNo
  let recs := old.filterMap fun w =>
    let v := s.fword w
    if v.validIn grownTypes then some v.data else none
  let live := recs.filter fun d =>
    let ty := dfld d 56 8
    ty == 0x2B || ty == 0x2E ||
      (ty == 0x35 && s.suspect (dfld d 44 12) &&
        -- the last SUSPECT of that sector stands for all of them
        (recs.filter fun e => dfld e 56 8 == 0x35 && dfld e 44 12 == dfld d 44 12).getLast? == some d)
  let all := live.map (fun d => (dfld d 56 8, dfld d 44 12, dfld d 32 12)) ++ s.flash.badPend
  let h := 1 - s.halfNo
  let put (s : State) (r : Nat × Nat × Nat) : State := (s.putRecordIn r.1 r.2.1 r.2.2 (s.halfFree h)).1
  let s1 := put (all.foldl put s) (0x5E, 0, h)
  { s1 with flash := { s1.flash with half := h == 1, badPend := [] } }

/-- EV74 when the count of FREE spares first falls to POOL_WARN (R196). -/
def State.poolWarn (s : State) : State :=
  if s.freeSpares.length ≤ s.fld 0x30030004 0 6 ∧ s.flash.warned = false then
    { s with flash := { s.flash with warned := true } }.raise 74 .granted (wordOf s.freeSpares.length)
  else s

/-- A spare of another job is ready (R193, R194): the BAD record maps the sector to it, and EV73. A word that could
not be copied leaves the spare suspect. A spare that the sector had before is retired. -/
def State.spareDone (s : State) (idx logical : Nat) (lost : Bool) : State :=
  let s1 := match s.spareOf logical with
    | some k => (s.putGrown 0x2E (4032 + k) k).setRemap k .retired
    | none => s
  let s2 := ((s1.putGrown 0x2B logical idx).setRemap idx (.mapped logical true)).raise 73 .granted
    (wordOf (logical + idx * 65536))
  let s3 := if lost then (s2.setSuspect (4032 + idx) true).putGrown 0x35 (4032 + idx) 0 else s2
  s3.poolWarn

/-- A spare is being prepared. -/
def State.inPrep (s : State) (k : Nat) : Bool :=
  (s.flash.running ++ s.flash.queue).any fun o => match o.job with
    | .spare i _ _ _ => i == k
    | _ => false

/-- The lowest FREE spare, not one that is being prepared, is prepared for a logical sector (R193, R194): its erase, the
copy, the BAD record. With no such spare the operation fails, with EV74 the first time (R196). -/
def State.startSpare (s : State) (logical : Nat) (word : Option (Nat × DWord)) (of : Job) : State :=
  match s.freeSpares.find? fun k => !s.inPrep k with
  | some k =>
    let j := Job.spare k logical word of
    s.enqueueFront ([.erase (4032 + k) 4 j] ++ (if word.isSome then [.copy j] else []) ++ [.done 0 0 j])
  | none =>
    let p := s.phys logical
    let s0 := ((s.flashFail 3).setSuspect p true).putGrown 0x35 p 0
    let s1 := if s.flash.dry then s0 else { s0 with flash := { s0.flash with dry := true } }.raise 74 .granted 0
    match of with
    | .wipe e => s1.wiped logical e
    | j => s1.failJob j 6

/-- The words of a failing sector read for its copy, each under the code; those of a suspect sector are not readable
(R164, R166, R194). -/
def State.copyReads (s : State) (dead : Bool) : List Nat → State × List (Nat × Option DWord)
  | [] => (s, [])
  | w :: ws =>
    let r := if dead then (s, none) else s.flashDecode w
    let q := r.1.copyReads dead ws
    (q.1, (w % 256, r.2) :: q.2)

/-- The copy of R194, once the spare is erased: a program for every word that does not read as erased, then one for the
failing word. A word that cannot be read is left erased in the spare. -/
def State.startCopy (s : State) (j : Job) : State :=
  match j with
  | .spare k logical (some (i, d)) _ =>
    let ws := ((List.range 256).map fun n => logical * 256 + n).filter fun w =>
      w % 256 != i && !(s.fword (s.physWord w)).isErased
    let r := s.copyReads (s.suspect (s.phys logical)) ws
    let lost := r.2.any fun q => q.2.isNone
    let progs := r.2.filterMap fun q => q.2.map fun v => FlashOp.prog ((4032 + k) * 256 + q.1) v j
    { r.1 with flash := { r.1.flash with
        queue := progs ++ [.prog ((4032 + k) * 256 + i) d j] ++ r.1.flash.queue.map fun o =>
          if o = .done 0 0 j then .done (bitNat lost) 0 j else o } }
  | _ => s

/-- A record of an area reads back valid with a GEN (R221). -/
def State.readBack (s : State) (keeper : Bool) (t slot gen : Nat) : State × Bool :=
  let r := s.readRecord (areaWord keeper t slot) (if keeper then 2 else 1) (if keeper then 0 else t) (areaCap keeper)
  (r.1, match r.2.1 with
    | some x => x.1 == gen
    | none => false)

/-- The end of a flash command: STORE's read-back gives OK with its GEN, or FLASH_FAIL (R221); FLASH_PROG reports its
words (R191). -/
def State.cmdDone (s : State) (id slot gen : Nat) : State :=
  match s.runById id with
  | none => s
  | some r =>
    match slotOp r.slot with
    | 0x38 =>
      let q := s.readBack false r.ten slot gen
      if q.2 then q.1.finish r 0 (leBytes 4 gen) else q.1.finish r 5 []
    | 0x31 => s.finish r 0 [BitVec.ofNat 8 gen]
    | _ => s.finish r 0 []

/-- The sealed record of a tenant's key stands in its sector (R79). -/
def State.sealDone (s : State) (t slot : Nat) (key : Option (BitVec 256)) : State :=
  match key with
  | some k => { s with sealed := SMap.set (fun _ => none) s.sealed t (some (slot == 1, k)) }
  | none => s

/-- The end of a job whose operations have all ended. -/
def State.jobDone (s : State) (slot gen : Nat) (j : Job) : State :=
  match j with
  | .cmd id => s.cmdDone id slot gen
  | .half => s.compact
  | .sealing t key => s.sealDone t slot key
  | .spare k logical _ of =>
    let s1 := s.spareDone k logical (slot == 1)
    match of with
    | .wipe e => s1.wiped logical e
    | _ => s1
  | _ => s

/-- A mark that the controller may act on by itself: a SAVE's and a swing's end waits for SAVE_COMPLETE and SWING_END. -/
def FlashOp.acts : FlashOp → Bool
  | .copy _ => true
  | .done _ _ .save => false
  | .done _ _ .swing => false
  | .done _ _ _ => true
  | _ => false

/-- The marks that may act now, acted on. -/
def State.pump : Nat → State → State
  | 0, s => s
  | n + 1, s =>
    match s.ready.find? FlashOp.acts with
    | some (.done slot gen j) =>
      ({ s with flash := { s.flash with queue := dropOp (.done slot gen j) s.flash.queue } }.jobDone slot gen j).pump n
    | some (.copy j) => ({ s with flash := { s.flash with queue := dropOp (.copy j) s.flash.queue } }.startCopy j).pump n
    | _ => s

/-! ## Programs (R185, R186, R190, R194) -/

/-- The check bits of a codeword; all ones for the erased word, which is a valid codeword (Table 7.2). -/
def checkBits (d : DWord) : BitVec 15 := if d = BitVec.allOnes 64 then BitVec.allOnes 15 else Config.flashCheckBits d

/-- A stored bit reads 0 where the new codeword holds 1 (R186, first case). A word that a collapse cut on its way to
this data holds no such bit; where bits are in error otherwise, which ones is free. -/
def State.notErased (s : State) (v : FWord) (d : DWord) : Bool :=
  if v.isErased ∨ v.toward = some d then false
  else if v.bad ≠ 0 then Config.badBitLow s.free
  else (d &&& ~~~v.data) != 0 || (checkBits d &&& ~~~checkBits v.data) != 0

/-- The state between operations (Table 8.4). -/
def Flash.rest (f : Flash) : FlashSt := if f.erases.isEmpty then .idle else .eraseGap

/-- A program that may start: the first ready one (Table 8.4). -/
def State.nextProg (s : State) : Option FlashOp :=
  s.ready.find? fun o => match o with
    | .prog _ _ _ => true
    | _ => false

/-- A word program starts (R185). Its pulses are those of PROGRAM_END. FAIL and CAUSE are those of the last operation and
are cleared by its start (log entry 125). -/
def State.progStart (s : State) (o : FlashOp) : State :=
  match o with
  | .prog w d _ =>
    let v := s.fword (s.physWord w)
    let s1 := if v.bad = 0 then s else s.drawn
    { s1 with flash := { s1.flash with
        queue := dropOp o s1.flash.queue, prog := some o, progBad := s.notErased v d,
        st := if s1.flash.st = .eraseSusp then .suspProg else .prog,
        pulses := 0, sector := s.phys (w / 256), fail := false, cause := 0 } }
  | _ => s

/-- Suspended time added: what a suspend, or a program under it, has lasted is free (R189). -/
def State.suspTime (s : State) (most : Nat) : State :=
  { s.drawn with flash := { s.flash with
      suspUs := clampNat s.flash.suspUs most (s.flash.suspUs + Config.suspendedUs s.free) } }

/-- The first erase in progress is between pulses; the next time it is another's turn. -/
def State.pulseOff (s : State) : State :=
  match s.flash.erases with
  | [] => { s with flash := { s.flash with st := .idle } }
  | e :: es => { s with flash := { s.flash with erases := es ++ [e], st := .eraseGap } }

/-- The state after a program (Table 8.4). A resume that is due restarts the pulse; the time of the program counts as
suspended (R189). -/
def State.progRest (s : State) : State :=
  let s1 := { s with flash := { s.flash with prog := none, progBad := false, resumeDue := false } }
  if s.flash.st = .suspProg then
    if s.flash.resumeDue then { s1.suspTime 1144 with flash := { (s1.suspTime 1144).flash with st := .erasePulse } }
    else { s1 with flash := { s1.flash with st := .eraseSusp } }
  else { s1 with flash := { s1.flash with st := s.flash.rest } }

/-- A spare that fails its erase or a copy program is retired, and the next FREE one is used (R195). -/
def State.retireSpare (s : State) (k logical : Nat) (word : Option (Nat × DWord)) (of j : Job) : State :=
  let s1 := { s with flash := { s.flash with queue := s.flash.queue.filter fun o => o.job != j } }
  ((s1.putGrown 0x2E (4032 + k) k).setRemap k .retired).poolWarn.startSpare logical word of

/-- A program that has failed for good at its pulse limit (R194, R195, R197). -/
def State.progLimit (s : State) (w : Nat) (d : DWord) (j : Job) : State :=
  let sect := w / 256
  if 512 ≤ sect ∧ sect ≤ 529 then (s.ledgerFail sect).failJob j.root 5
  else match j with
  | .spare k logical word of => (s.flashFail 1).retireSpare k logical word of j
  | _ => (s.flashFail 1).startSpare sect (some (w % 256, d)) j

/-- A program over a word that is not erased has reached its limit of 16 pulses (R186): FLASH_FAIL and EV72. What the
word then holds is free. -/
def State.progOver (s : State) (w : Nat) (d : DWord) (j : Job) : State :=
  let s1 := s.drawn.setFword (s.physWord w) ⟨Config.overData s.free, Config.overBad s.free, none⟩
  let s2 := (s1.flashFail 2).raise 72 (.sector (w / 256)) (wordOf (w / 256 + 4096 + 16 * 65536))
  { s2 with flash := { s2.flash with
      pulses := 16,
      queue := if j.root.order.isSome then .prog w d j :: s2.flash.queue else s2.flash.queue } }.failJob j.root 5

/-- A program ends after its last verify (R185, R186); none ends while the comparator blocks its pulses (R198). -/
def State.progEnd (s : State) (pulses : Nat) (pass : Bool) : State :=
  if s.flash.bor then s
  else match s.flash.prog with
  | some (.prog w d j) =>
    let s0 := { s with flash := { s.flash with pulses := pulses } }
    (if s.flash.progBad then s0.progRest.progOver w d j
    else if pass then s0.progRest.setFword (s.physWord w) (FWord.of d)
    else s0.progRest.progLimit w d j).pump 4
  | _ => s

/-! ## Erases (R187 to R189, R193 to R196, R202, R203) -/

/-- The erases accepted moved from the queue to those in progress. -/
def State.flashAdmitNext (s : State) : State :=
  s.newErases.foldl (fun s o => match o with
    | .erase n r j =>
      { s with flash := { s.flash with
          queue := dropOp o s.flash.queue, erases := s.flash.erases ++ [⟨n, r, j, 0, 0⟩] } }
    | _ => s) s

/-- Whether an erase in progress is a wipe's. -/
def EraseRun.isWipe (e : EraseRun) : Bool := e.job.isWipe

/-- The erase whose pulse comes next: wipes and the others alternate while both wait, starting with the others; within
a kind the one served longest ago (R64). -/
def Flash.nextErase (f : Flash) : Option EraseRun :=
  let w := f.erases.find? EraseRun.isWipe
  let o := f.erases.find? fun e => !e.isWipe
  match w, o with
  | some a, some b => if f.lastWipe then some b else some a
  | some a, none => some a
  | none, o => o

/-- Both kinds of erase wait. -/
def Flash.bothWait (f : Flash) : Bool := f.erases.any EraseRun.isWipe && f.erases.any fun e => !e.isWipe

/-- The start of slot 2 (R187): one pulse, preceded by the INTENT record when it is the erase's first. FAIL and CAUSE are
those of the last operation and are cleared by its start (log entry 125). -/
def State.flashSlot (s : State) : State :=
  let s0 := s.flashAdmitNext
  if s.flash.bor ∨ s.flash.prog.isSome ∨ s.flash.st = .erasePulse ∨ s.flash.st = .eraseSusp ∨
      s.flash.st = .suspProg ∨ s.testing 2 then s
  else match s0.flash.nextErase with
  | none => { s0 with flash := { s0.flash with lastWipe := true } }
  | some e =>
    let p := s0.phys e.sect
    let s1 := if e.pulses = 0 then s0.putJournal 0x4A p e.reason else s0
    let rest := s1.flash.erases.filter fun x => x != e
    { s1 with flash := { s1.flash with
        erases := { e with pulses := e.pulses + 1, ring := if e.pulses = 0 then s1.flash.ring else e.ring } :: rest,
        st := .erasePulse, sector := p, pulses := e.pulses + 1, suspCnt := 0, suspUs := 0, resumeDue := false,
        fail := false, cause := 0, lastWipe := if s1.flash.bothWait then e.isWipe else true } }

/-- Every word of a physical sector erased. -/
def State.eraseSector (s : State) (p : Nat) : State :=
  { s with flash := { s.flash with words := SMap.clear s.flash.words (p * 256) (p * 256 + 256) } }

/-- The next ring sector is kept erased before the active one fills (R202): its erase is asked for once the active one
is half full (log entry 126). -/
def State.ringAdvance (s : State) : State :=
  match s.ringsAfter with
  | r :: _ =>
    if 128 ≤ s.flash.ringWord ∧ s.sectorErased (522 + r) = false ∧
        ((s.flash.running ++ s.flash.queue).any fun o => o.job == .ring) = false then
      s.enqueueFront [.erase (522 + r) 6 .ring]
    else s
  | [] => s

/-- The sealed records of a sector go with its content, but for those that the erase of a record's own job keeps (R79). -/
def State.sealedErased (s : State) (sect : Nat) (j : Job) : State :=
  match j.root with
  | .sealing _ _ => s
  | _ =>
    if sect = 542 ∨ sect = 543 then
      { s with sealed := s.sealed.filter fun q => match q.2 with
          | some r => r.1 != (sect == 543)
          | none => true }
    else s

/-- An erase that has passed its verify: DONE, a CLEAR for a suspect sector, and the end of its operation. -/
def State.eraseDone (s : State) (e : EraseRun) : State :=
  let p := s.phys e.sect
  let s1 := ((s.eraseSector p).sealedErased e.sect e.job).putJournal 0x4D p e.reason
  let s2 := if s.suspect p then (s1.setSuspect p false).putGrown 0x36 p 0 else s1
  let s3 := match e.job with
    | .wipe en => s2.wiped e.sect en
    | _ => s2
  s3.ringAdvance.pump 4

/-- An erase at its pulse limit (R193, R195, R197). A ledger sector is not remapped: a ring sector is skipped, the half
in force stays, and a swing fails. -/
def State.eraseLimit (s : State) (e : EraseRun) : State :=
  let p := s.phys e.sect
  let s1 := (s.flashFail 1).putJournal 0x4D p (e.reason + 2048)
  if 512 ≤ e.sect ∧ e.sect ≤ 529 then
    let s2 := (s1.ledgerFail p).failJob e.job.root 5
    if 522 ≤ e.sect then
      { s2 with flash := { s2.flash with
          ringBad := s2.flash.ringBad ||| BitVec.ofNat 8 (2 ^ (e.sect - 522)) } }.ringAdvance
    else s2
  else match e.job with
  | .spare k logical word of => s1.retireSpare k logical word of e.job
  | j => s1.startSpare e.sect none j

/-- A pulse of the first erase in progress has ended: by its verify, or cut by the comparator, which has no verify
(R187, R198). -/
def State.pulseEnd (s : State) (pass : Bool) : State :=
  match s.flash.erases with
  | [] => s
  | e :: es =>
    let off : State := { s with flash := { s.flash with erases := es, st := if es.isEmpty then .idle else .eraseGap } }
    if pass then off.eraseDone e
    else if 24 ≤ e.pulses then (off.eraseLimit e).pump 4
    else s.pulseOff

/-- The pulse goes on, from a suspend that ends or from a program under it. While the comparator blocks it, it counts as
cut (R198). -/
def State.pulseOn (s : State) : State :=
  if s.flash.bor then s.pulseEnd false else { s with flash := { s.flash with st := .erasePulse } }

/-! ## Command sequences (R181, Table 8.2) -/

/-- What a write makes of a path's sequence: the sequence after it, whether it broke one, and the command completed.
Commands: 0xE5, 0x70 with its word and data, 0xB0, 0xD0, 0x90, 0xF0. -/
structure SeqOut where
  seq : Option SeqStep
  broke : Bool
  cmd : Option (Nat × Nat × DWord)

/-- A write judged as a possible first step. -/
def seqFirst (off : Nat) (v : Word) (broke : Bool) : SeqOut :=
  if off % 0x800 = 0x5A8 ∧ v = 0xD47B#32 then ⟨some ⟨off / 0x800, 1, 0, 0⟩, broke, none⟩ else ⟨none, true, none⟩

/-- A 32-bit write at a flash offset on a path (R181). -/
def seqWrite (q : Option SeqStep) (off : Nat) (v : Word) : SeqOut :=
  match q with
  | none => seqFirst off v false
  | some p =>
    if off / 0x800 ≠ p.sect then seqFirst off v true
    else if p.n = 1 then
      if off % 0x800 = 0x2C4 ∧ v = 0x2B84#32 then ⟨some { p with n := 2 }, false, none⟩ else seqFirst off v true
    else if p.n = 2 then
      if off % 0x800 = 0x5A8 ∧ v = 0x70#32 then ⟨some { p with n := 3 }, false, none⟩
      else if off % 0x800 = 0x5A8 ∧ (v = 0xE5#32 ∨ v = 0xB0#32 ∨ v = 0xD0#32 ∨ v = 0x90#32 ∨ v = 0xF0#32) then
        ⟨none, false, some (v.toNat, p.sect, 0)⟩
      else seqFirst off v true
    else if p.n = 3 then
      if off % 8 = 0 then ⟨some { p with n := 4, addr := off, low := v }, false, none⟩ else seqFirst off v true
    else if off = p.addr + 4 then ⟨none, false, some (0x70, p.addr / 8, v ++ p.low)⟩
    else seqFirst off v true

/-- A suspend within the limits of R189: eight in a pulse, and less than 1,000 µs suspended. -/
def State.suspend (s : State) : State :=
  if s.flash.st = .erasePulse ∧ s.flash.suspCnt < 8 ∧ s.flash.suspUs < 1000 then
    { s with flash := { s.flash with st := .eraseSusp, suspCnt := s.flash.suspCnt + 1 } }
  else { s with flash := { s.flash with suspRej := true } }

/-- A resume (Table 8.4): the pulse continues, or becomes due at the end of the program that runs. In IDLE it is
rejected; in the other states it is not listed and has no effect (R190). -/
def State.resumePulse (s : State) : State :=
  match s.flash.st with
  | .eraseSusp => (s.suspTime 999).pulseOn
  | .suspProg => { s with flash := { s.flash with resumeDue := true } }
  | .idle => { s with flash := { s.flash with suspRej := true } }
  | _ => s

/-- A completed command of a path carried out (Table 8.2). An erase or a program joins the queue. -/
def State.seqCommand (s : State) (j : Job) (c : Nat × Nat × DWord) : State :=
  let reason := if j = .sys then 1 else 2
  match c.1 with
  | 0xE5 => s.enqueueNew [.erase c.2.1 reason j]
  | 0x70 => s.enqueueNew [.prog c.2.1 c.2.2 j]
  | 0xB0 => s.suspend
  | 0xD0 => s.resumePulse
  | 0x90 => { s with flash := { s.flash with statMode := true } }
  | _ => { s with flash := { s.flash with statMode := false } }

/-- An erase is in progress or accepted. -/
def Flash.eraseOn (f : Flash) : Bool :=
  !f.erases.isEmpty || f.queue.any fun o => match o with
    | .erase _ _ _ => true
    | _ => false

/-- FLASH_STATUS.OP: 0 none, 1 program, 2 erase. -/
def Flash.opCode (f : Flash) : Nat := if f.prog.isSome then 1 else if f.eraseOn then 2 else 0

/-- FLASH_STATUS (Table 8.9). -/
def Flash.status (f : Flash) : Word :=
  let susp := f.st == .eraseSusp || f.st == .suspProg
  wordOf (bitNat (f.opCode != 0) + 2 * f.opCode + 8 * bitNat susp + 16 * bitNat f.fail + 32 * f.cause +
    256 * bitNat f.seqErr + 512 * bitNat f.suspRej + 1024 * bitNat f.bor + 2048 * bitNat f.borSeen +
    4096 * bitNat f.statMode + 2 ^ 15 * (f.pulses % 32) + 2 ^ 20 * (f.sector % 4096))

/-- The answer of the PD_FLASH agent is ACCEPT (R207): idle, and no operation or record waits. -/
def State.flashQuiet (s : State) : Bool :=
  s.flash.st == .idle && s.flash.queue.isEmpty && s.flash.erases.isEmpty && s.flash.badPend.isEmpty &&
    s.flash.prog.isNone

end Sys2Proof.Machine
end

