-- ==== Sys2Proof/Machine/Keys.lean ====
section
/-! DEFINITION. Shelf keys and service keypad (spec/15): column steps, ghosts, debounce, events, repeat, stuck keys. -/

namespace Sys2Proof.Machine

/-! ## Keys and their configuration (R340, R346) -/

/-- The key at a column and row of SK (false) or KP. -/
def keyAt (kp : Bool) (c r : Nat) : Nat := if kp then 256 + 8 * c + r else 16 * c + r

/-- The rows and the columns of a matrix. -/
def rowsOf (kp : Bool) : Nat := if kp then 8 else 16
def colsOf (kp : Bool) : Nat := if kp then 8 else 16

/-- The keys of a matrix. -/
def keysOf (kp : Bool) : List Nat := if kp then (List.range 64).map fun i => 256 + i else List.range 256

/-- MASK of a key. -/
def State.keyMasked (s : State) (k : Nat) : Bool := s.rbit (keyCfg k) 0

/-- A key counts as held (R346): pressed and not masked. -/
def State.keyHeld (s : State) (k : Nat) : Bool := (s.key k).down && !s.keyMasked k

/-- Some unmasked key is debounced as pressed (Table 11.3). -/
def State.anyKeyHeld (s : State) : Bool := s.keys.keys.any fun q => q.2.down && !s.keyMasked q.1

/-- A key's raw sample. -/
def Keys.rawOf (x : Keys) (k : Nat) : Bool := x.raw.getLsbD k

/-! ## Ghosts (R345) -/

/-- The key at (c, r) lies on a rectangle with at least three corners read pressed. -/
def Keys.ambiguous (x : Keys) (kp : Bool) (c r : Nat) : Bool :=
  (List.range (colsOf kp)).any fun c2 => c2 != c && (List.range (rowsOf kp)).any fun r2 => r2 != r &&
    decide (3 ≤ bitNat (x.rawOf (keyAt kp c r)) + bitNat (x.rawOf (keyAt kp c r2)) +
      bitNat (x.rawOf (keyAt kp c2 r)) + bitNat (x.rawOf (keyAt kp c2 r2)))

/-- The ambiguous keys of a matrix, in ascending order. -/
def Keys.ghostsOf (x : Keys) (kp : Bool) : List Nat :=
  if ((keysOf kp).filter x.rawOf).length < 3 then []
  else (keysOf kp).filter fun k =>
    let i := if kp then k - 256 else k
    x.ambiguous kp (i / rowsOf kp) (i % rowsOf kp)

/-! ## Debounce (R344) -/

/-- One step of the debounce of a key. -/
def Key.debounce (q : Key) (raw : Bool) (debP debR : Nat) : Key :=
  if q.amb then q
  else if raw = q.down then { q with count := 0 }
  else if q.down = false ∧ q.count + 1 = debP then { q with down := true, count := 0 }
  else if q.down = true ∧ q.count + 1 = debR then { q with down := false, count := 0 }
  else { q with count := q.count + 1 }

/-! ## Events (R346, R347, R352, Table 15.2) -/

/-- An occurrence of a key: the event and its data word. -/
abbrev KeyEv := Nat × Word

/-- EV188: a key becomes stuck or is cleared. -/
def ev188 (k : Nat) (b : Bool) : KeyEv := (188, wordOf (k + 65536 * bitNat b))

/-- STUCK clears at a release or a mask, which EV188 tells (R352). -/
def Key.unstickEv (q : Key) (k : Nat) : List KeyEv := if q.stuck then [ev188 k false] else []

/-- A key becomes pressed, `now` on the count of CK_RTC cycles. -/
def Key.press (q : Key) (k : Nat) (masked : Bool) (now : Nat) : Key × List KeyEv :=
  ({ q with ticks := 0, reps := 0, repLeft := 0, since := now }, if masked then [] else [(184, wordOf k)])

/-- A key becomes released. -/
def Key.release (q : Key) (k : Nat) (masked : Bool) : Key × List KeyEv :=
  ({ q with ticks := 0, reps := 0, repLeft := 0, stuck := false },
    (if masked then [] else [(185, wordOf (k + 65536 * min 65535 (q.ticks + 1)))]) ++ q.unstickEv k)

/-- A key stays pressed for a tick more: its repeats (R347). -/
def Key.stay (q : Key) (k : Nat) (cfg : Word) : Key × List KeyEv :=
  let t := satAdd 65535 q.ticks 1
  let n := satAdd 65535 q.reps 1
  if cfg.bit 1 = false ∨ cfg.bit 0 ∨ q.stuck then ({ q with ticks := t, repLeft := 0 }, [])
  else if (if q.repLeft = 0 then cfg.fld 16 8 ≤ t else q.repLeft = 1) then
    ({ q with ticks := t, reps := n, repLeft := cfg.fld 24 8 }, [(186, wordOf (k + 65536 * n))])
  else ({ q with ticks := t, repLeft := q.repLeft - 1 }, [])

/-- One key of the evaluation (R344 to R347), with its KEYk_CFG, its raw sample and whether it is ambiguous. -/
def Key.eval (q : Key) (k : Nat) (cfg : Word) (raw amb : Bool) (now : Nat) : Key × List KeyEv :=
  let n := { q with amb := amb }.debounce raw (cfg.fld 4 4) (cfg.fld 8 4)
  let r :=
    if n.down then (if q.down then n.stay k cfg else n.press k (cfg.bit 0) now)
    else if q.down then n.release k (cfg.bit 0) else (n, [])
  (r.1, if amb ∧ q.amb = false then r.2 ++ [(187, wordOf k)] else r.2)

/-- One occurrence delivered to the owner of its key; EV187 is counted (R345). -/
def State.keyRaise (s : State) (e : KeyEv) : State :=
  let k := e.2.fld 0 9
  let s1 := if e.1 = 187 then { s with keys := { s.keys with ghosts := sat16 s.keys.ghosts } } else s
  s1.raise e.1 (.res 3 k) e.2

/-- Every key of a matrix evaluated: the occurrences follow in ascending event number (R401). -/
def State.keyEvals (s : State) (kp : Bool) : State :=
  let ghosts := s.keys.ghostsOf kp
  let out := (keysOf kp).map fun k =>
    (k, (s.key k).eval k (s.reg (keyCfg k)) (s.keys.rawOf k) (ghosts.contains k) s.keys.cyc)
  let s1 := out.foldl (fun s r => s.updKey r.1 fun _ => r.2.1) s
  let evs := out.flatMap fun r => r.2.2
  [184, 185, 186, 187, 188].foldl (fun s e => (evs.filter fun q => q.1 == e).foldl State.keyRaise s) s1

/-- The evaluation of a matrix after its last column (R344), and the return of SK to idle (R342). -/
def State.keyMatrix (s : State) (kp : Bool) : State :=
  let s1 := s.keyEvals kp
  if kp then s1
  else
    let still := (keysOf false).all fun k => !s1.keys.rawOf k && !(s1.key k).down
    let n := if still then s1.keys.quiet + 1 else 0
    if s1.fld 0x30090000 8 8 ≤ n then { s1 with keys := { s1.keys with active := false, quiet := 0 } }
    else { s1 with keys := { s1.keys with quiet := n } }

/-- The keys of a matrix that count as held. -/
def State.heldIn (s : State) (kp : Bool) : List Nat := (keysOf kp).filter s.keyHeld

/-! ## Column steps (R341 to R343) -/

/-- The raw samples with those of one column replaced. -/
def rawColumn (raw : BitVec 320) (kp : Bool) (c : Nat) (rows : BitVec 16) : BitVec 320 :=
  let w := rowsOf kp
  let m : BitVec 320 := BitVec.ofNat 320 ((2 ^ w - 1) * 2 ^ keyAt kp c 0)
  (raw &&& ~~~m) ||| BitVec.ofNat 320 (rows.toNat % 2 ^ w * 2 ^ keyAt kp c 0)

/-- The matrix is scanned: KP in every tick, SK while active; SHELF_ROW_DETECT makes it so from column 0 (R342). -/
def State.scanOn (s : State) (kp : Bool) (c : Nat) : Bool :=
  s.up 11 && (kp || s.keys.active || (s.keys.wakeScan && c == 0))

/-- A column step. While bank KEY is held the rows are ignored (R274). -/
def State.keyColumn (s : State) (kp : Bool) (c : Nat) (rows : BitVec 16) : State :=
  if s.scanOn kp c = false then s
  else
    let r := if s.shut 4 then 0 else rows
    let s1 := { s with keys := { s.keys with
      raw := rawColumn s.keys.raw kp c r,
      active := s.keys.active || !kp, wakeScan := s.keys.wakeScan && kp } }
    if c + 1 = colsOf kp then s1.keyMatrix kp else s1

/-- A row has been low for 1 ms on the idle matrix (R342). -/
def State.shelfRow (s : State) : State :=
  if s.up 11 ∧ s.keys.active = false then { s with keys := { s.keys with wakeScan := true, quiet := 0, raw :=
    s.keys.raw &&& ~~~(BitVec.ofNat 320 (2 ^ 256 - 1)) } } else s

/-- The cycles of CK_RTC for which a key has been pressed and unmasked: those of idle steps, and `more` that have passed
while commands ran (R352, log entry 150). -/
def State.heldCycles (s : State) (k more : Nat) : Nat := s.keys.cyc - (s.key k).since + more

/-- A key has been pressed for STUCK_S (R352). -/
def State.keyStuck (s : State) (k more : Nat) : State :=
  if s.up 11 ∧ s.keyHeld k ∧ (s.key k).stuck = false ∧ 32768 * s.fld 0x30090004 0 12 ≤ s.heldCycles k more then
    ((s.updKey k fun q => { q with stuck := true }).keyRaise (ev188 k true)).raise 189 .granted
      (wordOf (k + 65536 * s.owner 3 k))
  else s

/-- A write of KEYk_CFG (R346, R352): the state, and the clamps to count. A mask clears STUCK; a key that is unmasked
counts its stuck time from then. -/
def State.keyCfgWrite (s : State) (k : Nat) (v : Word) (be : BitVec 4) : State × Nat :=
  let r := s.writeReg (keyCfg k) v be
  if r.1.keyMasked k then
    (((s.key k).unstickEv k).foldl State.keyRaise (r.1.updKey k fun q => { q with stuck := false }), r.2)
  else if s.keyMasked k then (r.1.updKey k fun q => { q with since := s.keys.cyc }, r.2)
  else r

/-- A key changes owner: STUCK clears, and its stuck time starts again at 0 (R350). -/
def State.keyOwner (s : State) (k : Nat) (keep : Bool) : State :=
  let s1 := if keep then s else s.resetRegs (keyCfg k) (keyCfg k + 1)
  s1.updKey k fun q => { q with stuck := false, since := s.keys.cyc }

/-- KEY_DOWNj (`stuck` false) or KEY_STUCKj as a tenant reads it: the bits of keys that it does not own read 0
(R354). -/
def State.keyBits (s : State) (t j : Nat) (stuck : Bool) : Word :=
  wordOf (((List.range 32).map fun i =>
    let k := 32 * j + i
    let b := if stuck then (s.key k).stuck else (s.key k).down
    if b ∧ s.owner 3 k = t then 2 ^ i else 0).sum)

end Sys2Proof.Machine
end

