-- ==== Sys2Proof/Machine/Lamp.lean ====
section
/-! DEFINITION. Lamp channels and pattern engines (spec/14): the current loop, compensation and derating, fades and
curves, dimming, engine steps, hold fades, faults. -/

namespace Sys2Proof.Machine

/-! ## Curves (R326, R327) -/

/-- The scale of fixed-point lightness. -/
def cieScale : Nat := 2 ^ 64

/-- The integer cube root of `n`, bit by bit from 2^(k-1). -/
def icbrt (n : Nat) : Nat → Nat → Nat
  | 0, r => r
  | k + 1, r => if (r + 2 ^ k) ^ 3 ≤ n then icbrt n k (r + 2 ^ k) else icbrt n k r

/-- L* of a level, scaled (R327). -/
def cieL (v : Nat) : Int :=
  if 8856 * 4095 < v * 1000000 then 116 * (icbrt (v * cieScale ^ 3 / 4095) 66 0 : Int) - 16 * cieScale
  else (9033 * v * cieScale / 40950 : Nat)

/-- floor(4,095 × Y(L*)) of a scaled lightness, taken 2^-40 above so that a level is its own image (R327). -/
def cieLevel (l : Int) : Int :=
  let one : Int := cieScale
  let x : Int :=
    if 8 * one < l then 4095 * ((l + 16 * one) ^ 3 / 116 ^ 3) / (one ^ 2) else 40950 * l / 9033
  (x + 2 ^ 24) / one

/-- The level a fade has reached, timed in µs (R326, R327): `lat` is the latitude taken. At its end it is exact. -/
def Fade.value (f : Fade) (lat : Int) : Nat :=
  if f.tot ≤ f.el then f.b
  else if f.cie then
    let l := cieL f.a + (cieL f.b - cieL f.a) * (f.el / 1000 : Nat) / (f.tot / 1000 : Nat)
    (clampInt 0 4096 (cieLevel l + lat)).toNat
  else ((f.a : Int) + ((f.b : Int) - f.a) * (f.el / 1000 : Nat) / (f.tot / 1000 : Nat)).toNat

/-! ## Fades -/

/-- A fade of `ms` milliseconds. -/
def Fade.start (a b ms : Nat) (cie : Bool) : Fade := ⟨a, b, 0, ms * 1000000, cie⟩

/-- EV180 when FADE_EV is 1 (R326, Table 14.7). -/
def State.ev180 (s : State) (n : Nat) : State :=
  if s.rbit (lampReg n 0) 7 then s.raise 180 (.res 1 n) (wordOf (n + (s.lamp n).out * 65536)) else s

/-- OUT reaches TARGET (R326). -/
def State.fadeDone (s : State) (n : Nat) : State :=
  (s.updLamp n fun l => { l with out := l.target, fade := none }).ev180 n

/-- TARGET changes to a level, with a fade time and curve (R326). The same level is no change. -/
def State.fadeTo (s : State) (n v ms : Nat) (cie : Bool) : State :=
  if v = (s.lamp n).target then s
  else
    let s1 := s.updLamp n fun l => { l with target := v, fade := some (Fade.start l.out v ms cie) }
    if ms = 0 then s1.fadeDone n else s1

/-- The fade time in ms from one level to another: IN_MS upwards, OUT_MS otherwise. -/
def State.fadeMs (s : State) (n a b : Nat) : Nat :=
  if a < b then s.fld (lampReg n 0x14) 0 16 else s.fld (lampReg n 0x14) 16 16

/-- The engine and lane that a channel follows (R331). -/
def State.follows (s : State) (n : Nat) : Option (Nat × Nat) :=
  let c := s.reg (lampReg n 0)
  if c.bit 1 ∧ s.owner 1 n = s.owner 2 (c.fld 2 2) then some (c.fld 2 2, c.fld 4 2) else none

/-- A lane of an engine. -/
def State.lane (s : State) (k j : Nat) : Lane := SMap.get (fun _ => Lane.reset) (s.engine k).lanes j

/-- TARGET in effect taken anew: the followed lane's level, or the channel's own (R326, R331). -/
def State.retarget (s : State) (n : Nat) : State :=
  match s.follows n with
  | some (k, j) => s.fadeTo n (s.lane k j).level (s.lane k j).ms (s.lane k j).cie
  | none => s.fadeTo n (s.lamp n).own (s.fadeMs n (s.lamp n).out (s.lamp n).own) (s.rbit (lampReg n 0) 6)

/-- The owner's write of TARGET (R326). -/
def State.setTarget (s : State) (n v : Nat) : State := (s.updLamp n fun l => { l with own := v }).retarget n

/-- PF fades to 0 or 4,096 with the channel's times and curve (R332); a fade that goes there already goes on. -/
def State.pfTo (s : State) (n v : Nat) : State :=
  let ms := s.fadeMs n (s.lamp n).pf v
  s.updLamp n fun l =>
    if l.pfFade.map Fade.b = some v then l
    else if ms = 0 ∨ l.pf = v then { l with pf := v, pfFade := none }
    else { l with pfFade := some (Fade.start l.pf v ms (s.rbit (lampReg n 0) 6)) }

/-- The latitude of a CIE fade at this instant (R327). -/
def State.cieLat (s : State) : Int := ((Config.cieLatitude s.free).val : Int) - 1

/-- A fade `dt` ns further. -/
def Fade.later (f : Fade) (dt : Nat) : Fade := { f with el := f.el + dt }

/-- OUT after `dt` ns more of its fade. -/
def State.advOut (s : State) (n dt : Nat) : State :=
  match (s.lamp n).fade with
  | none => s
  | some f =>
    let g := f.later dt
    if g.tot ≤ g.el then s.fadeDone n
    else (s.updLamp n fun l => { l with out := min 4095 (g.value s.cieLat), fade := some g }).drawn

/-- PF after `dt` ns more of its fade. -/
def State.advPf (s : State) (n dt : Nat) : State :=
  match (s.lamp n).pfFade with
  | none => s
  | some f =>
    let g := f.later dt
    if g.tot ≤ g.el then s.updLamp n fun l => { l with pf := g.b, pfFade := none }
    else (s.updLamp n fun l => { l with pf := g.value s.cieLat, pfFade := some g }).drawn

/-- The fade time of a channel has passed: the fade of OUT or of PF with less time left ends, OUT's first (R326). -/
def State.endFade (s : State) (n : Nat) : State :=
  match (s.lamp n).fade, (s.lamp n).pfFade with
  | none, none => s
  | some f, some g => if f.tot - f.el ≤ g.tot - g.el then s.fadeDone n else s.advPf n g.tot
  | some _, none => s.fadeDone n
  | none, some g => s.advPf n g.tot

/-! ## The period and the loop (R319 to R322, R328) -/

/-- The switching period P in ns: round(1,000,000 / FSW_KHZ). -/
def State.lampP (s : State) (n : Nat) : Nat :=
  let f := s.fld (lampReg n 4) 0 11
  (2000000 + f) / (2 * f)

/-- The largest on-time in ns. -/
def State.lampMax (s : State) (n : Nat) : Nat := s.lampP n - 2 * s.fld (lampReg n 4) 16 7 - 100

/-- SHOWN (R328). -/
def Lamp.shown (l : Lamp) : Nat := l.out * l.pf / 4096

/-- Stopped by a fault (R337). -/
def Lamp.stopped (l : Lamp) : Bool := l.fault != 0

/-- EN. -/
def State.lampEn (s : State) (n : Nat) : Bool := s.rbit (lampReg n 0) 0

/-- The channel works: enabled, its domain on, not stopped, not under test, bank LC released (R332, R336). -/
def State.lampLive (s : State) (n : Nat) : Bool :=
  s.up 9 && s.lampEn n && !(s.lamp n).stopped && !(s.lamp n).test && !s.shut 3

/-- LCn_STATUS.STATE (Table 14.8). -/
def State.lampState (s : State) (n : Nat) : Nat :=
  let l := s.lamp n
  if l.test then 3 else if l.stopped then 2 else if s.lampEn n then 1 else 0

/-- LCn_STATUS.MODE (Table 14.2). -/
def Lamp.mode (l : Lamp) : Nat := if l.ieff = 0 then 3 else if l.ieff ≤ 40 then 2 else if l.skip then 1 else 0

/-- i_target (R320). -/
def Lamp.iTarget (l : Lamp) : Nat := if l.ieff ≤ 40 then 41 else l.ieff

/-- The burst periods B of a frame of 64 (R322). -/
def burstOn (ieff : Nat) : Nat := (64 * ieff + 20) / 41

/-- The channel switches in the period that comes: within the dimming on-window, and within B in burst (R322). -/
def Lamp.onNow (l : Lamp) : Bool :=
  decide (0 < l.ieff ∧ l.perDone < l.onN ∧ (40 < l.ieff ∨ l.perDone % 64 < burstOn l.ieff))

/-- The on-time of a period from the duty word, at most `mx`, with pulse skipping (R319, R321). -/
def Lamp.pulse (l : Lamp) (mx : Nat) : Lamp :=
  let want := min mx (l.duty / 16)
  if 60 ≤ want then { l with tOn := want, owed := 0, skip := false }
  else if 60 ≤ l.owed + want then { l with tOn := 60, owed := l.owed + want - 60, skip := true }
  else { l with tOn := 0, owed := l.owed + want, skip := true }

/-- The duty word after a sample (R320). -/
def Lamp.regulate (l : Lamp) (kp ki mx iCode : Nat) : Lamp :=
  let e : Int := (l.iTarget : Int) - iCode
  { l with
    duty := (clampInt 0 (16 * mx : Nat) ((l.duty : Int) + (kp * (e - l.ePrev) + ki * e) / 64)).toNat,
    ePrev := e }

/-- What a channel that does not work has: no pulse, and every count of R335 and R336 anew. The loop keeps d and e_prev
(R332). -/
def Lamp.rest (l : Lamp) : Lamp :=
  { l with tOn := 0, ocCnt := 0, pinCnt := 0, openCnt := 0, shortCnt := 0, ledkCnt := 0, allMax := true, anyPer := false }

/-- A fault of a channel (R337): it stops, the bits are set, and EV144 + 2n. -/
def State.lampFault (s : State) (n : Nat) (bit : BitVec 5) (pins : BitVec 3) : State :=
  let l := s.lamp n
  let f := l.fault ||| bit
  let p := l.pins ||| pins
  (s.updLamp n fun l => { l.rest with fault := f, pins := p, owed := 0, skip := false, test := false }).raise (144 + 2 * n) (.res 1 n)
      (wordOf (f.toNat + 256 * p.toNat))

/-- A period in which the channel switches: its pulse and its sample. An over-current ends the pulse, at an instant that
is free (R335). -/
def State.lampSwitch (s : State) (n iCode : Nat) (oc : Bool) (vstr ledk : Nat) : Lamp :=
  let l := s.lamp n
  let mx := s.lampMax n
  let p := l.pulse mx
  let on := if oc then min p.tOn (Config.pulseCut s.free) else p.tOn
  let r := p.regulate (s.fld (lampReg n 8) 0 8) (s.fld (lampReg n 8) 8 8) mx iCode
  { r with
    tOn := on, iCode := iCode, vstr := vstr, ledk := ledk, anyPer := true, allMax := l.allMax && on == mx,
    ocCnt := if oc ∧ 0 < p.tOn then l.ocCnt + 1 else 0 }

/-- A switching period of a channel that works (R319 to R322, R335, R336), and the faults of every period. -/
def State.lampPeriod (s : State) (n iCode : Nat) (oc : Bool) (pinBad : BitVec 2) (vstr ledk : Nat) : State :=
  let l := s.lamp n
  let l1 := if l.onNow then s.lampSwitch n iCode oc vstr ledk else { l with tOn := 0, ocCnt := 0 }
  let l2 := { l1 with pinCnt := if pinBad = 0 then 0 else l.pinCnt + 1 }
  let s1 := (if oc then s.drawn else s).updLamp n fun _ => l2
  let s2 := if 16 ≤ l2.ocCnt then s1.lampFault n 8 0 else s1
  if 2 ≤ l2.pinCnt then s2.lampFault n 4 (pinBad.setWidth 3) else s2

/-- One switching period of P ns: what the channel does in it when it works, and the time that passes for its dimming
period and its fades, which run whether it works or not (log entry 9). -/
def State.switchPeriod (s : State) (n iCode : Nat) (oc : Bool) (pinBad : BitVec 2) (vstr ledk : Nat) : State :=
  if s.up 9 = false then s
  else
    let s1 := if s.lampLive n then s.lampPeriod n iCode oc pinBad vstr ledk else s.updLamp n Lamp.rest
    ((s1.updLamp n fun l => { l with perDone := l.perDone + 1 }).advOut n (s.lampP n)).advPf n (s.lampP n)

/-- LCn_PWMH and LCn_PWML at a ns of the switching period (R319, Table 14.1). -/
def State.lampPads (s : State) (n t : Nat) : Bool × Bool :=
  let on := (s.lamp n).tOn
  let dt := s.fld (lampReg n 4) 16 7
  if s.lampLive n && 0 < on then (decide (dt ≤ t ∧ t < dt + on), decide (2 * dt + on ≤ t ∧ t < s.lampP n))
  else (false, false)

/-- LCn_PWMH and LCn_PWML at a µs of a self-test (Table 14.5): none while they are not driven. -/
def lampTestPads (us : Nat) : Option (Bool × Bool) :=
  if 120 ≤ us ∧ us < 320 then none else some (false, decide (20 ≤ us ∧ us < 120))

/-- The on-periods of a dimming period (R328). -/
def dimOn (shown per : Nat) : Nat :=
  if shown = 0 then 0 else if shown = 4095 then per else max 8 (shown * per / 4095)

/-- A dimming period starts (R328). -/
def State.dimPeriod (s : State) (n : Nat) : State :=
  if s.up 9 = false then s
  else s.updLamp n fun l => { l with onN := dimOn l.shown (s.fld (lampReg n 0x18) 0 16), perDone := 0 }

/-! ## Slot 1 (R323 to R325, R336) -/

/-- The factor C (R324). -/
def State.lampC (s : State) (n : Nat) : Nat :=
  let b := s.reg (lampReg n 0x20)
  let x := s.sensor (4 + b.fld 16 3)
  if b.bit 24 = false ∨ x.kind ≠ 0 then 4096
  else (clampInt 2048 6143 (4096 + s.sfld (lampReg n 0x1C) 0 16 * (x.t - s.sfld (lampReg n 0x1C) 16 16) / 256)).toNat

/-- The factor D (R325). -/
def State.lampD (s : State) (n : Nat) : Nat :=
  let b := s.reg (lampReg n 0x20)
  let t := (s.zone (b.fld 20 3)).t
  let st := s.sfld (lampReg n 0x24) 0 16
  let en := s.sfld (lampReg n 0x24) 16 16
  let mn := s.fld (lampReg n 0x28) 0 13
  if b.bit 25 = false ∨ t ≤ st then 4096
  else if en ≤ t then mn
  else (4096 - (4096 - (mn : Int)) * (t - st) / (en - st)).toNat

/-- The effective current and the derating flag of one channel (R323, R325). -/
def State.lampCurrent (s : State) (n : Nat) : State :=
  let c := s.lampC n
  let d := s.lampD n
  let i := min 4095 (s.fld (lampReg n 0x0C) 0 12 * c * s.fld (lampReg n 0x20) 0 13 * d / 2 ^ 36)
  let was := (s.lamp n).derating
  let now := decide (d < 4096)
  let s1 := s.updLamp n fun l => { l with c := c, d := d, ieff := i, derating := now }
  if was = now then s1 else s1.raise (145 + 2 * n) (.res 1 n) (wordOf (bitNat now + d * 65536))

/-- The slot 1 checks of one channel (R336). -/
def State.lampChecks (s : State) (n : Nat) : State :=
  if s.lampLive n = false then s
  else
    let l := s.lamp n
    let lit := decide (0 < l.shown ∧ 0 < l.ieff)
    let lim := s.reg (lampReg n 0x2C)
    let open1 := lit && l.anyPer && l.allMax && decide (4 * l.iCode < l.iTarget)
    let short1 := lit && decide (l.vstr < lim.fld 0 16 ∧ l.iTarget < 4 * l.iCode)
    let l1 := { l with
      openCnt := if open1 then l.openCnt + 1 else 0,
      shortCnt := if short1 then l.shortCnt + 1 else 0,
      ledkCnt := if 1500 < l.ledk then l.ledkCnt + 1 else 0,
      allMax := true, anyPer := false }
    let s1 := s.updLamp n fun _ => l1
    let s2 := if lim.fld 16 4 ≤ l1.openCnt then s1.lampFault n 1 0 else s1
    let s3 := if 4 ≤ l1.shortCnt then s2.lampFault n 2 0 else s2
    if 4 ≤ l1.ledkCnt then s3.lampFault n 4 4 else s3

/-- The slot 1 update of every enabled channel. -/
def State.lampUpdate (s : State) : State :=
  if s.up 9 = false then s
  else s.each (List.range 16) fun s n => if s.lampEn n then (s.lampCurrent n).lampChecks n else s

/-! ## Restarts and hold fades (R332, R337) -/

/-- A channel starts from stopped (R320). -/
def State.lampStart (s : State) (n : Nat) : State :=
  s.updLamp n fun l => { l.rest with duty := 0, ePrev := 0, owed := 0 }

/-- A write of LCn_FAULT (R337): when the last FAULT bit is cleared the channel restarts with d at 0 and PF from 0. -/
def State.lampClear (s : State) (n : Nat) (v : Word) : State :=
  let was := (s.lamp n).fault
  let s1 := s.updLamp n fun l => { l with
    fault := l.fault &&& ~~~BitVec.ofNat 5 (v.fld 0 5), pins := l.pins &&& ~~~BitVec.ofNat 3 (v.fld 8 3) }
  if was ≠ 0 ∧ (s1.lamp n).fault = 0 then
    let s2 := (s1.lampStart n).updLamp n fun l => { l with pf := 0, pfFade := none }
    if s.shut 3 then s2 else s2.pfTo n 4096
  else s1

/-- The handshake asks PD_LAMP (R332). -/
def State.lampAsk (s : State) : State :=
  (s.each (List.range 16) fun s n => s.pfTo n 0).each (List.range 4) fun s k =>
    s.updEngine k fun e => if e.st = 1 then { e with st := 2 } else e

/-- PF fades to 4,096 and paused engines resume (R332). -/
def State.lampResume (s : State) : State :=
  (s.each (List.range 16) fun s n => s.pfTo n 4096).each (List.range 4) fun s k =>
    s.updEngine k fun e => if e.st = 2 then { e with st := 1 } else e

/-- Bank LC closes: PF is 0 at once (R332). -/
def State.lampClose (s : State) : State :=
  s.each (List.range 16) fun s n => s.updLamp n fun l => { l.rest with pf := 0, pfFade := none }

/-- A channel at zero output (R332). -/
def Lamp.dark (l : Lamp) : Bool := l.shown == 0 || l.stopped

/-! ## Engines (R329, R330) -/

/-- The step word that an engine is at. -/
def State.stepWord (s : State) (k : Nat) : Word := s.reg (peReg k (0x80 + 4 * (s.engine k).pc))

/-- OP of the step that a running engine is at. -/
def State.stepOp (s : State) (k : Nat) : Option Nat :=
  if s.up 9 ∧ (s.engine k).st = 1 then some ((s.stepWord k).fld 28 4) else none

/-- EV176 + k (Table 14.7). -/
def State.engineEv (s : State) (k kind arg : Nat) : State :=
  s.raise (176 + k) (.res 2 k) (wordOf (kind + (s.engine k).pc * 256 + arg * 65536))

/-- The engine stops with ERROR (R329, R330). -/
def State.engineErr (s : State) (k : Nat) : State := (s.updEngine k fun e => { e with st := 3 }).engineEv k 3 0

/-- The engine goes on to a step after one that took `ms`. The 32nd step in a row without time is an error (R330). -/
def State.engineNext (s : State) (k pc ms : Nat) (timed : Bool) : State :=
  let q := if timed then 0 else (s.engine k).quick + 1
  if 32 ≤ q then s.engineErr k
  else s.updEngine k fun e => { e with pc := pc % 32, left := ms, quick := q }

/-- A lane changed, and the channels that follow it (R331). -/
def State.setLane (s : State) (k j v ms : Nat) (cie : Bool) : State :=
  let s1 := s.updEngine k fun e => { e with lanes := SMap.set (fun _ => Lane.reset) e.lanes j ⟨v, ms, cie⟩ }
  s1.each (List.range 16) fun s n => if s.follows n = some (k, j) then s.retarget n else s

/-- The lanes of a step word, in ascending order. -/
def stepLanes (w : Word) : List Nat := (List.range 4).filter fun j => w.bit (24 + j)

/-- TIME of a step in ms. -/
def stepMs (w : Word) : Nat := w.fld 12 10 * 10

/-- A RAMP or ROTATE: lanes take levels, and the engine waits when WAIT is 1. -/
def State.laneStep (s : State) (k : Nat) (w : Word) (lv : List (Nat × Nat)) : State :=
  let ms := stepMs w
  let s1 := lv.foldl (fun s p => s.setLane k p.1 p.2 ms (w.bit 23)) s
  s1.engineNext k ((s.engine k).pc + 1) (if w.bit 22 then ms else 0) (w.bit 22 && ms != 0)

/-- RAMP (Table 14.4). -/
def State.engineRamp (s : State) (k : Nat) : State :=
  let w := s.stepWord k
  s.laneStep k w ((stepLanes w).map fun j => (j, w.fld 0 12))

/-- ROTATE (Table 14.4). -/
def State.engineRotate (s : State) (k : Nat) : State :=
  let w := s.stepWord k
  let ls := stepLanes w
  let m := ls.length
  s.laneStep k w ((List.range m).map fun i =>
    (ls.getD i 0, (s.lane k (ls.getD ((if w.bit 0 then i + 1 else i + m - 1) % m) 0)).level))

/-- HOLD (Table 14.4). -/
def State.engineHold (s : State) (k : Nat) : State :=
  let ms := stepMs (s.stepWord k)
  s.engineNext k ((s.engine k).pc + 1) ms (ms != 0)

/-- LOOP (R330). -/
def State.engineLoop (s : State) (k : Nat) : State :=
  let w := s.stepWord k
  let c := w.fld 5 7
  let e := s.engine k
  if c = 0 then s.engineNext k (w.fld 0 5) 0 false
  else
    let lc := (if e.lc = 0 then c else e.lc) - 1
    (s.updEngine k fun e => { e with lc := lc }).engineNext k (if lc = 0 then e.pc + 1 else w.fld 0 5) 0 false

/-- EVENT (Table 14.4). -/
def State.engineEvent (s : State) (k : Nat) : State :=
  (s.engineEv k 2 ((s.stepWord k).fld 0 12)).engineNext k ((s.engine k).pc + 1) 0 false

/-- END (Table 14.4). -/
def State.engineEnd (s : State) (k : Nat) : State := (s.updEngine k fun e => { e with st := 0 }).engineEv k 1 0

/-- A write of PEk_CTRL with RUN 1 (R330). -/
def State.engineGo (s : State) (k start : Nat) : State :=
  s.updEngine k fun e => { e with start := start, st := 1, pc := start, lc := 0, left := 0, quick := 0 }

/-- A write of PEk_CTRL with RUN 0 (R330). -/
def State.engineHalt (s : State) (k : Nat) : State := s.updEngine k fun e => { e with st := 0, left := 0 }

/-! ## Changes of owner (R333) -/

/-- A channel changes owner with KEEP 0. -/
def State.lampOwner (s : State) (n : Nat) : State :=
  (s.resetRegs (lampReg n 0) (lampReg n 0x100)).updLamp n fun _ => Lamp.reset

/-- An engine changes owner with KEEP 0. -/
def State.engineOwner (s : State) (k : Nat) : State :=
  (s.resetRegs (peReg k 0x80) (peReg k 0x100)).updEngine k fun e => { e with st := 0, lanes := [], left := 0 }

/-- After owners have changed: a channel that follows no engine any more keeps OUT as TARGET, and every other takes its
target anew. `was` are the channels that followed one before. -/
def State.lampRefollow (s : State) (was : List Nat) : State :=
  s.each (List.range 16) fun s n =>
    if was.contains n ∧ (s.follows n).isNone then
      s.updLamp n fun l => { l with own := l.out, target := l.out, fade := none }
    else s.retarget n

/-- The channels that follow an engine. -/
def State.followers (s : State) : List Nat := (List.range 16).filter fun n => (s.follows n).isSome

end Sys2Proof.Machine
end

