-- ==== Sys2Proof/Machine/Shutter.lean ====
section
/-! DEFINITION. Shutters (R146, R274, R293, Table 11.5): what a bank's closing and opening do at once. -/

namespace Sys2Proof.Machine

/-- A port whose pads are held drives HA_RDY low and HA_BERR_N high and releases HA_D (Table 11.5); an access that it
was serving is gone. -/
def HPort.hold (p : HPort) : HPort :=
  { p with acc := none, rdy := false, berrN := true, dOut := none, ended := none }

/-- The fans with a duty above 0. -/
def State.fansOn (s : State) : BitVec 8 :=
  BitVec.ofNat 8 (((List.range 8).map fun n => if (s.fan n).dutyEff = 0 then 0 else 2 ^ n).sum)

/-- SEQ_EN[23:0] as driven: a held pad is at its level at the closing (Table 11.5). -/
def State.seqPads (s : State) : BitVec 24 := if s.genHeld 13 then s.pwr.enHeld else s.seq.en

/-- Bank GEN closes: what its pads show is kept, but for those of the domains of a mask that stay on (R274). Pads that
were held already stay so. -/
def State.closeGen (s : State) (kept : BitVec 16) : State :=
  let open_ : BitVec 16 := BitVec.ofNat 16 (2 ^ 12 * bitNat (!s.genHeld 12) + 2 ^ 13 * bitNat (!s.genHeld 13))
  { s with pwr := { s.pwr with
      enHeld := s.seqPads, fanHeld := if s.genHeld 12 then s.pwr.fanHeld else s.fansOn,
      live := kept &&& open_, closed := s.pwr.closed ||| 0x20 } }

/-- The banks of a mask closed, GEN apart. -/
def State.closeBanks (s : State) (m : BitVec 6) : State :=
  let s1 := { s with pwr := { s.pwr with closed := s.pwr.closed ||| m } }
  let s2 := if m.getLsbD 0 then s1.updPort 0 HPort.hold else s1
  let s3 := if m.getLsbD 1 then s2.updPort 1 HPort.hold else s2
  if m.getLsbD 3 then s3.lampClose else s3

/-- The banks of a mask opened. Lamps fade in when LC opens (R332). -/
def State.openBanks (s : State) (m : BitVec 6) : State :=
  let was := s.shut 3
  let s1 := { s with pwr := { s.pwr with closed := s.pwr.closed &&& ~~~m } }
  if was ∧ m.getLsbD 3 then s1.lampResume else s1

/-- The domains with pads in a bank (Table 11.5). -/
def bankDomains : Nat → List Nat
  | 0 => [2, 1]
  | 1 => [3]
  | 2 => [8]
  | 3 => [9]
  | 4 => [11]
  | _ => [13, 12, 1, 15]

/-- A bank may be released (R146). -/
def State.bankReady (s : State) (b : Nat) : Bool :=
  (bankDomains b).all s.up && (!(b == 2 || b == 3) || s.seq.upDone)

end Sys2Proof.Machine
end

