-- ==== Sys2Proof/Machine/Seq.lean ====
section
/-! DEFINITION. Gondola power sequencing and battery watch (spec/12): the sequences, manual rails, rail faults, the
battery watch and the coin cell. -/

namespace Sys2Proof.Machine

/-! ## Rails (R284, Table 12.4) -/

/-- UP_STEP, DN_STEP, ACTION, PG_USE and DLY of a rail. -/
def State.railUp (s : State) (n : Nat) : Nat := s.fld (railReg n 0) 0 5
def State.railDn (s : State) (n : Nat) : Nat := s.fld (railReg n 0) 8 5
def State.railAct (s : State) (n : Nat) : Nat := s.fld (railReg n 0) 16 2
def State.railPg (s : State) (n : Nat) : Bool := s.rbit (railReg n 0) 20
def State.railDly (s : State) (n : Nat) : Nat := s.fld (railReg n 4) 0 16

/-- A rail is manual. -/
def State.railManual (s : State) (n : Nat) : Bool := s.railUp n == 31

/-- A set of rails. -/
def railSet (ns : List Nat) : BitVec 24 := BitVec.ofNat 24 ((ns.map fun n => 2 ^ n).sum)

/-- The members of a set of rails. -/
def railsIn (m : BitVec 24) : List Nat := (List.range 24).filter m.getLsbD

/-- The sequencer changed. -/
def State.updSeqr (s : State) (f : Seq → Seq) : State := { s with seq := f s.seq }

/-- UP_DONE cleared: the shutters of DP and LC close in the same cycle, before any enable changes (R293). -/
def State.dropUpDone (s : State) : State :=
  if s.seq.upDone then (s.closeBanks 0x0C).updSeqr fun q => { q with upDone := false } else s

/-- EV252 (Table 12.3). -/
def State.ev252 (s : State) (kind : Nat) : State := s.raise 252 .granted (wordOf (kind + 256 * s.seq.step))

/-! ## Sequences (R285, R286) -/

/-- The rails of the step that comes next: of an up sequence those with that UP_STEP, where some enable is low; of a
down sequence the enabled ones with that DN_STEP. -/
def State.stepRails (s : State) (up : Bool) (st : Nat) : List Nat :=
  if up then
    let rs := (List.range 24).filter fun n => s.railUp n == st
    if rs.all fun n => s.seq.en.getLsbD n then [] else rs
  else (List.range 24).filter fun n => s.seq.en.getLsbD n && s.railDn n == st

/-- The next step from a number on that takes time. -/
def State.nextStep (s : State) (up : Bool) (from_ : Nat) : Option Nat :=
  (List.range 24).find? fun st => from_ ≤ st && !(s.stepRails up st).isEmpty

/-- An up sequence is in progress. -/
def State.seqUp (s : State) : Bool := s.seq.st == 1

/-- A step drives its enables and takes what it waits on (R285, R286). -/
def State.seqDrive (s : State) : State :=
  let rs := s.stepRails s.seqUp s.seq.step
  if s.seqUp then
    let on := rs.filter fun n => !s.seq.en.getLsbD n
    s.updSeqr fun q => { q with
      dlyRun := false, en := q.en ||| railSet on,
      wait := railSet (on.filter fun n => s.railPg n && !q.pg.getLsbD n) }
  else
    s.updSeqr fun q => { q with
      dlyRun := false, en := q.en &&& ~~~railSet rs, man := q.man &&& ~~~railSet rs,
      manWait := q.manWait &&& ~~~railSet rs,
      wait := railSet (rs.filter fun n => s.railPg n && q.pg.getLsbD n) }

/-- The sequence ends. -/
def State.seqFinish (s : State) : State :=
  if s.seqUp then (s.updSeqr fun q => { q with st := 0, upDone := true, result := 1 }).ev252 1
  else (s.updSeqr fun q => { q with st := 0 }).ev252 2

/-- The sequence goes on while nothing holds it: to the next step, through it when its DLY is 0, or to its end. -/
def State.seqRun : Nat → Nat → State → State
  | 0, _, s => s
  | k + 1, from_, s =>
    match s.nextStep s.seqUp from_ with
    | none => s.seqFinish
    | some st =>
      let s1 := s.updSeqr fun q => { q with step := st, dlyRun := true, wait := 0 }
      if (s1.stepRails s1.seqUp st).any fun n => s1.railDly n != 0 then s1
      else
        let s2 := s1.seqDrive
        if s2.seq.wait = 0 then s2.seqRun k (st + 1) else s2

/-- A step that waits on nothing any more ends. -/
def State.seqStepEnd (s : State) : State :=
  if s.seq.st ≠ 0 ∧ s.seq.dlyRun = false ∧ s.seq.wait = 0 then s.seqRun 25 (s.seq.step + 1) else s

/-- The DLY of the current step has passed. -/
def State.seqDelayEnd (s : State) : State :=
  if s.up 13 ∧ s.seq.st ≠ 0 ∧ s.seq.dlyRun then s.seqDrive.seqStepEnd else s

/-- The rails that are lost (R289, kind 1): enabled, watched, no longer waited on, and low. -/
def State.lostSet (s : State) : BitVec 24 :=
  s.seq.en &&& railSet ((List.range 24).filter s.railPg) &&& ~~~s.seq.wait &&& ~~~s.seq.manWait &&& ~~~s.seq.pg

/-- Rails that fault in one cycle, each recorded and reported with its kind, in ascending order; none of them is waited
on any more (R289). -/
def State.railRecord (s : State) (kind : Nat → Nat) (ns : BitVec 24) : State :=
  s.each (railsIn ns) fun s n =>
    let one := railSet [n]
    (s.updSeqr fun q => { q with
      fault := q.fault ||| one, wait := q.wait &&& ~~~one, manWait := q.manWait &&& ~~~one }).raise 253 .granted
      (wordOf (n + 256 * kind n + 4096 * s.railAct n))

/-- A down sequence starts (R286): an up sequence ends ABORTED, UP_DONE clears first. The waits of the up sequence end
with it, so that a rail it waited on, still enabled and low, faults with kind 1; no action follows in a down sequence. -/
def State.seqDown (s : State) (st : Nat) : State :=
  let s1 := s.dropUpDone
  let s2 := (s1.updSeqr fun q => { q with
    result := if q.st = 1 then 3 else q.result, st := st, wait := 0, dlyRun := false }).seqRun 25 0
  s2.railRecord (fun _ => 1) (s.seq.wait &&& s2.lostSet)

/-- REJ (R287, R288). -/
def State.seqRej (s : State) : State := s.updSeqr fun q => { q with rej := true }

/-- GO_UP (R285, R287). -/
def State.goUp (s : State) : State :=
  if s.seq.st = 0 then (s.updSeqr fun q => { q with st := 1, wait := 0, dlyRun := false }).seqRun 25 0 else s.seqRej

/-- GO_DOWN (R286, R287). -/
def State.goDown (s : State) : State := if s.seq.st ≤ 1 then s.seqDown 2 else s.seqRej

/-! ## Rail faults (R289, Table 12.1) -/

/-- The rails of a set with an ACTION. -/
def State.actRails (s : State) (act : Nat) (ns : BitVec 24) : BitVec 24 :=
  railSet ((railsIn ns).filter fun n => s.railAct n == act)

/-- RAIL_OFF of the rails of a set: their enables go low, and an up sequence ends with TIMEOUT. -/
def State.railOff (s : State) (ns : BitVec 24) : State :=
  let manual := railSet ((railsIn ns).filter s.railManual)
  let s1 := if manual = ns then s else s.dropUpDone
  s1.updSeqr fun q => { q with
    en := q.en &&& ~~~ns, man := q.man &&& ~~~manual, manWait := q.manWait &&& ~~~ns,
    result := if q.st = 1 then 2 else q.result, st := 0, wait := 0, dlyRun := false }

/-- The strongest of the actions of the rails that fault in one cycle, applied once; during a down sequence none is
(R289, log entry 145). An up sequence that RAIL_OFF ends leaves rails enabled and low without a wait: they fault with
kind 1, each round with fewer of them, and their action follows. -/
def State.railAction : Nat → State → BitVec 24 → State
  | 0, s, _ => s
  | k + 1, s, ns =>
    if ns = 0 then s
    else if 2 ≤ s.seq.st then s.seqStepEnd
    else if s.actRails 2 ns ≠ 0 then s.seqDown 3
    else if s.actRails 1 ns ≠ 0 then
      let s1 := s.railOff (s.actRails 1 ns)
      let lost := s.seq.wait &&& s1.lostSet
      (s1.railRecord (fun _ => 1) lost).railAction k lost
    else s.seqStepEnd

/-- One cycle of the rail checks: the deglitched inputs, and the rails whose PG_TO expires in it (R284, R285, R286,
R289). While the inputs are read anew (R294), every rail that reads low is lost. -/
def State.railCycle (s : State) (pg late : BitVec 24) : State :=
  let down := decide (2 ≤ s.seq.st)
  let s1 := s.updSeqr fun q => { q with
    pg := pg, reread := false, manWait := q.manWait &&& ~~~pg, wait := q.wait &&& (if down then pg else ~~~pg) }
  let lost := s1.lostSet &&& (if s.seq.reread then ~~~0 else ~~~s.lostSet)
  let faults := lost ||| (late &&& (s1.seq.wait ||| s1.seq.manWait))
  let s2 := s1.railRecord (fun n => if lost.getLsbD n then 1 else if down ∧ s1.seq.wait.getLsbD n then 3 else 2) faults
  if faults = 0 then s2.seqStepEnd else s2.railAction 2 faults

/-- Power-good inputs are taken (R284), with the timeouts of the same cycle. The pads of a closed GEN bank are ignored
(R274), but for the reading at the restore (R294, log entry 146). -/
def State.pgChange (s : State) (pg late : BitVec 24) : State :=
  if s.up 13 = false ∨ (s.genHeld 13 ∧ s.seq.reread = false) then s else s.railCycle pg late

/-- PG_TOs expire in one cycle (R289, kinds 2 and 3). No check runs before the inputs have been read anew (R294). -/
def State.pgTimeout (s : State) (late : BitVec 24) : State :=
  if s.up 13 = false ∨ s.seq.reread then s else s.railCycle s.seq.pg late

/-- PD_SEQ is restored: every input is read before the checks go on (R294). -/
def State.seqRestore (s : State) : State := s.updSeqr fun q => { q with manWait := 0, reread := true }

/-- A write of SEQ_MAN (R288). -/
def State.seqMan (s : State) (v : Word) : State :=
  if 2 ≤ s.seq.st then s.seqRej
  else
    let m := v.setWidth 24
    let manual := railSet ((List.range 24).filter s.railManual)
    let on := m &&& manual &&& ~~~s.seq.en
    let pg := railSet ((railsIn on).filter fun n => s.railPg n && !s.seq.pg.getLsbD n)
    s.updSeqr fun q => { q with
      man := m, en := (q.en &&& ~~~manual) ||| (m &&& manual), manWait := (q.manWait &&& m) ||| pg }

/-- A rail that has become manual: its enable follows its SEQ_MAN bit from then on (R284, log entry 144). -/
def State.manFollow (s : State) (n : Nat) : State :=
  let one := railSet [n]
  if s.seq.man.getLsbD n then
    if s.seq.en.getLsbD n then s
    else s.updSeqr fun q => { q with
      en := q.en ||| one, manWait := if s.railPg n ∧ q.pg.getLsbD n = false then q.manWait ||| one else q.manWait }
  else s.updSeqr fun q => { q with en := q.en &&& ~~~one, manWait := q.manWait &&& ~~~one }

/-- A write of SEQ_RAILn_A or _B: a rail that becomes watched while it reads low is lost (R289). -/
def State.railWrite (s : State) (a : Nat) (v : Word) (be : BitVec 4) : State × Nat :=
  let n := (a - 0x30060100) / 8
  let r := s.writeReg a v be
  let s1 := if r.1.railManual n ∧ s.railManual n = false then r.1.manFollow n else r.1
  let lost := s1.lostSet &&& ~~~s.lostSet
  ((s1.railRecord (fun _ => 1) lost).railAction 2 lost, r.2)

/-! ## Battery watch (R290, R291) -/

/-- The channel that BAT_CH names for voltage (0), current (1), temperature (2). -/
def State.batCh (s : State) (i : Nat) : Nat := s.fld 0x30060200 (8 * i) 5

/-- BAT_CH.EN. -/
def State.batEn (s : State) (i : Nat) : Bool := s.rbit 0x30060200 (24 + i)

/-- The code of a channel's latest result as its format gives. -/
def State.batCode (s : State) (n : Nat) : Int :=
  let w := (s.chan n).res
  if n < 16 then signedOf 16 (w.fld 0 16) else (w.fld 0 16 : Int)

/-- The scaled value of voltage or current, held in its field; a result over range reads as the end of the range in its
direction (R290). -/
def State.batValue (s : State) (i : Nat) (lo hi : Int) : Int :=
  let n := s.batCh i
  let c := s.batCode n
  let cal := s.reg (0x30060204 + 4 * i)
  if (s.chan n).res.bit 16 then (if (if n < 16 then (0 : Int) else 32768) ≤ c then hi else lo)
  else clampInt lo hi ((c - signedOf 16 (cal.fld 16 16)) * cal.fld 0 16 / 4096)

/-- The channels that are INVALID and STALE (R290). -/
def State.batBad (s : State) : BitVec 3 × BitVec 3 :=
  let m (f : Nat → Bool) : BitVec 3 :=
    BitVec.ofNat 3 (((List.range 3).map fun i => if s.batEn i ∧ f i then 2 ^ i else 0).sum)
  (m fun i => s.owner 4 (s.batCh i) != 0, m fun i => decide (17 ≤ (s.chan (s.batCh i)).age))

/-- A charge held in the 48-bit accumulator; one that does not fit it is free (R291 states none). -/
def State.setCharge (s : State) (q : Int) : State :=
  if signedOf 48 (twosOf 48 q) = q then s.updSeqr fun x => { x with batAcc := q }
  else (s.updSeqr fun x => { x with batAcc := signedOf 48 (Config.chargeBeyond s.free).toNat }).drawn

/-- BAT_Q in mC. -/
def State.batQ (s : State) : Int := s.seq.batAcc / 1000000

/-- A write of BAT_Q (R291). -/
def State.batQWrite (s : State) (v : Word) : State := s.setCharge (signedOf 32 v.toNat * 1000000)

/-- One quantity against its two limits (R291): it becomes out of limit after 4 consecutive updates outside them, on
whichever side, and in limit after 4 inside. While it is out, its OUT bits say on which side it is. EV254 when it
becomes out, and the down sequence of VLOW_DOWN when it becomes out below VLOW (log entry 147). -/
def State.batLimits (s : State) (i : Nat) (low high : Bool) (value : Nat) : State :=
  let sides : BitVec 6 := BitVec.ofNat 6 (4 ^ i * (bitNat low + 2 * bitNat high))
  let both : BitVec 6 := BitVec.ofNat 6 (3 * 4 ^ i)
  let out := s.seq.batOut &&& both != 0
  let n := if (low || high) = out then 0 else SMap.get (fun _ => 0) s.seq.batCnt i + 1
  let turn := decide (4 ≤ n)
  let now := if turn ∨ (out ∧ (low || high)) then sides else s.seq.batOut &&& both
  let s1 := s.updSeqr fun q => { q with
    batCnt := SMap.set (fun _ => 0) q.batCnt i (if turn then 0 else n), batOut := (q.batOut &&& ~~~both) ||| now }
  let s2 := if turn ∧ out = false then s1.raise 254 .granted (wordOf (sides.toNat + value * 65536)) else s1
  if now.getLsbD 0 ∧ s.seq.batOut.getLsbD 0 = false ∧ s.rbit 0x30060228 0 ∧ s2.seq.st ≤ 1 then s2.seqDown 3 else s2

/-- A quantity that is not compared starts its count anew. -/
def State.batSkip (s : State) (i : Nat) : State :=
  s.updSeqr fun q => { q with batCnt := SMap.set (fun _ => 0) q.batCnt i 0 }

/-- The slot 1 update of the battery watch (R290, R291), in Open and Ajar. -/
def State.batUpdate (s : State) : State :=
  if s.up 13 = false then s
  else
    let bad := s.batBad
    let ok (i : Nat) : Bool := s.batEn i && !bad.1.getLsbD i && !bad.2.getLsbD i
    let v := (s.batValue 0 0 65535).toNat
    let i := s.batValue 1 (-32768) 32767
    let t := (s.chan (s.batCh 2)).res.fld 0 16
    let s1 := s.updSeqr fun q => { q with
      invalid := bad.1, stale := bad.2, gap := q.gap || q.gapDue, gapDue := false,
      batV := if ok 0 then v else q.batV, batI := if ok 1 then i else q.batI, batT := if ok 2 then t else q.batT }
    let s2 := if ok 1 then s1.setCharge (s1.seq.batAcc + i * s.periodUs) else s1
    let vl := s.reg 0x3006021C
    let il := s.reg 0x30060220
    let tl := s.reg 0x30060224
    let s3 := if ok 0 then s2.batLimits 0 (v < vl.fld 0 16) (vl.fld 16 16 < v) v else s2.batSkip 0
    let s4 := if ok 1 then
        s3.batLimits 1 (decide ((il.fld 0 16 : Int) < i)) (decide (i < -(il.fld 16 16 : Int))) (twosOf 16 i)
      else s3.batSkip 1
    if ok 2 then s4.batLimits 2 (t < tl.fld 0 16) (tl.fld 16 16 < t) t else s4.batSkip 2

/-! ## The coin cell (R292) -/

/-- A measurement starts, or is skipped without VAO. -/
def State.coinStart (s : State) : State :=
  if s.up 13 = false ∨ s.seq.coinBusy then s
  else if s.pwr.vao then s.updSeqr fun q => { q with coinBusy := true, coinSkip := false }
  else s.updSeqr fun q => { q with coinSkip := true }

/-- The end of a measurement. -/
def State.coinEnd (s : State) (mv : Nat) : State :=
  if s.up 13 = false ∨ s.seq.coinBusy = false then s
  else
    let low := decide (mv < s.fld 0x30060230 16 16)
    let s1 := s.updSeqr fun q => { q with coinBusy := false, coinMv := mv, coinLow := low }
    if low then s1.raise 255 .granted (wordOf mv) else s1

end Sys2Proof.Machine
end

