-- ==== Sys2Proof/Machine/Doors.lean ====
section
/-! DEFINITION. Doors, failure counters, heartbeats, authentication and grants (spec/03). -/

namespace Sys2Proof.Machine

/-! ## Failures and fire doors (R69 to R72) -/

/-- A door set to FIRE with a cause and the value of its counter; EV5 (Table 3.8). -/
def State.fireDoor (s : State) (t cause value : Nat) : State :=
  ((s.setDoor t .fire).updTen t fun T => { T with cause := cause }).raise 5 .granted
    (wordOf (t + 256 * cause + 65536 * value))

/-- A failure of CHECK (cause 1) or AUTH (cause 2) counted: the counter saturates at 255, and at its limit an OPEN door
becomes FIRE. The keeper's door stays open (R56). -/
def State.doorFail (s : State) (t : Nat) (auth : Bool) : State :=
  let T := s.ten t
  let n := satAdd 255 (if auth then T.authCnt else T.chkCnt) 1
  let s1 := s.updTen t fun T => if auth then { T with authCnt := n } else { T with chkCnt := n }
  if t ≠ 0 ∧ s.door t = .opened ∧ (if auth then T.doorCfg.fld 8 8 else T.doorCfg.fld 0 8) ≤ n then
    s1.fireDoor t (if auth then 2 else 1) n
  else s1

/-- LEAK_TICKS of a tenant. -/
def Tenant.leakTicks (T : Tenant) : Nat := T.doorCfg.fld 16 16

/-- The leak count has reached LEAK_TICKS (R69). -/
def State.leakExpire (s : State) (t : Nat) : State :=
  if (s.ten t).leakTicks ≤ (s.ten t).leak then
    s.updTen t fun T => { T with leak := 0, chkCnt := T.chkCnt - 1, authCnt := T.authCnt - 1 }
  else s

/-- HB_TICKS ticks have passed without a counted heartbeat (R71). -/
def State.hbExpire (s : State) (t : Nat) : State :=
  if t ≠ 0 ∧ (s.ten t).hbTicks ≠ 0 ∧ (s.ten t).hbLeft = 0 ∧ s.door t = .opened ∧ s.pwr.st = .opened then
    s.fireDoor t 3 0
  else s

/-- A write of HEARTBEAT (R70): counted when the value is a new one. -/
def State.heartbeat (s : State) (t : Nat) (v : Word) : State :=
  s.updTen t fun T => { T with heartbeat := v, hbLeft := if v = T.heartbeat then T.hbLeft else T.hbTicks }

/-! ## Link slots in a CQ (R130) -/

/-- The link buffer and place that a CQ slot of a tenant came from. -/
def State.cqLink (s : State) (t k : Nat) : Option (Nat × Nat) := SMap.get (fun _ => none) s.link.cqFrom (32 * t + k % 32)

/-- A link response buffer. -/
def State.rspBuf (s : State) (b : Nat) : Option RspBuf := SMap.get (fun _ => none) s.link.bufs b

/-- A link response buffer set. -/
def State.setBuf (s : State) (b : Nat) (v : Option RspBuf) : State :=
  { s with link := { s.link with bufs := SMap.set (fun _ => none) s.link.bufs b v } }

/-- A dead buffer is released once no accepted slot of its frame runs and none waits (R130). -/
def State.bufSettle (s : State) (b : Nat) : State :=
  match s.rspBuf b with
  | some r =>
    if r.dead ∧ (s.runs.any fun q => match q.link with
        | some l => l.1 == b
        | none => false) = false ∧ (s.link.cqFrom.any fun q => match q.2 with
        | some l => l.1 == b
        | none => false) = false then s.setBuf b none
    else s
  | none => s

/-- The link slots of a tenant that wait in its CQ are discarded: their frames are never answered (R130). -/
def State.dropLinkSlots (s : State) (t : Nat) : State :=
  let bs := ((s.link.cqFrom.filter fun q => q.1 / 32 == t).filterMap fun q => q.2.map fun l => l.1).dedup
  let s1 := { s with link := { s.link with cqFrom := SMap.clear s.link.cqFrom (32 * t) (32 * t + 32) } }
  s1.each bs fun s b => (s.setBuf b ((s.rspBuf b).map fun r => { r with dead := true })).bufSettle b

/-! ## Actions on a door (R67, R68, R144) -/

/-- What a SHUT does to the tenant (R67): queues emptied, windows unmapped, staged words discarded. -/
def Tenant.emptied (T : Tenant) : Tenant :=
  { T with
    cqHead := 0, cqTail := 0, rqHead := 0, rqTail := 0, exitBad := 0, eqHead := 0, eqTail := 0, pend := [],
    winType := [], staged := [], winReq := none, winState := if T.winReq.isSome then 0 else T.winState,
    pause := false, doorPend := none }

/-- SYS_DOOR_CTRL SHUT (R67, R68). -/
def State.shutDoor (s : State) (t : Nat) : State :=
  if t = 0 then s
  else if s.door t = .shut then s.updTen t fun T => { T with doorPend := none }
  else ((s.setDoor t .shut).updTen t Tenant.emptied).dropLinkSlots t

/-- SYS_DOOR_CTRL OPEN or OPEN_FLUSH (R68): pending until the next slot 0. -/
def State.askOpen (s : State) (t : Nat) (flush : Bool) : State :=
  if t = 0 ∨ s.door t = .opened then s else s.updTen t fun T => { T with doorPend := some flush }

/-- A pending open takes effect (Table 3.5). DESIGN CHOICE: a register commit that still waits when OPEN_FLUSH takes
effect is kept, and runs over what is staged then (log 136). -/
def State.openDoor (s : State) (t : Nat) : State :=
  match (s.ten t).doorPend with
  | none => s
  | some flush =>
    let s1 := (s.setDoor t .opened).updTen t fun T => { T with
      doorPend := none, chkCnt := 0, authCnt := 0, hbLeft := T.hbTicks }
    if flush then
      (s1.updTen t fun T => { T with cqHead := T.cqTail, staged := [] }).dropLinkSlots t
    else s1

/-- The code of a door's state (Table 3.12). -/
def DoorSt.code : DoorSt → Nat
  | .shut => 0
  | .opened => 1
  | .fire => 2

/-! ## Wake votes (R141) -/

/-- A tenant's vote counts. -/
def State.vote (s : State) (t : Nat) : Bool := (s.ten t).wakeHold && s.door t == .opened

/-- SYS_WAKE_VOTES. -/
def State.votes (s : State) : Nat := ((List.range 32).map fun t => if s.vote t then 2 ^ t else 0).sum

/-- The vote's TICKS have run out (R141). -/
def State.voteLapse (s : State) (t : Nat) : State :=
  if (s.ten t).wakeLapse then s.updTen t fun T => { T with wakeHold := false, wakeTicks := 0, wakeLapse := false } else s

/-! ## Keys (R78, R79) -/

/-- The key that the staging registers hold, byte 0 first and most significant. -/
def State.stagedKey (s : State) : BitVec 256 := BitVec.ofNat 256 (beNat (leBytes 32 s.keyStage.toNat))

/-- SEC_KEY_CTRL LOAD. -/
def State.keyLoad (s : State) (persist : Bool) : State :=
  { s.updTen s.secTen fun T => { T with keyNew := some (s.stagedKey, persist) } with keyStage := 0 }

/-- The flash operations that write a sealed-key sector (R79): its erase when it is not erased or is suspect, and the
words of the records that it then holds. Sector and words are free; the REASON is that of a command (log entry 46). -/
def State.sealOps (s : State) (j : Job) : List FlashOp :=
  let slot := bitNat (Config.sealedSector s.free)
  let n := 542 + slot
  let ws := Config.sealedWords s.free
  (if !s.sectorErased (s.phys n) || s.suspect (s.phys n) then [FlashOp.erase n 1 j] else []) ++
    ((ws.1 :: ws.2.take 255).zipIdx.map fun q => FlashOp.prog (n * 256 + q.2) q.1 j) ++ [.done slot 0 j]

/-- The job that writes or clears a tenant's sealed record joins the flash queue; one for the same tenant that has not
ended is void. -/
def State.sealJob (s : State) (t : Nat) (key : Option (BitVec 256)) : State :=
  let keep (q : List FlashOp) : List FlashOp := q.filter fun o => match o.job.root with
    | .sealing u _ => u != t
    | _ => true
  let s1 := { s with flash := { s.flash with queue := keep s.flash.queue, wait := keep s.flash.wait } }
  s1.drawn.enqueueNew (s1.sealOps (.sealing t key))

/-- A tenant has a sealed record, or one is being written. -/
def State.sealHeld (s : State) (t : Nat) : Bool :=
  (SMap.get (fun _ => none) s.sealed t).isSome ||
    (s.flash.running ++ s.flash.queue ++ s.flash.wait).any fun o => match o.job.root with
      | .sealing u k => u == t && k.isSome
      | _ => false

/-- SEC_KEY_CTRL ERASE, alone or with LOAD: it acts at once (R78), and the record is taken out of its sector by a job of
the flash controller (R79). -/
def State.keyErase (s : State) (load : Bool) : State :=
  let s1 := s.updTen s.secTen fun T => { T with key := none, keyNew := none }
  let s2 := { s1 with
    sealed := SMap.set (fun _ => none) s1.sealed s.secTen none,
    keyStage := if load then 0 else s1.keyStage }
  if s.sealHeld s.secTen then s2.sealJob s.secTen none else s2

/-- A loaded key takes effect, and with PERSIST the programming of its sealed record begins (R78, R79). -/
def State.keyActivate (s : State) (t : Nat) : State :=
  match (s.ten t).keyNew with
  | none => s
  | some (k, persist) =>
    let s1 := s.updTen t fun T => { T with key := some k, keyNew := none }
    if persist then s1.sealJob t (some k) else s1

/-! ## Authentication (R73 to R77) -/

/-- The 64-bit tag of bytes under a key, as the number its 8 bytes spell, most significant first (R73). -/
def tagOf (key : BitVec 256) (bs : List Byte) : Nat := beNat ((Crypto.hmac (beBytes 32 key.toNat) bs).take 8)

/-- EV6 (Table 3.8). -/
def State.ev6 (s : State) (t kind : Nat) : State := s.raise 6 .granted (wordOf (t + 256 * kind))

/-- R74 on a correctly tagged frame: H and the map after it, if it is accepted. Bit i of the map is the counter H − i. -/
def acceptAcnt (h : Nat) (map : BitVec 64) (now acnt : Nat) : Option (Nat × BitVec 64) :=
  if h < acnt then
    if now ≤ acnt / 65536 + 64 ∧ acnt / 65536 ≤ now + 2 then
      some (acnt, (if acnt - h < 64 then map <<< (acnt - h) else 0) ||| 1)
    else none
  else if h - acnt < 64 ∧ map.getLsbD (h - acnt) = false then
    some (h, map ||| BitVec.ofNat 64 (2 ^ (h - acnt)))
  else none

/-- A frame's tag verified (R73 to R77): the state, and the status it ends with when it is refused. `tag` holds ACNT, the
tag and the bytes it covers. -/
def State.authenticate (s : State) (t : Nat) (tag : Option (Nat × Nat × List Byte)) : State × Option Nat :=
  let T := s.ten t
  match T.key, tag with
  | none, none => (s, if T.authReq ∧ t ≠ 0 then some 10 else none)
  | none, some _ => (s, some 10)
  | some _, none =>
    if T.authReq ∧ t ≠ 0 then ((s.ev6 t 2).doorFail t true, some 9) else (s, none)
  | some k, some (acnt, v, bs) =>
    if s.tick.numValid = false then (s, some 10)
    else if tagOf k bs ≠ v then ((s.ev6 t 1).doorFail t true, some 9)
    else match acceptAcnt T.acntH T.acntMap s.now acnt with
    | some (h, m) => (s.updTen t fun T => { T with acntH := h, acntMap := m }, none)
    | none => ((s.updTen t fun T => { T with replay := sat16 T.replay }).ev6 t 3, some 9)

/-- H and the map of every tenant that waits for a tick number set from it (R76). -/
def State.acntReset (s : State) : State :=
  s.each (List.range 32) fun s t => s.updTen t fun T =>
    if T.acntLost then { T with acntH := (s.now - 64) * 65536, acntMap := BitVec.allOnes 64, acntLost := false } else T

/-- NUM_VALID becomes 1 (R45, R76). -/
def State.numberSet (s : State) : State :=
  if s.tick.numValid then s else { s with tick := { s.tick with numValid := true } }.acntReset

/-! ## Grants (R58 to R64) -/

/-- A staged entry. -/
def State.stagedOf (s : State) (cls i : Nat) : Option StagedGrant :=
  SMap.get (fun _ => none) s.grants.staged (512 * cls + i)

/-- An entry as it will be once the staged ones are in effect. -/
def State.grantNext (s : State) (cls i : Nat) : Grant :=
  match s.stagedOf cls i with
  | some g => ⟨g.owner, g.base, g.count⟩
  | none => s.grant cls i

/-- The first and last member of an extent class. -/
def extentRange (cls : Nat) : Nat × Nat := if cls = 8 then (800, 4031) else (0, 191)

/-- A write of SYS_GRANT_DATA to an entry: what is staged, and the clamps (Tables 3.10 and 3.11). -/
def grantWrite (cls : Nat) (v : Word) : StagedGrant × Nat :=
  if cls < 8 then
    let rail := cls == 6 && v.fld 0 5 != 0
    (⟨if rail then 0 else v.fld 0 5, v.bit 5, 0, 0⟩, bitNat rail)
  else
    let r := extentRange cls
    let b := clampNat r.1 r.2 (v.fld 8 12)
    let c := min (v.fld 20 12) (r.2 + 1 - b)
    (⟨v.fld 0 5, false, b, c⟩, (if b = v.fld 8 12 then 0 else 1) + if c = v.fld 20 12 then 0 else 1)

/-- An extent overlaps another valid one of its class (R62). -/
def State.overlaps (s : State) (cls i : Nat) (g : StagedGrant) : Bool :=
  g.count != 0 && (List.range 64).any fun j =>
    let h := s.grantNext cls j
    j != i && h.count != 0 && decide (g.base < h.base + h.count ∧ h.base < g.base + g.count)

/-- INDEX after an access with AINC. -/
def nextIndex (cls i : Nat) : Nat := if i + 1 < classSize cls then i + 1 else 0

/-- A write of SYS_GRANT_DATA (R60, R62): the state, the clamps, and whether it was refused under R62. -/
def State.grantStage (s : State) (v : Word) : State × Nat × Bool :=
  let cls := s.grants.cls
  let i := s.grants.idx
  let w := grantWrite cls v
  let bad := 8 ≤ cls && s.overlaps cls i w.1
  let next := if s.grants.ainc then nextIndex cls i else i
  if bad then ({ s with grants := { s.grants with err := true, idx := next } }, 0, true)
  else if cls = 7 ∧ evRouted i then ({ s with grants := { s.grants with idx := next } }, 0, false)
  else
    ({ s with grants := { s.grants with
        staged := SMap.set (fun _ => none) s.grants.staged (512 * cls + i) (some w.1), idx := next } }, w.2, false)

/-- SYS_GRANT_DATA as read (Tables 3.10 and 3.11). -/
def State.grantData (s : State) : Word :=
  let cls := s.grants.cls
  let i := s.grants.idx
  let g := s.grantNext cls i
  let p := bitNat (s.stagedOf cls i).isSome
  if cls < 8 then
    let o := if cls = 6 ∨ (cls = 7 ∧ evRouted i) then 0 else g.owner
    wordOf (o + 64 * p + 128 * bitNat (cls == 7 && evRouted i))
  else wordOf (g.owner + 64 * p + 128 * bitNat (s.wiping cls i) + 256 * g.base + 2 ^ 20 * g.count)

/-- What a change of owner does to a resource of a numbered class (Table 3.3). -/
def State.ownerChange (s : State) (cls i : Nat) (keep : Bool) : State :=
  match cls with
  | 0 => s.cellOwnerChange i keep
  | 1 => if keep then s else s.lampOwner i
  | 2 => if keep then s else s.engineOwner i
  | 3 => s.keyOwner i keep
  | 4 => if keep then s else s.chanOwner i
  | _ => s

/-- The members of an extent class whose owner the staged entries change, each with the entry that its wipe belongs to
(R64). `s` is the state before, `n` the state with the new table. -/
def wipesOf (s n : State) (cls : Nat) : List (Nat × Nat) :=
  let touched := ((List.range 64).filter fun i => (s.stagedOf cls i).isSome).flatMap fun i =>
    let a := s.grant cls i
    let b := n.grant cls i
    ((List.range a.count).map fun k => a.base + k) ++ (List.range b.count).map fun k => b.base + k
  touched.dedup.filterMap fun m =>
    if s.extentOwner cls m = n.extentOwner cls m then none
    else match n.extentOf cls m, s.extentOf cls m with
    | some i, _ => some (m, i)
    | none, some i => some (m, i)
    | none, none => none

/-- Scratch granules wiped at once, with EV7 for each entry (R64). -/
def State.wipeScratch (s : State) (ws : List (Nat × Nat)) : State :=
  let s1 := s.each (ws.map fun w => w.1) fun s g => s.zeroMem (scratchBase + 2048 * g) (scratchBase + 2048 * g + 2048)
  s1.each (ws.map fun w => w.2).dedup fun s i => s.raise 7 .granted (wordOf (9 + 256 * i))

/-- Shelf-store sectors to wipe join the flash queue (R64). -/
def State.wipeShelf (s : State) (ws : List (Nat × Nat)) : State :=
  let s1 := { s with grants := { s.grants with
    wipe := s.grants.wipe ++ ws.map fun w : Nat × Nat => (w.1, 512 * 8 + w.2) } }
  s1.enqueueNew (ws.map fun w : Nat × Nat => FlashOp.erase w.1 3 (.wipe (512 * 8 + w.2)))

/-- All staged entries take effect together (R60, R63). -/
def State.applyGrants (s : State) : State :=
  let entries := s.grants.staged.filterMap fun q => q.2.map fun g => (q.1, g)
  if entries.isEmpty then s
  else
    let table := entries.foldl (fun m q =>
      SMap.set grantReset m q.1 ⟨q.2.owner, q.2.base, q.2.count⟩) s.grants.table
    let was := s.followers
    let n := { s with grants := { s.grants with table := table, staged := [] } }
    let n1 := entries.foldl (fun x q =>
      if s.owner (q.1 / 512) (q.1 % 512) = n.owner (q.1 / 512) (q.1 % 512) then x
      else x.ownerChange (q.1 / 512) (q.1 % 512) q.2.keep) n
    ((n1.lampRefollow was).wipeScratch (wipesOf s n 9)).wipeShelf (wipesOf s n 8)

/-- A grant entry whose EXTENT or resource a tenant owns (R142): classes 0x0 to 0x6, extents, granted events, and the
routed events that concern the tenant. -/
def State.grantOwned (s : State) (t cls i : Nat) : Bool :=
  let any (c : Nat) (p : Nat → Bool) : Bool := (List.range (classSize c)).any fun n => p n && s.owner c n == t
  if cls < 7 then s.owner cls i == t
  else if cls = 7 then
    if evRouted i then
      i == 4 || i == 64 || i == 65 || i == 66 || i == 71 || i == 72 || i == 76 ||
      (32 ≤ i && i < 64 && i == 32 + t) ||
      (96 ≤ i && i < 144 && any 0 fun n => n / 16 == (i - 96) / 4) ||
      (144 ≤ i && i < 176 && any 1 fun n => n == (i - 144) / 2) ||
      (176 ≤ i && i < 180 && any 2 fun n => n == i - 176) ||
      (i == 180 && any 1 fun _ => true) ||
      (184 ≤ i && i < 189 && any 3 fun _ => true) ||
      (200 ≤ i && i < 232 && any 4 fun n => n == i - 200) ||
      ((i == 234 || i == 236) && any 4 fun _ => true) ||
      (240 ≤ i && i < 248 && any 5 fun n => n == i - 240)
    else s.owner 7 i == t
  else (s.grant cls i).owner == t && (s.grant cls i).count != 0

end Sys2Proof.Machine
end

