-- ==== Sys2Proof/Machine/Tick.lean ====
section
/-! DEFINITION. The sill tick (spec/02): arrivals, locking, slewing, holdover, the tick number, TICK_OUT and the work
of a boundary. -/

namespace Sys2Proof.Machine

/-- The TICK block changed. -/
def State.updTick (s : State) (f : Tick → Tick) : State := { s with tick := f s.tick }

/-- The tick counts: in Open and Ajar, up to the commit point of an entry and from the end of an exit (R45, R271,
R279). -/
def State.ticking (s : State) : Bool :=
  s.up 1 && (s.pwr.st == .opened || s.pwr.st == .ajar) && s.pwr.phase != .committed && s.pwr.phase != .restoring

/-- A phase in the range (−P/2, +P/2] (R52). -/
def phaseIn (periodUs : Nat) (x : Int) : Int :=
  let p : Int := 1000 * periodUs
  if p < 2 * (x % p) then x % p - p else x % p

/-- SRC and DSYNC_EN allow a source: LINK (false) or DSYNC (true) (R32). -/
def srcAllows (src : Nat) (dsyncEn ds : Bool) : Bool :=
  if src = 0 then !ds || dsyncEn else if src = 1 then !ds else src == 2 && ds

/-- The source in use, or being slewed to; none in holdover and LOCAL. -/
def Tick.use (k : Tick) : Option Bool :=
  match k.st with
  | .lockedLink => some false
  | .lockedDsync => some true
  | .slewing => some k.slewDs
  | _ => none

/-- Locked to the source in use. -/
def Tick.locked (k : Tick) : Bool := k.st == .lockedLink || k.st == .lockedDsync

/-- The count of a source. -/
def Tick.lockOf (k : Tick) (ds : Bool) : Lock := if ds then k.dsync else k.link

/-- The count of a source set. -/
def Tick.setLock (k : Tick) (ds : Bool) (l : Lock) : Tick := if ds then { k with dsync := l } else { k with link := l }

/-- A source that nothing has arrived from. -/
def Lock.none : Lock := ⟨0, 0, false⟩

/-- Holdover entered (R32, R50, R52): `n` ticks in it so far, EV1 with a tick number. -/
def State.enterHoldover (s : State) (n num : Nat) : State :=
  (s.updTick fun k => { k with
    st := .holdover, holdTicks := n, link := Lock.none, dsync := Lock.none, flipInd := false }).raise 1 .granted
    (wordOf num)

/-! ## Arrivals (R50, R52, R53) -/

/-- One step of the slew from a measured error: the lock at 1 µs or less, else 1 µs toward it. `ahead`: the arrival
comes no later than the boundary it belongs to. The flip mark of the arrival that ends SLEWING is taken for that boundary:
the source is in use from then on, and R48 does not say (log entry 133). -/
def State.approach (s : State) (ds : Bool) (err : Int) (flip ahead : Bool) : State :=
  if err.natAbs ≤ 1000 then
    (s.updTick fun k => { k.setLock ds ⟨0, 0, ahead⟩ with
      st := if ds then .lockedDsync else .lockedLink, adj39 := err, phase := err, flipInd := flip && ahead }).raise 2
      .granted (wordOf (twosOf 32 (clampInt (-2147483647) 2147483647 s.tick.slewFirst)))
  else
    let d : Int := if 0 < err then 1000 else -1000
    s.updTick fun k => { k.setLock ds ⟨0, 0, true⟩ with
      st := .slewing, slewDs := ds, slewExp := err - d, adj39 := d, phase := err, flipInd := false }

/-- An arrival counted toward the lock (R52). -/
def State.countArrival (s : State) (ds : Bool) (err : Int) (flip ahead : Bool) : State :=
  let l := s.tick.lockOf ds
  if l.arrived then s
  else
    let n : Lock :=
      if 0 < l.count ∧ (phaseIn s.periodUs (err - l.first)).natAbs ≤ 2000 then ⟨l.count + 1, l.first, true⟩
      else ⟨1, err, true⟩
    if 4 ≤ n.count then
      (s.updTick fun k => { k with slewFirst := n.first, link := Lock.none, dsync := Lock.none }).approach ds err flip
        ahead
    else s.updTick fun k => { k.setLock ds n with phase := err }

/-- An arrival of a source at a phase against the own boundary. -/
def State.arrival (s : State) (ds : Bool) (phase : Int) (flip ahead : Bool) : State :=
  let err := phaseIn s.periodUs phase
  if s.ticking = false ∨ srcAllows s.tick.srcF s.tick.dsyncF ds = false then s
  else if s.tick.locked ∧ s.tick.use = some ds then
    if phase.natAbs ≤ 8000 ∧ (s.tick.lockOf ds).arrived = false then
      s.updTick fun k => { k.setLock ds ⟨0, 0, true⟩ with phase := phase, adj39 := phase, flipInd := flip }
    else s
  else if s.tick.use = some ds then
    if (s.tick.lockOf ds).arrived = false ∧ (phaseIn s.periodUs (err - s.tick.slewExp)).natAbs ≤ 2000 then
      s.approach ds err flip ahead
    else s
  else if s.tick.st = .holdover ∨ (ds = false ∧ s.tick.use = some true) then s.countArrival ds err flip ahead
  else s

/-- The boundary delay of TICK_DSYNC.DLY in ns (Table 2.8). -/
def Tick.dlyNs (k : Tick) : Int := 5 * k.dly

/-- A rising edge of DSYNC_IN at a phase against the own boundary: the arrival is the edge plus DLY (R444). The pulse of
an arrival that marks a boundary is high until it is classified. An edge before a boundary that it does not itself make
can arrive after it. The edges of a held pad are ignored (R274). -/
def State.dsyncEdge (s : State) (phase : Int) : State :=
  let at_ := phase + s.tick.dlyNs
  if s.genHeld 1 then s
  else if phase ≤ 0 ∧ 0 < at_ ∧ ¬(s.tick.st = .lockedDsync) then s.updTick fun k => { k with laterDs := some at_ }
  else
    let s1 := s.arrival true at_ false (decide (at_ ≤ 0))
    if s1.tick.st = .lockedDsync ∧ s1.tick.dsync.arrived ∧ s.tick.dsync.arrived = false then
      s1.updTick fun k => { k with dsHigh := true, dsWidth := 0, dsMark := 1 }
    else s1

/-! ## The tick number (R44 to R46, R247, R308) -/

/-- A number given by a load: what it jumps over ends, NUM_VALID is set, and EV21 for the link. A load within a tick
leaves its own number without a boundary. -/
def State.loadNumber (s : State) (n : BitVec 48) (link within : Bool) : State :=
  let old := s.now
  let s1 := (s.updTick fun k => { k with num := n }).numberSet.skipArms old (n.toNat + bitNat within)
  if link then s1.raise 21 .granted (wordOf n.toNat) else s1

/-- A write of TICK_NUM_SET_HI (R46). -/
def State.numSetLoad (s : State) (v : Word) : State :=
  if v.bit 31 = false then s
  else if s.tick.srcF = 1 ∨ (s.tick.srcF = 0 ∧ s.tick.use = some false) then
    s.updTick fun k => { k with loadRej := true }
  else
    s.updTick fun k => { k with
      load := some (BitVec.ofNat 48 (v.fld 0 16 * 2 ^ 32 + k.setLo.toNat)), loadLink := false }

/-! ## The boundary (R310, Table 2.2) -/

/-- SRC and DSYNC_EN take effect (R32). The state, and whether holdover is entered. -/
def State.applyCtrl (s : State) : State × Bool :=
  let src := s.tick.ctrl.fld 0 2
  let en := s.tick.ctrl.bit 3
  let s1 := s.updTick fun k => { k with
    srcF := src, dsyncF := en,
    link := if srcAllows src en false then k.link else Lock.none,
    dsync := if srcAllows src en true then k.dsync else Lock.none }
  if src = 3 then (s1.updTick fun k => { k with st := .localTick }, false)
  else if src = s.tick.srcF ∧ en = s.tick.dsyncF then (s1, false)
  else if s.tick.st = .localTick then (s1, true)
  else match s.tick.use with
  | some ds => (s1, !srcAllows src en ds)
  | none => (s1, false)

/-- What slot 0 does to one tenant: its quota, its leak count (R69), its heartbeat time (R71) and its vote (R141). -/
def Tenant.slot0 (T : Tenant) (beats counts : Bool) : Tenant :=
  { T with
    quota := T.quotaSet, spent := 0, deferred := T.deferNow, deferNow := false, started := false, ended := false,
    leak := min (T.leak + 1) T.leakTicks,
    hbLeft := if beats then T.hbLeft - 1 else T.hbLeft,
    wakeTicks := if counts then T.wakeTicks - 1 else T.wakeTicks,
    wakeLapse := T.wakeLapse || (counts && T.wakeTicks == 1) }

/-- The tenants at slot 0. -/
def State.tenantSlot0 (s : State) : State :=
  s.each (List.range 32) fun s t =>
    let beats := t != 0 && (s.ten t).hbTicks != 0 && s.door t == .opened && s.pwr.st == .opened
    let counts := s.vote t && decide (0 < (s.ten t).wakeTicks)
    ((s.updTen t fun T => T.slot0 beats counts).openDoor t).keyActivate t

/-- The steps of R310: the flip, the frame start, copy-forward and the staged grants. -/
def State.boundarySteps (s : State) : State := s.frameSteps.applyGrants

/-- The steps that waited for the pulse to be classified take place (R444). -/
def State.waitedSteps (s : State) : State :=
  if s.tick.flipWait then
    (s.updTick fun k => { k with flipWait := false }).boundarySteps.updTick fun k => { k with flipInd := false }
  else s

/-- The steps of R310, at the boundary or once the pulse is classified. -/
def State.r310 (s : State) : State :=
  if s.tick.dsHigh ∧ s.tick.dsMark = 2 ∧ s.tick.st = .lockedDsync ∧ (s.armedFor s.tick.num).isEmpty = false then
    s.updTick fun k => { k with flipWait := true }
  else s.boundarySteps.updTick fun k => { k with flipInd := false }

/-- The width of the TICK_OUT pulse of a boundary (R49). One marked by a pulse that is still high is settled when it is
classified. -/
def Tick.outWidth (k : Tick) : Nat :=
  if k.ctrl.bit 2 = false then 0
  else match k.st with
  | .localTick => 1000
  | .lockedDsync => clampNat 1000 8500 k.dsWidth
  | .lockedLink => if k.flipInd then 6000 else 1000
  | _ => 6000

/-- EV0 (Table 2.6). -/
def State.ev0 (s : State) : State :=
  let div := s.tick.ctrl.fld 8 8
  if div ≠ 0 ∧ s.now % div = 0 then s.raise 0 .granted (wordOf s.now) else s

/-- The counts that go by ticks: the flash scrub (R163), EV20 (R247), restarts of services (R171), the age of accepted
commands (R117). -/
def State.tickCounts (s : State) : State :=
  { s with
    runs := s.runs.map fun r => { r with age := r.age + 1 }
    tick := { s.tick with fscrub := s.tick.fscrub - 1, lowWait := s.tick.lowWait - 1 },
    prot := { s.prot with restarts :=
      (s.prot.restarts.map fun q => (q.1, q.2 + 1)).filter fun q => decide (q.2 ≤ 201) } }

/-- The number, the state and TICK_PERIOD as the boundary makes them (R32, R34, R45, R50, R52). -/
def State.newTick (s : State) : State :=
  let k := s.tick
  let missed := match k.use with
    | some ds => !(k.lockOf ds).arrived
    | none => false
  let late := k.locked && missed
  let held := k.st == .holdover
  let old := s.now
  let s1 := s.updTick fun k => { k with
    adj39 := if late then -8000 else 0, periodF := k.period, load := none,
    dsMark := if k.dsMark = 1 then 2 else 0,
    link := if k.link.arrived then { k.link with arrived := false } else Lock.none,
    dsync := if k.dsync.arrived then { k.dsync with arrived := false } else Lock.none }
  let s2 := match k.load with
    | some n => s1.loadNumber n k.loadLink false
    | none => s1.updTick fun k => { k with num := k.num + 1 }
  let c := s2.applyCtrl
  if c.1.tick.st = .localTick then c.1
  else if late ∨ c.2 then c.1.enterHoldover 1 c.1.now
  else if missed then c.1.enterHoldover 2 old
  else if held then c.1.updTick fun k => { k with holdTicks := sat16 k.holdTicks }
  else c.1

/-- The work of slot 0 that follows the steps of R310. -/
def State.slotZero (s : State) : State :=
  let s1 := s.tenantSlot0.tickCounts.updTick fun k => { k with
    slot := 0, first := k.first % 31 + 1, capLeft := Config.capacity }
  s1.ev0.adcSlot0

/-- The width of the TICK_OUT pulse that leaves the part: none while bank GEN is held (Table 11.5). -/
def State.tickPulse (s : State) (w : Nat) : Nat := if s.genHeld 1 then 0 else w

/-- The arrivals announced for an instant after the boundary, of the link (R244) and of DSYNC_IN (R444). -/
def State.laterArrival (s : State) : State :=
  let s1 := match s.tick.later with
    | some (p, f) => (s.updTick fun k => { k with later := none }).arrival false p f false
    | none => s
  match s1.tick.laterDs with
  | some p => (s1.updTick fun k => { k with laterDs := none }).arrival true p false false
  | none => s1

/-- A boundary: the readback of the frame that ends, the new tick, the steps of R310, and the other work of slot 0. -/
def State.boundary (s : State) (mis : List (BitVec 12)) : State :=
  if s.ticking = false then s
  else
    let s1 := (s.waitedSteps.padReadback mis).scanFront.newTick
    (s1.updTick fun k => { k with tickOut := s.tickPulse k.outWidth }).r310.slotZero.laterArrival

/-- A pulse is classified, when it falls or at 8.1 µs (R31, R444). `high` is its whole high time: TICK_OUT stays high as
long, to 8.5 µs at most, also for a pulse that falls after its classification (R49). -/
def State.dsyncClassify (s : State) (high : Nat) : State :=
  if s.tick.dsHigh = false then s
  else
    let flip := decide (4000 ≤ high ∧ high ≤ 8000) && s.tick.st == .lockedDsync && s.tick.dsMark != 0
    let s1 := s.updTick fun k => { k with
      dsHigh := false, dsWidth := high, flipInd := if k.dsMark = 1 ∨ k.flipWait then flip else k.flipInd,
      tickOut := if k.dsMark = 2 ∧ k.st = .lockedDsync ∧ k.ctrl.bit 2 then s.tickPulse (clampNat 1000 8500 high)
        else k.tickOut }
    s1.waitedSteps

/-- A slot that starts: which one, while the tick counts. -/
def State.atSlot (s : State) (n : Nat) (f : State → State) : State :=
  if s.ticking then f (s.updTick fun k => { k with slot := n }) else s

end Sys2Proof.Machine
end

