-- ==== Sys2Proof/Machine/Link.lean ====
section
/-! DEFINITION. The Nenevik link (spec/10), its hop layer: frames, acknowledgement, retry, credit, hop states, relaying,
delay measurement, the TICK set. -/

namespace Sys2Proof.Machine

/-! ## Ports and classes -/

/-- A link port: UP (false) or DN (true). -/
def State.lport (s : State) (dn : Bool) : LinkPort := if dn then s.link.dn else s.link.up

/-- The LINK block changed. -/
def State.updLink (s : State) (f : Link → Link) : State := { s with link := f s.link }

/-- A link port changed. -/
def State.updLport (s : State) (dn : Bool) (f : LinkPort → LinkPort) : State :=
  s.updLink fun k => if dn then { k with dn := f k.dn } else { k with up := f k.up }

/-- A traffic class of a port: request (false) or response (true). -/
def LinkPort.cls (p : LinkPort) (rsp : Bool) : LinkCls := if rsp then p.rsp else p.req

/-- A traffic class of a port changed. -/
def State.updCls (s : State) (dn rsp : Bool) (f : LinkCls → LinkCls) : State :=
  s.updLport dn fun p => if rsp then { p with rsp := f p.rsp } else { p with req := f p.req }

/-- The class that a port sends: requests on DN, responses on UP (R235). -/
def sendsRsp (dn : Bool) : Bool := !dn

/-- What the sending class of a port holds. -/
def State.sending (s : State) (dn : Bool) : LinkCls := (s.lport dn).cls (sendsRsp dn)

/-- The sending class of a port changed. -/
def State.updSending (s : State) (dn : Bool) (f : LinkCls → LinkCls) : State := s.updCls dn (sendsRsp dn) f

/-- A port works: PD_LINK on and the port enabled (R255). -/
def State.linkOn (s : State) (dn : Bool) : Bool := s.up 4 && (s.lport dn).en

/-- A hop is UP. -/
def State.hopIsUp (s : State) (dn : Bool) : Bool := s.linkOn dn && (s.lport dn).st == .up

/-- An item sent on a port. A disabled port sends nothing (R255). -/
def State.emit (s : State) (dn : Bool) (i : LinkItem) : State :=
  if (s.lport dn).en then s.updLport dn fun p => { p with sent := i :: p.sent } else s

/-- A code error or a discarded set counted (R227). -/
def State.countCode (s : State) : State := s.updLink fun k => { k with code := sat16 k.code }

/-- Code errors counted. -/
def State.countCodes (s : State) (k : Nat) : State := s.updLink fun l => { l with code := satAdd 65535 l.code k }

/-- The mean of the hop-delay measurements (R230). -/
def LinkPort.delay (p : LinkPort) : Nat := if p.dly.isEmpty then 0 else p.dly.sum / p.dly.length

/-! ## Frames (R228, Tables 10.3 and 10.4) -/

def frType (b : List Byte) : Nat := natAt b 0 1
def frAuth (b : List Byte) : Bool := natAt b 1 1 % 2 == 1
def frDst (b : List Byte) : Nat := natAt b 2 1
def frTen (b : List Byte) : Nat := natAt b 4 1 % 32
def frTag (b : List Byte) : Nat := natAt b 6 2
def frLen (b : List Byte) : Nat := natAt b 8 2
def frAcnt (b : List Byte) : Nat := natAt b 12 8
def frPayload (b : List Byte) : List Byte := bytesAt b 20 (frLen b)

/-- The frame is of the response class. -/
def frRsp (b : List Byte) : Bool := 128 ≤ frType b

/-- The number of bytes that LEN and AUTH give a frame. -/
def frSize (b : List Byte) : Nat := 20 + frLen b + (if frAuth b then 8 else 0) + 4

/-- The FCS of a frame is right. -/
def frFcsOk (b : List Byte) : Bool := crc32c (b.take (b.length - 4)) == wordOf (natAt b (b.length - 4) 4)

/-- DST is unicast. -/
def frUnicast (b : List Byte) : Bool := 1 ≤ frDst b && frDst b ≤ 239

/-- LEN fits TYPE (Table 10.4, R229), for the request types. -/
def frFits (b : List Byte) : Bool :=
  let n := frLen b
  let plain := natAt b 4 1 % 32 == 0 && !frAuth b
  match frType b with
  | 0x01 => n % 64 == 0 && 64 ≤ n && n ≤ 512
  | 0x02 => n % 4 == 0 && 8 ≤ n && n ≤ 516 && natAt b 20 1 ≤ 3 && frUnicast b
  | 0x03 => n == 6 && plain && frDst b == 255
  | 0x04 => n == 0 && plain
  | 0x10 => n == 4 && plain
  | _ => false

/-- The bytes of a frame without its TAG and FCS: TYPE, FLAGS, DST, SRC, TEN, FTAG, ACNT and the payload. -/
def frHead (type flags dst src ten ftag acnt : Nat) (pay : List Byte) : List Byte :=
  [BitVec.ofNat 8 type, BitVec.ofNat 8 flags, BitVec.ofNat 8 dst, BitVec.ofNat 8 src, BitVec.ofNat 8 ten, 0] ++
    leBytes 2 ftag ++ leBytes 2 pay.length ++ [0, 0] ++ leBytes 8 acnt ++ pay

/-- The device's address as SRC: 0 while it is not bound. -/
def State.ownAddr (s : State) : Nat := if s.link.bound then s.sys.linkAddr else 0

/-- A response frame of a tenant (R229): tagged when its request was and the tenant's key is there, with an ACNT of
the tick number and the tenant's count in that tick. -/
def State.rspFrame (s : State) (type ten ftag : Nat) (tagged : Bool) (pay : List Byte) : State × List Byte :=
  match tagged && s.up 14, (s.ten ten).key with
  | true, some k =>
    let c := (s.ten ten).rspAcnt
    let n := if c.1 = s.now then c.2 else 0
    let h := frHead type 1 0 s.ownAddr ten ftag (s.now * 65536 + n % 65536) pay
    (s.updTen ten fun T => { T with rspAcnt := (s.now, n + 1) }, withCrc (h ++ beBytes 8 (tagOf k h)))
  | _, _ => (s, withCrc (frHead type 0 0 s.ownAddr ten ftag 0 pay))

/-! ## Sending (R233, R234) -/

/-- Frames of a class may be started: credit is left and fewer than 4 wait for an ACK. -/
def LinkCls.maySend (c : LinkCls) : Bool := 0 < (c.credit + 256 - c.sent % 256) % 256 && c.unacked.length < 4

/-- The loopback self-test runs on a port (R254). -/
def State.looped (s : State) (dn : Bool) : Bool :=
  match SMap.get (fun _ => none) s.tests 4 with
  | some t => t.unit == bitNat dn
  | none => false

/-- Frames that wait are sent while the hop is UP and credit lasts. -/
def State.trySend : Nat → Bool → State → State
  | 0, _, s => s
  | n + 1, dn, s =>
    let c := s.sending dn
    match c.queue with
    | [] => s
    | (relay, b) :: q =>
      if s.hopIsUp dn && c.maySend && !s.looped dn then
        ((s.updSending dn fun c => { c with
          queue := q, hseq := (c.hseq + 1) % 256, sent := (c.sent + 1) % 256,
          unacked := c.unacked ++ [⟨c.hseq, b, 1, relay⟩] }).emit dn (.frame c.hseq b)).trySend n dn
      else s

/-- What a port can send is sent. -/
def State.flushPort (s : State) (dn : Bool) : State := s.trySend ((s.sending dn).queue.length + 1) dn

/-- A frame given to a port whose hop is UP. -/
def State.sendOn (s : State) (dn relay : Bool) (b : List Byte) : State :=
  (s.updSending dn fun c => { c with queue := c.queue ++ [(relay, b)] }).flushPort dn

/-- A response of this device sent toward the head-end, while the UP hop is UP. -/
def State.sendUp (s : State) (b : List Byte) : State := if s.hopIsUp false then s.sendOn false false b else s

/-- A STATUS frame answers a request frame (Table 10.4): its status, RETRY_AFTER and INFO. -/
def State.answer (s : State) (b : List Byte) (status retry info : Nat) : State :=
  let r := s.rspFrame 0x82 (frTen b) (frTag b) (frAuth b)
    ([BitVec.ofNat 8 status, 0] ++ leBytes 2 retry ++ leBytes 4 info)
  r.1.sendUp r.2

/-- A NOTICE (Table 10.4). -/
def State.notice (s : State) (kind ftag : Nat) : State :=
  s.sendUp (withCrc (frHead 0x91 0 0 s.ownAddr 0 ftag 0 [BitVec.ofNat 8 kind, 0, 0, 0]))

/-- The NOTICEs AWAKE that are owed, once the device is fully woken, boot is complete and the UP hop is UP (R251). -/
def State.awakeSend (s : State) : State :=
  if (s.pwr.st = .opened ∨ s.pwr.st = .ajar) ∧ s.pwr.phase ≠ .committed ∧ s.sys.bootDone ∧ s.hopIsUp false then
    s.link.awake.foldl (fun s n => s.notice 1 (n.getD 0)) (s.updLink fun k => { k with awake := [] })
  else s

/-! ## Relay buffers and credit (R234) -/

/-- Relay buffers of a port in use: request frames received on UP, response frames received on DN. -/
def State.relayUsed (s : State) (dn : Bool) : Nat :=
  let c := s.sending (!dn)
  (c.queue.filter fun q => q.1).length + (c.unacked.filter fun q => q.relay).length +
    if dn then 0 else s.link.hold.length

/-- CREDIT sent for a class. -/
def State.sendCredit (s : State) (dn rsp : Bool) : State :=
  s.emit dn (.credit (bitNat rsp) ((s.lport dn).cls rsp).freed)

/-- `k` relay buffers of a port freed: CREDIT on that port. -/
def State.freeRelay (s : State) (dn : Bool) (k : Nat) : State :=
  if k = 0 then s
  else (s.updCls dn dn fun c => { c with freed := (c.freed + k) % 256 }).sendCredit dn dn

/-- The frames that a port holds are dropped, counted and reported (R233, R253); their relay buffers are freed. -/
def State.dropFrames (s : State) (dn : Bool) : State :=
  let c := s.sending dn
  let n := c.queue.length + c.unacked.length
  if n = 0 then s
  else
    let k := (c.queue.filter fun q => q.1).length + (c.unacked.filter fun q => q.relay).length
    let s1 := (s.updSending dn fun c => { c with queue := [], unacked := [] }).updLink fun l =>
      { l with drops := satAdd 65535 l.drops n }
    (s1.raise 19 .granted (wordOf (bitNat dn + 2 * bitNat (sendsRsp dn) + 256 * n))).freeRelay (!dn) k

/-! ## Hop states (Table 10.5, R230, R231, R242, R243) -/

/-- The code of a hop state. -/
def HopSt.code : HopSt → Nat
  | .off => 0
  | .training => 1
  | .up => 2
  | .down => 3

/-- A hop's state changes: EV17 or EV18. -/
def State.setHop (s : State) (dn : Bool) (st : HopSt) : State :=
  if (s.lport dn).st = st then s
  else (s.updLport dn fun p => { p with st := st }).raise (17 + bitNat dn) .granted (wordOf st.code)

/-- Training starts on an enabled port: the counts of both classes begin anew, with a grant of the relay buffers that
are free. -/
def State.train (s : State) (dn : Bool) : State :=
  if s.linkOn dn = false then s
  else
    let free := 4 - s.relayUsed dn
    let fresh (g : Nat) : LinkCls := { LinkCls.reset with freed := g }
    (s.updLport dn fun p => { p with
      rxLock := false, gotCredit := false,
      req := fresh (if dn then 0 else free), rsp := fresh (if dn then free else 0) }).setHop dn .training

/-- BREAK is passed on (R242). -/
def State.breakDown (s : State) : State :=
  let s1 := s.updLink fun k => { k with bound := false }
  if s1.hopIsUp true then s1.emit true .breakSet else s1

/-- An UP hop is lost: DOWN, and retraining starts at once (R231, R242, R243). -/
def State.hopDown (s : State) (dn : Bool) : State :=
  let s1 := (s.dropFrames dn).setHop dn .down
  let s2 := if dn then s1.notice 3 0 else s1.breakDown
  s2.train dn

/-- A hop goes OFF: SLEEP received, or the port is disabled or powered off. -/
def State.hopOff (s : State) (dn : Bool) : State :=
  ((s.dropFrames dn).setHop dn .off).updLport dn fun p => { p with rxLock := false, gotCredit := false }

/-- DLY_REQ sent with the next ID. -/
def State.askDelay (s : State) (dn : Bool) : State :=
  (s.updLport dn fun p => { p with dlyId := (p.dlyId + 1) % 256 }).emit dn (.dlyReq (((s.lport dn).dlyId + 1) % 256))

/-- The hop comes UP when the receiver is locked and a CREDIT has been received. -/
def State.tryUp (s : State) (dn : Bool) : State :=
  let p := s.lport dn
  if p.st = .training ∧ p.rxLock ∧ p.gotCredit then
    let s1 := (s.setHop dn .up).askDelay dn
    (if dn then s1.notice 2 0 else s1).flushPort dn
  else s

/-- The receiver of a training port locks. -/
def State.receiverLock (s : State) (dn : Bool) : State :=
  if s.linkOn dn ∧ (s.lport dn).st = .training ∧ (s.lport dn).rxLock = false then
    ((((s.updLport dn fun p => { p with rxLock := true }).sendCredit dn false).sendCredit dn true)).tryUp dn
  else s

/-- 10 ms without UP. -/
def State.trainingTimeout (s : State) (dn : Bool) : State :=
  if s.linkOn dn ∧ (s.lport dn).st = .training then s.hopOff dn else s

/-- Data-mode symbols are received in OFF. -/
def State.dataSymbols (s : State) (dn : Bool) : State :=
  if s.linkOn dn ∧ (s.lport dn).st = .off then s.train dn else s

/-- A port receives data-mode symbols. -/
def State.receiving (s : State) (dn : Bool) : Bool := s.linkOn dn && (s.lport dn).st != .off

/-- The hop is lost, after code errors that no frame and no set has counted (R231). -/
def State.symbolLoss (s : State) (dn : Bool) (errs : Nat) : State :=
  if s.receiving dn = false then s
  else
    let s1 := s.countCodes errs
    match (s.lport dn).st with
    | .up => s1.hopDown dn
    | .training => s1.updLport dn fun p => { p with rxLock := false }
    | _ => s1

/-- LINKCTL received: BREAK on UP, SLEEP on either port (R227, R231, R242). -/
def State.linkctl (s : State) (dn : Bool) (code : Option Byte) (notCode : Byte) (want : Byte) : State :=
  if s.receiving dn = false then s
  else match code with
  | none => s.countCode
  | some c =>
    if notCode ≠ ~~~c then s.countCode
    else if c ≠ want then s
    else if c = 1 then (if dn then s else s.breakDown)
    else if (s.lport dn).st = .up then s.hopOff dn else s

/-- A port is switched by LINK_CTRL (R255). -/
def State.portEnable (s : State) (dn en : Bool) : State :=
  if (s.lport dn).en = en then s
  else if en then s.updLport dn fun p => { p with en := true }
  else (s.hopOff dn).updLport dn fun p => { p with en := false }

/-! ## Delay (R230) -/

/-- A set of one ID is discarded and counted, for a code error, or else `f` takes it (R227). -/
def State.idSet (s : State) (dn : Bool) (id : Option Byte) (f : State → Nat → State) : State :=
  match id with
  | none => if s.receiving dn then s.countCode else s
  | some i => f s i.toNat

/-- A DLY_REQ is answered. -/
def State.dlyReq (s : State) (dn : Bool) (id turn : Nat) : State :=
  if s.linkOn dn ∧ (s.lport dn).rxLock then s.emit dn (.dlyRsp id turn) else s

/-- A DLY_RSP to the DLY_REQ that is out gives one measurement. -/
def State.dlyRsp (s : State) (dn : Bool) (id turn round : Nat) : State :=
  if s.hopIsUp dn ∧ (s.lport dn).dlyId = id then
    s.updLport dn fun p => { p with dly := ((round - turn) / 2 :: p.dly).take 8 }
  else s

/-! ## Acknowledgement and retry (R232, R233) -/

/-- A class named in a set is the one that a port sends. -/
def clsSent (dn : Bool) (cls : Byte) : Bool := cls.toNat == bitNat (sendsRsp dn)

/-- An ACK or NAK set that R227 lets stand: a hop that is UP, no code error, a CLASS of 0 or 1. -/
def State.setOk (s : State) (dn : Bool) (cls : Byte) (codeErr : Bool) : Bool := s.hopIsUp dn && !codeErr && cls.toNat ≤ 1

/-- A discarded set is counted while the port receives. -/
def State.badSet (s : State) (dn : Bool) (cls : Byte) (codeErr : Bool) : State :=
  if s.receiving dn ∧ (codeErr ∨ 2 ≤ cls.toNat) then s.countCode else s

/-- ACK: the frame and those before it are taken (R232, R233). -/
def State.ackIn (s : State) (dn : Bool) (cls hseq : Byte) (codeErr : Bool) : State :=
  if s.setOk dn cls codeErr = false then s.badSet dn cls codeErr
  else
    let u := (s.sending dn).unacked
    match u.findIdx? fun q => q.hseq == hseq.toNat with
    | some i =>
      if clsSent dn cls then
        let k := ((u.take (i + 1)).filter fun q => q.relay).length
        ((s.updSending dn fun c => { c with unacked := u.drop (i + 1) }).freeRelay (!dn) k).flushPort dn
      else s
    | none => s

/-- Every unacknowledged frame of a port is sent again, or the hop goes DOWN after a fourth transmission. -/
def State.resendAll (s : State) (dn : Bool) : State :=
  let u := (s.sending dn).unacked
  if u.isEmpty ∨ s.looped dn then s
  else if u.any fun q => 4 ≤ q.tx then s.hopDown dn
  else
    let s1 := s.updSending dn fun c => { c with unacked := c.unacked.map fun q => { q with tx := q.tx + 1 } }
    (u.foldl (fun s q => s.emit dn (.frame q.hseq q.bytes)) s1).updLink fun k =>
      { k with retries := satAdd 65535 k.retries u.length }

/-- NAK (R233). -/
def State.nakIn (s : State) (dn : Bool) (cls : Byte) (codeErr : Bool) : State :=
  if s.setOk dn cls codeErr = false then s.badSet dn cls codeErr
  else if clsSent dn cls then s.resendAll dn else s

/-- 20 µs without ACK or NAK for a class (R233). -/
def State.retransmit (s : State) (dn rsp : Bool) : State :=
  if s.hopIsUp dn ∧ rsp = sendsRsp dn then s.resendAll dn else s

/-- CREDIT (R230, R234). -/
def State.creditIn (s : State) (dn : Bool) (cls count : Byte) (codeErr : Bool) : State :=
  if s.receiving dn = false then s
  else if codeErr ∨ 2 ≤ cls.toNat then s.countCode
  else
    (((s.updCls dn (cls.toNat == 1) fun c => { c with credit := count.toNat }).updLport dn fun p =>
      { p with gotCredit := true }).tryUp dn).flushPort dn

/-! ## Relaying and local buffers (R235, R236, Table 10.6) -/

/-- LINK_PROTO counts (R235, R229). -/
def State.countProto (s : State) : State := s.updLink fun k => { k with proto := sat16 k.proto }

/-- The device belongs to a group address. -/
def State.inGroup (s : State) (dst : Nat) : Bool := 240 ≤ dst && dst ≤ 254 && s.sys.group.getLsbD (dst - 240)

/-- DST is the device's own address, bound. -/
def State.ownDst (s : State) (dst : Nat) : Bool := s.link.bound && 1 ≤ dst && dst ≤ 239 && dst == s.sys.linkAddr

/-- A request frame is delivered locally (Table 10.6). -/
def State.isLocal (s : State) (dst : Nat) : Bool := s.ownDst dst || s.inGroup dst || dst == 255

/-- Frames that wait for a local buffer take one (R234). -/
def State.fillLocal : Nat → State → State
  | 0, s => s
  | n + 1, s =>
    match s.link.hold with
    | [] => s
    | b :: bs =>
      if s.link.loc.length < 64 then
        ((s.updLink fun k => { k with hold := bs, loc := k.loc ++ [b] }).freeRelay false 1).fillLocal n
      else s

/-- What a local frame meets on arrival: the link engine's own answers (first row of Table 10.7, R229), or a local
buffer. ENUM and WAKE are taken in every case (R241, R251). The state, and whether it waits for a buffer. -/
def State.localIn (s : State) (b : List Byte) (uni : Bool) : State × Bool :=
  let special := frType b == 0x10 || frType b == 0x04
  if frFits b = false then
    let s1 := s.countProto
    (if uni then s1.answer b 2 0 0 else s1, false)
  else if special = false ∧ (s.sys.bootDone = false ∨ s.up 1 = false ∨ s.pwr.pathHold) then
    (if uni then s.answer b 10 0 0 else s, false)
  else if s.link.loc.length < 64 then (s.updLink fun k => { k with loc := k.loc ++ [b] }, false)
  else (s.updLink fun k => { k with hold := k.hold ++ [b] }, true)

/-- A request frame taken on UP (Table 10.6). Its relay buffer is freed once nothing holds it. -/
def State.routeReq (s : State) (b : List Byte) : State :=
  let dst := frDst b
  if dst = 0 then s.countProto.freeRelay false 1
  else
    let here := s.isLocal dst
    let r := if here then s.localIn b (frUnicast b) else (s, false)
    let on := !s.ownDst dst && frType b != 0x10
    if on && r.1.hopIsUp true then r.1.sendOn true (!r.2) b
    else
      let s1 := if on && frUnicast b then r.1.answer b 2 0 0 else r.1
      if r.2 then s1 else s1.freeRelay false 1

/-- A response frame taken on DN goes on toward the head-end, or is dropped while the UP hop is not UP. -/
def State.routeRsp (s : State) (b : List Byte) : State :=
  if s.hopIsUp false then s.sendOn false true b
  else
    ((s.updLink fun k => { k with drops := satAdd 65535 k.drops 1 }).raise 19 .granted (wordOf (2 + 256))).freeRelay
      true 1

/-- A frame ends on a port (R232). -/
def State.frameIn (s : State) (dn : Bool) (hseq notHseq : Byte) (b : List Byte) (codeErrs : Nat) (abort : Bool) :
    State :=
  let s1 := s.countCodes codeErrs
  if s.hopIsUp dn = false then s
  else if abort then s1
  else if notHseq ≠ ~~~hseq then s1.countCode
  else
    let rsp := frRsp b
    let e := ((s.lport dn).cls rsp).expect
    let long := decide (b.length = frSize b ∧ frLen b ≤ 576)
    let good := frFcsOk b
    let s2 := if good then s1 else s1.updLink fun k => { k with fcs := sat16 k.fcs }
    if codeErrs = 0 ∧ long ∧ good ∧ hseq.toNat = e then
      let s3 := (s2.updCls dn rsp fun c => { c with expect := (c.expect + 1) % 256 }).emit dn
        (.ack (bitNat rsp) hseq.toNat)
      if rsp ≠ dn then s3.countProto
      else if rsp then s3.routeRsp b else s3.routeReq b
    else if 1 ≤ (e + 256 - hseq.toNat) % 256 ∧ (e + 256 - hseq.toNat) % 256 ≤ 8 then
      s2.emit dn (.ack (bitNat rsp) hseq.toNat)
    else
      s2.emit dn (.nak (bitNat rsp) e (if codeErrs ≠ 0 then 2 else if !long then 4 else if !good then 1 else 3))

/-- The oldest local frame, if it is of a TYPE, taken out of its buffer. -/
def State.takeLocal (s : State) (type : Nat) : Option (State × List Byte) :=
  match s.link.loc with
  | b :: bs => if frType b = type then some ((s.updLink fun k => { k with loc := bs }).fillLocal 4, b) else none
  | [] => none

/-! ## The TICK set (R244 to R247) -/

/-- The CHK byte of a TICK set (Table 10.2). -/
def tickChk (flags low : Byte) (lead : BitVec 24) : Byte :=
  0x5A#8 ^^^ flags ^^^ low ^^^ lead.setWidth 8 ^^^ (lead >>> 8).setWidth 8 ^^^ (lead >>> 16).setWidth 8

/-- A valid TICK goes on to DN, with LATE set where its LEAD would fall below 0 (R244, R245). -/
def State.tickOn (s : State) (flags low lead held : Nat) : State :=
  if s.hopIsUp true = false then s
  else
    let cost := held + s.link.dn.delay
    if lead < cost then
      ((s.updLink fun k => { k with late := sat16 k.late }).emit true
        (.tick (if 2 ≤ flags % 4 then flags else flags + 2) low 0)).raise 22 .granted 1
    else s.emit true (.tick flags low (lead - cost))

/-- LOW of a TICK compared with the number of the boundary it marks, on a device locked to the link (R247). -/
def State.lowCheck (s : State) (low : Nat) (next : Bool) : State :=
  let own := (s.now + bitNat next) % 256
  if s.tick.st = .lockedLink ∧ s.ticking ∧ own ≠ low then
    let s1 := s.updLink fun k => { k with lowErr := sat16 k.lowErr }
    if s.tick.lowWait = 0 then
      (s1.updTick fun k => { k with lowWait := 256 }).raise 20 .granted (wordOf (own + 256 * low))
    else s1
  else s

/-- A stored TICKNUM meets the TICK with its LOW (R247). `next`: the boundary nearest the marked one is the one to
come. -/
def State.ticknumMatch (s : State) (low : Nat) (next : Bool) : State :=
  match s.tick.ticknum with
  | some n =>
    if n.toNat % 256 = low ∧ s.up 1 then
      let s1 := s.updTick fun k => { k with ticknum := none }
      if next then s1.updTick fun k => { k with load := some n, loadLink := true } else s1.loadNumber n true true
    else s.lowCheck low next
  | none => s.lowCheck low next

/-- The tick number is the link's to set (R45, Table 2.1): SRC in force allows LINK, and DSYNC is not the source in use
(log entry 134). -/
def State.numberFromLink (s : State) : Bool := srcAllows s.tick.srcF s.tick.dsyncF false && s.tick.use != some true

/-- A TICK set on UP. One that fails R227 counts; a valid one goes on, and unless LATE is an arrival at LEAD after it.
An arrival after the boundary that it does not itself make waits for that boundary. -/
def State.tickSet (s : State) (flags low : Byte) (lead : BitVec 24) (chk : Byte) (codeErr : Bool) (phase : Int)
    (held : Nat) : State :=
  if s.hopIsUp false = false then s
  else if codeErr ∨ chk ≠ tickChk flags low lead then s.countCode
  else
    let s1 := (s.updLink fun k => { k with tickLead := lead.toNat, tickLow := low.toNat }).tickOn flags.toNat low.toNat
      lead.toNat held
    let next := decide (phase ≤ (lead.toNat : Int))
    let flip := flags.getLsbD 0
    if flags.getLsbD 1 then s1
    else
      let s3 := if s.numberFromLink then s1.ticknumMatch low.toNat next else s1
      if srcAllows s.tick.srcF s.tick.dsyncF false = false then s3
      else if next ∧ 0 < phase ∧ ¬(s.tick.st = .lockedLink) then
        s3.updTick fun k => { k with later := some (phase, flip) }
      else s3.arrival false phase flip next

end Sys2Proof.Machine
end

