-- ==== Sys2Proof/Machine/Thermal.lean ====
section
/-! DEFINITION. Temperature zones and fans (spec/17): the thermistor formula, the slot 1 update, floors, duties, the
tach and stalls. -/

namespace Sys2Proof.Machine

/-! ## The thermistor formula (R379) -/

/-- The scale of the fixed-point logarithm. -/
def lnScale : Int := 2 ^ 80

/-- The terms z^(2k+1)/(2k+1) of atanh, scaled. -/
def atanhSum : Nat → Int → Int → Int → Int
  | 0, _, _, _ => 0
  | n + 1, z, z2, k => z / k + atanhSum n (z * z2 / lnScale) z2 (k + 2)

/-- The logarithm of num/den, scaled. -/
def lnFix (num den : Nat) : Int :=
  let e : Int := (Nat.log2 num : Int) - (Nat.log2 den : Int)
  let n : Int := if 0 ≤ e then num else num * 2 ^ (-e).toNat
  let d : Int := if 0 ≤ e then den * 2 ^ e.toNat else den
  let ln (n d : Int) : Int :=
    let z := (n - d) * lnScale / (n + d)
    2 * atanhSum 48 z (z * z / lnScale) 1
  e * ln 2 1 + ln n d

/-- round(T) for a code, in 0.1 °C, clamped (R379, R377). `n` is x in 1/65,536. -/
def thermT (ratio beta n : Nat) : Int :=
  let a := lnScale * 100 / 29815 + lnFix (ratio * n) (4096 * (65536 - n)) / beta
  if a ≤ 0 then -400
  else clampInt (-400) 1500 ((10 * lnScale * lnScale / a - 27315 * lnScale / 10 + lnScale / 2) / lnScale)

/-! ## Sensors (R377 to R380, R388) -/

/-- An external sensor's fault kind, 0 when it has none (R388). -/
def State.sensorKind (s : State) (j : Nat) : Nat :=
  let a := s.reg (extReg j 0)
  let ch := a.fld 0 5
  let c := s.chan ch
  let code := c.res.fld 0 16
  let x := if a.bit 6 then 2 * code else code
  if 65536 * 127 < 128 * x ∨ c.res.bit 16 then 1
  else if 128 * x < 65536 then 2
  else if 17 ≤ c.age ∨ ch < 16 ∨ (a.bit 6 = false ∧ s.adc.refSel = 0) then 3
  else 0

/-- A sensor updated to a temperature and kind: EV249 at a change between faulty and not (R388, Table 17.2). -/
def State.setSensor (s : State) (i : Nat) (t : Int) (kind : Nat) : State :=
  let was := (s.sensor i).kind
  let s1 := s.updSensor i fun x => { x with t := t, kind := kind }
  if (was = 0 ∧ kind ≠ 0) ∨ (was ≠ 0 ∧ kind = 0) then
    s1.raise 249 .granted (wordOf (i + 256 * bitNat (kind != 0) + 1024 * kind))
  else s1

/-- A die sensor updated with its conversion (R380). -/
def State.dieUpdate (s : State) (die : List Int) (i : Nat) : State :=
  if (s.sensor i).testBad then s.setSensor i 1500 3
  else s.setSensor i (clampInt (-400) 1500 (die.getD i 0)) 0

/-- An external sensor updated from its channel's latest result (R379, R388). -/
def State.extUpdate (s : State) (j : Nat) : State :=
  let a := s.reg (extReg j 0)
  if a.bit 7 = false then s.setSensor (4 + j) (-400) 0
  else
    let k := s.sensorKind j
    if k ≠ 0 then s.setSensor (4 + j) 1500 k
    else
      let code := (s.chan (a.fld 0 5)).res.fld 0 16
      let t := thermT (a.fld 16 16) (s.fld (extReg j 4) 0 16) (if a.bit 6 then 2 * code else code)
      s.drawn.setSensor (4 + j) (clampInt (-400) 1500 (t + ((Config.thermLatitude s.free).val : Int) - 1)) 0

/-- A sensor that can belong to a zone: a die sensor or an enabled external one (R383). -/
def State.sensorUsed (s : State) (i : Nat) : Bool := i < 4 || s.rbit (extReg (i - 4) 0) 7

/-- CRIT, and EV250 at its change (R386). Which of several hottest die sensors it names is open (log entry 118). -/
def State.critUpdate (s : State) : State :=
  let ts := (List.range 4).map fun i => (s.sensor i).t
  let hot := ts.foldl max (-400)
  let c := if s.therm.crit then ts.any fun t => decide (1000 ≤ t) else ts.any fun t => decide (1050 ≤ t)
  if c = s.therm.crit then s
  else
    { s with therm := { s.therm with crit := c } }.raise 250 .granted
      (wordOf (oneOf ((List.range 4).filter fun i => (s.sensor i).t == hot) + 256 * bitNat c + twosOf 16 hot * 65536))

/-! ## Zones (R383, R384, R389) -/

/-- FLOOR for a temperature (R384). -/
def floorOf (t start full : Int) (mn : Nat) : Nat :=
  if t < start then 0
  else if full ≤ t then 1000
  else mn + ((1000 - (mn : Int)) * (t - start) / (full - start)).toNat

/-- One zone: its temperature is that of its hottest member, then FLOOR and the alarm. -/
def State.zoneUpdate (s : State) (k : Nat) : State :=
  let mask := s.fld (zoneReg k 0) 0 16
  let ts := ((List.range 16).filter fun i => mask.testBit i && s.sensorUsed i).map fun i => (s.sensor i).t
  let t := ts.foldl max (-400)
  let alarm := s.sfld (zoneReg k 8) 16 16
  let was := (s.zone k).alarm
  let now := if was then decide (alarm - 20 ≤ t) else decide (alarm ≤ t)
  let f := floorOf t (s.sfld (zoneReg k 4) 0 16) (s.sfld (zoneReg k 4) 16 16) (s.fld (zoneReg k 8) 0 10)
  let s1 := s.updZone k fun z => { z with t := t, floor := f, alarm := now }
  if now = was then s1
  else s1.raise 248 .granted (wordOf (k + 256 * bitNat now + twosOf 16 t * 65536))

/-! ## Fans (R381, R382, R385, R387) -/

/-- DUTY_EFF (R385). -/
def State.dutyEff (s : State) (n : Nat) : Nat :=
  let cfg := s.reg (fanReg n 4)
  let f := if s.therm.crit then 1000 else if cfg.bit 3 then (s.zone (cfg.fld 0 3)).floor else 0
  max (s.fld (fanReg n 0) 0 10) f

/-- RPM from the last edge intervals (R382). -/
def rpmOf (edges : List Nat) (ppr : Nat) : Nat :=
  if edges.length < ppr then 0
  else
    let t := (edges.take ppr).sum
    if t = 0 then 65535 else min 65535 (60000000 / t)

/-- Whether a fan is stalled after a check (R387). The SPIN grace suspends the check. -/
def State.stallNow (s : State) (n : Nat) : Bool :=
  let f := s.fan n
  let mn := s.fld (fanReg n 12) 0 16
  if f.dutyEff < 10 then false
  else if f.stall then !decide (mn ≤ f.rpm)
  else if 0 < f.spin then false
  else f.silent || decide (f.rpm < mn)

/-- The stall check of one fan, with EV240 + n at a change (R387, Table 17.2). -/
def State.stallCheck (s : State) (n : Nat) : State :=
  let b := s.stallNow n
  if b = (s.fan n).stall then s
  else
    (s.updFan n fun f => { f with stall := b }).raise (240 + n) (.res 5 n)
      (wordOf (n + 256 * bitNat b + (s.fan n).dutyEff * 65536))

/-- A fan's duty of this update, its RPM under the PPR of this update (R383), and its SPIN grace: it runs from the last
rise from below 10 (R385, R387). -/
def State.fanDuty (s : State) (n : Nat) : State :=
  let d := s.dutyEff n
  s.updFan n fun f => { f with
    dutyEff := d,
    rpm := if f.silent then 0 else rpmOf f.edges (s.fld (fanReg n 8) 24 2 + 1),
    spin := if f.dutyEff < 10 ∧ 10 ≤ d then s.fld (fanReg n 8) 16 8 * 100000 else f.spin - s.periodUs }

/-- FANn_PWM in a cycle of a period that begins after the duty was computed (R381; R390 in a kept PD_THRM, on CK_LPO). A held pad is at its level at the
closing (Table 11.5). -/
def State.fanPwm (s : State) (n cycle : Nat) : Bool :=
  let d := (s.fan n).dutyEff
  if s.genHeld 12 then s.pwr.fanHeld.getLsbD n
  else if d < 10 then false
  else if s.pwr.st = .louvred then cycle % 40 < max 1 ((d + 12) / 25)
  else cycle % 1000 < d

/-- The slot 1 update of the THERM/FAN block, in the order of R383. -/
def State.thermalUpdate (s : State) (die : List Int) : State :=
  if s.up 12 = false then s
  else
    let s1 := s.each (List.range 4) fun s i => s.dieUpdate die i
    let s2 := s1.each (List.range 12) State.extUpdate
    let s3 := s2.critUpdate
    let s4 := s3.each (List.range 8) State.zoneUpdate
    let s5 := s4.each (List.range 8) State.fanDuty
    s5.each (List.range 8) State.stallCheck

/-- In a kept PD_THRM in Louvred the stall check runs continuously (R390). No slot 1 counts the SPIN grace there: whether
it has passed is open (log entry 153). -/
def State.stallLouvred (s : State) (n : Nat) : State :=
  if s.pwr.st ≠ .louvred then s
  else if (s.fan n).spin = 0 then s.stallCheck n
  else (s.drawn.updFan n fun f => { f with spin := if Config.spinOver s.free then 0 else f.spin }).stallCheck n

/-- A falling edge of a tach, `us` after the one before (R382). The edges of a held pad are ignored (R274). -/
def State.tachEdge (s : State) (n us : Nat) : State :=
  if s.genHeld 12 then s
  else
    (s.updFan n fun f =>
      let es := (us :: f.edges).take 4
      { f with edges := es, silent := false, rpm := rpmOf es (s.fld (fanReg n 8) 24 2 + 1) }).stallLouvred n

/-- STALL_MS without a falling edge: RPM reads 0 (R382). -/
def State.tachSilence (s : State) (n : Nat) : State :=
  if s.up 12 then (s.updFan n fun f => { f with silent := true, rpm := 0 }).stallLouvred n else s

end Sys2Proof.Machine
end

