-- ==== Sys2Proof/Machine/Scrub.lean ====
section
/-! DEFINITION. The patrol scrubber, PROT_CLEAR and PROT_INJECT, field repair (spec/07), and the self-tests of Table 1.6
as they start and end (R17). -/

namespace Sys2Proof.Machine

/-! ## The scrubber (R162 to R164, R174) -/

/-- The PROT block changed. -/
def State.updProt (s : State) (f : Prot → Prot) : State := { s with prot := f s.prot }

/-- A word of SRAM that the scrubber has corrected is noted for R174. -/
def State.scrubNote (s : State) (a : Nat) : State :=
  s.updProt fun p => { p with fixed := SMap.set (fun _ => false) p.fixed a true }

/-- The end of an SRAM pass: its duration to the nearest second (Table 7.5), and SYS_SCRUB.PASSES (Table 6.8). -/
def State.sramPassEnd (s : State) : State :=
  { s with sys := { s.sys with passes := sat16 s.sys.passes } }.updProt fun p => { p with
    pos := 0, lastS := min 4095 ((p.passUs + 500000) / 1000000), passUs := 0, lateS := false,
    fixedPrev := p.fixed, fixed := [] }

/-- One word of the pass. -/
def State.scrubWord (s : State) : State :=
  let a := sramWordAddr s.prot.pos
  let fix := s.eccOf a == .bits 1
  let s1 := (s.eccRead a).1
  let s2 := (if fix then s1.scrubNote a else s1).updProt fun p => { p with pos := p.pos + 1 }
  if 262144 ≤ s2.prot.pos then s2.sramPassEnd else s2

/-- Words that the scrubber reads in a tick (R162). -/
def scrubQuota (periodUs : Nat) : Nat := (262144 * periodUs + 7999999) / 8000000

/-- Slots 36 and 37 (R162). EV70 once in a pass that has taken longer than 8 s (R163). -/
def State.sramScrub (s : State) : State :=
  if s.sys.scrubSram = false then s
  else
    let s1 := s.updProt fun p => { p with passUs := p.passUs + s.periodUs }
    let s2 := if 8000000 < s1.prot.passUs ∧ s1.prot.lateS = false then
        (s1.updProt fun p => { p with lateS := true }).raise 70 .granted 1
      else s1
    s2.each (List.range (scrubQuota s.periodUs)) fun s _ => s.scrubWord

/-- K of R163. -/
def scrubEvery (periodUs : Nat) : Nat := 43200000000 / (1048576 * periodUs)

/-- The logical word that the flash pass reads at a position: a spare in use is read as the sector that is mapped to
it; none where the read is skipped (R163). -/
def State.scrubFlashWord (s : State) (pos : Nat) : Option Nat :=
  let n := pos / 256
  if n < 4032 then (if s.suspect (s.phys n) then none else some pos)
  else match s.remapOf (n - 4032) with
  | .mapped l _ => if s.suspect n then none else some (l * 256 + pos % 256)
  | _ => none

/-- The time of the pass so far, and EV70 once in a pass that has taken longer than 24 h (R163). -/
def State.flashPassTime (s : State) (us : Nat) : State :=
  let s1 := s.updProt fun p => { p with fpassUs := p.fpassUs + us }
  if 86400000000 < s1.prot.fpassUs ∧ s1.prot.lateH = false then
    (s1.updProt fun p => { p with lateH := true }).raise 70 .granted 2
  else s1

/-- The read of the flash pass cannot be made in this tick (R163): it would have to wait, as one of a sector being erased
always does (R184). -/
def State.scrubWaits (s : State) : Bool :=
  match s.scrubFlashWord s.prot.fpos with
  | some w => s.flashWaits (w / 256)
  | none => false

/-- Slot 36 of a K-th tick (R163). A read that would have to wait moves to the next tick. -/
def State.flashScrub (s : State) : State :=
  if s.sys.scrubFlash = false ∨ 0 < s.tick.fscrub then s
  else if s.scrubWaits then s.flashPassTime s.periodUs
  else
    let k := scrubEvery s.periodUs
    let s1 := (s.flashPassTime (k * s.periodUs)).updTick fun t => { t with fscrub := k }
    let s2 := match s1.scrubFlashWord s1.prot.fpos with
      | some w => (s1.flashRead w).1
      | none => s1
    if s2.prot.fpos + 1 < 1048576 then s2.updProt fun p => { p with fpos := p.fpos + 1 }
    else
      s2.updProt fun p => { p with
        fpos := 0, lastH := min 255 (p.fpassUs / 3600000000), fpassUs := 0, lateH := false }

/-! ## PROT_CLEAR, PROT_INJECT (R168, R177) -/

/-- PROT_CLEAR: zero with a valid check, as one write of the whole word. -/
def State.protClear (s : State) (v : Word) : State :=
  let a := v.toNat / 8 * 8
  if v.bit 0 ∧ (sramRegion a).isSome then
    (s.wrWhole a (List.replicate 8 0)).cellWritten a
  else s

/-- The word at a key with `k` more stored bits in error. -/
def State.flipBits (s : State) (key k : Nat) : State :=
  match s.eccOf key with
  | .good => s.setEcc key (.bits k)
  | .bits n => s.setEcc key (.bits (n + k))
  | .poisoned => s

/-- PROT_INJECT: the state, and the clamps to count. -/
def State.protInject (s : State) (v : Word) : State × Nat :=
  let a := v.toNat / 8 * 8
  let kind := v.fld 0 2
  if s.sys.locked ∨ (sramRegion a).isNone ∨ s.eccOf a = .poisoned then (s, 0)
  else
    (if kind = 0 then s else (s.flipBits a (min 2 kind)).cellWritten a, bitNat (kind == 3))

/-! ## Field repair (R174) -/

/-- The section of an SRAM address (R445). -/
def sectionOf (a : Nat) : Option Nat := (List.range 128).find? fun n => decide (sectionBase n ≤ a ∧ a < sectionBase n + 16384)

/-- A word of a section has been corrected on two passes that follow each other. -/
def State.twiceFixed (s : State) (sect : Nat) : Bool :=
  s.prot.fixed.any fun q => q.2 && (SMap.get (fun _ => false) s.prot.fixedPrev q.1) && sectionOf q.1 == some sect

/-- EV69 (Table 7.4). -/
def State.ev69 (s : State) (sect kind : Nat) : State := s.raise 69 .granted (wordOf (sect + 256 * kind))

/-- A section has an unused spare for one more row, or for one more column: of two spare rows and one spare column
(R175). -/
def Prot.spareFits (p : Prot) (sect : Nat) (col : Bool) : Bool :=
  (p.fuses.filter fun r => r.sect == sect && r.col == col).length < (if col then 1 else 2)

/-- Firmware's test of the section of a word that was corrected twice, and its repair: an entry for the row or the column
that failed (whether it is a column, and its number). -/
def State.fieldRepair (s : State) (sect : Nat) (fails : Bool) (line : Bool × Nat) : State :=
  if s.twiceFixed sect = false then s
  else
    let s1 := s.updProt fun p => { p with fixed := p.fixed.filter fun q => sectionOf q.1 != some sect }
    if fails = false then s1
    else if s.prot.fieldUsed < 32 ∧ s.prot.spareFits sect line.1 then
      (s1.updProt fun p => { p with fuses := p.fuses ++ [⟨sect, line.1, line.2, true, false⟩] }).ev69 sect 1
    else s1.ev69 sect 2

/-! ## Self-tests (R17, R206, R254, R315, R334, R351, R374, R392) -/

/-- A block's self-test set or cleared. -/
def State.setTest (s : State) (block : Nat) (t : Option Test) : State :=
  { s with tests := SMap.set (fun _ => none) s.tests block t }

/-- The deep self-test starts where its 360 µs end before slot 39, otherwise at slot 0 of the next tick (R374). -/
def State.deepStart (s : State) (t : Test) : State :=
  let r := s.fits s.someInstant 28800
  if r.2 then { r.1.loosen.setTest 9 (some t) with adc := { r.1.loosen.adc with deep := true } }
  else { r.1 with adc := { r.1.adc with due := some t } }

/-- A self-test starts on a unit: what it shows while it runs (LCn_STATUS.STATE, ADC_STATUS.DEEP, KEY_TEST.MATRIX). That
of a display port waits for the next frame start (R315). -/
def State.testStart (s : State) (block : Nat) (t : Test) : State :=
  let s1 := s.setTest block (some t)
  match block with
  | 5 => { s with disp := { s.disp with due := some t } }
  | 6 => s1.updLamp t.unit fun l => { l.rest with test := true }
  | 7 => { s1 with keys := { s1.keys with testKp := t.unit == 1 } }
  | 9 => s.deepStart t
  | _ => s1

/-- The sensors that a THERM/FAN test finds bad: die members as measured, external members under R388 (R392). -/
def State.sensorsBad (s : State) (fan : Nat) (die : Nat) : List Nat :=
  let mask := s.fld (zoneReg (s.fld (fanReg fan 4) 0 3) 0) 0 16
  (List.range 16).filter fun i => mask.testBit i &&
    if i < 4 then die.testBit i else s.rbit (extReg (i - 4) 0) 7 && s.sensorKind (i - 4) != 0

/-- The die members of the zone that a test has checked: a failing one reads 150.0 °C from now on (R388). -/
def State.dieTested (s : State) (fan : Nat) (bad : List Nat) : State :=
  let mask := s.fld (zoneReg (s.fld (fanReg fan 4) 0 3) 0) 0 16
  s.each ((List.range 4).filter mask.testBit) fun s i =>
    if bad.contains i then (s.updSensor i fun x => { x with testBad := true }).setSensor i 1500 3
    else s.updSensor i fun x => { x with testBad := false }

/-- A set of numbers as a bit vector. -/
def bitsOf (ns : List Nat) : Nat := (ns.map fun n => 2 ^ n).sum

/-- The pads that fail the checks of Table 14.5, as PINS: of PWMH and PWML those that did not read as they should at some
10 ns of the second and third phases, and LEDK unless it is below 500 mV at 420 µs. -/
def lampTestPins (detail : Word) : BitVec 3 :=
  BitVec.ofNat 3 (detail.fld 0 2 + 4 * bitNat (decide (500 ≤ detail.fld 16 16)))

/-- RESULT of a test's record: 1 pass, 2 fail, 3 aborted. -/
def testRes (aborted ok : Bool) : Nat := if aborted then 3 else if ok then 1 else 2

/-- The block's own record of a test's end, and whether it passed. `detail` says what failed, where the block's record
has a place for it: the count of words (R206), pads (R315, R334), pins and HELD (R351), die members (R392), slices and
the multiplexer (R374). `pass` is the outcome of the other blocks; an aborted test comes with nothing that failed. -/
def State.testRecord (s : State) (block : Nat) (t : Test) (aborted pass : Bool) (detail : Word) : State × Bool :=
  match block with
  | 2 =>
    let n := min 256 (detail.fld 0 9)
    ({ s with flash := { s.flash with marginRes := testRes aborted (n == 0), marginWords := n } }, n == 0)
  | 5 =>
    let bad := BitVec.ofNat 12 (detail.fld 0 12)
    (if bad = 0 then s else s.padFault t.unit bad, bad == 0)
  | 6 =>
    let s1 := s.updLamp t.unit fun l => { l with test := false }
    let pins := lampTestPins detail
    (if pins = 0 then s1 else s1.lampFault t.unit 16 pins, pins == 0)
  | 7 =>
    let ok := detail.fld 0 17 == 0
    ({ s with keys := { s.keys with
        testRes := testRes aborted ok, testHeld := detail.bit 16, testPins := BitVec.ofNat 16 (detail.fld 0 16) } }, ok)
  | 8 =>
    if aborted then ({ s with therm := { s.therm with testRes := 3, testSens := 0 } }, false)
    else
      let bad := s.sensorsBad t.unit (detail.fld 0 4)
      let s1 := s.dieTested t.unit bad
      ({ s1 with therm := { s1.therm with
          testRes := testRes false bad.isEmpty, testSens := BitVec.ofNat 16 (bitsOf bad) } }, bad.isEmpty)
  | 9 =>
    let ok := detail.fld 0 5 == 0 && !detail.bit 16
    (({ s with adc := { s.adc with
        deep := false, testRes := testRes aborted ok, testSlices := BitVec.ofNat 5 (detail.fld 0 5),
        testMux := detail.bit 16 } }).each ((List.range 5).filter (detail.fld 0 5).testBit) fun s i => s.retire i 2, ok)
  | _ => (s, pass)

/-- A self-test ends within its hold limit: RESULTS byte 4 is 0 for a pass, 1 for a failure. -/
def State.testEnd (s : State) (block : Nat) (pass : Bool) (detail : Word) : State :=
  match s.testOf block with
  | none => s
  | some t =>
    let q := (s.setTest block none).testRecord block t false pass detail
    q.1.finishId t.run 0 [BitVec.ofNat 8 (if q.2 then 0 else 1)]

/-- A self-test is aborted at its hold limit (R17): status ABORTED. -/
def State.testAbort (s : State) (block : Nat) : State :=
  match s.testOf block with
  | none => s
  | some t => ((s.setTest block none).testRecord block t true false 0).1.finishId t.run 8 []

end Sys2Proof.Machine
end

