-- ==== Sys2Proof/Machine/Power.lean ====
section
/-! DEFINITION. Power states and waking (spec/11): requests, the handshake, the commit point, wake sources, entry and
restore, louvres, and the guard slot that makes the queries. -/

namespace Sys2Proof.Machine

/-- The power controller changed. -/
def State.updPwr (s : State) (f : Pwr → Pwr) : State := { s with pwr := f s.pwr }

/-- The code of a state (Table 6.6). -/
def PState.code : PState → Nat
  | .opened => 0
  | .ajar => 1
  | .louvred => 2
  | .latched => 3
  | .shuttered => 4
  | .off => 5

/-- An occurrence of Open that is placed after the sweep of the held ones, while any are pending (R403). Its owner, the
mask and the door are judged now, when it arises (R140, R398, R400). -/
def State.raiseAfter (s : State) (e : Nat) (data : Word) : State :=
  let t := s.resolve e .granted
  if s.door t = .shut ∨ s.masked t e = true then s
  else if (s.ten t).eqPending = 0 then s.place t e (s.now % 65536) data
  else { s with after := s.after ++ [⟨e, .tenant t, 1, s.now % 65536, data⟩] }

/-- An occurrence that waited for the sweep is placed, unless the door has been shut since. -/
def State.afterOne (s : State) (h : Held) : State :=
  let t := s.resolve h.ev h.dest
  if s.door t = .shut then s else s.place t h.ev h.tick h.data

/-- The occurrences that waited for the sweep are placed (R403). -/
def State.releaseAfter (s : State) : State := s.after.foldl State.afterOne { s with after := [] }

/-! ## Ajar (R71, R263) -/

/-- The heartbeat supervisors restart (R71). -/
def State.hbRestart (s : State) : State := s.each (List.range 32) fun s t => s.updTen t fun T => { T with hbLeft := T.hbTicks }

/-- Ajar is left for Open. -/
def State.ajarEnd (s : State) : State := (s.updPwr fun p => { p with st := .opened }).hbRestart

/-! ## Agents' answers (Table 11.3) -/

/-- A domain stays on in the state asked for (R275). -/
def State.kept (s : State) (d : Nat) : Bool :=
  s.pwr.reqState == 2 && ((d == 12 && s.rbit 0x30050000 16) || (d == 13 && s.rbit 0x30050000 17))

/-- A keeper-store SAVE runs. -/
def State.saveRuns (s : State) : Bool :=
  (s.flash.queue.any fun o => o.job.root == .save) || (s.flash.erases.any fun e => e.job.root == .save) ||
  match s.flash.prog with
  | some o => o.job.root == .save
  | none => false

/-- A link response buffer holds a CMD_RSP frame: every response is there, and it has not been sent (R238). -/
def rspDone (b : Option RspBuf) : Bool :=
  match b with
  | some r => r.unicast && !r.dead && r.slots.all Option.isSome
  | none => false

/-- The link response buffers that hold a frame. Those of slots that still wait in a CQ hold none (R265). -/
def State.rspHeld (s : State) : List (Nat × Option RspBuf) := s.link.bufs.filter fun q => rspDone q.2

/-- A relay or local buffer holds a frame, or a frame is unacknowledged (R253). -/
def State.linkHolds (s : State) : Bool :=
  !s.link.loc.isEmpty || !s.link.hold.isEmpty || !s.rspHeld.isEmpty || [false, true].any fun dn =>
    !(s.sending dn).queue.isEmpty || !(s.sending dn).unacked.isEmpty

/-- A counted vote refuses the entry (R266). -/
def State.voteRefuses (s : State) : Bool := s.pwr.queries == 0 && !s.pwr.force && s.votes != 0

/-- The answer of a domain's agent at the query: 1 ACCEPT, 2 DELAY, 3 REFUSE. -/
def State.agent (s : State) (d : Nat) : Nat :=
  let delay (b : Bool) : Nat := if b then 2 else 1
  let refuse (b : Bool) : Nat := if b then 3 else 1
  match d with
  | 0 => delay (!s.runs.isEmpty || s.saveRuns)
  | 1 => if s.voteRefuses then 3 else
      delay (!s.grants.staged.isEmpty || !s.portA.post.isEmpty || !s.portB.post.isEmpty)
  | 2 => delay (s.portA.acc.isSome || !s.portA.post.isEmpty)
  | 3 => delay (s.portB.acc.isSome || !s.portB.post.isEmpty)
  | 4 => delay (s.pwr.queries < 2 && s.linkHolds)
  | 5 => delay (!s.flashQuiet)
  | 6 => 1
  | 7 => 1
  | 8 => refuse s.anyArmed
  | 9 => delay (((List.range 16).any fun n => s.lampEn n && !(s.lamp n).dark) ||
      (List.range 4).any fun k => (s.engine k).st == 1)
  | 10 => delay (s.adc.seqA.open || s.adc.seqB.open || s.adc.injA.isSome || s.adc.injB.isSome || s.adc.deep || s.adc.due.isSome)
  | 11 => refuse s.anyKeyHeld
  | 12 => if s.kept 12 then 1 else refuse ((List.range 8).any fun n => s.dutyEff n != 0)
  | 13 => if s.kept 13 then 1 else delay (s.seq.st != 0)
  | 14 => delay ((List.range 32).any fun t => (s.ten t).keyNew.isSome)
  | _ => refuse (!s.sys.locked)

/-! ## The end of an entry without a commit (R267 to R269) -/

/-- EV80 (Table 11.7). -/
def State.ev80 (s : State) : State :=
  s.raise 80 .granted (wordOf (s.pwr.result + 16 * s.pwr.reqState + 256 * s.pwr.refuser + 65536 * s.pwr.taken.toNat))

/-- The entry ends: RESULT and REFUSER. Lamps and engines come back when the handshake had asked them (R332). -/
def State.entryEnd (s : State) (result refuser : Nat) : State :=
  let s1 := if s.pwr.phase = .delayed then s.lampResume else s
  ((s1.updPwr fun p => { p with phase := .idle, result := result, refuser := refuser }).enqueueWaiting).ev80.pairsGo

/-! ## Wake sources (R260, R269, R270, R272) -/

/-- The set of one source. -/
def srcBit (src : Nat) : BitVec 6 := BitVec.ofNat 6 (2 ^ src)

/-- An exit starts. PD_ADC goes on from the stage that a louvre cut short had reached (R278). -/
def State.exitStart (s : State) (srcs : BitVec 6) (replayed : Bool) : State :=
  s.updPwr fun p => { p with
    phase := .restoring, wakeSrc := srcs, replayed := replayed, left := p.st.code,
    stage := SMap.set (fun _ => 0) [] 10 p.lvStage, lvStage := 0, pathHold := false }

/-- EV81 (Table 11.7). -/
def State.ev81 (s : State) : State :=
  s.raiseAfter 81 (wordOf (s.pwr.wakeSrc.toNat + 256 * bitNat s.pwr.replayed + 4096 * s.pwr.left))

/-- Ajar is left for Open by a wake: EV81 (R263, R282). -/
def State.ajarExit (s : State) : State := ((s.updPwr fun p => { p with left := 1 }).ajarEnd).ev81

/-- A wake ends the entry with RESULT 4; one asked for in Ajar returns to Open (R269). -/
def State.wakeEnds (s : State) : State :=
  let s1 := s.entryEnd 4 s.pwr.refuser
  if s1.pwr.st = .ajar then s1.ajarExit else s1

/-- A wake source whose condition holds is taken, if it is enabled. -/
def State.takeWake (s : State) (src : Nat) : State :=
  let b := srcBit src
  if src < 5 ∧ s.pwr.wakeEn.getLsbD src = false then s
  else match s.pwr.phase with
  | .committed => s.updPwr fun p => { p with wakeLatch := p.wakeLatch ||| b, taken := p.taken ||| b }
  | .restoring => s.updPwr fun p => { p with wakeSrc := p.wakeSrc ||| b }
  | .query => (s.updPwr fun p => { p with wakeSrc := b, replayed := false, taken := b }).wakeEnds
  | .delayed => (s.updPwr fun p => { p with wakeSrc := b, replayed := false, taken := b }).wakeEnds
  | .idle =>
    match s.pwr.st with
    | .louvred => s.exitStart b false
    | .latched => s.exitStart b false
    | .ajar => (s.updPwr fun p => { p with wakeSrc := b, replayed := false }).ajarExit
    | .opened =>
      if s.pwr.ajarPend then
        s.updPwr fun p => { p with ajarPend := false, wakeSrc := b, replayed := false, result := 4 }
      else s
    | _ => s

/-- WAKE_N stays taken while it stays low; whether it has gone high since is free (R260, log entry 139). -/
def State.wakeNHeld (s : State) : State :=
  if s.pwr.wakeLow = false then s
  else if Config.wakeHigh s.free then s.drawn.updPwr fun p => { p with wakeLow := false }
  else s.drawn.takeWake 4

/-! ## Requests (R147, R262, R263) -/

/-- A request for a state, 0 to 3. A WAKE_N that is still low is taken at once (Table 11.2). -/
def State.pwrRequest (s : State) (want : Nat) (force : Bool) : State :=
  if s.pwr.phase ≠ .idle then s.updPwr fun p => { p with rej := true }
  else
    let s1 := s.updPwr fun p => { p with reqState := want, force := force, ajarPend := false }
    if want = s.pwr.st.code then s1.updPwr fun p => { p with result := 1 }
    else if want = 0 then s1.ajarEnd.updPwr fun p => { p with result := 1 }
    else if want = 1 then (s1.updPwr fun p => { p with ajarPend := true }).wakeNHeld
    else (s1.updPwr fun p => { p with phase := .query, queries := 0, taken := 0 }).wakeNHeld

/-! ## The query and the commit point (R264 to R268, R271) -/

/-- The domains kept on in the state asked for, as a set (R275). -/
def State.keptSet (s : State) : BitVec 16 := BitVec.ofNat 16 (2 ^ 12 * bitNat (s.kept 12) + 2 ^ 13 * bitNat (s.kept 13))

/-- The commit point: the shutters close on the pads of every domain going off, no boundary follows, and rows that are
low are not watched (R261, R271, R274). Which rows are low then is free. -/
def State.commit (s : State) : State :=
  (((s.updPwr fun p => { p with phase := .committed, wakeLatch := 0, unwatched := Config.rowsLow s.free }).closeBanks
    0x1F).closeGen s.keptSet).drawn.updTick fun k => { k with tickOut := 0 }

/-- The answers of the sixteen agents. -/
def State.answers (s : State) : List Nat := (List.range 16).map s.agent

/-- One query, at which the lamps are asked (R332). -/
def State.query (s : State) : State :=
  let a := s.answers
  let s1 := s.updPwr fun p => { p with
    ans := wordOf ((a.zipIdx.map fun q => q.1 * 4 ^ q.2).sum), phase := .delayed, queries := p.queries + 1 }
  let s2 := s1.lampAsk
  if a.contains 3 then
    s2.entryEnd (if s.voteRefuses then 3 else 2) (a.findIdx fun x => x == 3)
  else if a.all fun x => x == 1 then s2.commit
  else if s.fld 0x30050000 0 16 ≤ s1.pwr.queries then s2.entryEnd 2 (a.findIdx fun x => x == 2)
  else s2

/-- What the power controller does when slot 39 starts (R263, R264). -/
def State.powerGuard (s : State) : State :=
  if s.pwr.ajarPend then s.updPwr fun p => { p with st := .ajar, ajarPend := false, result := 1 }
  else match s.pwr.phase with
  | .query => s.query
  | .delayed => s.query
  | _ => s

/-- Every command still running at slot 39 is cut, counts one overrun and raises EV3, and continues in the first CMD
slot of the next tick (R54). -/
def State.overruns (s : State) : State :=
  (s.runs.filter fun r => r.st == .accepted || r.st == .working).foldl
    (fun s r => ({ s with tick := { s.tick with overrun := sat16 s.tick.overrun } }.updRun r.id
      fun q => { q with at_ := 4 }).raise 3 .granted (wordOf (r.ten + 256 * r.at_))) s

/-- Slot 39 (Table 2.2, R54, R263, R264, R309, R365). -/
def State.guardSlot (s : State) : State := s.adcGuard.verifyArmed.overruns.powerGuard

/-! ## Entry and restore (R270 to R273, R279) -/

/-- A port goes off with its domain: SLEEP three times, then its frames are dropped (R231, R253). -/
def State.sleepPort (s : State) (dn : Bool) : State :=
  let s1 := if (s.lport dn).st = .off then s
    else ((s.emit dn .sleepSet).emit dn .sleepSet).emit dn .sleepSet
  s1.hopOff dn

/-- Frames of a class that the local buffers held are counted, and reported as dropped of the UP port (Table 10.11). -/
def State.dropped (s : State) (rsp : Bool) (n : Nat) : State :=
  if n = 0 then s
  else (s.updLink fun k => { k with drops := satAdd 65535 k.drops n }).raise 19 .granted
    (wordOf (2 * bitNat rsp + 256 * n))

/-- Frames in the local receive and response buffers are discarded and counted (R253). -/
def State.dropLocal (s : State) : State :=
  let s1 := s.updLink fun k => { k with loc := [], hold := [], bufs := k.bufs.filter fun q => !rspDone q.2 }
  (s1.dropped false (s.link.loc.length + s.link.hold.length)).dropped true s.rspHeld.length

/-- PD_LINK goes off. -/
def State.linkOff (s : State) : State := ((s.dropLocal.sleepPort true).sleepPort false)

/-- The entry after the commit point completes, `us` after it (R270, R271). -/
def State.entryComplete (s : State) (us : Nat) : State :=
  if s.pwr.phase ≠ .committed then s
  else
    let keep := s.keptSet
    let replay := s.pwr.wakeLatch != 0
    let s1 := (s.updPwr fun p => { p with
      st := if p.reqState = 2 then .louvred else .latched, domOn := keep, domReady := keep, phase := .idle,
      entryUs := min 65535 us, lvCount := 0, lvCons := [], result := if replay then 5 else 1 }).linkOff.scanOff
    let s2 := s1.ev80
    if replay then (s2.exitStart s.pwr.wakeLatch true).updPwr fun p => { p with wakeLatch := 0 } else s2

/-- The TICK block restarts with a first boundary, in HOLDOVER whatever SRC holds (R45, R279): the number goes on, or
takes a load that waits, the staged grants and the frame start as at every boundary, and so does the work of slot 0. -/
def State.restartTick (s : State) : State :=
  let s1 := s.updTick fun k => { k with
    st := .holdover, srcF := k.ctrl.fld 0 2, dsyncF := k.ctrl.bit 3, periodF := k.period, load := none,
    holdTicks := 0, numValid := false, link := Lock.none, dsync := Lock.none, later := none, laterDs := none,
    flipInd := false, flipWait := false, dsHigh := false, dsMark := 0, adj39 := 0 }
  let s2 := match s.tick.load with
    | some n => s1.loadNumber n s.tick.loadLink false
    | none => s1.updTick fun k => { k with num := k.num + 1 }
  s2.boundarySteps.slotZero

/-- Open is reached by an exit, `us` after it started (R272, R279, R282, R403). -/
def State.openReached (s : State) (us : Nat) : State :=
  let auto : BitVec 6 := BitVec.ofNat 6 (bitNat s.pwr.autoHA + 2 * bitNat s.pwr.autoHB)
  let s1 := ((s.updPwr fun p => { p with st := .opened, phase := .idle, exitUs := min 65535 us, queries := 0 }).openBanks
    auto).releaseHeld.restartTick.hbRestart.enqueueWaiting
  let s2 := { s1 with
    keys := { s1.keys with active := true, quiet := 0, wakeScan := false },
    seq := { s1.seq with gapDue := true } }
  let s3 := s2.ev81
  let s4 := match s3.pwr.lvEv with
    | some d => (s3.updPwr fun p => { p with lvEv := none }).raiseAfter 82 d
    | none => s3
  s4.awakeSend

/-- The logic of a domain is released. -/
def State.domReleased (s : State) (d : Nat) : State :=
  match d with
  | 4 => (s.train false).train true
  | 10 => s.adcRestore
  | 13 => s.seqRestore
  | 15 => { s with dbg := { s.dbg with ir := .idcode } }
  | _ => s

/-- A restore stage of a domain asserts its ready signal (Table 11.4). A domain's second waits for PD_FAB's. -/
def State.restoreStage (s : State) (d us : Nat) : State :=
  let n := SMap.get (fun _ => 0) s.pwr.stage d + 1
  if s.pwr.phase ≠ .restoring ∨ s.up d ∨ (n = 2 ∧ d ≠ 1 ∧ SMap.get (fun _ => 0) s.pwr.stage 1 < 2) then s
  else
    let bit := BitVec.ofNat 16 (2 ^ d)
    let s1 := s.updPwr fun p => { p with
      stage := SMap.set (fun _ => 0) p.stage d n,
      domOn := if n = 3 then p.domOn ||| bit else p.domOn,
      domReady := if n = 4 then p.domReady ||| bit else p.domReady }
    if n = 4 then
      let s2 := s1.domReleased d
      if s2.pwr.domReady = 0xFFFF then s2.openReached us else s2
    else s1

/-! ## Wake events (Table 11.2) -/

/-- AO works: not Off, and its wake front ends not in Shuttered. -/
def State.awakeAble (s : State) : Bool := s.pwr.st != .shuttered && s.pwr.st != .off && s.sys.resetN

/-- WAKE_N has been low for 10 µs. -/
def State.wakeN (s : State) : State :=
  if s.awakeAble then (s.updPwr fun p => { p with wakeLow := true }).takeWake 4 else s

/-- TIME_SEC has become equal to the alarm: EV11 and the RTC source (R397). -/
def State.rtcAlarm (s : State) : State :=
  if s.awakeAble ∧ s.sys.rtcSec ≠ 0 ∧ wordOf s.sys.rtcSec = s.sys.rtcAlarm ∧ s.sys.alarmDone = false then
    ({ s with sys := { s.sys with alarmDone := true } }.raise 11 .granted (wordOf s.sys.rtcSec)).takeWake 1
  else s

/-- The AO watch runs: from the commit point until Open. -/
def State.rowWatch (s : State) : Bool :=
  s.awakeAble && (s.pwr.st == .louvred || s.pwr.st == .latched || s.pwr.phase == .committed)

/-- A watched row has been low for 1 ms. -/
def State.rowWake (s : State) (row : Nat) : State :=
  if s.rowWatch ∧ s.pwr.unwatched.getLsbD row = false then s.takeWake 2 else s

/-- A row has been high for 1 ms. -/
def State.rowAgain (s : State) (row : Nat) : State :=
  if s.rowWatch then s.updPwr fun p => { p with unwatched := p.unwatched &&& ~~~BitVec.ofNat 24 (2 ^ row) } else s

/-- A new press of an unmasked key is the KEY source in Open, in Ajar and during an entry. -/
def State.keyWake (s : State) (before : List Nat) (kp : Bool) : State :=
  if (s.heldIn kp).any fun k => !before.contains k then s.takeWake 2 else s

/-- A column step; a press is the KEY wake source (Table 11.2). -/
def State.keyStep (s : State) (kp : Bool) (c : Nat) (rows : BitVec 16) : State :=
  (s.keyColumn kp c rows).keyWake (s.heldIn kp) kp

/-! ## Louvres (R276 to R278) -/

/-- Samples of an entry. -/
def lvSamples (avg : Nat) : Nat := 4 ^ avg

/-- The enabled entries, ascending. -/
def State.lvEntries (s : State) : List Nat := (List.range 8).filter fun k => s.rbit (lvReg k 0) 15

/-- The mean of an entry lies outside its window (R277). -/
def State.lvOutside (s : State) (k : Nat) (mean : Int) (ovr : Bool) : Bool :=
  let b := s.reg (lvReg k 4)
  let n := s.fld (lvReg k 0) 0 5
  let lim (lo : Nat) : Int := if n < 16 then signedOf 16 (b.fld lo 16) else (b.fld lo 16 : Int)
  ovr || decide (mean < lim 0 ∨ lim 16 < mean)

/-- One entry of a louvre, at a reference of some mV and of samples in nV, each with how far the slice's code lies from the
ideal one: its mean is written and its consecutive count kept. The state, and whether it takes the
source. -/
def State.lvEntry (s : State) (mv k : Nat) (xs : List (Int × Int)) : State × Bool :=
  let n := s.fld (lvReg k 0) 0 5
  let codes := xs.map fun x => sampleCode n (s.fld (lvReg k 0) 5 3) mv x.1 x.2
  let mean := (codes.map fun x => x.1).sum / (codes.length : Int)
  let ovr := codes.any fun x => x.2
  let c := if s.lvOutside k mean ovr then SMap.get (fun _ => 0) s.pwr.lvCons k + 1 else 0
  let s1 := s.updPwr fun p => { p with
    lvRes := SMap.set (fun _ => 0) p.lvRes k (wordOf (twosOf 16 mean + 65536 * bitNat ovr)),
    lvCons := SMap.set (fun _ => 0) p.lvCons k c }
  if s.fld (lvReg k 0) 10 2 + 1 ≤ c then
    (s1.updPwr fun p => { p with lvEntry := k, lvEv := some (wordOf (k + 65536 * twosOf 16 mean)) }, true)
  else (s1, false)

/-- How a louvre ends. -/
inductive LvEnd where
  /-- Every entry has been converted. -/
  | whole
  /-- An entry takes the source (R277). -/
  | source
  /-- Another source is taken before the samples of an entry are all there (R278). -/
  | cut
  deriving DecidableEq, Repr

/-- The entries of a louvre in order, with the samples converted; an entry whose samples are not all there is not
compared, and its mean is not written. -/
def State.lvRun (s : State) (mv : Nat) (samples : List (List (Int × Int))) : List Nat → Nat → State × LvEnd × Nat
  | [], n => (s, .whole, n)
  | k :: ks, n =>
    let want := lvSamples (s.fld (lvReg k 0) 8 2)
    let xs := (samples.getD k []).take want
    if xs.length < want then (s, .cut, n + xs.length)
    else
      let r := s.lvEntry mv k xs
      if r.2 then (r.1, .source, n + xs.length) else r.1.lvRun mv samples ks (n + xs.length)

/-- The end of a louvre that has been cut by a source which comes next: its length is free, and PD_ADC keeps the stage
that it had reached (R276, R278, log entry 140). -/
def State.lvCut (s : State) (converted : Nat) : State :=
  s.drawn.updPwr fun p => { p with
    lvOnUs := min 4095 (Config.lvCutUs s.free),
    lvStage := if 0 < converted then 1 else bitNat (Config.lvPowered s.free) }

/-- A louvre, at a reference of some mV where REF selects one from outside. With no entry enabled none runs. -/
def State.louvre (s : State) (mv : Nat) (samples : List (List (Int × Int))) : State :=
  let ks := s.lvEntries
  if s.pwr.st ≠ .louvred ∨ s.pwr.phase ≠ .idle ∨ ks.isEmpty then s
  else
    let r := s.lvRun (if s.fld 0x3005000C 28 2 = 0 then 2500 else mv) samples ks 0
    let s1 := r.1.updPwr fun p => { p with
      lvCount := sat16 p.lvCount, lvOnUs := min 4095 (140 + s.fld 0x3005000C 16 12 + 20 * r.2.2), lvStage := 0 }
    match r.2.1 with
    | .whole => s1
    | .source => (s1.updPwr fun p => { p with lvStage := 1 }).takeWake 3
    | .cut => s1.lvCut r.2.2

end Sys2Proof.Machine
end

