-- ==== Sys2Proof/Machine/Debug.lean ====
section
/-! DEFINITION. The test access port, flash access, the peephole and the debug lock (spec/21), and flash sequences as
the paths of R181 and R182 meet them. -/

namespace Sys2Proof.Machine

/-- The debug block changed. -/
def State.updDbg (s : State) (f : Dbg → Dbg) : State := { s with dbg := f s.dbg }

/-! ## The test access port (R432 to R435) -/

/-- The TAP works: PD_DBG powered, in Open and Ajar or with RESET_N low. -/
def State.tapWorks (s : State) : Bool :=
  s.pwr.domOn.getLsbD 15 && (s.pwr.st == .opened || s.pwr.st == .ajar)

/-- An instruction is allowed (Table 21.1). -/
def State.tapAllows (s : State) (i : TapIr) : Bool :=
  match i with
  | .extest => !s.sys.resetN || !s.sys.locked
  | .highz => !s.sys.resetN || !s.sys.locked
  | .clamp => !s.sys.resetN || !s.sys.locked
  | .flashAcc => !s.sys.locked || s.sys.halted
  | _ => true

/-- The instruction as it acts: one that is not allowed acts as BYPASS (R434). -/
def State.tapActs (s : State) : TapIr := if s.tapAllows s.dbg.ir then s.dbg.ir else .bypass

/-- An instruction loaded. -/
def State.tapLoad (s : State) (i : TapIr) : State := if s.tapWorks then s.updDbg fun d => { d with ir := i } else s

/-- EXTEST or SAMPLE/PRELOAD with what is then in the boundary-scan register. -/
def State.tapScan (s : State) (i : TapIr) (pins : BitVec 474) : State :=
  if s.tapWorks then
    s.updDbg fun d => { d with ir := i, bsr := if s.tapAllows i then pins else d.bsr }
  else s

/-- What drives the pins of the boundary-scan register in place of their blocks: its cells in EXTEST and CLAMP, nothing
in HIGHZ; `none` leaves them to their blocks (R433, R436, log entry 159). -/
def State.testDrive (s : State) : Option (Option (BitVec 474)) :=
  if s.tapWorks then
    match s.tapActs with
    | .extest => some (some s.dbg.bsr)
    | .clamp => some (some s.dbg.bsr)
    | .highz => some none
    | _ => none
  else none

/-- IDCODE (R435): version 1 on B1 and 0 on A0. -/
def Part.idcode (p : Part) : Word := if p.a0 then 0x009619CB#32 else 0x109619CB#32

/-- The instruction IDCODE and what it reads. -/
def State.tapIdcode (s : State) : State := if s.tapWorks then { s.tapLoad .idcode with rdata := s.part.idcode } else s

/-- RESET_N rises with an intrusive instruction in force and the lock set (R434). -/
def State.tapRelease (s : State) : State :=
  if s.sys.locked ∧ (s.dbg.ir = .extest ∨ s.dbg.ir = .highz ∨ s.dbg.ir = .clamp) then
    s.updDbg fun d => { d with ir := .idcode }
  else s

/-! ## Sequences on a path (R181, R182) -/

/-- A 32-bit write at a flash offset on the window path (`sys` false) or the system path: the step is judged, and a
complete command is carried out or joins the queue as a job. -/
def State.seqStep (s : State) (sys : Bool) (j : Job) (off : Nat) (v : Word) : State :=
  let o := seqWrite (if sys then s.flash.seqSys else s.flash.seqWin) off v
  let s1 := { s with flash := { s.flash with
    seqSys := if sys then o.seq else s.flash.seqSys, seqWin := if sys then s.flash.seqWin else o.seq,
    seqErr := s.flash.seqErr || o.broke } }
  match o.cmd with
  | some c => s1.seqCommand j c
  | none => s1

/-- The operations of a port's sequences that have not started. -/
def State.winOps (s : State) (p : Nat) : List FlashOp :=
  (s.flash.queue ++ s.flash.wait).filter fun o => o.job == .window p

/-- An operation of a window has not been accepted yet (R182, Table 8.4): an erase is accepted in IDLE, a program when
it starts. -/
def State.opWaits (s : State) (o : FlashOp) : Bool :=
  match o with
  | .erase _ _ _ => s.flash.st != .idle || s.flash.prog.isSome || !s.newErases.contains o
  | _ => true

/-- The last sequence of a port still waits for the controller. A port has at most one that waits, since the access or
the posted write that completed it stays until the controller accepts it. -/
def State.winWaits (s : State) (p : Nat) : Bool :=
  let ops := s.winOps p
  match ops.getLast? with
  | some o => s.opWaits o || 1 < (ops.filter fun q => q == o).length
  | none => false

/-- A list without the last of its members that have a property. -/
def dropLastOf {α : Type} (p : α → Bool) (xs : List α) : List α :=
  match xs.reverse.findIdx? p with
  | some i => (xs.reverse.eraseIdx i).reverse
  | none => xs

/-- The sequence that waits is void (R182). -/
def State.winVoid (s : State) (p : Nat) : State :=
  if s.winWaits p then
    let f : List FlashOp → List FlashOp := dropLastOf fun o => o.job == .window p
    if s.flash.wait.any fun o => o.job == .window p then { s with flash := { s.flash with wait := f s.flash.wait } }
    else { s with flash := { s.flash with queue := f s.flash.queue } }
  else s

/-! ## Flash access (R437) -/

/-- A read that waited is served once it can be. -/
def State.accServe (s : State) : State :=
  if s.flash.accBusy = false ∨ s.flashWaits (s.flash.accAddr / 0x800) then s
  else
    let r := s.flashBytes s.flash.accAddr 4
    { r.1 with flash := { r.1.flash with
        accBusy := false, accErr := r.2.isNone, accData := wordOf (leNat (r.2.getD [])) } }

/-- ADDR as a flash offset lies in sectors 0 to 511. -/
def accIn (addr : BitVec 21) : Bool := addr.toNat * 4 < 0x100000

/-- An access through FLASH_ACC, if the instruction is allowed. -/
def State.accDo (s : State) (f : State → State) : State :=
  let s1 := s.tapLoad .flashAcc
  if s1.tapWorks ∧ s1.tapAllows .flashAcc then f s1.accServe else s1

/-- OP 1. An address outside the leaves has no effect on the array. -/
def State.accWrite (s : State) (addr : BitVec 21) (v : Word) : State :=
  s.accDo fun s =>
    if accIn addr then
      { s with flash := { s.flash with accErr := false } }.seqStep false (.window 2) (addr.toNat * 4) v
    else { s with flash := { s.flash with accErr := true } }

/-- OP 2. -/
def State.accRead (s : State) (addr : BitVec 21) : State :=
  s.accDo fun s =>
    if accIn addr then
      let s1 := { s with flash := { s.flash with accBusy := true, accErr := false, accAddr := addr.toNat * 4 } }.accServe
      { s1 with rdata := s1.flash.accData }
    else { s with flash := { s.flash with accErr := true } }

/-- OP 3. -/
def State.accStatus (s : State) : State :=
  s.accDo fun s => { s with flash := { s.flash with accData := s.flash.status }, rdata := s.flash.status }

/-! ## The lock (R439 to R442) -/

/-- RTC time in 1/32,768 s. -/
def State.rtcNow (s : State) : Nat := s.sys.rtcSec * 32768 + s.sys.rtcSub

/-- An unlock has failed: FAIL, the challenge spent, and the second of R441 begins. -/
def State.unlockFail (s : State) : State :=
  { s with
    sys := { s.sys with dbgFail := true },
    dbg := { s.dbg with chal := none, failAt := some s.rtcNow, rdPos := 0, wrPos := 0, resp := [] } }

/-- Within 1 s of the last failure. -/
def State.unlockSoon (s : State) : Bool :=
  match s.dbg.failAt with
  | some t => s.rtcNow < t + 32768
  | none => false

/-- SYS_DBG_LOCK.UNLOCK. -/
def State.unlockAsk (s : State) : State :=
  if (s.ten 0).key.isNone ∨ s.unlockSoon then s.unlockFail
  else s.drawn.updDbg fun d => { d with chal := some (Config.challenge s.free), rdPos := 0, wrPos := 0, resp := [] }

/-- A read of SYS_DBG_CHAL: the words of the challenge in turn; 0 without one. -/
def State.chalRead (s : State) : State × Word :=
  (s.updDbg fun d => { d with rdPos := (d.rdPos + 1) % 4 },
    match s.dbg.chal with
    | some c => (c >>> (32 * s.dbg.rdPos)).setWidth 32
    | none => 0)

/-- The response that R440 expects to a challenge. -/
def dbgMac (key : BitVec 256) (chal : BitVec 128) : List Byte :=
  Crypto.hmac (beBytes 32 key.toNat) (leBytes 16 chal.toNat ++ leBytes 8 Config.uid.toNat)

/-- The eighth response word has come: the lock opens or the unlock fails. -/
def State.unlockJudge (s : State) (c : BitVec 128) : State :=
  match (s.ten 0).key with
  | some k =>
    if s.dbg.resp = dbgMac k c then
      { s with
        sys := { s.sys with locked := false },
        dbg := { s.dbg with chal := none, rdPos := 0, wrPos := 0, resp := [] } }
    else s.unlockFail
  | none => s.unlockFail

/-- A write of SYS_DBG_CHAL. -/
def State.chalWrite (s : State) (v : Word) : State :=
  match s.dbg.chal with
  | none => s.unlockFail
  | some c =>
    let s1 := s.updDbg fun d => { d with resp := d.resp ++ leBytes 4 v.toNat, wrPos := d.wrPos + 1 }
    if s1.dbg.wrPos = 8 then s1.unlockJudge c else s1

/-- SYS_DBG_LOCK.RELOCK. -/
def State.relock (s : State) : State :=
  { s with sys := { s.sys with locked := true }, dbg := { s.dbg with peepEn := false } }

/-! ## The peephole (R438, R443) -/

/-- A write of PEEP_CTRL. -/
def State.peepWrite (s : State) (v : Word) : State :=
  if s.sys.locked then s else s.updDbg fun d => { d with peepEn := v.bit 0, peepGroup := v.fld 8 6 }

/-- A read of PEEP_SAMPLE. -/
def State.peepSample (s : State) : State × Word :=
  if s.sys.locked then (s, 0) else (s.drawn, (Config.peepSignals s.free).setWidth 32)

/-- What PEEP[15:0] carries: none while high-impedance. -/
def State.peepPins (s : State) : Option Nat :=
  if s.dbg.peepEn ∧ s.sys.locked = false ∧ s.shut 5 = false then some s.dbg.peepGroup else none

end Sys2Proof.Machine
end

