-- ==== Sys2Proof/Machine/Boot.lean ====
section
/-! DEFINITION. Resets and what each keeps (R136, R145, R258, R259, R281), the boot sequence (Table 9.5), the ledger at
boot (R200 to R205), leaves and the selector (R208 to R219), the keeper store (R149, R221, R223), and service restarts
(R171). -/

namespace Sys2Proof.Machine

/-- The system registers changed. -/
def State.updSys (s : State) (f : Sys → Sys) : State := { s with sys := f s.sys }

/-! ## Resets (R136) -/

/-- Flash words of a physical sector left partly erased by a collapse (R159). -/
def State.tornSector (s : State) (p : Nat) : State :=
  s.each (List.range 256) fun s i => s.setFword (p * 256 + i) ⟨(s.fword (p * 256 + i)).data, 3, none⟩

/-- What a reset or a loss of supply leaves in the array of the program and the erases under way. A word cut on its way
to its data can still take that data (R186). -/
def State.flashCut (s : State) : State :=
  let s1 := match s.flash.prog with
    | some (.prog w d _) =>
      s.setFword (s.physWord w) ⟨(s.fword (s.physWord w)).data, 3, if s.flash.progBad then none else some d⟩
    | _ => s
  s1.each ((s.flash.erases.filter fun e => e.pulses != 0).map fun e => s.phys e.sect) State.tornSector

/-- The registers marked AO: those of SYS. -/
def Sys.ao0 (k : Sys) : Sys :=
  { Sys.reset with
    linkAddr := k.linkAddr, group := k.group, resetCause := k.resetCause, rtcSec := k.rtcSec, rtcSub := k.rtcSub,
    rtcAcc := k.rtcAcc, rtcStage := k.rtcStage, rtcLoad := k.rtcLoad, rtcAlarm := k.rtcAlarm, alarmDone := k.alarmDone,
    rtcTrim := k.rtcTrim, rtcLatch := k.rtcLatch, aoIdx := k.aoIdx, aoInc := k.aoInc, ao := k.ao, bootCnt := k.bootCnt, resetN := k.resetN,
    straps := k.straps, padsHigh := k.padsHigh }

/-- The registers marked AO: those of the power controller. -/
def Pwr.ao0 (p : Pwr) : Pwr :=
  { Pwr.reset with
    wakeSrc := p.wakeSrc, replayed := p.replayed, wakeLatch := p.wakeLatch, wakeEn := p.wakeEn, entryUs := p.entryUs,
    exitUs := p.exitUs, lvCount := p.lvCount, lvEntry := p.lvEntry, lvOnUs := p.lvOnUs, lvRes := p.lvRes,
    shutSec := p.shutSec, vao := p.vao, vcoin := p.vcoin, left := p.left, wakeLow := p.wakeLow }

/-- The PWR block's registers, all of them AO. -/
def aoRegs (m : SMap Word) : SMap Word := m.filter fun q => 0x30050000 ≤ q.1 && q.1 < 0x30050080

/-- The registers marked AO: TIME_SEC of every page (Table 6.5). -/
def State.aoTens (s : State) : SMap Tenant :=
  (List.range 32).foldl (fun m t =>
    SMap.set Tenant.reset m t { Tenant.reset t with timeSec := (s.ten t).timeSec }) []

/-- The battery watch counts charge (R291). -/
def State.counting (s : State) : Bool := s.pwr.st == .opened || s.pwr.st == .ajar

/-- Every register at its reset value but those kept (R136); flash, fuses and the TAP are not registers. The scrubber's
position is one: it starts again at 0 (log entry 132). The logic of every domain is held. -/
def State.resetKeep (s : State) : State :=
  let c := s.flashCut
  { State.reset with
    pending := s.pending,
    tens := s.aoTens,
    sys := { s.sys.ao0 with locked := s.part.dbgFuse },
    pwr := { s.pwr.ao0 with domReady := 0 },
    prot := { Prot.reset with fuses := s.prot.fuses },
    flash := { Flash.reset with words := c.flash.words },
    link := { Link.reset with last := s.link.last },
    dbg := { Dbg.reset with ir := s.dbg.ir, bsr := s.dbg.bsr },
    regs := aoRegs s.regs,
    seq := { Seq.reset with gapDue := s.seq.gapDue || !s.counting },
    ksnap := s.ksnap, sealed := s.sealed, rdata := s.rdata, free := s.free, part := s.part }

/-- A reset cause set (Table 6.7). -/
def State.cause (s : State) (bit : Nat) : State :=
  s.updSys fun k => { k with resetCause := k.resetCause ||| BitVec.ofNat 5 (2 ^ bit) }

/-! ## The ledger at boot (R199 to R205) -/

/-- The logical words of a sector before its first erased word (R199). -/
def State.sectorWords (s : State) (sect : Nat) : List Nat :=
  ((List.range 256).map fun i => sect * 256 + i).takeWhile fun w => !(s.fword w).isErased

/-- Words read one by one, each with what it gives. -/
def State.readEach (s : State) : List Nat → State × List (Option DWord)
  | [] => (s, [])
  | w :: ws =>
    let r := s.flashRead w
    let q := r.1.readEach ws
    (q.1, r.2 :: q.2)

/-- A word read as a record of an area. -/
def asRecord (types : List Nat) (d : Option DWord) : Option DWord :=
  d.filter fun w => types.contains (dfld w 56 8) && dfld w 0 16 == chk16 w

/-- A SEQ is later than another (R199: modulo 65,536). -/
def seqAfter (a b : Nat) : Bool := 1 ≤ (a % 65536 + 65536 - b % 65536) % 65536 && (a % 65536 + 65536 - b % 65536) % 65536 < 32768

/-- TYPE, SECTOR, AUX and SEQ of a record. -/
def recType (d : DWord) : Nat := dfld d 56 8
def recSect (d : DWord) : Nat := dfld d 44 12
def recAux (d : DWord) : Nat := dfld d 32 12
def recSeq (d : DWord) : Nat := dfld d 16 16

/-- The records of sectors, in order; torn words are skipped. -/
def State.records (s : State) (types : List Nat) (sects : List Nat) : State × List DWord :=
  let r := s.readEach (sects.flatMap s.sectorWords)
  (r.1, r.2.filterMap (asRecord types))

/-- A copy of the factory bad map: its valid records, and whether every record is valid. -/
def State.factoryCopy (s : State) (sect : Nat) : State × List DWord × Bool :=
  let r := s.readEach (s.sectorWords sect)
  let ok := r.2.filterMap (asRecord factoryTypes)
  (r.1, ok, ok.length == r.2.length)

/-- The FBAD records in force (R200, R201): with both copies damaged every valid record of either, where the copy in
sector 514 prevails. -/
def State.factoryMap (s : State) : State × List DWord :=
  let a := s.factoryCopy 514
  if a.2.2 then (a.1, a.2.1)
  else
    let b := a.1.factoryCopy 515
    if b.2.2 then (b.1, b.2.1)
    else (b.1, a.2.1 ++ b.2.1.filter fun d => !(a.2.1.any fun e => recSect e == recSect d))

/-- The copies whose damage is reported once boot completes (R201). -/
def State.factoryDamaged (s : State) : List Nat :=
  if (s.factoryCopy 514).2.2 ∨ (s.factoryCopy 515).2.2 then [] else [514, 515]

/-- The latest SEQ among records. -/
def lastSeq : List DWord → Option Nat
  | [] => none
  | d :: ds =>
    match lastSeq ds with
    | none => some (recSeq d)
    | some n => if seqAfter (recSeq d) n then some (recSeq d) else some n

/-- The half of the grown bad table in force: the one with the later SEAL; without one half 0. -/
def halfInForce (h0 h1 : List DWord) : Bool :=
  let mark (ds : List DWord) : Option Nat := lastSeq (ds.filter fun d => recType d == 0x5E)
  match mark h0, mark h1 with
  | none, some _ => true
  | some a, some b => seqAfter b a
  | _, _ => false

/-- A record of the grown bad table applied. -/
def State.applyGrown (s : State) (d : DWord) : State :=
  match recType d with
  | 0x2B => s.setRemap (recAux d % 64) (.mapped (recSect d) true)
  | 0x2E => s.setRemap (recAux d % 64) .retired
  | 0x35 => s.setSuspect (recSect d) true
  | 0x36 => s.setSuspect (recSect d) false
  | _ => s

/-- The ring sectors whose erase has failed, by the journal (R197). -/
def failedRings (js : List DWord) : BitVec 8 :=
  BitVec.ofNat 8 (((List.range 8).filter fun r =>
    js.any fun d => recType d == 0x4D && recSect d == 522 + r && 2048 ≤ recAux d).map fun r => 2 ^ r).sum

/-- The next word of the active ring sector: the first erased one after the highest SEQ (R205). -/
def State.ringLoad (s : State) (rings : List (List DWord)) : State :=
  let all := lastSeq rings.flatten
  match all with
  | none => { s with flash := { s.flash with ring := 0, ringWord := (s.sectorWords 522).length } }
  | some n =>
    let r := (rings.findIdx? fun ds => ds.any fun d => recSeq d == n).getD 0
    { s with flash := { s.flash with ring := r, ringWord := (s.sectorWords (522 + r)).length } }

/-- The remap table, the suspect map, the half in force, the ring and the next SEQ, loaded from the ledger (R180,
R201, R204, R205). -/
def State.ledgerLoad (s : State) : State :=
  let f := { s with flash := { s.flash with remap := [], suspect := [] } }.factoryMap
  let h0 := f.1.records grownTypes [516, 517, 518]
  let h1 := h0.1.records grownTypes [519, 520, 521]
  let js := (List.range 8).map fun r => (h1.1.records journalTypes [522 + r]).2
  let s1 := (h1.1.records journalTypes ((List.range 8).map fun r => 522 + r)).1
  let half := halfInForce h0.2 h1.2
  let s2 := f.2.foldl (fun s d => s.setRemap (recAux d % 64) (.mapped (recSect d) false)) s1
  let s3 := (if half then h1.2 else h0.2).foldl State.applyGrown s2
  let s4 := s3.ringLoad js
  let top := lastSeq (h0.2 ++ h1.2 ++ js.flatten)
  { s4 with flash := { s4.flash with
      half := half, ringBad := failedRings js.flatten,
      seq := match top with
        | some n => (n + 1) % 65536
        | none => 0 } }

/-- Records of the erase journal, as they stand. -/
def State.journal (s : State) : List DWord := (s.records journalTypes ((List.range 8).map fun r => 522 + r)).2

/-- INTENTs without a later DONE of their sector. -/
def openIntents (js : List DWord) : List DWord :=
  js.filter fun d => recType d == 0x4A &&
    !(js.any fun e => recType e == 0x4D && recSect e == recSect d && seqAfter (recSeq e) (recSeq d))

/-- The open INTENT with the latest SEQ (R202). -/
def State.openIntent (s : State) : Option DWord :=
  let js := openIntents s.journal
  js.find? fun d => !(js.any fun e => seqAfter (recSeq e) (recSeq d))

/-- Suspect sectors that an erase has cleared and that have no CLEAR yet (R205). -/
def State.owedClears (s : State) : List Nat :=
  let js := s.journal
  let h := s.halfNo
  let gs := (s.records grownTypes [516 + 3 * h, 517 + 3 * h, 518 + 3 * h]).2
  ((gs.filter fun d => recType d == 0x35 && s.suspect (recSect d) &&
    js.any fun e => recType e == 0x4D && recSect e == recSect d && recAux e < 2048 &&
      seqAfter (recSeq e) (recSeq d)).map recSect).dedup

/-- A recovery erase has reached its limit: the sector is treated as at any erase that does (R193, R195, R197). -/
def State.recoverFail (s : State) (p : Nat) : State :=
  if 512 ≤ p ∧ p ≤ 529 then
    let s1 := s.ledgerFail p
    if 522 ≤ p then { s1 with flash := { s1.flash with ringBad := s1.flash.ringBad ||| BitVec.ofNat 8 (2 ^ (p - 522)) } }
    else s1
  else if 4032 ≤ p ∧ s.logicalOf p = p then
    ((s.putGrown 0x2E p (p - 4032)).setRemap (p - 4032) .retired).poolWarn
  else (s.flashFail 1).startSpare (s.logicalOf p) none .sys

/-- Firmware recovers the erase that a collapse cut: the margin read, the erase and its pulses (R205). The boot has
not completed. -/
def State.ledgerRecover (s : State) (marginFails pass : Bool) (pulses : Nat) : State :=
  if s.sys.sweep = false ∨ s.sys.halted ∨ s.sys.bootDone then s
  else
    let s1 := match s.openIntent with
      | none => s
      | some d =>
        let p := recSect d
        let fails := marginFails || !s.sectorErased p
        let kind := if fails then (if pass then 2 else 3) else 1
        let a := if fails ∧ pass then (s.eraseSector p).sealedErased (s.logicalOf p) .sys else s
        let c := a.putJournal 0x4D p (if kind = 3 then 2048 + 7 else 7)
        let b := if kind = 3 then c.recoverFail p else c
        { b with flash := { b.flash with
            recSector := p, recKind := kind, recPulses := if fails then pulses % 32 else 0 } }.raise 76
          (.sector (b.logicalOf p)) (wordOf (p + 4096 * kind))
    s1.each s1.owedClears fun s p => (s.setSuspect p false).putGrown 0x36 p 0

/-! ## The leaf selector (R210, R211) -/

/-- A selector word is valid. -/
def selValid (d : DWord) : Bool :=
  dfld d 56 8 == 0x5C && dfld d 52 4 ≤ 1 && dfld d 48 4 == 0 && dfld d 0 16 == chk16 d

/-- A selector word. -/
def selWord (leaf : Bool) (gen : Nat) : DWord := withChk (0x5C * 2 ^ 56 + bitNat leaf * 2 ^ 52 + gen % 2 ^ 32 * 2 ^ 16)

/-- The words of a selector sector read: those valid. -/
def State.selectors (s : State) (sect : Nat) : State × List DWord :=
  let r := s.readEach (s.sectorWords sect)
  (r.1, r.2.filterMap fun d => d.filter selValid)

/-- The highest GEN, with its leaf. Of words with one GEN, which R210 does not settle, the last one is taken (log entry
130). -/
def topGen : List DWord → Option (Nat × Bool)
  | [] => none
  | d :: ds =>
    let g := (dfld d 16 32, dfld d 52 4 == 1)
    match topGen ds with
    | none => some g
    | some h => if h.1 < g.1 then some g else some h

/-- The selector in force: its GEN, leaf and sector. With no valid word it names leaf A with GEN 0, and the first new
word goes to sector 512; of two sectors with one GEN, sector 512 prevails. R210 and R211 settle neither (log entries
130, 131). -/
def State.selector (s : State) : State × Nat × Bool × Nat :=
  let a := s.selectors 512
  let b := a.1.selectors 513
  match topGen a.2, topGen b.2 with
  | none, none => (b.1, 0, false, 512)
  | some x, none => (b.1, x.1, x.2, 512)
  | none, some y => (b.1, y.1, y.2, 513)
  | some x, some y => if x.1 < y.1 then (b.1, y.1, y.2, 513) else (b.1, x.1, x.2, 512)

/-- Where the next selector word goes: the word, and the sector to erase first when the one in force is full. -/
def State.selectorPlace (s : State) (sect : Nat) : Nat × Option Nat :=
  let n := (s.sectorWords sect).length
  if n < 256 then (sect * 256 + n, none) else ((1025 - sect) * 256, some (1025 - sect))

/-! ## Leaves (R208, R209) -/

/-- The first word of a leaf. -/
def leafWord (leaf : Bool) : Nat := bitNat leaf * 65536

/-- The fixed fields of a leaf header are right. -/
def headOk (h : List Byte) : Bool :=
  natAt h 0 4 == 0x4641454C && natAt h 4 2 == 1 && natAt h 6 2 == 0 && natAt h 20 8 == 0 && natAt h 28 4 == 0 &&
    4096 ≤ natAt h 8 4 && natAt h 8 4 ≤ 523264 && natAt h 8 4 % 8 == 0 &&
    natAt h 12 4 < natAt h 8 4 && natAt h 12 4 % 4 == 0

/-- The key hash and the signature of a leaf header are right. -/
def headSigned (keyed : Bool) (h : List Byte) : Bool :=
  (keyed == false || beNat (Crypto.sha256 (bytesAt h 64 64)) == Config.keyHash.toNat) &&
    Crypto.ecdsaVerify (beNat (bytesAt h 64 32)) (beNat (bytesAt h 96 32)) (Crypto.sha256 (bytesAt h 0 128))
      (beNat (bytesAt h 128 32)) (beNat (bytesAt h 160 32))

/-- A leaf checked under R209: its header and image when it verifies. -/
def State.leafVerify (s : State) (leaf : Bool) : State × Option (List Byte × List Byte) :=
  let h := s.flashBytes (8 * leafWord leaf) 256
  match h.2 with
  | none => (h.1, none)
  | some hd =>
    if headOk hd then
      let i := h.1.flashBytes (8 * leafWord leaf + 256) (natAt hd 8 4)
      match i.2 with
      | none => (i.1, none)
      | some im =>
        if beNat (Crypto.sha256 im) = beNat (bytesAt hd 32 32) ∧ headSigned s.part.keyHash hd then (i.1, some (hd, im)) else (i.1, none)
    else (h.1, none)

/-- A selector sector erased by the boot, with its journal records under REASON 5 (R211). False at the pulse limit. -/
def State.bootErase (s : State) (sect : Nat) : State × Bool :=
  let a := s.putJournal 0x4A sect 5
  if Config.bootFlash s.free then ((a.drawn.eraseSector sect).putJournal 0x4D sect 5, true)
  else (((a.drawn.putJournal 0x4D sect (5 + 2048)).tornSector sect).ledgerFail sect, false)

/-- A selector word programmed by the boot. False when it could not be. -/
def State.bootSelect (s : State) (leaf : Bool) (gen sect : Nat) : State × Bool :=
  let p := s.selectorPlace sect
  let e := match p.2 with
    | some o => s.bootErase o
    | none => (s, true)
  if e.2 = false then (e.1, false)
  else if Config.bootFlash e.1.free then (e.1.drawn.setFword p.1 (FWord.of (selWord leaf gen)), true)
  else ((e.1.drawn.setFword p.1 ⟨selWord leaf gen, 3, none⟩).ledgerFail (p.1 / 256), false)

/-- Firmware of a leaf that verified is copied into core SRAM and runs. -/
def State.leafRun (s : State) (leaf : Bool) (hd im : List Byte) : State :=
  (s.wrWhole coreBase im).updSys fun k => { k with leaf := leaf, fwVer := wordOf (natAt hd 16 4) }

/-- A leaf that has been chosen: the selector word that names it is programmed when it is not the one named (R215). When
it could not be, SELECTED reads the leaf that the selector still names (log entry 129). -/
def State.leafChosen (s : State) (leaf named : Bool) (gen sect : Nat) (hd im : List Byte) : State :=
  let s1 := s.leafRun leaf hd im
  if leaf = named then s1.updSys fun k => { k with selGen := gen, selLeaf := named }
  else
    let q := s1.bootSelect leaf (gen + 1) sect
    q.1.updSys fun k => { k with
      fallback := q.2, selGen := if q.2 then gen + 1 else gen, selLeaf := if q.2 then leaf else named }

/-- Steps 6 to 8 of the boot (R215, R216). -/
def State.leafBoot (s : State) : State :=
  let q := s.selector
  let count := s.sys.bootCnt
  let first := if count = 3 then !q.2.2.1 else q.2.2.1
  let s1 := q.1.updSys fun k => { k with bootCnt := if count = 3 then 1 else count + 1 }
  let a := s1.leafVerify first
  match a.2 with
  | some l => a.1.leafChosen first q.2.2.1 q.2.1 q.2.2.2 l.1 l.2
  | none =>
    let b := a.1.leafVerify (!first)
    match b.2 with
    | some l => b.1.leafChosen (!first) q.2.2.1 q.2.1 q.2.2.2 l.1 l.2
    | none => b.1.updSys fun k => { k with halted := true, selGen := q.2.1, selLeaf := q.2.2.1 }

/-! ## The boot (Table 9.5) -/

/-- Steps 1 to 8, with the straps as sampled (R81, R410, R175, R160, R146, R180). -/
def State.bootRom (s : State) (straps : BitVec 4) : State :=
  let s1 := s.tapRelease
  let s2 := { s1 with
    sys := { s1.sys with straps := straps, resetN := true, clkOk := 0x1F, sweep := true },
    prot := s1.prot.switchIn,
    portA := { s1.portA with sync := straps.getLsbD 0 },
    portB := { s1.portB with sync := straps.getLsbD 1 },
    mem := [], ecc := [], chk := [],
    seq := { s1.seq with gapDue := s1.seq.gapDue || !s1.counting },
    pwr := { s1.pwr with
      st := .opened, phase := .idle, domOn := 0xFFFF, domReady := 0xFFFF, live := 0, enHeld := 0, fanHeld := 0 } }
  (((s2.openBanks 3).train false).train true).ledgerLoad.leafBoot

/-- A reset that runs on into the boot at once, with the straps as the board ties them. -/
def State.resetPulse (s : State) (bit : Nat) : State := (s.resetKeep.cause bit).bootRom s.sys.straps

/-- RESET_N goes low (R281). In Shuttered and Off there is nothing left to reset. -/
def State.resetLow (s : State) : State :=
  if s.pwr.st = .off ∨ s.pwr.st = .shuttered then s.updSys fun k => { k with resetN := false }
  else (s.resetKeep.cause 1).updSys fun k => { k with resetN := false }

/-- The boot may start: the supply is there and no boot has run since the reset. -/
def State.bootDue (s : State) : Bool := s.pwr.vao && s.pwr.st != .off && (!s.sys.resetN || !s.sys.sweep)

/-- RESET_N rises, or power-on reset is released: the straps are sampled (R410), and the pads of banks HA and HB are set
for the supplies that they then have (R408). -/
def State.resetHigh (s : State) (straps : BitVec 4) (high : BitVec 2) : State :=
  let s1 := s.updSys fun k => { k with padsHigh := high }
  if s1.bootDue then s1.bootRom straps else s1.updSys fun k => { k with resetN := true }

/-- A write of SYS_RESET_CTRL (R145): the state, and the clamps to count. -/
def State.softReset (s : State) (v : Word) : State × Nat :=
  if v.bit 31 = false then (s, 0)
  else if v.fld 0 16 = 0xD961 then (s.resetPulse 2, 0)
  else (s, 1)

/-! ## Supplies (R257 to R259) -/

/-- VAO is lost while VCOIN is there: Shuttered from any state. -/
def State.vaoLost (s : State) : State :=
  if s.pwr.vao = false ∨ s.pwr.st = .off then s
  else
    let t := s.sys.rtcSec
    let c := s.closeGen 0
    (s.resetKeep.cause 4).updPwr fun p => { p with
      st := .shuttered, domOn := 0, domReady := 0, closed := 0x3F, vao := false, shutSec := wordOf t, left := 4,
      enHeld := c.pwr.enHeld, fanHeld := c.pwr.fanHeld }

/-- VAO is reconnected: the RAIL source. The boot starts when RESET_N is high, else at its rising edge. -/
def State.vaoBack (s : State) : State :=
  if s.pwr.st = .shuttered ∧ s.pwr.vao = false then
    let s1 := s.updPwr fun p => { p with vao := true, wakeSrc := srcBit 5, replayed := false }
    if s1.sys.resetN then s1.bootRom s.sys.straps else s1
  else s

/-- Both supplies are absent: only flash and fuses keep what they hold. -/
def State.supplyLost (s : State) : State :=
  let c := s.flashCut
  { State.reset with
    pending := s.pending,
    sys := { Sys.reset with
      resetN := s.sys.resetN, straps := s.sys.straps, padsHigh := s.sys.padsHigh, locked := s.part.dbgFuse },
    pwr := { Pwr.reset with st := .off, domOn := 0, domReady := 0, vao := false, vcoin := false },
    prot := { Prot.reset with fuses := s.prot.fuses },
    flash := { Flash.reset with words := c.flash.words },
    ksnap := s.ksnap, sealed := s.sealed, rdata := s.rdata, free := s.free, part := s.part }

/-- Power returns after both supplies were absent (R259): the boot waits for the release of the reset. -/
def State.powerUp (s : State) : State :=
  if s.pwr.st = .off then
    { s with seq := { s.seq with gapDue := true } }.updPwr fun p => { p with
      st := .opened, domOn := 0xFFFF, vao := true, vcoin := true, closed := 0x3F }
  else s

/-! ## The keeper store (R149, R221, R223) -/

/-- The snapshot that a SAVE takes. -/
def State.snapshot (s : State) : KSnap :=
  let ts := List.range 32
  { doors := ts.foldl (fun m t => SMap.set (fun _ => false) m t (s.door t == .opened)) [],
    fires := ts.foldl (fun m t => SMap.set (fun _ => 0) m t
      (if s.door t = .fire then 4 + (s.ten t).cause else (s.ten t).cause)) [],
    pagesA := s.portA.pages, pagesB := s.portB.pages,
    hpA := (s.portA.postEn, s.portA.guard), hpB := (s.portB.postEn, s.portB.guard),
    grants := s.grants.table,
    quotas := ts.foldl (fun m t => SMap.set (fun _ => 0) m t (s.ten t).quotaSet) [],
    wakeEn := s.pwr.wakeEn,
    secCfg := ts.foldl (fun m t => SMap.set (fun _ => 0) m t (s.ten t).doorCfg) [],
    secHb := ts.foldl (fun m t => SMap.set (fun _ => 0) m t (s.ten t).hbTicks) [],
    secAuth := ts.foldl (fun m t => SMap.set (fun _ => false) m t (s.ten t).authReq) [] }

/-- The body bytes of a record: 1 to 12,272 of them. -/
def ksBody (n : Nat) : List Byte :=
  match (Config.keeperBody n).take 12272 with
  | [] => [0]
  | bs => bs

/-- The snapshot that the record with a GEN holds. -/
def State.snapOf (s : State) (gen : Nat) : Option KSnap := SMap.get (fun _ => none) s.ksnap gen

/-- The snapshot of the record about to be written with a GEN; those of the records that it leaves behind are dropped. -/
def State.setSnap (s : State) (gen : Nat) (v : KSnap) : State :=
  { s with ksnap := SMap.set (fun _ => none) (s.ksnap.filter fun q => gen ≤ q.1 + 2) gen (some v) }

/-- SYS_KSTORE_CTRL.SAVE: the snapshot is taken at once and its record joins the flash queue. -/
def State.kstoreSave (s : State) : State :=
  if s.sys.kstSt = 1 then s
  else
    let q := s.inForce true 0
    let slot := match q.2.1 with
      | some f => 1 - f.1
      | none => 0
    let gen := match q.2.1 with
      | some f => f.2.1 + 1
      | none => 1
    let s1 := ((q.1.setSnap gen s.snapshot).updSys fun k => { k with kstSt := 1, kstResult := 0 }).drawn
    s1.enqueueNew (s1.recordOps true 0 slot gen (ksBody s.free) 1 .save)

/-- A keeper-store record write ends: the read-back decides (R221). -/
def State.saveEnd (s : State) : State :=
  match s.ready.find? fun o => match o with
    | .done _ _ .save => true
    | _ => false with
  | some (.done slot gen j) =>
    let s1 := { s with flash := { s.flash with queue := dropOp (.done slot gen j) s.flash.queue } }
    if s1.sys.kstResult ≠ 0 then s1.updSys fun k => { k with kstSt := 3 }
    else
      let q := s1.readBack true 0 slot gen
      if q.2 then
        q.1.updSys fun k => { k with kstSt := 2, kstGen := gen }
      else q.1.updSys fun k => { k with kstSt := 3, kstResult := 5 }
  | _ => s

/-- The settings of one tenant from a snapshot. -/
def Tenant.restore (T : Tenant) (k : KSnap) (t : Nat) : Tenant :=
  let hb := SMap.get (fun _ => 0) k.secHb t
  { T with
    cause := SMap.get (fun _ => 0) k.fires t % 4, quotaSet := SMap.get (fun _ => 0) k.quotas t,
    doorCfg := SMap.get (fun _ => 0) k.secCfg t, hbTicks := hb, hbLeft := hb,
    authReq := SMap.get (fun _ => false) k.secAuth t }

/-- The door of a tenant in a snapshot. -/
def KSnap.door (k : KSnap) (t : Nat) : DoorSt :=
  if SMap.get (fun _ => false) k.doors t then .opened
  else if 4 ≤ SMap.get (fun _ => 0) k.fires t then .fire
  else .shut

/-- A snapshot applied: no wipe, and none of the effects of Table 3.3 (R223). -/
def State.applySnap (s : State) (k : KSnap) : State :=
  let s1 := s.each (List.range 32) fun s t => (s.setDoor t (k.door t)).updTen t fun T => T.restore k t
  { s1 with
    portA := { s1.portA with pages := k.pagesA, postEn := k.hpA.1, guard := k.hpA.2 },
    portB := { s1.portB with pages := k.pagesB, postEn := k.hpB.1, guard := k.hpB.2 },
    grants := { s1.grants with table := k.grants },
    pwr := { s1.pwr with wakeEn := k.wakeEn } }

/-- Step 9: the keeper store applied, sealed keys restored (R79), every settings area checked. -/
def State.bootSettings (s : State) : State :=
  let q := s.inForce true 0
  let s1 := match q.2.1 with
    | some f =>
      let s2 := q.1.updSys fun k => { k with kstGen := f.2.1 }
      match s2.snapOf f.2.1 with
      | some k => s2.applySnap k
      | none => s2
    | none => q.1
  let s3 := s1.each (List.range 32) fun s t =>
    s.updTen t fun T => { T with key := (SMap.get (fun _ => none) s.sealed t).map Prod.snd }
  s3.each (List.range 32) fun s t => (s.inForce false t).1

/-- EV8 (Table 9.7). -/
def State.ev8 (s : State) : State :=
  s.raise 8 .granted (wordOf (bitNat s.sys.leaf + 2 * bitNat s.sys.fallback + 256 * s.sys.bootCnt +
    65536 * (s.sys.selGen % 65536)))

/-- Seconds in Shuttered (Table 11.7). -/
def State.shutTime (s : State) : Nat := min 0xFFFFFFFE (s.sys.rtcSec - s.pwr.shutSec.toNat)

/-- Steps 9 and 10: boot complete. EV8 and what was held reach their owners; EV81 and EV84 follow a boot from Shuttered, which is
its exit (R258, R282). -/
def State.bootComplete (s : State) : State :=
  if s.sys.sweep = false ∨ s.sys.halted ∨ s.sys.bootDone ∨ s.sys.resetN = false ∨ s.openIntent.isSome then s
  else
    let s1 := s.bootSettings
    let s2 := (s1.each s1.factoryDamaged fun s p => s.raise 77 .granted (wordOf p)).ev8
    let s3 := (s2.updSys fun k => { k with bootDone := true }).releaseHeld
    let s4 := if s3.pwr.left = 4 then (s3.ev81.raiseAfter 84 (wordOf s3.shutTime)).updPwr fun p => { p with left := 0 }
      else s3
    s4.awakeSend

/-! ## Swing (R148, R219) -/

/-- Whether the words of a leaf cannot be read yet: a pulse runs, a self-test holds the flash, or an erase or a program
of the leaf is accepted or asked for (R184). -/
def State.leafBusy (s : State) (leaf : Bool) : Bool :=
  s.flashBusy || s.testing 2 || (s.flash.running ++ s.flash.queue ++ s.flash.wait).any fun o =>
    (o.sect.toList ++ o.job.kept).any fun n => n / 256 == bitNat leaf

/-- The verification of a swing, in place, and the selector word that then joins the flash queue. -/
def State.swingVerify (s : State) : State :=
  let to_ := !s.sys.selLeaf
  if s.sys.swingDue = false ∨ s.leafBusy to_ then s
  else
    let v := s.leafVerify to_
    let s1 := v.1.updSys fun k => { k with swingDue := false, swingBad := v.2.isNone }
    if v.2.isNone then s1
    else
      let q := s1.selector
      let p := q.1.selectorPlace q.2.2.2
      let er := match p.2 with
        | some o => [FlashOp.erase o 5 .swing]
        | none => []
      q.1.enqueueNew (er ++ [.prog p.1 (selWord to_ (q.2.1 + 1)) .swing, .done 0 0 .swing])

/-- SYS_LEAF.SWING: the leaf that the selector does not name is verified, at once or when its words can be read. -/
def State.swingStart (s : State) : State :=
  if s.sys.leafSt = 1 then s
  else (s.updSys fun k => { k with leafSt := 1, swingDue := true, swingBad := false }).swingVerify

/-- EV9 (Table 9.7). -/
def State.ev9 (s : State) (result : Nat) : State :=
  s.raise 9 .granted (wordOf (result + 256 * bitNat s.sys.selLeaf))

/-- The swing ends: the selector word is programmed, or nothing is. -/
def State.swingFinish (s : State) : State :=
  if s.sys.leafSt ≠ 1 then s
  else if s.sys.swingBad then (s.updSys fun k => { k with leafSt := 3, swingBad := false }).ev9 2
  else
    match s.ready.find? fun o => match o with
      | .done _ _ .swing => true
      | _ => false with
    | some o =>
      ({ s with
        flash := { s.flash with queue := dropOp o s.flash.queue },
        sys := { s.sys with leafSt := 2, selLeaf := !s.sys.selLeaf, selGen := s.sys.selGen + 1 } }).ev9 1
    | none => s

/-- SYS_LEAF.CONFIRM (R148, R217). -/
def State.bootConfirm (s : State) : State :=
  if s.sys.leafSt = 1 then s else s.updSys fun k => { k with bootCnt := 0 }

/-! ## Services in core SRAM (R171) -/

/-- The commands that run in a service end with UNCORRECTABLE. -/
def State.failService (s : State) (svc : Byte) : State :=
  (s.runs.filter fun r => r.st == .working && Config.serviceRuns svc (slotOp r.slot)).foldl
    (fun s r => s.failJob (.cmd r.id) 4) s

/-- Firmware restarts the service that uses an uncorrectable core-SRAM word; a second one of a service within 200 ticks
resets the part. -/
def State.serviceRestart (s : State) (a : Nat) : State :=
  let k := a / 8 * 8
  if sramRegion k ≠ some 0 ∨ s.eccOf k ≠ .poisoned then s
  else
    let svc := Config.serviceOf k
    if (s.prot.restarts.any fun q => q.1 == svc.toNat) then s.resetPulse 3
    else
      ((s.failService svc).updProt fun p => { p with
        restarts := SMap.set (fun _ => 0) p.restarts svc.toNat 1 }).raise 68 .granted (wordOf svc.toNat)

end Sys2Proof.Machine
end

