-- ==== Sys2Proof/Machine/Operands.lean ====
section
/-! DEFINITION. The page registers and the keeper system registers (spec/06, with Tables 2.7, 3.9 to 3.12, 4.8 to 4.11
and 5.9 to 5.13): what a read returns, what it does, and what a write does with its clamps. -/

namespace Sys2Proof.Machine

/-- A WO field takes the bytes that are not enabled as 0 (R87). -/
def woBytes (v : Word) (be : BitVec 4) : Word := mergeBytes 0 v be

/-- Fields of a tenant and clamps written: the field's value, and 1 when it was clamped. -/
def clampFld (v : Word) (lo w mn mx : Nat) : Nat × Nat :=
  let x := v.fld lo w
  let c := clampNat mn mx x
  (c, if c = x then 0 else 1)

/-! ## Reads of a page (Tables 6.3 to 6.5) -/

/-- PG_STATUS as read through port A (0), port B (1) or a command (0). -/
def State.pageStatus (s : State) (t port : Nat) : Word :=
  wordOf (bitNat s.sys.bootDone + 2 * (s.door t).code + 8 * bitNat s.tick.numValid +
    16 * bitNat (s.tick.st == .holdover) + 32 * bitNat (s.ten t).key.isSome + 64 * port +
    256 * bitNat (s.pwr.st == .ajar))

/-- Words staged in a window. -/
def Tenant.stagedIn (T : Tenant) (w : Nat) : Nat := (T.staged.filter fun q => q.1 / 2048 == w).length

/-- Wn_CTRL.TYPE and the stored Wn_BASE. -/
def Tenant.wType (T : Tenant) (w : Nat) : Nat := SMap.get (fun _ => 0) T.winType w
def Tenant.wBase (T : Tenant) (w : Nat) : Nat := SMap.get (fun _ => 0) T.winBase w

/-- GRANT_VIEW1 (R142). -/
def State.grantView (s : State) (t : Nat) : Word :=
  let g := (s.ten t).gv
  let cls := g.fld 12 4
  let i := g.fld 0 9
  let own := s.grantOwned t cls i
  let e := s.grant cls i
  wordOf (bitNat own + 2 * bitNat (cls == 7 && evRouted i) +
    if own && 8 ≤ cls then 256 * e.base + 2 ^ 20 * e.count else 0)

/-- What a read of a page register returns. -/
def State.pageGet (s : State) (t port off : Nat) : Word :=
  let T := s.ten t
  match off with
  | 0x00 => wordOf (0x09610000 + s.part.step)
  | 0x04 => s.pageStatus t port
  | 0x08 => T.ctrl
  | 0x10 => wordOf T.clamps
  | 0x14 => T.berr
  | 0x18 => T.berrAddr
  | 0x1C => wordOf s.now
  | 0x20 => wordOf T.tickHi
  | 0x24 => wordOf (T.quota + 256 * (T.spent % 128) + 2 ^ 15 * bitNat T.deferred)
  | 0x28 => wordOf T.cqHead.toNat
  | 0x2C => wordOf T.cqTail.toNat
  | 0x30 => wordOf T.rqHead.toNat
  | 0x34 => wordOf T.rqTail.toNat
  | 0x38 => wordOf T.eqHead.toNat
  | 0x3C => wordOf T.eqTail.toNat
  | 0x40 => wordOf T.eqPending
  | 0x44 => wordOf (bitNat T.pause + 65536 * s.rqFree t)
  | 0x48 => wordOf (s.irqStatus t)
  | 0x4C => T.irqEn.setWidth 32
  | 0x50 => wordOf (s.irqPend t)
  | 0x98 => T.winCheck
  | 0x9C => wordOf (T.winState + 4 * bitNat T.winRej + 8 * bitNat T.winFull + 256 * T.winResult)
  | 0xA0 => wordOf (bitNat T.wakeHold + 65536 * T.wakeTicks)
  | 0xA4 => T.gv
  | 0xA8 => s.grantView t
  | 0xAC => T.timeSec
  | 0xB0 => wordOf s.sys.rtcSub
  | 0xB4 => T.scratch
  | 0xB8 => T.heartbeat
  | 0xBC => wordOf ((if s.sys.bootDone then s.sys.fwVer.fld 0 16 else 0) + 0x10000 + 2 ^ 24 * t)
  | _ =>
    if 0x54 ≤ off ∧ off < 0x74 then (T.evMask >>> (32 * ((off - 0x54) / 4))).setWidth 32
    else if 0x74 ≤ off ∧ off < 0x94 then
      let w := (off - 0x74) / 8
      wordOf (if (off - 0x74) % 8 = 0 then T.wBase w else T.wType w + 65536 * T.stagedIn w)
    else 0

/-- INDEX of GRANT_VIEW0 after a read of GRANT_VIEW1. -/
def gvNext (g : Word) : Word :=
  if g.bit 16 then wordOf (g.toNat - g.fld 0 9 + nextIndex (g.fld 12 4) (g.fld 0 9)) else g

/-- What a read of a page register does. -/
def State.pageSide (s : State) (t off : Nat) : State :=
  match off with
  | 0x10 => s.updTen t fun T => { T with clamps := 0 }
  | 0x14 => s.updTen t fun T => { T with berr := 0 }
  | 0x1C => s.updTen t fun T => { T with tickHi := s.now / 2 ^ 32 }
  | 0xA8 => s.updTen t fun T => { T with gv := gvNext T.gv }
  | 0xB0 => s.updTen t fun T => { T with timeSec := wordOf s.sys.rtcSec }
  | _ => s

/-! ## Writes of a page -/

/-- A doorbell (R109). Doorbells are ignored at a door that is not open (Table 3.4). -/
def State.doorbell (s : State) (t : Nat) (v : BitVec 6) : State × Nat :=
  let T := s.ten t
  if s.door t ≠ .opened ∨ v = T.cqTail then (s, 0)
  else if (v - T.cqTail).toNat ≤ 32 - T.cqCount then (s.updTen t fun T => { T with cqTail := v }, 0)
  else (s, 1)

/-- A write of RQ_HEAD (R110). -/
def State.rqHeadWrite (s : State) (t : Nat) (v : BitVec 6) : State × Nat :=
  if (v - (s.ten t).rqHead).toNat ≤ (s.ten t).rqCount then (s.updTen t fun T => { T with rqHead := v }, 0) else (s, 1)

/-- A write of EQ_HEAD (R110). -/
def State.eqHeadWrite (s : State) (t : Nat) (v : BitVec 7) : State × Nat :=
  if (v - (s.ten t).eqHead).toNat ≤ (s.ten t).eqCount then (s.updTen t fun T => { T with eqHead := v }, 0) else (s, 1)

/-- The largest Wn_BASE of a TYPE (Table 5.7); with OFF any value is stored. -/
def baseMax (type : Nat) : Nat :=
  match type with
  | 1 => 184
  | 2 => 188
  | 3 => 111
  | _ => 1023

/-- The staged words of a window discarded. -/
def Tenant.unstage (T : Tenant) (w : Nat) : Tenant := { T with staged := SMap.clear T.staged (2048 * w) (2048 * w + 2048) }

/-- A write of Wn_BASE (R123). -/
def State.winBaseWrite (s : State) (t w v : Nat) : State × Nat :=
  let b := min (baseMax ((s.ten t).wType w)) (v % 1024)
  (s.updTen t fun T => { T.unstage w with winBase := SMap.set (fun _ => 0) T.winBase w b }, if b = v % 1024 then 0 else 1)

/-- A write of Wn_CTRL (R123, Table 5.9). -/
def State.winCtrlWrite (s : State) (t w v : Nat) : State × Nat :=
  let x := v % 8
  let ty := if 5 ≤ x ∨ (x = 4 ∧ t ≠ 0) then 0 else x
  (s.updTen t fun T => { T.unstage w with winType := SMap.set (fun _ => 0) T.winType w ty }, if ty = x then 0 else 1)

/-- A write of WIN_COMMIT (R129, Table 5.11): the CRC is taken from WIN_CHECK now. -/
def State.winCommitWrite (s : State) (t : Nat) (v : Word) : State × Nat :=
  if (s.ten t).winState = 1 then (s.updTen t fun T => { T with winRej := true }, 0)
  else
    let o := v.fld 0 11
    let n := min (v.fld 11 11) (2047 - o)
    (s.updTen t fun T => { T with
      winState := 1, winReq := some ⟨v.fld 22 2, 4 * o, 4 * (n + 1), T.winCheck⟩ }, if n = v.fld 11 11 then 0 else 1)

/-- A write of GRANT_VIEW0 (Table 6.5). -/
def gvWrite (v : Word) : Word × Nat :=
  let c := clampFld v 12 4 0 9
  let i := clampFld v 0 9 0 (classSize c.1 - 1)
  (wordOf (i.1 + 4096 * c.1 + 65536 * v.fld 16 1), c.2 + i.2)

/-- A write of a page register under byte enables: the state, and the clamps to count. -/
def State.pagePut (s : State) (t off : Nat) (v : Word) (be : BitVec 4) : State × Nat :=
  let m := mergeBytes (s.pageGet t 0 off) v be
  let w := woBytes v be
  match off with
  | 0x08 =>
    let r := writeFields [uf 0 6 1 32, uf 8 7 1 64] m
    (s.updTen t fun T => { T with ctrl := wordOf r.1 }, r.2)
  | 0x2C => s.doorbell t (BitVec.ofNat 6 m.toNat)
  | 0x30 => s.rqHeadWrite t (BitVec.ofNat 6 m.toNat)
  | 0x38 => s.eqHeadWrite t (BitVec.ofNat 7 m.toNat)
  | 0x44 => (s.updTen t fun T => { T with pause := m.bit 0 }, 0)
  | 0x48 => (s.updTen t fun T => { T with irqClamp := T.irqClamp && !w.bit 3, irqWin := T.irqWin && !w.bit 4 }, 0)
  | 0x4C => (s.updTen t fun T => { T with irqEn := BitVec.ofNat 7 m.toNat }, 0)
  | 0x94 => s.winCommitWrite t w
  | 0x98 => (s.updTen t fun T => { T with winCheck := m }, 0)
  | 0x9C => (s.updTen t fun T => { T with winRej := T.winRej && !w.bit 2, winFull := T.winFull && !w.bit 3 }, 0)
  | 0xA0 => (s.updTen t fun T => { T with wakeHold := m.bit 0, wakeTicks := m.fld 16 16, wakeLapse := false }, 0)
  | 0xA4 => (s.updTen t fun T => { T with gv := (gvWrite m).1 }, (gvWrite m).2)
  | 0xB4 => (s.updTen t fun T => { T with scratch := m }, 0)
  | 0xB8 => (s.heartbeat t m, 0)
  | _ =>
    if 0x54 ≤ off ∧ off < 0x74 then
      let lo := 32 * ((off - 0x54) / 4)
      (s.updTen t fun T => { T with
        evMask := (T.evMask &&& ~~~((BitVec.allOnes 32).setWidth 256 <<< lo)) ||| (m.setWidth 256 <<< lo) }, 0)
    else if 0x74 ≤ off ∧ off < 0x94 then
      let n := (off - 0x74) / 8
      if (off - 0x74) % 8 = 0 then s.winBaseWrite t n m.toNat else s.winCtrlWrite t n m.toNat
    else (s, 0)

/-! ## Reads of the keeper system registers (Tables 6.6 to 6.9) -/

/-- SYS_PWR_STATE.PHASE. -/
def Phase.code : Phase → Nat
  | .idle => 0
  | .query => 1
  | .delayed => 2
  | .committed => 3
  | .restoring => 4

/-- A word with bit `t` from a condition on tenant `t`. -/
def tenBits (f : Nat → Bool) : Word := wordOf (((List.range 32).map fun t => if f t then 2 ^ t else 0).sum)

/-- SYS_HPx_CFG (Table 4.8). -/
def HPort.cfg (p : HPort) : Word :=
  wordOf (bitNat p.postEn + 2 * bitNat p.sync + 4 * bitNat p.clkOk + 256 * p.guard + 65536 * p.post.length)

/-- SYS_DOOR_CTRL (Table 3.12). -/
def State.doorCtrl (s : State) : Word :=
  wordOf (s.sys.doorSel + 256 * (s.door s.sys.doorSel).code + 4096 * (s.ten s.sys.doorSel).cause)

/-- What a read of a keeper system register returns. -/
def State.sysGet (s : State) (off : Nat) : Word :=
  let k := s.sys
  let p := s.pwr
  match off with
  | 0x400 => wordOf (p.reqState + 8 * bitNat p.force)
  | 0x404 =>
    wordOf (p.st.code + 16 * p.phase.code + 128 * bitNat p.rej + 256 * p.result + 65536 * p.refuser)
  | 0x408 => wordOf (p.wakeSrc.toNat + 256 * bitNat p.replayed)
  | 0x40C => p.wakeLatch.setWidth 32
  | 0x410 => wordOf (p.wakeEn.toNat + 32)
  | 0x414 => wordOf s.votes
  | 0x418 => wordOf (p.domOn.toNat + 65536 * p.domReady.toNat)
  | 0x41C => wordOf (256 * bitNat p.autoHA + 512 * bitNat p.autoHB)
  | 0x420 => wordOf (p.closed.toNat + 256 * bitNat p.shutRej)
  | 0x424 => s.doorCtrl
  | 0x428 => tenBits fun t => s.door t == .opened
  | 0x42C => tenBits fun t => s.door t == .fire
  | 0x430 =>
    wordOf (s.grants.idx + 4096 * s.grants.cls + 65536 * bitNat s.grants.ainc + 131072 * bitNat s.grants.err)
  | 0x434 => s.grantData
  | 0x438 => s.portA.pages
  | 0x43C => s.portB.pages
  | 0x440 => s.portA.cfg
  | 0x444 => s.portB.cfg
  | 0x448 => wordOf (k.linkAddr + 65536 * k.group.toNat)
  | 0x44C => Config.uid.setWidth 32
  | 0x450 => (Config.uid >>> 32).setWidth 32
  | 0x454 => k.resetCause.setWidth 32
  | 0x45C => k.straps.setWidth 32
  | 0x460 =>
    wordOf (bitNat k.bootDone + 2 * bitNat k.leaf + 4 * bitNat k.fallback + 8 * bitNat k.sweep +
      65536 * (k.selGen % 65536))
  | 0x464 => wordOf (16 * k.leafSt + 256 * bitNat k.selLeaf)
  | 0x468 => k.fwVer
  | 0x46C => s.tick.ctrl
  | 0x470 => wordOf (bitNat k.scrubSram + 2 * bitNat k.scrubFlash + 65536 * k.passes)
  | 0x474 =>
    wordOf (bitNat Config.gradeFuse + 2 * bitNat s.part.dbgFuse + 4 * bitNat s.part.keyHash +
      256 * s.prot.repairs)
  | 0x478 => wordOf (bitNat k.locked + 8 * bitNat k.dbgFail)
  | 0x47C => s.chalRead.2
  | 0x480 => tenBits fun t => s.irqPend t != 0
  | 0x484 => wordOf k.tenSel
  | 0x488 => wordOf (s.ten k.tenSel).clamps
  | 0x48C => wordOf ((s.ten k.tenSel).berr.fld 0 7)
  | 0x490 => k.rtcLatch
  | 0x494 => wordOf k.rtcSub
  | 0x498 => k.rtcAlarm
  | 0x49C => k.rtcTrim.setWidth 32
  | 0x4A0 => wordOf (k.aoIdx + 256 * bitNat k.aoInc)
  | 0x4A4 => SMap.get (fun _ => 0) k.ao k.aoIdx
  | 0x4A8 => wordOf (16 * k.kstSt + 256 * k.kstResult)
  | 0x4AC => wordOf k.kstGen
  | 0x4B0 => (k.clkOk &&& Config.clocks s.free).setWidth 32
  | 0x4B4 => wordOf k.bootCnt
  | 0x4B8 => 0x08100C20#32
  | _ => 0

/-- WORD of SYS_AO_IDX after an access of SYS_AO_DATA. -/
def Sys.aoNext (k : Sys) : Sys := if k.aoInc then { k with aoIdx := (k.aoIdx + 1) % 64 } else k

/-- What a read of a keeper system register does. -/
def State.sysSide (s : State) (off : Nat) : State :=
  match off with
  | 0x470 => s.updSys fun k => { k with passes := 0 }
  | 0x47C => s.chalRead.1
  | 0x494 => s.updSys fun k => { k with rtcLatch := wordOf k.rtcSec }
  | 0x4B0 => s.drawn
  | 0x4A4 => s.updSys Sys.aoNext
  | _ => s

/-! ## Writes of the keeper system registers -/

/-- A write of SYS_RESET_CTRL through a host port: the reset begins after its acknowledgement (R145). -/
def State.portReset (s : State) (v : Word) : State × Nat :=
  if v.bit 31 = false then (s, 0)
  else if v.fld 0 16 = 0xD961 then (s.updSys fun k => { k with resetPend := true }, 0)
  else (s, 1)

/-- A write of SYS_PWR_REQ (R147): a STATE of 4 to 7 is clamped to 3 in a request that starts. -/
def State.pwrReqWrite (s : State) (v : Word) : State × Nat :=
  (s.pwrRequest (min 3 (v.fld 0 3)) (v.bit 3), if s.pwr.phase = .idle ∧ 4 ≤ v.fld 0 3 then 1 else 0)

/-- The banks named by RELEASE of SYS_SHUTTER_REL released where they may be (R146); EV83 names the refused ones
(Table 11.7). -/
def State.shutterRelease (s : State) (m : BitVec 6) : State :=
  let ok := BitVec.ofNat 6 (((List.range 6).map fun b => if m.getLsbD b && s.bankReady b then 2 ^ b else 0).sum)
  let s1 := (s.openBanks ok).updPwr fun p => { p with shutRej := p.shutRej || decide (ok ≠ m) }
  if ok = m then s1 else s1.raise 83 .granted ((m &&& ~~~ok).setWidth 32)

/-- SYS_DOOR_CTRL: the tenant and its action (R68). -/
def State.doorAct (s : State) (t act : Nat) : State :=
  let s1 := s.updSys fun k => { k with doorSel := t }
  match act with
  | 1 => s1.askOpen t false
  | 2 => s1.shutDoor t
  | 3 => s1.askOpen t true
  | _ => s1

/-- A write of SYS_GRANT_IDX (Table 3.9). -/
def State.grantIdx (s : State) (m w : Word) : State × Nat :=
  let c := clampFld m 12 4 0 9
  let i := clampFld m 0 9 0 (classSize c.1 - 1)
  ({ s with grants := { s.grants with
      idx := i.1, cls := c.1, ainc := m.bit 16, err := s.grants.err && !w.bit 17 } }, c.2 + i.2)

/-- A write of a page mask, through a port or by a command (R85). A port keeps bit 0 of its own mask. -/
def State.pageMask (s : State) (via : Option Nat) (which : Nat) (v : Word) : State × Nat :=
  let own := decide (via = some which)
  (s.updPort which fun p => { p with pages := if own then v ||| 1 else v }, if own && !v.bit 0 then 1 else 0)

/-- A write of SYS_HPx_CFG (Table 4.8). -/
def State.hpCfg (s : State) (p : Nat) (m : Word) : State × Nat :=
  let g := clampFld m 8 8 1 255
  (s.updPort p fun h => { h with postEn := m.bit 0, guard := g.1 }, g.2)

/-- A write of TICK_CTRL. TICK_OUT is low while TOUT_EN is 0 (R49). -/
def State.tickCtrl (s : State) (m : Word) : State :=
  s.updTick fun k => { k with ctrl := m &&& 0x0000FF0F#32, tickOut := if m.bit 2 then k.tickOut else 0 }

/-- A write of SYS_DBG_LOCK (Table 6.8). -/
def State.dbgLock (s : State) (w : Word) : State :=
  let s1 := if w.bit 3 then s.updSys fun k => { k with dbgFail := false } else s
  let s2 := if w.bit 1 then s1.unlockAsk else s1
  if w.bit 2 then s2.relock else s2

/-- A write of SYS_RTC_SEC stages the seconds (R150). -/
def State.rtcSecWrite (s : State) (v : Word) : State := s.updSys fun k => { k with rtcStage := v }

/-- A write of SYS_RTC_SUB: the next edge of CK_RTC loads the staged seconds and the written sub-count (R150). -/
def State.rtcSubWrite (s : State) (v : Word) : State :=
  s.updSys fun k => { k with rtcLoad := some (k.rtcStage.toNat, v.fld 0 15) }

/-- A write of SYS_RTC_ALARM: the time already equal to it has not become so (R397). -/
def State.rtcAlarmWrite (s : State) (v : Word) : State :=
  s.updSys fun k => { k with rtcAlarm := v, alarmDone := decide (v.toNat = k.rtcSec) }

/-- A write of SYS_RTC_TRIM (R447, Table 6.9). -/
def State.rtcTrimWrite (s : State) (v : Word) : State × Nat :=
  let x := BitVec.ofNat 8 v.toNat
  (s.updSys fun k => { k with rtcTrim := if x = 0x80 then 0x81 else x, rtcAcc := 0 }, if x = 0x80 then 1 else 0)

/-- A write of SYS_AO_DATA. -/
def State.aoWrite (s : State) (v : Word) : State :=
  s.updSys fun k => Sys.aoNext { k with ao := SMap.set (fun _ => 0) k.ao k.aoIdx v }

/-- Who a test occurrence goes to (R151). -/
def testDest (e : Nat) : Dest :=
  if evNever e then .tenant 0
  else if evRouted e then (if 32 ≤ e ∧ e < 64 then .tenant (e - 32) else .tenant 0)
  else .granted

/-- A write of SYS_EV_TEST (R151). -/
def State.evTest (s : State) (v : Word) : State :=
  if v.bit 31 then s.raise (v.fld 0 8) (testDest (v.fld 0 8)) 0xFFFFFFFF#32 else s

/-- A write of SYS_LEAF: CONFIRM, then SWING (R148). -/
def State.leafWrite (s : State) (w : Word) : State :=
  let s1 := if w.bit 1 then s.bootConfirm else s
  if w.bit 0 then s1.swingStart else s1

/-- A write of a keeper system register under byte enables, through a port or by a command: the state, and the clamps
to count. DESIGN CHOICE: a write of SYS_PWR_REQ that does not enable byte 0, which holds STATE and FORCE, starts no
request and sets no REJ (log 135). -/
def State.sysPut (s : State) (via : Option Nat) (off : Nat) (v : Word) (be : BitVec 4) : State × Nat :=
  let m := mergeBytes (s.sysGet off) v be
  let w := woBytes v be
  match off with
  | 0x400 => if be.getLsbD 0 then s.pwrReqWrite v else (s, 0)
  | 0x404 => (s.updPwr fun p => { p with rej := p.rej && !w.bit 7 }, 0)
  | 0x408 =>
    (s.updPwr fun p => { p with
      wakeSrc := p.wakeSrc &&& ~~~BitVec.ofNat 6 (w.fld 0 6), replayed := p.replayed && !w.bit 8 }, 0)
  | 0x410 => ((s.updPwr fun p => { p with wakeEn := BitVec.ofNat 5 m.toNat }).wakeNHeld, 0)
  | 0x41C =>
    ((s.updPwr fun p => { p with autoHA := m.bit 8, autoHB := m.bit 9 }).shutterRelease (BitVec.ofNat 6 (w.fld 0 6)), 0)
  | 0x420 => (s.updPwr fun p => { p with shutRej := p.shutRej && !w.bit 8 }, 0)
  | 0x424 => (if be.getLsbD 0 then s.doorAct (v.fld 0 5) (v.fld 5 2) else s, 0)
  | 0x430 => s.grantIdx m w
  | 0x434 =>
    let r := s.grantStage m
    (r.1, r.2.1)
  | 0x438 => s.pageMask via 0 m
  | 0x43C => s.pageMask via 1 m
  | 0x440 => s.hpCfg 0 m
  | 0x444 => s.hpCfg 1 m
  | 0x448 => (s.updSys fun k => { k with group := BitVec.ofNat 15 (m.fld 16 15) }, 0)
  | 0x454 => (s.updSys fun k => { k with resetCause := k.resetCause &&& ~~~BitVec.ofNat 5 (w.fld 0 5) }, 0)
  | 0x458 => if via.isSome then s.portReset w else s.softReset w
  | 0x464 => (s.leafWrite w, 0)
  | 0x46C => (s.tickCtrl m, 0)
  | 0x470 => (s.updSys fun k => { k with scrubSram := m.bit 0, scrubFlash := m.bit 1 }, 0)
  | 0x478 => (s.dbgLock w, 0)
  | 0x47C => (s.chalWrite w, 0)
  | 0x484 => (s.updSys fun k => { k with tenSel := m.fld 0 5 }, 0)
  | 0x490 => (s.rtcSecWrite (mergeBytes s.sys.rtcStage v be), 0)
  | 0x494 => (s.rtcSubWrite m, 0)
  | 0x498 => (s.rtcAlarmWrite m, 0)
  | 0x49C => s.rtcTrimWrite m
  | 0x4A0 => (s.updSys fun k => { k with aoIdx := m.fld 0 6, aoInc := m.bit 8 }, 0)
  | 0x4A4 => (s.aoWrite m, 0)
  | 0x4A8 => (if w.bit 0 then s.kstoreSave else s, 0)
  | 0x4BC => (s.evTest w, 0)
  | _ => (s, 0)

/-! ## Both by page offset -/

/-- A page offset holds a tenant page register. -/
def isPageReg (off : Nat) : Bool := off < 0xC0
/-- A page offset holds a keeper system register. -/
def isSysReg (off : Nat) : Bool := 0x400 ≤ off && off < 0x4C0

/-- What a read of a register of a page returns. -/
def State.regGet (s : State) (t port off : Nat) : Word := if isPageReg off then s.pageGet t port off else s.sysGet off

/-- What a read of a register of a page does. -/
def State.regSide (s : State) (t off : Nat) : State := if isPageReg off then s.pageSide t off else s.sysSide off

/-- A write of a register of a page. -/
def State.regPut (s : State) (via : Option Nat) (t off : Nat) (v : Word) (be : BitVec 4) : State × Nat :=
  if isPageReg off then s.pagePut t off v be else s.sysPut via off v be

end Sys2Proof.Machine
end

