-- ==== Sys2Proof/Machine/ConfigSpace.lean ====
section
/-! DEFINITION. Config space (Table 1.9): who reaches a register (R29 and the reach rules of the blocks' chapters), what
a read returns and does, and what a write does with its clamps. Addresses are internal, from 0x3000_0000. -/

namespace Sys2Proof.Machine

/-! ## Reach -/

/-- The block of a config address, and its offset within it. -/
def cfgBlock (a : Nat) : Nat := (a - 0x30000000) / 0x10000
def cfgOff (a : Nat) : Nat := a % 0x10000

/-- An address that no block takes (R12, R134). -/
def cfgUnmapped (a : Nat) : Bool :=
  a < 0x30000000 || 0x300E0000 ≤ a || (cfgBlock a == 0 && !isSysReg (cfgOff a))

/-- A tenant owns all 16 cells of a port, or any of them. -/
def State.ownsPort (s : State) (t p : Nat) : Bool := (List.range 16).all fun c => s.owner 0 (16 * p + c) == t
def State.ownsInPort (s : State) (t p : Nat) : Bool := (List.range 16).any fun c => s.owner 0 (16 * p + c) == t

/-- What a tenant other than the keeper reaches in the DISP block (R317). -/
def State.reachDisp (s : State) (t o : Nat) (write : Bool) : Bool :=
  let p := o / 0x1000
  let r := o % 0x1000
  if 12 ≤ p then false
  else if r < 0x0C then s.ownsPort t p
  else if r < 0x14 then !write && s.ownsInPort t p
  else if 0x40 ≤ r ∧ r < 0x80 then s.owner 0 (16 * p + (r - 0x40) / 4) == t
  else if 0x80 ≤ r ∧ r < 0x100 then s.owner 0 (16 * p + (r - 0x80) / 8) == t
  else false

/-- What a tenant other than the keeper reaches in config space (R29, R317, R339, R354, R376, R394). -/
def State.reachCfg (s : State) (t a : Nat) (write : Bool) : Bool :=
  let o := cfgOff a
  match cfgBlock a with
  | 7 => s.reachDisp t o write
  | 8 =>
    if o < 0x1000 then s.owner 1 (o / 0x100) == t
    else 0x2000 ≤ o && o < 0x2400 && s.owner 2 ((o - 0x2000) / 0x100) == t
  | 9 =>
    if (0x100 ≤ o ∧ o < 0x128) ∨ (0x140 ≤ o ∧ o < 0x168) then !write
    else 0x400 ≤ o && o < 0x900 && s.owner 3 ((o - 0x400) / 4) == t
  | 10 =>
    if 0x140 ≤ o ∧ o < 0x180 then !write && s.owner 4 (s.fld (0x300A0100 + (o - 0x140)) 0 5) == t
    else 0x1000 ≤ o && o < 0x1400 && s.owner 4 ((o - 0x1000) / 0x20) == t
  | 11 =>
    if 0x100 ≤ o ∧ o < 0x180 then !write && o % 0x10 == 0xC
    else 0x1000 ≤ o && o < 0x1100 && s.owner 5 ((o - 0x1000) / 0x20) == t && !(write && o % 0x20 == 4)
  | _ => false

/-- A door failure in config space (R29). -/
def State.cfgDoor (s : State) (t a : Nat) (write : Bool) : Bool := t != 0 && !s.reachCfg t a write

/-- The block of an address has its power domain off (R30). -/
def State.cfgOffPower (s : State) (a : Nat) : Bool := !s.blockOn (cfgBlock a)

/-- What stops a host-port access, in the order of R27. -/
def State.cfgHostErr (s : State) (t a : Nat) (write : Bool) : Option Err :=
  if cfgUnmapped a ∨ s.cfgOffPower a then some .unmapped else if s.cfgDoor t a write then some .door else none

/-- What stops a command's access: its grants, then the power of the block (R128 orders a commit so). -/
def State.cfgCmdErr (s : State) (t a : Nat) (write : Bool) : Option Err :=
  if cfgUnmapped a then some .unmapped else if s.cfgDoor t a write then some .door
  else if s.cfgOffPower a then some .off else none

/-! ## Reads -/

/-- TICK_STATUS.STATE. -/
def TickSt.code : TickSt → Nat
  | .localTick => 0
  | .lockedLink => 1
  | .lockedDsync => 2
  | .holdover => 3
  | .slewing => 4

/-- TICK registers (Tables 2.7 and 2.8). -/
def State.getTick (s : State) (o : Nat) : Word :=
  let k := s.tick
  match o with
  | 0x00 => k.ctrl
  | 0x04 => wordOf k.period
  | 0x08 => wordOf (k.st.code + 8 * bitNat k.numValid + 16 * bitNat k.loadRej + 65536 * k.holdTicks)
  | 0x0C => wordOf s.now
  | 0x10 => wordOf k.hiLatch
  | 0x1C => wordOf (twosOf 16 (clampInt (-32767) 32767 k.phase))
  | 0x20 => wordOf k.dly
  | 0x24 => wordOf k.overrun
  | 0x28 => wordOf k.qIdx
  | 0x2C => wordOf (s.ten k.qIdx).quotaSet
  | 0x30 => wordOf k.defer
  | _ => 0

/-- LINK registers (Table 10.12). -/
def State.getLink (s : State) (o : Nat) : Word :=
  let k := s.link
  match o with
  | 0x00 => wordOf (bitNat k.up.en + 2 * bitNat k.dn.en)
  | 0x04 => wordOf (k.up.st.code + 4 * k.dn.st.code + 16 * bitNat k.bound)
  | 0x08 => wordOf (k.last + 65536 * k.segid)
  | 0x0C => wordOf (min 65535 k.up.delay + 65536 * min 65535 k.dn.delay)
  | 0x10 => wordOf (k.tickLead + 2 ^ 24 * k.tickLow)
  | 0x14 => wordOf (k.lowErr + 65536 * k.late)
  | 0x18 => wordOf (s.fld 0x30020018 0 16 + 65536 * k.pholdCnt)
  | 0x1C => wordOf (k.retries + 65536 * k.drops)
  | 0x20 => wordOf (k.fcs + 65536 * k.code)
  | 0x24 => wordOf k.proto
  | 0x28 => wordOf (64 - k.loc.length + 65536 * k.grpMiss)
  | _ => 0

/-- Spares in a state. -/
def State.sparesThat (s : State) (f : Remap → Bool) : Nat := ((List.range 64).filter fun i => f (s.remapOf i)).length

/-- FLASH_POOL. -/
def State.flashPool (s : State) : Word :=
  let m (r : Remap) : Bool := match r with
    | .mapped _ _ => true
    | _ => false
  wordOf (s.freeSpares.length + 256 * s.sparesThat m + 65536 * s.sparesThat (fun r => r == .retired))

/-- FLASH_MAP_DATA of an entry. -/
def Remap.word : Remap → Word
  | .free => 0
  | .mapped l g => wordOf (l + 4096 + 2 ^ 14 * bitNat g)
  | .retired => wordOf (2 * 4096)

/-- FLASH_SECT_INFO of a logical sector. -/
def State.sectInfo (s : State) (n : Nat) : Word :=
  wordOf (s.phys n + 4096 * bitNat (s.spareOf n).isSome + 8192 * bitNat (s.suspect (s.phys n)) +
    16384 * bitNat (s.erasing n))

/-- FLASH registers (Table 8.9). -/
def State.getFlash (s : State) (o : Nat) : Word :=
  let f := s.flash
  match o with
  | 0x00 => f.status
  | 0x08 => s.flashPool
  | 0x0C => wordOf (f.ringWord % 256 + 256 * f.ring + 4096 * s.halfNo + 65536 * f.seq)
  | 0x10 => wordOf (f.suspUs + 65536 * f.suspCnt)
  | 0x14 => wordOf (s.fld 0x30030014 0 12 + 65536 * f.marginRes + 2 ^ 20 * f.marginWords)
  | 0x1C => (s.remapOf (s.fld 0x30030018 0 6)).word
  | 0x24 => s.sectInfo (s.fld 0x30030020 0 12)
  | 0x28 => wordOf f.borCnt
  | 0x2C => wordOf (f.recSector + 4096 * f.recKind + 65536 * f.recPulses)
  | _ => s.reg (0x30030000 + o)

/-- PROT registers (Table 7.5). -/
def State.getProt (s : State) (o : Nat) : Word :=
  let p := s.prot
  match o with
  | 0x04 => wordOf p.ceSram
  | 0x08 => wordOf (p.ceOne + 65536 * p.ceTwo)
  | 0x0C => wordOf (p.ue + 65536 * p.region)
  | 0x10 => p.ueAddr
  | 0x14 => wordOf (p.exitFail + 65536 * p.flipFail)
  | 0x18 => wordOf (p.pos + 2 ^ 20 * p.lastS)
  | 0x1C => wordOf (p.fpos + 2 ^ 24 * p.lastH)
  | 0x28 => wordOf (p.fieldUsed + 256 * p.fieldPend)
  | _ => s.reg (0x30040000 + o)

/-- PWR registers (Table 11.8). -/
def State.getPwr (s : State) (o : Nat) : Word :=
  let p := s.pwr
  match o with
  | 0x04 => wordOf (p.entryUs + 65536 * p.exitUs)
  | 0x08 => p.ans
  | 0x10 => wordOf (p.lvCount + 65536 * p.lvEntry + 2 ^ 20 * p.lvOnUs)
  | 0x80 => p.shutSec
  | _ => if 0x60 ≤ o ∧ o < 0x80 then SMap.get (fun _ => 0) p.lvRes ((o - 0x60) / 4) else s.reg (0x30050000 + o)

/-- SEQ/BAT registers (Table 12.4). -/
def State.getSeq (s : State) (o : Nat) : Word :=
  let q := s.seq
  match o with
  | 0x004 =>
    wordOf (q.st + 16 * bitNat q.upDone + 256 * q.step + 65536 * bitNat q.rej + 2 ^ 17 * q.result)
  | 0x008 => q.en.setWidth 32
  | 0x00C => q.pg.setWidth 32
  | 0x010 => q.fault.setWidth 32
  | 0x014 => q.man.setWidth 32
  | 0x20C => wordOf q.batV
  | 0x210 => wordOf (twosOf 16 q.batI)
  | 0x214 => wordOf q.batT
  | 0x218 => wordOf (twosOf 32 s.batQ)
  | 0x22C =>
    wordOf (q.batOut.toNat + 256 * q.invalid.toNat + 4096 * q.stale.toNat + 65536 * bitNat q.gap)
  | 0x234 =>
    wordOf (q.coinMv + 65536 * bitNat q.coinBusy + 2 ^ 17 * bitNat q.coinSkip + 2 ^ 18 * bitNat q.coinLow)
  | _ => s.reg (0x30060000 + o)

/-- A word of the cells of a port that a tenant owns. -/
def State.portBits (s : State) (t p : Nat) (f : Cell → Bool) : Word :=
  wordOf (((List.range 16).map fun c =>
    if s.owner 0 (16 * p + c) = t ∧ f (s.cell (16 * p + c)) then 2 ^ c else 0).sum)

/-- DISP registers (Tables 13.6 and 13.7). -/
def State.getDisp (s : State) (t o : Nat) : Word :=
  let d := s.disp
  if 0xC000 ≤ o then
    match o - 0xC000 with
    | 0x04 => wordOf d.flipTick.toNat
    | 0x08 => wordOf (d.flipTick.toNat / 2 ^ 32)
    | 0x0C => wordOf (d.flipped + 256 * d.darkened)
    | r =>
      if 0x10 ≤ r ∧ r < 0x28 then
        wordOf (((List.range 32).map fun j => if (s.cell (8 * (r - 0x10) + j)).front then 2 ^ j else 0).sum)
      else s.reg (0x30070000 + o)
  else
    let p := o / 0x1000
    let q := s.dport p
    match o % 0x1000 with
    | 0x04 => wordOf (q.unit + 65536 * q.row)
    | 0x08 => wordOf (q.fault.toNat + 65536 * bitNat q.active)
    | 0x0C => s.portBits t p fun c => c.arm.isSome
    | 0x10 => s.portBits t p fun c => c.dark
    | r =>
      if 0x40 ≤ r ∧ r < 0x80 then
        let c := s.cell (16 * p + (r - 0x40) / 4)
        wordOf (bitNat c.arm.isSome + 2 * bitNat c.dark + 4 * c.why + 256 * bitNat c.front)
      else if 0x80 ≤ r ∧ r < 0x100 then
        let n := ((s.cell (16 * p + (r - 0x80) / 8)).arm.getD 0).toNat
        wordOf (if r % 8 = 0 then n else n / 2 ^ 32)
      else s.reg (0x30070000 + o)

/-- LCn registers (Table 14.8). -/
def State.getLamp (s : State) (n o : Nat) : Word :=
  let l := s.lamp n
  match o with
  | 0x10 => wordOf (l.own + 65536 * l.out)
  | 0x30 => wordOf (s.lampState n + 4 * l.mode + 16 * bitNat l.derating + 65536 * l.ieff)
  | 0x34 => wordOf (l.fault.toNat + 256 * l.pins.toNat)
  | 0x38 => wordOf (l.iCode + 65536 * l.vstr)
  | 0x3C => wordOf (l.c + 65536 * l.d)
  | 0x40 => wordOf l.pf
  | _ => s.reg (lampReg n o)

/-- PEk registers (Table 14.9). -/
def State.getEngine (s : State) (k o : Nat) : Word :=
  let e := s.engine k
  match o with
  | 0x00 => wordOf (256 * e.start + 65536 * e.st + 2 ^ 24 * e.pc)
  | 0x04 => wordOf ((s.lane k 0).level + 65536 * (s.lane k 1).level)
  | 0x08 => wordOf ((s.lane k 2).level + 65536 * (s.lane k 3).level)
  | 0x0C => wordOf e.lc
  | _ => s.reg (peReg k o)

/-- KEY registers (Table 15.3). -/
def State.getKey (s : State) (t o : Nat) : Word :=
  let k := s.keys
  match o with
  | 0x08 => wordOf (bitNat k.active + 65536 * k.ghosts)
  | 0x0C =>
    wordOf (k.testRes + 4 * bitNat k.testKp + 8 * bitNat k.testHeld + 65536 * k.testPins.toNat)
  | _ =>
    if 0x100 ≤ o ∧ o < 0x128 then s.keyBits t ((o - 0x100) / 4) false
    else if 0x140 ≤ o ∧ o < 0x168 then s.keyBits t ((o - 0x140) / 4) true
    else s.reg (0x30090000 + o)

/-- ADC registers (Tables 16.8 and 16.9). -/
def State.getAdc (s : State) (o : Nat) : Word :=
  let a := s.adc
  if 0x1000 ≤ o ∧ o < 0x1400 then
    let n := (o - 0x1000) / 0x20
    let c := s.chan n
    match o % 0x20 with
    | 0x10 => c.res
    | 0x14 => c.injRes
    | 0x18 => wordOf (bitNat (s.injPend n) + 2 * bitNat c.injRej + 4 * bitNat c.out + 8 * bitNat c.ovr)
    | r => s.reg (adcReg n r)
  else match o with
  | 0x04 => wordOf a.refSel
  | 0x08 => s.adcStatus
  | 0x10 => s.adcSlice
  | 0x18 => tenBits fun n => s.rbit (adcReg n 0) 0
  | 0x20 => wordOf (a.testRes + 256 * a.testSlices.toNat + 65536 * bitNat a.testMux)
  | _ => if 0x140 ≤ o ∧ o < 0x180 then SMap.get (fun _ => 0) a.resB ((o - 0x140) / 4) else s.reg (0x300A0000 + o)

/-- THERM/FAN registers (Tables 17.3 and 17.4). -/
def State.getTherm (s : State) (o : Nat) : Word :=
  let h := s.therm
  if 0x1000 ≤ o then
    let n := (o - 0x1000) / 0x20
    let f := s.fan n
    if o % 0x20 = 0x10 then wordOf (f.dutyEff + 1024 * bitNat f.stall + 65536 * f.rpm) else s.reg (0x300B0000 + o)
  else if 0x10 ≤ o ∧ o < 0x50 then
    let x := s.sensor ((o - 0x10) / 4)
    wordOf (twosOf 16 x.t + 65536 * bitNat (x.kind != 0) + 2 ^ 17 * x.kind)
  else if 0x100 ≤ o ∧ o < 0x180 ∧ o % 0x10 = 0xC then
    let z := s.zone ((o - 0x100) / 0x10)
    wordOf (twosOf 16 z.t + 65536 * z.floor)
  else match o with
  | 0x00 => wordOf (bitsOf ((List.range 16).filter fun i => (s.sensor i).kind != 0) + 65536 * bitNat h.crit)
  | 0x04 => wordOf (h.testRes + 65536 * h.testSens.toNat)
  | _ => s.reg (0x300B0000 + o)

/-- SEC registers of the tenant selected (Table 3.13). -/
def State.getSec (s : State) (o : Nat) : Word :=
  let T := s.ten s.secTen
  match o with
  | 0x00 => wordOf s.secTen
  | 0x04 => T.doorCfg
  | 0x08 => wordOf T.hbTicks
  | 0x0C => wordOf (bitNat T.authReq + 2 * bitNat T.key.isSome + 4 * bitNat T.keyNew.isSome)
  | 0x10 => wordOf (T.chkCnt + 256 * T.authCnt + 65536 * T.replay)
  | 0x14 => wordOf T.acntH
  | 0x18 => wordOf (T.acntH / 2 ^ 32)
  | 0x44 => wordOf T.hbLeft
  | _ => 0

/-- What a read of a config register by a tenant returns. -/
def State.cfgGet (s : State) (t a : Nat) : Word :=
  let o := cfgOff a
  match cfgBlock a with
  | 0 => s.sysGet o
  | 1 => s.getTick o
  | 2 => s.getLink o
  | 3 => s.getFlash o
  | 4 => s.getProt o
  | 5 => s.getPwr o
  | 6 => s.getSeq o
  | 7 => s.getDisp t o
  | 8 =>
    if o < 0x1000 then s.getLamp (o / 0x100) (o % 0x100)
    else if 0x2000 ≤ o ∧ o < 0x2400 then s.getEngine ((o - 0x2000) / 0x100) (o % 0x100) else 0
  | 9 => s.getKey t o
  | 10 => s.getAdc o
  | 11 => s.getTherm o
  | 12 => if o = 0 then wordOf (bitNat s.dbg.peepEn + 256 * s.dbg.peepGroup) else if o = 4 then s.peepSample.2 else 0
  | _ => s.getSec o

/-- A count cleared by its read re-arms EV67 (R176). -/
def Prot.rearm (p : Prot) (m : BitVec 3) : Prot := { p with ceDone := p.ceDone &&& ~~~m }

/-- FLASH_MAP_IDX after a read of FLASH_MAP_DATA. -/
def State.mapNext (s : State) : State :=
  let v := s.reg 0x30030018
  if v.bit 8 then s.setReg 0x30030018 (wordOf (256 + (v.fld 0 6 + 1) % 64)) else s

/-- What a read of a config register does. -/
def State.cfgSide (s : State) (a : Nat) : State :=
  match a with
  | 0x3001000C => s.updTick fun k => { k with hiLatch := k.num.toNat / 2 ^ 32 }
  | 0x30010024 => s.updTick fun k => { k with overrun := 0 }
  | 0x30010030 => s.updTick fun k => { k with defer := 0 }
  | 0x30020014 => s.updLink fun k => { k with lowErr := 0, late := 0 }
  | 0x30020018 => s.updLink fun k => { k with pholdCnt := 0 }
  | 0x3002001C => s.updLink fun k => { k with retries := 0, drops := 0 }
  | 0x30020020 => s.updLink fun k => { k with fcs := 0, code := 0 }
  | 0x30020024 => s.updLink fun k => { k with proto := 0 }
  | 0x30020028 => s.updLink fun k => { k with grpMiss := 0 }
  | 0x3003001C => s.mapNext
  | 0x30030028 => { s with flash := { s.flash with borCnt := 0 } }
  | 0x30040004 => s.updProt fun p => { p with ceSram := 0 }.rearm 1
  | 0x30040008 => s.updProt fun p => { p with ceOne := 0, ceTwo := 0 }.rearm 6
  | 0x3004000C => s.updProt fun p => { p with ue := 0 }
  | 0x30040014 => s.updProt fun p => { p with exitFail := 0, flipFail := 0 }
  | 0x30090008 => { s with keys := { s.keys with ghosts := 0 } }
  | 0x300A0008 => { s with adc := { s.adc with skips := 0 } }
  | 0x300C0004 => s.peepSample.1
  | 0x300D0010 => s.updTen s.secTen fun T => { T with replay := 0 }
  | _ => if cfgBlock a = 0 then s.sysSide (cfgOff a) else s

/-! ## Writes -/

/-- TICK registers. -/
def State.putTick (s : State) (o : Nat) (v : Word) (be : BitVec 4) : State × Nat :=
  let m := mergeBytes (s.getTick o) v be
  let w := woBytes v be
  match o with
  | 0x00 => (s.tickCtrl m, 0)
  | 0x04 =>
    let c := clampFld m 0 13 4000 8000
    (s.updTick fun k => { k with period := c.1 }, c.2)
  | 0x08 => (s.updTick fun k => { k with loadRej := k.loadRej && !w.bit 4 }, 0)
  | 0x14 => (s.updTick fun k => { k with setLo := w }, 0)
  | 0x18 => (s.numSetLoad w, 0)
  | 0x20 => (s.updTick fun k => { k with dly := m.fld 0 8 }, 0)
  | 0x28 => (s.updTick fun k => { k with qIdx := m.fld 0 5 }, 0)
  | 0x2C =>
    let c := clampFld m 0 7 1 64
    (s.updTen s.tick.qIdx fun T => { T with quotaSet := c.1 }, c.2)
  | _ => (s, 0)

/-- LINK registers. -/
def State.putLink (s : State) (o : Nat) (v : Word) (be : BitVec 4) : State × Nat :=
  if o = 0 then
    let m := mergeBytes (s.getLink 0) v be
    ((s.portEnable false (m.bit 0)).portEnable true (m.bit 1), 0)
  else s.writeReg (0x30020000 + o) v be

/-- FLASH registers: the W1C bits of FLASH_STATUS, and the plain ones. -/
def State.putFlash (s : State) (o : Nat) (v : Word) (be : BitVec 4) : State × Nat :=
  if o = 0 then
    let w := woBytes v be
    ({ s with flash := { s.flash with
        fail := s.flash.fail && !w.bit 4, seqErr := s.flash.seqErr && !w.bit 8,
        suspRej := s.flash.suspRej && !w.bit 9, borSeen := s.flash.borSeen && !w.bit 11 } }, 0)
  else s.writeReg (0x30030000 + o) v be

/-- PROT registers. -/
def State.putProt (s : State) (o : Nat) (v : Word) (be : BitVec 4) : State × Nat :=
  match o with
  | 0x20 => (s.protClear (woBytes v be), 0)
  | 0x24 => s.protInject (woBytes v be)
  | _ => s.writeReg (0x30040000 + o) v be

/-- SEQ_CTRL: both bits act as GO_DOWN alone (R287). -/
def State.seqCtrlWrite (s : State) (w : Word) : State :=
  if w.bit 1 then s.goDown else if w.bit 0 then s.goUp else s

/-- SEQ/BAT registers. -/
def State.putSeq (s : State) (o : Nat) (v : Word) (be : BitVec 4) : State × Nat :=
  let m := mergeBytes (s.getSeq o) v be
  let w := woBytes v be
  match o with
  | 0x000 => (s.seqCtrlWrite w, 0)
  | 0x004 => (s.updSeqr fun q => { q with rej := q.rej && !w.bit 16 }, 0)
  | 0x010 => (s.updSeqr fun q => { q with fault := q.fault &&& ~~~BitVec.ofNat 24 w.toNat }, 0)
  | 0x014 => (s.seqMan m, 0)
  | 0x218 => (s.batQWrite m, 0)
  | 0x22C => (s.updSeqr fun q => { q with gap := q.gap && !w.bit 16 }, 0)
  | 0x230 =>
    let r := s.writeReg 0x30060230 v be
    (if w.bit 0 then r.1.coinStart else r.1, r.2)
  | _ =>
    if 0x100 ≤ o ∧ o < 0x1C0 then s.railWrite (0x30060000 + o) v be else s.writeReg (0x30060000 + o) v be

/-- DISP registers. A fault bit cleared lets the port resume at its next frame (R314). -/
def State.putDisp (s : State) (o : Nat) (v : Word) (be : BitVec 4) : State × Nat :=
  if o < 0xC000 ∧ o % 0x1000 = 8 then
    (s.updDport (o / 0x1000) fun d => { d with fault := d.fault &&& ~~~BitVec.ofNat 12 (woBytes v be).toNat }, 0)
  else s.writeReg (0x30070000 + o) v be

/-- LCn registers. A channel starts when EN rises (R320), and takes its target anew after a write of LCn_CTRL (R331). -/
def State.putLamp (s : State) (n o : Nat) (v : Word) (be : BitVec 4) : State × Nat :=
  match o with
  | 0x00 =>
    let was := s.lampEn n
    let r := s.writeReg (lampReg n 0) v be
    ((if r.1.lampEn n = false then r.1.updLamp n Lamp.rest else if was then r.1 else r.1.lampStart n).retarget n, r.2)
  | 0x10 => (s.setTarget n ((mergeBytes (s.getLamp n 0x10) v be).fld 0 12), 0)
  | 0x34 => (s.lampClear n (woBytes v be), 0)
  | _ => s.writeReg (lampReg n o) v be

/-- PEk registers. A write that does not enable byte 0 writes no RUN (R87). -/
def State.putEngine (s : State) (k o : Nat) (v : Word) (be : BitVec 4) : State × Nat :=
  if o = 0 then
    let start := (mergeBytes (s.getEngine k 0) v be).fld 8 5
    (if (woBytes v be).bit 0 then s.engineGo k start
      else (if be.getLsbD 0 then s.engineHalt k else s).updEngine k fun e => { e with start := start }, 0)
  else s.writeReg (peReg k o) v be

/-- ADCn registers. A write that reaches ADCn_WIN, or WIN_EN, makes the next result follow an inside one (R367, R369). -/
def State.putChan (s : State) (n o : Nat) (v : Word) (be : BitVec 4) : State × Nat :=
  match o with
  | 0x0C => s.injectGo n (woBytes v be)
  | 0x18 => (s.updChan n fun c => { c with injRej := c.injRej && !(woBytes v be).bit 1 }, 0)
  | _ =>
    let r := s.writeReg (adcReg n o) v be
    (if (o = 4 ∧ be ≠ 0) ∨ (o = 8 ∧ be.getLsbD 0) then r.1.updChan n fun c => { c with fresh := true } else r.1, r.2)

/-- ADC registers. DIV counts anew from its write (R365); EN stops what converts and lets it go on. -/
def State.putAdc (s : State) (o : Nat) (v : Word) (be : BitVec 4) : State × Nat :=
  if 0x1000 ≤ o ∧ o < 0x1400 then s.putChan ((o - 0x1000) / 0x20) (o % 0x20) v be
  else match o with
  | 0x04 => s.refSelect (mergeBytes (wordOf s.adc.refSel) v be)
  | 0x00 =>
    let r := s.loosen.writeReg 0x300A0000 v be
    (r.1.pairsGo, r.2)
  | _ =>
    let r := s.writeReg (0x300A0000 + o) v be
    (if o = 0x14 ∧ be.getLsbD 0 then r.1.updSeq false fun q => { q with wait := 0 }
      else if o = 0x1C ∧ be.getLsbD 0 then r.1.updSeq true fun q => { q with wait := 0 } else r.1, r.2)

/-- SEC_DOOR_CFG of the tenant selected: the leak count restarts (R69). -/
def State.doorCfgWrite (s : State) (m : Word) : State × Nat :=
  let r := writeFields [uf 0 8 1 255, uf 8 8 1 255, uf 16 16 1 65535] m
  (s.updTen s.secTen fun T => { T with doorCfg := wordOf r.1, leak := 0 }, r.2)

/-- SEC_KEY_CTRL (Table 3.13). -/
def State.keyCtrl (s : State) (w : Word) : State :=
  if w.bit 2 then s.keyErase (w.bit 0) else if w.bit 0 then s.keyLoad (w.bit 1) else s

/-- SEC registers. The supervisor restarts at a write of HB_TICKS. -/
def State.putSec (s : State) (o : Nat) (v : Word) (be : BitVec 4) : State × Nat :=
  let m := mergeBytes (s.getSec o) v be
  let w := woBytes v be
  match o with
  | 0x00 => ({ s with secTen := m.fld 0 5 }, 0)
  | 0x04 => s.doorCfgWrite m
  | 0x08 => (s.updTen s.secTen fun T => { T with hbTicks := m.fld 0 16, hbLeft := m.fld 0 16 }, 0)
  | 0x0C => (s.updTen s.secTen fun T => { T with authReq := m.bit 0 }, 0)
  | 0x40 => (s.keyCtrl w, 0)
  | _ =>
    if 0x20 ≤ o ∧ o < 0x40 then
      let lo := 8 * (o - 0x20)
      ({ s with keyStage :=
          (s.keyStage &&& ~~~((BitVec.allOnes 32).setWidth 256 <<< lo)) ||| (w.setWidth 256 <<< lo) }, 0)
    else (s, 0)

/-- A write of a config register under byte enables, through a port or by a command: the state, and the clamps to
count. -/
def State.cfgPut (s : State) (via : Option Nat) (a : Nat) (v : Word) (be : BitVec 4) : State × Nat :=
  let o := cfgOff a
  match cfgBlock a with
  | 0 => s.sysPut via o v be
  | 1 => s.putTick o v be
  | 2 => s.putLink o v be
  | 3 => s.putFlash o v be
  | 4 => s.putProt o v be
  | 6 => s.putSeq o v be
  | 7 => s.putDisp o v be
  | 8 =>
    if o < 0x1000 then s.putLamp (o / 0x100) (o % 0x100) v be
    else if 0x2000 ≤ o ∧ o < 0x2400 then s.putEngine ((o - 0x2000) / 0x100) (o % 0x100) v be else (s, 0)
  | 9 => if 0x400 ≤ o ∧ o < 0x900 then s.keyCfgWrite ((o - 0x400) / 4) v be else s.writeReg a v be
  | 10 => s.putAdc o v be
  | 12 => if o = 0 then (s.peepWrite (mergeBytes (s.cfgGet 0 a) v be), 0) else (s, 0)
  | 13 => s.putSec o v be
  | _ => s.writeReg a v be

end Sys2Proof.Machine
end

