-- ==== Sys2Proof/Machine/Windows.lean ====
section
/-! DEFINITION. Windows (spec/05): what an offset of a window names, who reaches it, staging (R123 to R125), reads, and
commits (R126 to R128, R173). -/

namespace Sys2Proof.Machine

/-! ## Targets (R123, Table 5.7) -/

/-- What an offset of a window names: an SRAM address, a config register or a flash offset. -/
inductive Target where
  | sram (a : Nat)
  | reg (a : Nat)
  | flash (off : Nat)
  deriving DecidableEq, Repr

/-- The base that a window uses: the stored one, or the largest of its TYPE's range (R123). -/
def Tenant.winEffBase (T : Tenant) (w : Nat) : Nat := min (baseMax (T.wType w)) (T.wBase w)

/-- The target of a byte offset of a window; none where the window is not mapped. A FRAME window shows the back sash
as it stands at the access. -/
def State.winTarget (s : State) (t w o : Nat) : Option Target :=
  let T := s.ten t
  let b := T.winEffBase w
  match T.wType w with
  | 1 => some (.sram (cellAddr (s.backBank (b + o / 1024)) (b + o / 1024) + o % 1024))
  | 2 => some (.sram (scratchBase + 2048 * b + o))
  | 3 => some (.reg (0x30000000 + 8192 * b + o))
  | 4 => some (.flash (8192 * b + o))
  | _ => none

/-! ## Reach (R10, R29, R58, R64, R79, R179, R218) -/

/-- A tenant reaches a flash sector (Table 8.1): leaves and keeper store the keeper, the shelf store the owner of the
extent, once it is wiped. -/
def State.flashReach (s : State) (t n : Nat) : Bool :=
  if n < 512 ∨ (530 ≤ n ∧ n < 542) then t == 0
  else 800 ≤ n && n < 4032 && s.sectorOwner n == t && !s.sectorWiping n

/-- A sector of a leaf that nothing may write: the selected one, and during a swing the other (R218). -/
def State.leafHeld (s : State) (n : Nat) : Bool :=
  n < 512 && (n / 256 == bitNat s.sys.selLeaf || s.sys.leafSt == 1)

/-- What a host access through a window meets at decode, UNMAPPED before DOOR (R27). A write is staged, so that the
power of its register's block counts only at the commit (R128). -/
def State.targetErr (s : State) (t : Nat) (tg : Target) (write : Bool) : Option Err :=
  match tg with
  | .sram a => if s.addrOwner a = t then none else some .door
  | .reg a =>
    if cfgUnmapped a ∨ (write = false ∧ s.cfgOffPower a) then some .unmapped
    else if s.cfgDoor t a write then some .door else none
  | .flash off =>
    if s.flashReach t (off / 0x800) = false ∨ (write ∧ s.leafHeld (off / 0x800)) then some .door else none

/-- The same for a byte offset of a window; a window that is not mapped is unmapped (R84). -/
def State.winErr (s : State) (t w o : Nat) (write : Bool) : Option Err :=
  match s.winTarget t w o with
  | some tg => s.targetErr t tg write
  | none => some .unmapped

/-! ## Reads (R124) -/

/-- The 32-bit word at a target, without the side effects of a register's read; none when it is uncorrectable. -/
def State.targetWord (s : State) (t : Nat) (tg : Target) : State × Option Word :=
  match tg with
  | .sram a =>
    let r := s.sramRead a 4
    (r.1, if r.2 then none else some (r.1.rd32 a))
  | .reg a => (s, some (s.cfgGet t a))
  | .flash off =>
    let r := s.flashBytes off 4
    (r.1, r.2.map fun bs => wordOf (leNat bs))

/-- The staged word at an offset of a window. -/
def State.stagedAt (s : State) (t w o : Nat) : Option Staged :=
  SMap.get (fun _ => none) (s.ten t).staged (2048 * w + o / 4)

/-- All four bytes of a word are staged. -/
def State.stagedFull (s : State) (t w o : Nat) : Bool :=
  match s.stagedAt t w o with
  | some q => q.be == 0xF#4
  | none => false

/-- A word read through a window: staged bytes where they are staged, the target's content elsewhere. -/
def State.winWord (s : State) (t w o : Nat) (tg : Target) : State × Option Word :=
  match s.stagedAt t w o with
  | some q =>
    if q.be = 0xF#4 then (s, some q.val)
    else
      let r := s.targetWord t tg
      (r.1, r.2.map fun v => mergeBytes v q.val q.be)
  | none => s.targetWord t tg

/-- The side effects of a host read through a CONFIG window that reaches its register. -/
def State.winSide (s : State) (t w o : Nat) (tg : Target) : State :=
  match tg with
  | .reg a => if s.stagedFull t w o then s else s.cfgSide a
  | _ => s

/-! ## Staging (R124, R125) -/

/-- A word staged; with the tenant's 2,048 words used up it is dropped, FULL is set and one clamp counts. -/
def State.winStage (s : State) (t w o : Nat) (v : Word) (be : BitVec 4) : State × Nat :=
  let k := 2048 * w + o / 4
  let put (q : Staged) : State := s.updTen t fun T => { T with staged := SMap.set (fun _ => none) T.staged k (some q) }
  if be = 0 then (s, 0)
  else match s.stagedAt t w o with
  | some q => (put ⟨mergeBytes q.val v be, q.be ||| be⟩, 0)
  | none =>
    if 2048 ≤ (s.ten t).staged.length then (s.updTen t fun T => { T with winFull := true }, 1)
    else (put ⟨mergeBytes 0 v be, be⟩, 0)

/-- A write through a window that has passed decode. A FLASH window takes whole words as steps of the window path
(R87, R181); `p` is the port, 3 for a command or a link frame. -/
def State.winPut (s : State) (t w o : Nat) (v : Word) (be : BitVec 4) (p : Nat) (tg : Target) : State × Nat :=
  match tg with
  | .flash off => (if be = 0xF#4 then s.seqStep false (.window p) off v else s, 0)
  | _ => s.winStage t w o v be

/-- Writes of bytes through a window, word by word (WIN_WRITE and WIN frames): the state, the words written and what
stopped them. The clamps of each word are counted. -/
def State.winPutWords (s : State) (t w : Nat) (path : Path) : List (Nat × Word × BitVec 4) → Nat → State × Nat × Option Err
  | [], n => (s, n, none)
  | (o, v, be) :: q, n =>
    match s.winTarget t w o with
    | none => (s, n, some .unmapped)
    | some tg =>
      match s.targetErr t tg true with
      | some e => (s, n, some e)
      | none =>
        let r := s.winPut t w o v be 3 tg
        (r.1.clamps t path r.2).winPutWords t w path q (n + 1)

/-- Writes of a command through a window whose reach has been judged under the grants of its start (R61): all of them
take place. -/
def State.winPutAll (s : State) (t w : Nat) (path : Path) : List (Nat × Word × BitVec 4) → State
  | [] => s
  | (o, v, be) :: q =>
    match s.winTarget t w o with
    | none => s.winPutAll t w path q
    | some tg =>
      let r := s.winPut t w o v be 3 tg
      (r.1.clamps t path r.2).winPutAll t w path q

/-- Bytes at an offset as words with byte enables. -/
def wordsOf (off : Nat) (bs : List Byte) : List (Nat × Word × BitVec 4) :=
  let first := off / 4
  (List.range ((off % 4 + bs.length + 3) / 4)).map fun i =>
    let has (j : Nat) : Bool := off ≤ 4 * (first + i) + j && 4 * (first + i) + j < off + bs.length
    let b (j : Nat) : Byte := if has j then bs.getD (4 * (first + i) + j - off) 0 else 0
    (4 * (first + i), wordOf (leNat [b 0, b 1, b 2, b 3]),
      BitVec.ofNat 4 (bitNat (has 0) + 2 * bitNat (has 1) + 4 * bitNat (has 2) + 8 * bitNat (has 3)))

/-! ## Committed content (R191, R220) -/

/-- The first error of some word offsets of a window for a command. -/
def State.winErrs (s : State) (t w : Nat) (write : Bool) (os : List Nat) : Option Err :=
  os.findSome? fun o => s.winErr t w o write

/-- The word offsets that a byte range touches. -/
def wordOffs (off n : Nat) : List Nat := (List.range ((off % 4 + n + 3) / 4)).map fun i => (off / 4 + i) * 4

/-- The targets' words at offsets of a window, staged words not looked at; none when one is uncorrectable. -/
def State.committedWords (s : State) (t w : Nat) : List Nat → State × Option (List Word)
  | [] => (s, some [])
  | o :: os =>
    match s.winTarget t w o with
    | none => (s, none)
    | some tg =>
      let r := s.targetWord t tg
      let q := r.1.committedWords t w os
      (q.1, match r.2, q.2 with
        | some v, some vs => some (v :: vs)
        | _, _ => none)

/-- `n` bytes of committed content from an offset of a window; none when a word of it is uncorrectable. -/
def State.committedBytes (s : State) (t w off n : Nat) : State × Option (List Byte) :=
  let r := s.committedWords t w (wordOffs off n)
  (r.1, r.2.map fun vs => bytesAt (vs.flatMap fun v => leBytes 4 v.toNat) (off % 4) n)

/-! ## Commits (R126 to R128, R173) -/

/-- The range of a commit: on a FRAME window rounded out to whole cells (R127). -/
def commitRange (type off len : Nat) : Nat × Nat :=
  if type = 1 then (off / 1024 * 1024, (off + len + 1023) / 1024 * 1024 - off / 1024 * 1024) else (off, len)

/-- The cost of a commit: one unit per started 2 KiB of its rounded range (Table 5.5). -/
def commitCost (type off len : Nat) : Nat := ((commitRange type off len).2 + 2047) / 2048

/-- The words of a commit's range, staged bytes over the target's content. -/
def State.commitWords (s : State) (t w : Nat) : List Nat → State × Option (List Word)
  | [] => (s, some [])
  | o :: os =>
    match s.winTarget t w o with
    | none => (s, none)
    | some tg =>
      let r := s.winWord t w o tg
      let q := r.1.commitWords t w os
      (q.1, match r.2, q.2 with
        | some v, some vs => some (v :: vs)
        | _, _ => none)

/-- Both halves of the 64-bit word at an offset are staged whole within the range (R168). -/
def State.stagedWhole (s : State) (t w off len o : Nat) : Bool :=
  let h := o / 8 * 8
  off ≤ h && h + 8 ≤ off + len && s.stagedFull t w h && s.stagedFull t w (h + 4)

/-- What stops a commit before it computes (R61, R128): the reach of every word, for writing where it is staged and for
reading where a byte of it is not, then the power of the blocks. Nothing is ever staged through a FLASH window (R125), so
that its words are only read. -/
def State.commitErr (s : State) (t w : Nat) (os : List Nat) : Option Err :=
  let one (o : Nat) : Option Err :=
    match s.winTarget t w o with
    | some (.reg a) =>
      if cfgUnmapped a ∨ ((s.stagedAt t w o).isSome ∧ s.cfgDoor t a true) ∨
          (s.stagedFull t w o = false ∧ s.cfgDoor t a false) then some .door else none
    | some (.flash off) => s.targetErr t (.flash off) false
    | some tg => s.targetErr t tg true
    | none => some .unmapped
  let power (o : Nat) : Option Err :=
    match s.winTarget t w o with
    | some (.reg a) => if s.cfgOffPower a then some .off else none
    | some (.flash _) => if s.up 5 then none else some .off
    | _ => none
  (os.findSome? one) <|> (os.findSome? power)

/-- One staged word written to its target (R126, R128): the state, and the clamps of a register. -/
def State.commitPut (s : State) (t : Nat) (q : Staged) (whole : Bool) (path : Path) (tg : Target) : State :=
  match tg with
  | .sram a =>
    let s1 := s.wr32 a q.val q.be
    (if whole then s1.setEcc (a / 8 * 8) .good else s1).cellWritten a
  | .reg a =>
    let r := s.cfgPut none a q.val q.be
    r.1.clamps t path r.2
  | .flash _ => s

/-- The check words of the cells of a range made from the bytes committed (R127). -/
def State.commitChecks (s : State) (b off len : Nat) : State :=
  s.each ((List.range (len / 1024)).map fun i => b + off / 1024 + i) fun s c =>
    let k := s.backBank c
    s.setChk k c (crc32c (s.rdBytes (cellAddr k c) 1024))

/-- Staged words written one after the other; a write that resets the part is the last (R136, R145). -/
def State.commitPuts (s : State) (t : Nat) (path : Path) : List (Staged × Bool × Target) → State
  | [] => s
  | q :: qs =>
    let s1 := s.commitPut t q.1 q.2.1 path q.2.2
    if s1.sys.bootDone then s1.commitPuts t path qs else s1

/-- The staged words of a range written in ascending order and released. -/
def State.commitWrite (s : State) (t w off len : Nat) (path : Path) : State :=
  let os := (wordOffs off len).filter fun o => (s.stagedAt t w o).isSome
  let todo := os.filterMap fun o =>
    match s.stagedAt t w o, s.winTarget t w o with
    | some q, some tg => some (q, s.stagedWhole t w off len o, tg)
    | _, _ => none
  let s1 := s.updTen t fun T => { T with staged := SMap.clear T.staged (2048 * w + off / 4) (2048 * w + (off + len) / 4) }
  let s2 := s1.commitPuts t path todo
  if (s.ten t).wType w = 1 then s2.commitChecks ((s.ten t).winEffBase w) off len else s2

/-- A write of part of a word meets an uncorrectable one (R173): the words read for it. -/
def State.commitPart (s : State) (t w off len : Nat) : State × Bool :=
  let ks := (wordOffs off len).filterMap fun o =>
    match s.stagedAt t w o, s.winTarget t w o with
    | some _, some (.sram a) => if s.stagedWhole t w off len o then none else some (a / 8 * 8)
    | _, _ => none
  s.eccReadAll ks.dedup

/-- The words of a commit's rounded range. -/
def State.commitOffs (s : State) (t w off len : Nat) : List Nat :=
  let r := commitRange ((s.ten t).wType w) off len
  wordOffs r.1 r.2

/-- A commit of `len` bytes at an offset of a window with the CRC given: the state, the status and the results. `off`
and `len` are multiples of 4 and end within the window; `err` is what stops it under the grants of its start. -/
def State.winCommit (s : State) (t w off len : Nat) (crc : Word) (path : Path) (err : Option Err) :
    State × Nat × List Byte :=
  let r := commitRange ((s.ten t).wType w) off len
  let os := wordOffs r.1 r.2
  match err with
  | some e => (s, e.status, [])
  | none =>
    let s0 := s.clamps t path (if r = (off, len) then 0 else 1)
    let q := s0.commitWords t w os
    match q.2 with
    | none => (q.1, 4, [])
    | some vs =>
      let c := crc32c (vs.flatMap fun v => leBytes 4 v.toNat)
      if c ≠ crc then (q.1.doorFail t false, 3, leBytes 4 c.toNat)
      else
        let p := q.1.commitPart t w r.1 r.2
        if p.2 then (p.1, 4, []) else (p.1.commitWrite t w r.1 r.2 path, 0, leBytes 4 c.toNat)

/-! ## Direct writes (R222) -/

/-- Bytes written to SRAM, whole 64-bit words at once and the ends as parts of theirs. True when a part met an
uncorrectable word, and then nothing is written (R168). -/
def State.sramPut (s : State) (a : Nat) (bs : List Byte) : State × Bool :=
  let n := bs.length
  let part (k : Nat) : Bool := k < a || a + n < k + 8
  let r := s.eccReadAll ((wordKeys a n).filter part)
  if n = 0 then (s, false)
  else if r.2 then (r.1, true)
  else
    ((r.1.wrBytes a bs).each ((wordKeys a n).filter fun k => !part k) fun s k => s.setEcc k .good, false)

end Sys2Proof.Machine
end

