-- ==== Sys2Proof/Machine/Letterbox.lean ====
section
/-! DEFINITION. Letterboxes (spec/05): acceptance in a CMD slot with its charges, the tag history, responses and
BUSY_RETRY (R39 to R43, R111 to R118, R129, R130, R169). -/

namespace Sys2Proof.Machine

/-! ## Holds by a self-test (R17, Table 1.6) -/

/-- An SRAM address lies in the section under the March test. -/
def State.sramHeld (s : State) (a : Nat) : Bool :=
  match s.testUnit 1 with
  | some n => sectionBase n ≤ a && a < sectionBase n + 16384
  | none => false

/-- A config register whose requests are held. The register sets of one port or channel are held by the test of that
unit; the other blocks hold as a whole. -/
def State.cfgHeld (s : State) (a : Nat) : Bool :=
  let o := cfgOff a
  match cfgBlock a with
  | 2 => s.testing 4
  | 3 => s.testing 2
  | 7 => s.testUnit 5 == some (o / 0x1000)
  | 8 => o < 0x1000 && s.testUnit 6 == some (o / 0x100)
  | 9 => s.testing 7
  | 10 => s.testing 9
  | 11 => s.testing 8
  | 13 => s.testing 3
  | _ => false

/-- What a window's offset names is held. -/
def State.targetHeld (s : State) (tg : Target) : Bool :=
  match tg with
  | .sram a => s.sramHeld a
  | .reg a => s.cfgHeld a
  | .flash _ => s.testing 2

/-- Some word of a window's range is held. -/
def State.rangeHeld (s : State) (t w off len : Nat) : Bool :=
  (wordOffs off len).any fun o => match s.winTarget t w o with
    | some tg => s.targetHeld tg
    | none => false

/-- Some word of a window's range lies in flash that cannot be read now (R184). -/
def State.rangeBusy (s : State) (t w off len : Nat) : Bool :=
  (wordOffs off len).any fun o => match s.winTarget t w o with
    | some (.flash f) => s.flashWaits (f / 0x800)
    | _ => false

/-! ## Responses (R114, R115, Tables 5.3, 5.6) -/

/-- A response slot: its RESULTS from byte 4, with its CHECK. -/
def rspSlot (op status tag : Nat) (results : List Byte) : List Byte :=
  withCrc ([BitVec.ofNat 8 op, BitVec.ofNat 8 status] ++ leBytes 2 tag ++ padTo 56 results)

/-- EV32 + n (R115, R117). -/
def State.ev32 (s : State) (t tag status : Nat) (held : Bool) : State :=
  s.raise (32 + t) (.tenant t) (wordOf (tag + 65536 * status + 2 ^ 31 * bitNat held))

/-- A response written at RQ_TAIL, which advances (R114); at a SHUT door it is discarded (R65). -/
def State.rqPut (s : State) (t : Nat) (resp : List Byte) : State :=
  if s.door t = .shut then s
  else (s.wrWhole (rqAddr t (s.ten t).rqTail.toNat) resp).updTen t fun T => { T with
    rqTail := T.rqTail + 1,
    exitBad := T.exitBad &&& ~~~BitVec.ofNat 32 (2 ^ (T.rqTail.toNat % 32)) }

/-- A response put at its place in a link response buffer (R130). A group frame's buffer is done with once it is full
(R238). -/
def State.linkPut (s : State) (l : Nat × Nat) (resp : List Byte) : State :=
  match s.rspBuf l.1 with
  | some b =>
    if (b.slots.getD l.2 none).isSome then s
    else
      let b1 := { b with slots := b.slots.set l.2 (some resp) }
      if b.unicast = false ∧ b1.slots.all Option.isSome then s.setBuf l.1 none else s.setBuf l.1 (some b1)
  | none => s

/-- A slot answered: into its link buffer, or into the RQ with EV32 + n when it is asked for. -/
def State.respond (s : State) (t : Nat) (link : Option (Nat × Nat)) (resp : List Byte) (notify : Bool) : State :=
  match link with
  | some l => (s.linkPut l resp).bufSettle l.1
  | none =>
    let s1 := s.rqPut t resp
    if notify then s1.ev32 t (slotTag resp) (slotFlags resp) false else s1

/-! ## The tag history (R116) -/

/-- The final response of a command in the history; none while it runs. -/
def Tenant.histOf (T : Tenant) (tag : Nat) : Option HistEnt := T.hist.find? fun h => h.tag == tag

/-- A command taken as new, under the next number. -/
def State.histNew (s : State) (t tag : Nat) (resp : Option (List Byte)) : State :=
  let h : HistEnt := ⟨s.nextRun, tag, resp⟩
  { s with nextRun := s.nextRun + 1 }.updTen t fun T => { T with hist := (h :: T.hist).take 64 }

/-- The history with the final response of a command, by its number. -/
def histSet (id : Nat) (resp : List Byte) (hs : List HistEnt) : List HistEnt :=
  hs.map fun h => if h.id = id then { h with resp := some resp } else h

/-- The words of core SRAM that hold an error. -/
def State.coreErrors (s : State) : List Nat := (s.ecc.map fun q => q.1).filter fun k => sramRegion k == some 0

/-- Words of core SRAM read where they belong to a held response, which of them do being open (log entry 91): true when
one is uncorrectable. -/
def State.heldRead (s : State) : List Nat → State × Bool
  | [] => (s, false)
  | k :: ks =>
    let r := if Config.heldWord s.free then s.drawn.eccRead k else (s.drawn, false)
    let q := r.1.heldRead ks
    (q.1, r.2 || q.2)

/-- A response passes its carried check. -/
def rspChecks (b : List Byte) : Bool := wordOf (natAt b 60 4) == crc32c (b.take 60)

/-! ## RETRY_AFTER (R117) -/

/-- Erase pulses still expected for one erase of a job; the one that runs counts as still to do (log entry 12). -/
def pulsesLeft (e : EraseRun) (running : Bool) : Nat :=
  max 1 (Config.typicalPulses - (e.pulses - bitNat running))

/-- A pulse of the erase at the head of those in progress runs now. -/
def State.pulseRuns (s : State) : Bool :=
  s.flash.st == .erasePulse || s.flash.st == .eraseSusp || s.flash.st == .suspProg

/-- RETRY_AFTER of a running command: the pulses and word programs still to do, one pulse a tick in slot 2, then 18 µs
a word in slots 2 to 37. -/
def State.retryAfter (s : State) (id : Nat) : Nat :=
  let j := Job.cmd id
  let run := s.pulseRuns && match s.flash.erases with
    | e :: _ => e.job.root == j
    | [] => false
  let under := (s.flash.erases.zipIdx.filter fun q => q.1.job.root == j).map fun q => pulsesLeft q.1 (run && q.2 == 0)
  let ops := (s.flash.queue ++ s.flash.wait).filter fun o => o.job.root == j
  let later := (ops.filter fun o => match o with
    | .erase _ _ _ => true
    | _ => false).length
  let words := (ops.filter fun o => match o with
    | .prog _ _ _ => true
    | _ => false).length + match s.flash.prog with
    | some o => bitNat (o.job.root == j)
    | none => 0
  let pulses := under.sum + Config.typicalPulses * later
  if pulses = 0 ∧ words = 0 then 1
  else
    -- in 1/40 µs: a slot lasts periodUs of them
    let room := if pulses = 0 then (38 - s.tick.slot) * s.periodUs else 0
    let rest := 720 * words - room
    let ticks := (pulses - bitNat run) + (rest + 36 * s.periodUs - 1) / (36 * s.periodUs)
    clampNat 1 65535 (ticks + 1)

/-! ## Arguments and costs (Table 5.5) -/

/-- An argument held to its range, with its clamp. -/
def argClamp (lo hi v : Nat) : Nat × Nat := (clampNat lo hi v, if clampNat lo hi v = v then 0 else 1)

/-- A range of a window: OFFSET held to the window, the length held to its range and to the window's end, both to a
multiple of `al`; with the clamps (log entry 13). -/
def winRange (off len lo hi al : Nat) : Nat × Nat × Nat :=
  let o := min (8192 - al) (off / al * al)
  let n := min (clampNat lo hi len / al * al) (8192 - o)
  (o, n, (if o = off then 0 else 1) + if n = len then 0 else 1)

/-- WIN, OFFSET and LEN of a WIN_COMMIT slot, with the clamps. -/
def commitArgs (b : List Byte) : Nat × Nat × Nat × Nat :=
  let w := argClamp 0 3 (natAt b 4 1)
  let r := winRange (natAt b 8 2) (natAt b 10 2) 4 8192 4
  (w.1, r.1, r.2.1, w.2 + r.2.2)

/-- The cost of a slot (Table 5.5); none where R118 answers DENIED: an unknown opcode, or a keeper-only command of
another tenant. -/
def State.slotCost (s : State) (t : Nat) (b : List Byte) : Option Nat :=
  let keeper (c : Nat) : Option Nat := if t = 0 then some c else none
  match slotOp b with
  | 0x01 | 0x02 | 0x03 | 0x04 | 0x05 | 0x06 | 0x07 | 0x10 | 0x20 | 0x21 | 0x30 => some 1
  | 0x11 =>
    let a := commitArgs b
    some (commitCost ((s.ten t).wType a.1) a.2.1 a.2.2.1)
  | 0x31 => some 2
  | 0x32 => some 4
  | 0x38 => some 4
  | 0x39 => some 2
  | 0x40 => if 5 ≤ natAt b 4 1 then some 2 else keeper 2
  | 0x50 => keeper 1
  | 0x52 => keeper 1
  | _ => none

/-! ## Charging (R38 to R43) -/

/-- A cost charged to a tenant and to the capacity; none when it must wait for a later tick. A cost above the quota
takes the whole quota of a tick in which nothing else has started (R40). -/
def State.charge (s : State) (t cost : Nat) : Option State :=
  let T := s.ten t
  let c := min cost T.quota
  if (if T.quota < cost then T.started else decide (T.quota < T.spent + cost)) || decide (s.tick.capLeft < c) then none
  else
    some ((s.updTen t fun T => { T with spent := T.spent + c, started := true }).updTick
      fun k => { k with capLeft := k.capLeft - c })

/-- A command deferred: its tenant's service ends for the tick (R41, R43), and TICK_DEFER counts. -/
def State.defer (s : State) (t : Nat) : State :=
  (s.updTen t fun T => { T with ended := true, deferNow := true }).updTick fun k => { k with defer := sat16 k.defer }

/-! ## A tenant's turn (R42, R111, R112, R116, R118, R129, R169) -/

/-- The slot at CQ_HEAD leaves the CQ. -/
def State.takeSlot (s : State) (t : Nat) : State :=
  let k := 32 * t + (s.ten t).cqHead.toNat % 32
  let s1 := s.updTen t fun T => { T with cqHead := T.cqHead + 1 }
  { s1 with link := { s1.link with cqFrom := SMap.set (fun _ => none) s1.link.cqFrom k none } }

/-- A commit requested through WIN_COMMIT runs (R129). Its clamps are counted as those of opcode 0x11 (R396). -/
def State.registerCommit (s : State) (t : Nat) (c : CommitReq) : State :=
  let r := s.drawn.winCommit t c.win c.off c.len c.crc (.cmd 0x11 (Config.cfgTag s.free).toNat)
    (s.commitErr t c.win (s.commitOffs t c.win c.off c.len))
  if r.1.sys.bootDone then
    r.1.updTen t fun T => { T with winReq := none, winState := 2, winResult := r.2.1, irqWin := true }
  else r.1

/-- The surcharge of a slot that came in a tagged frame (Table 2.3). -/
def State.surcharge (s : State) (link : Option (Nat × Nat)) : Nat :=
  match link with
  | some l => match s.rspBuf l.1 with
    | some b => bitNat b.tagged
    | none => 0
  | none => 0

/-- A resend answered: a copy of the final response, or BUSY_RETRY (R116). The held copy is verified again (R172): one
that cannot be read ends with UNCORRECTABLE (Table 7.3), and one that fails its check is not answered and raises EV71
(log entry 119). -/
def State.resend (s : State) (t : Nat) (link : Option (Nat × Nat)) (b : List Byte) (h : HistEnt) : State :=
  let note := slotFlags b % 2 == 1
  match h.resp with
  | none => s.respond t link (rspSlot (slotOp b) 1 (slotTag b) (leBytes 2 (s.retryAfter h.id))) note
  | some r =>
    let q := s.heldRead s.coreErrors
    if q.2 then q.1.respond t link (rspSlot (slotOp b) 4 (slotTag b) []) note
    else if rspChecks r then q.1.respond t link r note
    else { q.1 with prot := { q.1.prot with exitFail := sat16 q.1.prot.exitFail } }.raise 71 (.tenant t)
      (wordOf (slotTag b))

/-- A slot that reads and passes its check: resend, denied, or accepted with the grants of its start (R61). None when it
must wait for a later tick. -/
def State.acceptSlot (s : State) (t n : Nat) (link : Option (Nat × Nat)) (b : List Byte) : Option State :=
  let sur := s.surcharge link
  match (s.ten t).histOf (slotTag b) with
  | some h => (s.charge t (1 + sur)).map fun s1 => s1.takeSlot t |>.resend t link b h
  | none =>
    match s.slotCost t b with
    | none =>
      let resp := rspSlot (slotOp b) 2 (slotTag b) []
      (s.charge t (1 + sur)).map fun s1 =>
        ((s1.takeSlot t).histNew t (slotTag b) (some resp)).respond t link resp (slotFlags b % 2 == 1)
    | some c =>
      (s.charge t (c + sur)).map fun s1 =>
        let s2 := (s1.takeSlot t).histNew t (slotTag b) none
        { s2 with runs := s2.runs ++ [{
            id := s.nextRun, ten := t, slot := b, age := 0, at_ := n, link := link, busySent := false, st := .accepted,
            table := s.grants.table, wipe := s.grants.wipe }] }

/-- The slot at CQ_HEAD taken, in CMD slot `n`: the state, and whether the turn goes on. A paused tenant's CQ is not
served (R144). -/
def State.turnSlot (s : State) (t n : Nat) : State × Bool :=
  let T := s.ten t
  let a := cqAddr t T.cqHead.toNat
  let link := s.cqLink t T.cqHead.toNat
  if T.pause ∨ T.cqCount = 0 ∨ (link.isNone ∧ s.rqFree t = 0) then (s, false)
  else if s.sramHeld a then (s.hold (.turn t), false)
  else
    let r := s.sramRead a 64
    let b := r.1.rdBytes a 64
    if r.2 then
      let lost := r.1.eccOf a == .poisoned
      ((r.1.takeSlot t).respond t link (rspSlot (if lost then 0 else slotOp b) 4 (if lost then 0 else slotTag b) [])
        true, true)
    else if rspChecks b = false then
      (((r.1.takeSlot t).respond t link (rspSlot (slotOp b) 3 (slotTag b) []) true).doorFail t false, true)
    else match r.1.acceptSlot t n link b with
    | some s1 => (s1, true)
    | none => (r.1.defer t, false)

/-- One act of a tenant's turn in CMD slot `n`: the state, and whether the turn goes on. A register commit comes first
(R129); R144 stops only the CQ, so that it is made for a paused tenant too, which TICK_DEFER does not count (log entry
120). -/
def State.turn (s : State) (t n : Nat) : State × Bool :=
  let T := s.ten t
  if T.ended ∨ s.door t ≠ .opened then (s, false)
  else match T.winReq with
  | some c =>
    if s.rangeHeld t c.win c.off c.len then (s.hold (.turn t), false)
    else if s.rangeBusy t c.win c.off c.len then (s, false)
    else match s.charge t (commitCost (T.wType c.win) c.off c.len) with
    | some s1 => (s1.registerCommit t c, true)
    | none => (if T.pause then s.updTen t fun T => { T with ended := true } else s.defer t, false)
  | none => s.turnSlot t n

/-- A tenant's turn: at most one commit and the 32 slots of its CQ. -/
def State.turns : Nat → Nat → Nat → State → State
  | 0, _, _, s => s
  | k + 1, t, n, s =>
    let r := s.turn t n
    if r.2 then State.turns k t n r.1 else r.1

/-- The order of service: the keeper, then the others from the one placed first (R42). -/
def serviceOrder (first : Nat) : List Nat := 0 :: (List.range 31).map fun i => (first - 1 + i) % 31 + 1

/-- Commands start: boot is complete, and no power request waits for its entry to end (R265). -/
def State.starting (s : State) : Bool := s.sys.bootDone && s.pwr.phase == .idle

/-- A CMD slot (R42). -/
def State.cmdSlot (s : State) (n : Nat) : State :=
  if s.starting then s.each (serviceOrder s.tick.first) fun s t => State.turns 33 t n s else s

/-! ## Completion (R114, R117) -/

/-- The first run that satisfies a test, and the others. -/
def takeRun (p : Run → Bool) : List Run → Option (Run × List Run)
  | [] => none
  | r :: rs => if p r then some (r, rs) else (takeRun p rs).map fun q => (q.1, r :: q.2)

/-- A run has finished. -/
def Run.result (r : Run) : Option (Nat × List Byte) :=
  match r.st with
  | .finished status results => some (status, results)
  | _ => none

/-- The command of a tenant that finished first is answered: into the RQ or its link buffer, or held for a resend after a
BUSY_RETRY (R114, R117). -/
def State.complete (s : State) (t : Nat) : State :=
  match takeRun (fun r => r.ten == t && r.result.isSome) s.runs with
  | none => s
  | some (r, rs) =>
    if r.link.isNone && s.sramHeld (rqAddr t (s.ten t).rqTail.toNat) then s.hold (.response t)
    else
      let q := r.result.getD (0, [])
      let tag := slotTag r.slot
      let resp := rspSlot (slotOp r.slot) q.1 tag q.2
      let s1 := { s with runs := rs }.updTen t fun T => { T with hist := histSet r.id resp T.hist }
      if r.busySent then
        match r.link with
        | some l => s1.bufSettle l.1
        | none => s1.ev32 t tag q.1 true
      else s1.respond t r.link resp (slotFlags r.slot % 2 == 1)

/-- The oldest command of a tenant that has not finished 2 ticks after its acceptance is answered BUSY_RETRY (R117). -/
def State.busyRetry (s : State) (t : Nat) : State :=
  match s.runs.find? fun r => r.ten == t && r.result.isNone && !r.busySent && decide (2 ≤ r.age) with
  | none => s
  | some r =>
    let tag := slotTag r.slot
    let resp := rspSlot (slotOp r.slot) 1 tag (leBytes 2 (s.retryAfter r.id))
    (s.updRun r.id fun q => { q with busySent := true }).respond t r.link resp (slotFlags r.slot % 2 == 1)

end Sys2Proof.Machine
end

