-- ==== Sys2Proof/Machine/HostPort.lean ====
section
/-! DEFINITION. The host ports (spec/04): decoding of a page offset, doors and grants at the port, waits and the wait
guard, posting and fences, and the reads that a port completes. Port 0 is A and port 1 is B. -/

namespace Sys2Proof.Machine

/-! ## Decoding (Table 4.1, R84 to R86, R108) -/

/-- What a page offset names. -/
inductive PageRef where
  | reg (off : Nat)
  | cq (o : Nat)
  | rq (o : Nat)
  | eq (o : Nat)
  | win (w o : Nat)
  deriving DecidableEq, Repr

/-- The contents of a page at a word offset (Table 4.1). -/
def pageRef (page off : Nat) : Option PageRef :=
  if isPageReg off ∨ (page = 0 ∧ isSysReg off) then some (.reg off)
  else if 0x1000 ≤ off ∧ off < 0x1800 then some (.cq (off - 0x1000))
  else if 0x1800 ≤ off ∧ off < 0x2000 then some (.rq (off - 0x1800))
  else if 0x2000 ≤ off ∧ off < 0x2200 then some (.eq (off - 0x2000))
  else if 0x8000 ≤ off then some (.win ((off - 0x8000) / 0x2000) (off % 0x2000))
  else none

/-- A CQ slot belongs to the SV961 (R108). -/
def State.cqOwned (s : State) (t k : Nat) : Bool :=
  (k + 64 - (s.ten t).cqHead.toNat) % 32 < (s.ten t).cqCount

/-- What an access meets at its target when it is decoded, page mask and door state apart. -/
def State.refErr (s : State) (t : Nat) (ref : PageRef) (write : Bool) : Option Err :=
  match ref with
  | .reg _ => none
  | .cq o => if write ∧ s.cqOwned t (o / 64) then some .door else none
  | .rq _ => if write then some .door else none
  | .eq _ => if write then some .door else none
  | .win w o => s.winErr t w o write

/-- A door lets an access through (Table 3.4). -/
def State.doorServes (s : State) (t : Nat) (ref : PageRef) (write : Bool) : Bool :=
  match s.door t with
  | .opened => true
  | .fire => !write || ref == .reg 0x30 || ref == .reg 0x38
  | .shut => false

/-- What an access meets at decode, in the order of R27: UNMAPPED, then DOOR. -/
def State.portErr (s : State) (p page off : Nat) (write : Bool) : Option Err :=
  match pageRef page off with
  | none => some .unmapped
  | some ref =>
    match s.refErr page ref write with
    | some .unmapped => some .unmapped
    | e => if (s.port p).pages.getLsbD page && s.doorServes page ref write then e else some .door

/-- HA_A[20:2] of an access as a byte address (R396, Table 4.11). -/
def pageAddr (page off : Nat) : Nat := page * 0x10000 + off

/-! ## Waits (R17, R92, R97, R99, R182) -/

/-- What a page offset names is held by a self-test (R17). -/
def State.refHeld (s : State) (t : Nat) (ref : PageRef) (write : Bool) : Bool :=
  match ref with
  | .reg _ => false
  | .cq o => s.sramHeld (lbxBase + t * 0x1200 + o)
  | .rq o => s.sramHeld (lbxBase + t * 0x1200 + 0x800 + o)
  | .eq o => s.sramHeld (lbxBase + t * 0x1200 + 0x1000 + o)
  | .win w o =>
    match s.winTarget t w o with
    | some (.flash f) => (write || !s.flash.statMode) && s.targetHeld (.flash f)
    | some tg => !write && !s.stagedFull t w o && s.targetHeld tg
    | none => false

/-- A read of flash must wait (R184); in status mode none does (R183). -/
def State.refBusy (s : State) (t : Nat) (ref : PageRef) (write : Bool) : Bool :=
  match ref with
  | .win w o =>
    match s.winTarget t w o with
    | some (.flash f) => !write && !s.flash.statMode && s.flashWaits (f / 0x800)
    | _ => false
  | _ => false

/-- A write that is never posted (R85). -/
def neverPosted (page off : Nat) : Bool := page == 0 && (off == 0x438 || off == 0x43C)

/-- A write is posted: posting is on for the port and may be used for it (R85, R99). -/
def State.posts (s : State) (p : Nat) (a : Access) : Bool := (s.port p).postEn && !neverPosted a.page a.off

/-- The internal address of a register or of a flash word that more than one offset of page 0 names; SYS_TICK_CFG is
TICK_CTRL. -/
def placeOf (a : Nat) : Nat := if a = 0x3000046C then 0x30010000 else a

/-- Where an access takes effect, when other offsets lead there too: a keeper system register, which a CONFIG window
shows as well, and the 64-bit flash words of the FLASH windows. A write through a CONFIG window is staged. -/
def State.accPlace (s : State) (a : Access) : Option Nat :=
  match pageRef a.page a.off with
  | some (.reg o) => if isSysReg o then some (placeOf (0x30000000 + o)) else none
  | some (.win w o) =>
    match s.winTarget a.page w o with
    | some (.reg r) => if a.write then none else some (placeOf r)
    | some (.flash f) => some (0x04000000 + f / 8 * 8)
    | _ => none
  | _ => none

/-- A posted write goes to the word that a read asks for (R97, R99). -/
def State.behind (s : State) (q a : Access) : Bool :=
  (q.page == a.page && q.off == a.off) || ((s.accPlace q).isSome && s.accPlace q == s.accPlace a)

/-- An access waits: for the port's posted writes where order asks for it (R97, R99), for room in the buffer, for its
target. -/
def State.accWaits (s : State) (p : Nat) (a : Access) : Bool :=
  let h := s.port p
  match pageRef a.page a.off with
  | none => false
  | some ref =>
    let target := s.refHeld a.page ref a.write || s.refBusy a.page ref a.write
    if a.write then if s.posts p a then 8 ≤ h.post.length else !h.post.isEmpty || target
    else if ref = .reg 0xC then !h.post.isEmpty
    else (h.post.any fun q => s.behind q a) || target

/-! ## Reads (R8, R93, R135, R172) -/

/-- A response that fails its exit check (R172): counted and reported once. -/
def State.exitFail (s : State) (t slot : Nat) (tag : Nat) : State :=
  if (s.ten t).exitBad.getLsbD slot then s
  else
    ({ s with prot := { s.prot with exitFail := sat16 s.prot.exitFail } }.updTen t fun T => { T with
      exitBad := T.exitBad ||| BitVec.ofNat 32 (2 ^ slot) }).raise 71 (.tenant t) (wordOf tag)

/-- An RQ slot lies from RQ_HEAD up to but not including RQ_TAIL. -/
def State.rqLive (s : State) (t k : Nat) : Bool := (k + 64 - (s.ten t).rqHead.toNat) % 32 < (s.ten t).rqCount

/-- A read of a word of an RQ slot (R172). -/
def State.rqRead (s : State) (t o : Nat) : State × Except Err Word :=
  let k := o / 64
  let a := rqAddr t k
  let r := if s.rqLive t k then s.sramRead a 64 else s.sramRead (a + o % 64) 4
  if r.2 then (r.1, .error .uncorrectable)
  else
    let b := r.1.rdBytes a 64
    if s.rqLive t k ∧ wordOf (natAt b 60 4) ≠ crc32c (b.take 60) then (r.1.exitFail t k (slotTag b), .error .check)
    else (r.1, .ok (r.1.rd32 (a + o % 64)))

/-- An SRAM word of a page aperture read. -/
def State.sramWord (s : State) (a : Nat) : State × Except Err Word :=
  let r := s.sramRead a 4
  (r.1, if r.2 then .error .uncorrectable else .ok (r.1.rd32 a))

/-- What a read returns, with the side effects of a register's read when it succeeds. In status mode a FLASH window shows
FLASH_STATUS (R183). -/
def State.refRead (s : State) (p t : Nat) (ref : PageRef) : State × Except Err Word :=
  match ref with
  | .reg off => (s.regSide t off, .ok (s.regGet t p off))
  | .cq o => s.sramWord (lbxBase + t * 0x1200 + o)
  | .rq o => s.rqRead t o
  | .eq o => s.sramWord (lbxBase + t * 0x1200 + 0x1000 + o)
  | .win w o =>
    match s.winTarget t w o with
    | none => (s, .error .unmapped)
    | some tg =>
      let r := match tg with
        | .flash _ => if s.flash.statMode then (s, some s.flash.status) else s.winWord t w o tg
        | _ => s.winWord t w o tg
      match r.2 with
      | some v => (r.1.winSide t w o tg, .ok v)
      | none => (r.1, .error .uncorrectable)

/-! ## Writes (R87, R97 to R100) -/

/-- A write takes effect at its target, with its clamps. -/
def State.refWrite (s : State) (p : Nat) (a : Access) (ref : PageRef) : State × Option Err :=
  let be := ~~~a.beN
  let path := Path.host p (pageAddr a.page a.off)
  match ref with
  | .reg off =>
    let r := s.regPut (some p) a.page off a.val be
    (if r.1.sys.bootDone then r.1.clamps a.page path r.2 else r.1, none)
  | .cq o =>
    let r := s.sramWrite32 (lbxBase + a.page * 0x1200 + o) a.val be
    (r.1, if r.2 then some .uncorrectable else none)
  | .win w o =>
    match s.winTarget a.page w o with
    | none => (s, some .unmapped)
    | some tg =>
      let r := s.winPut a.page w o a.val be p tg
      (r.1.clamps a.page path r.2, none)
  | _ => (s, some .door)

/-- The access ends (R93): HA_RDY high and HA_BERR_N low on an error, with a read's data, 0 on an error. In asynchronous
mode both levels stay until the strobes are released (Table 4.4). In synchronous mode HA_RDY is high at the edge Ek
alone (R88): the model's step reaches beyond it, and `ended` holds what the host sampled there (log entry 127). -/
def State.portEnd (s : State) (p : Nat) (a : Access) (res : Except Err Word) : State :=
  let v := match res with
    | .ok v => v
    | .error _ => 0
  let bad := match res with
    | .ok _ => false
    | .error _ => true
  let data := if a.write then none else some v
  let s1 := s.updPort p fun h => { h with
    acc := none, rdy := !h.sync, berrN := h.sync || !bad, dOut := data, ended := some ⟨!bad, data⟩ }
  if a.write then s1 else { s1 with rdata := v }

/-- The access waits with HA_RDY low; a read's HA_D is driven from its start, with data not yet valid (Tables 4.2 and
4.4). One that a self-test holds is served in its turn when the test ends (R17, R18). -/
def State.portWait (s : State) (p : Nat) (a : Access) : State :=
  let drive := !a.write && (s.port p).dOut.isNone
  let s1 := (if drive then s.drawn else s).updPort p fun h => { h with
    acc := some a, dOut := if drive then some (Config.busUnsettled s.free) else h.dOut }
  match pageRef a.page a.off with
  | some ref => if s.refHeld a.page ref a.write then s1.hold (.access p) else s1
  | none => s1

/-- A write through a FLASH window has completed a command that the controller has not accepted yet (R182). -/
def State.winNew (s s1 : State) (p : Nat) : Bool := decide ((s.winOps p).length < (s1.winOps p).length) && s1.winWaits p

/-- The access ends with a bus error that is recorded (R94). -/
def State.portFail (s : State) (p : Nat) (a : Access) (e : Err) : State :=
  (s.berrRecord a.page p (pageAddr a.page a.off) a.write false e).portEnd p a (.error e)

/-- A fence read completes: with the cause kept for its page since the last one (R100). -/
def State.fenceEnd (s : State) (p : Nat) (a : Access) : State :=
  let c := SMap.get (fun _ => 0) (s.port p).fence a.page
  let s1 := s.updPort p fun h => { h with fence := SMap.set (fun _ => 0) h.fence a.page 0 }
  s1.portEnd p a (if c = 0 then .ok 0 else .error (if c = 2 then .uncorrectable else if c = 1 then .door else .unmapped))

/-- An unposted write takes effect at its target and ends; one that completes a flash command waits for the controller
(R98, R182). -/
def State.portWrite (s : State) (p : Nat) (a : Access) (ref : PageRef) : State :=
  let r := s.refWrite p a ref
  match r.2 with
  | some e => r.1.portFail p a e
  | none => if s.winNew r.1 p then r.1.portWait p { a with stepped := true } else r.1.portEnd p a (.ok 0)

/-- The access takes place now, when nothing makes it wait; else it waits with HA_RDY low. -/
def State.portServe (s : State) (p : Nat) (a : Access) : State :=
  match pageRef a.page a.off with
  | none => s.portFail p a .unmapped
  | some ref =>
    if a.stepped then (if s.winWaits p then s.portWait p a else s.portEnd p a (.ok 0))
    else if s.accWaits p a then s.portWait p a
    else if a.write then
      if a.beN = 0xF#4 then s.portEnd p a (.ok 0)
      else if s.posts p a then (s.updPort p fun h => { h with post := h.post ++ [a] }).portEnd p a (.ok 0)
      else s.portWrite p a ref
    else if ref = .reg 0xC then s.fenceEnd p a
    else
      let r := s.refRead p a.page ref
      match r.2 with
      | .ok v => r.1.portEnd p a (.ok v)
      | .error e => r.1.portFail p a e

/-! ## Accesses (R83, R88 to R96) -/

/-- A port may start an access: its domain is on, its pads are released and no access is under way (R83, R88, R95,
R274). -/
def State.portFree (s : State) (p : Nat) : Bool :=
  s.up (2 + p) && !s.shut p && s.sys.resetN && (s.port p).acc.isNone && (s.port p).ended.isNone

/-- A sampled access: decoded, then served. Before boot completes only PG_ID and PG_STATUS are (R95). -/
def State.portAccess (s : State) (p : Nat) (a : Access) : State :=
  if s.portFree p = false then s
  else
    let s1 := s.updPort p fun h => { h with clkOk := h.sync }
    if s.sys.bootDone = false then
      if a.write = false ∧ (a.off = 0 ∨ a.off = 4) then s1.portEnd p a (.ok (s1.regGet a.page p a.off))
      else s1.portEnd p a (.error .unmapped)
    else match s1.portErr p a.page a.off a.write with
    | some e => s1.portFail p a e
    | none => s1.portServe p a

/-- The access that HOST_READ samples. -/
def readAcc (page off : Nat) : Access := ⟨page, off / 4 * 4, false, 0, 0, false⟩
/-- The access that HOST_WRITE samples. -/
def writeAcc (page off : Nat) (v : Word) (beN : BitVec 4) : Access := ⟨page, off / 4 * 4, true, v, beN, false⟩

/-- A waiting access gets its target's result, once the target gives it. -/
def State.portComplete (s : State) (p : Nat) : State :=
  match (s.port p).acc with
  | some a => if s.up (2 + p) then s.portServe p a else s
  | none => s

/-- A reset asked for through a port begins, once the write has been acknowledged (R145; log entry 128). -/
def State.resetTake (s : State) : State := if s.sys.resetPend then s.resetPulse 2 else s

/-- The strobes go high after completion: HA_RDY low, HA_BERR_N high, HA_D released (Tables 4.2 to 4.4). -/
def State.strobeRelease (s : State) (p : Nat) : State :=
  if (s.port p).ended.isSome then
    s.updPort p fun h => { h with rdy := false, berrN := true, dOut := none, ended := none }
  else s

/-- The controller has accepted the flash command that the waiting access or the oldest posted write of a port has
completed (R182): the access is acknowledged, the posted write has taken effect. -/
def State.ackPort (s : State) (p : Nat) : State :=
  let s1 := match (s.port p).acc with
    | some a => if a.stepped && !s.winWaits p then s.portEnd p a (.ok 0) else s
    | none => s
  match (s1.port p).post with
  | a :: q => if a.stepped && !s1.winWaits p then s1.updPort p fun h => { h with post := q } else s1
  | [] => s1

/-- The same for both ports. -/
def State.ackPorts (s : State) : State := (s.ackPort 0).ackPort 1

/-- A waiting access leaves the port, which releases HA_D; a flash command that still waits is void (R182). -/
def State.portDrop (s : State) (p : Nat) (a : Access) : State :=
  { (if a.stepped then s.winVoid p else s).updPort p fun h => { h with acc := none, dOut := none } with
    waiting := s.waiting.filter fun q => q != .access p }

/-- The access is abandoned before it completes (R91). One whose flash command the controller has accepted has completed
with that: its strobes are released. -/
def State.portAbandon (s : State) (p : Nat) : State :=
  let s1 := s.ackPort p
  match (s1.port p).acc with
  | some a => s1.portDrop p a
  | none => if (s.port p).acc.isSome then s1.strobeRelease p else s1

/-- The wait guard expires (R92): STALL. What the access waited on goes on (R21). -/
def State.portStall (s : State) (p : Nat) : State :=
  let s1 := s.ackPort p
  match (s1.port p).acc with
  | some a => (s1.portDrop p a).portFail p a .stall
  | none => s1

/-- A posted write has failed: recorded with POSTED, and kept for the next fence of its page (R100). -/
def State.postFail (s : State) (p : Nat) (a : Access) (e : Err) : State :=
  (s.berrRecord a.page p (pageAddr a.page a.off) true true e).updPort p fun h =>
    if SMap.get (fun _ => 0) h.fence a.page = 0 then
      { h with fence := SMap.set (fun _ => 0) h.fence a.page e.cause } else h

/-- The oldest posted write of a port takes effect, or fails (R99, R100). One that completes a flash command stays in
the buffer until the controller accepts it. -/
def State.postDrain (s : State) (p : Nat) : State :=
  match (s.port p).post with
  | [] => s
  | a :: q =>
    match pageRef a.page a.off with
    | none => s
    | some ref =>
      if a.stepped then s.ackPort p
      else if s.refHeld a.page ref true then s.hold (.posted p)
      else
        let s1 := s.updPort p fun h => { h with post := q }
        match s1.refErr a.page ref true with
        | some e => s1.postFail p a e
        | none =>
          let r := s1.refWrite p a ref
          match r.2 with
          | some e => r.1.postFail p a e
          | none =>
            if s.winNew r.1 p then r.1.updPort p fun h => { h with post := { a with stepped := true } :: h.post }
            else r.1

/-! ## The meanings of the host-port rows -/

/-- HOST_READ. -/
def execHostRead (p : Fin 2) (page : Fin 32) (off : BitVec 16) (s : State) : Host.Outcome State Fault Refusal :=
  .next (s.portAccess p.val (readAcc page.val off.toNat))
/-- HOST_WRITE. -/
def execHostWrite (p : Fin 2) (page : Fin 32) (off : BitVec 16) (v : Word) (beN : BitVec 4) (s : State) :
    Host.Outcome State Fault Refusal :=
  .next (s.portAccess p.val (writeAcc page.val off.toNat v beN))
/-- HOST_ACCESS_COMPLETE. -/
def execHostAccessComplete (p : Fin 2) (s : State) : Host.Outcome State Fault Refusal := .next (s.portComplete p.val)
/-- HOST_STROBE_RELEASE. -/
def execHostStrobeRelease (p : Fin 2) (s : State) : Host.Outcome State Fault Refusal :=
  .next (s.strobeRelease p.val).resetTake
/-- ACCESS_ABANDON. -/
def execAccessAbandon (p : Fin 2) (s : State) : Host.Outcome State Fault Refusal := .next (s.portAbandon p.val)
/-- WAIT_GUARD_EXPIRY. -/
def execWaitGuardExpiry (p : Fin 2) (s : State) : Host.Outcome State Fault Refusal := .next (s.portStall p.val)
/-- POSTED_WRITE_DRAIN. -/
def execPostedWriteDrain (p : Fin 2) (s : State) : Host.Outcome State Fault Refusal := .next (s.postDrain p.val)
/-- FENCE_READ. -/
def execFenceRead (p : Fin 2) (page : Fin 32) (s : State) : Host.Outcome State Fault Refusal :=
  .next (s.portAccess p.val (readAcc page.val 0x0C))

end Sys2Proof.Machine
end

