-- ==== Sys2Proof/WellFormed.lean ====
section
/-! DEFINITION. Which commands can arrive at all: the checks on operands that their types do not already make. -/

namespace Sys2Proof

/-- The operands of a command lie in the ranges that the spec gives them: the CMD slots are the even slots 4 to 34 of
Table 2.2 (the last even slot of 4 to 35), there are four die sensors (R377), KP has 8 columns (R340), a program ends
after at most 16 pulses (R185), a conversion takes 1 to 128 samples (R364), a louvre has at most 8 entries (R276). -/
def Instr.WellFormed : Instr → Bool
  | .boundary mis => mis.length ≤ 12
  | .windowEnd mis => mis.length ≤ 12
  | .cmdSlot n => 4 ≤ n && n ≤ 34 && n % 2 == 0
  | .loopSlot die => die.length == 4
  | .programEnd pulses _ => pulses ≤ 16
  | .louvre q => q.2.length ≤ 8 && q.2.all fun l => l.length ≤ 64
  | .conversionEnd _ ss => 1 ≤ ss.length && ss.length ≤ 128
  | .keyColumnStep kp col _ => !kp || col.val < 8
  | .ledgerRecovery _ _ pulses => pulses ≤ 24
  | .switchingPeriod _ i _ _ v l => i ≤ 4095 && v < 65536 && l ≤ 3300
  | .coinMeasureEnd mv => mv < 8192
  | _ => true

end Sys2Proof
end

