-- ==== Sys2Proof/Machine/Slots.lean ====
section
/-! DEFINITION. The sill tick's own rows: arrivals, boundaries, and the slots of Table 2.2. -/

namespace Sys2Proof.Machine

/-- A command has its effect `t`. One whose operands no event of the part can carry (`ok` false) is no event, and the
state stays (log entry 116). -/
def onlyIf (ok : Bool) (s t : State) : Host.Outcome State Fault Refusal := .next (if ok then t else s)

/-- WINDOW_END: the window of R50 has passed without an arrival of the source in use. -/
def State.windowEnd (s : State) (mis : List (BitVec 12)) : State :=
  match s.tick.use with
  | some ds => if s.tick.locked ∧ (s.tick.lockOf ds).arrived = false then s.boundary mis else s
  | none => s

/-- Slot 1: the ages of the converter's results, then THERM/FAN, lamps and battery (R290, R323, R383). -/
def State.loopSlot (s : State) (die : List Int) : State :=
  (((s.each (List.range 32) fun s n => s.updChan n fun c => { c with age := satAdd 17 c.age 1 }).thermalUpdate
    die).lampUpdate).batUpdate

/-- Slot 38: the coalescing sweep of every tenant (R122), and what waited for it (R403). -/
def State.sweepSlot (s : State) : State := (s.each (List.range 32) State.sweepTen).releaseAfter

/-- BOUNDARY. -/
def execBoundary (mis : List (BitVec 12)) (s : State) : Host.Outcome State Fault Refusal :=
  onlyIf (Instr.boundary mis).WellFormed s (s.boundary mis)
/-- TICK_SET. -/
def execTickSet (flags low : Byte) (lead : BitVec 24) (chk : Byte) (codeErr : Bool) (phase : Int) (held : Nat)
    (s : State) : Host.Outcome State Fault Refusal := .next (s.tickSet flags low lead chk codeErr phase held)
/-- DSYNC_EDGE. -/
def execDsyncEdge (phase : Int) (s : State) : Host.Outcome State Fault Refusal := .next (s.dsyncEdge phase)
/-- DSYNC_CLASSIFY. -/
def execDsyncClassify (high : Nat) (s : State) : Host.Outcome State Fault Refusal := .next (s.dsyncClassify high)
/-- WINDOW_END. -/
def execWindowEnd (mis : List (BitVec 12)) (s : State) : Host.Outcome State Fault Refusal :=
  onlyIf (Instr.windowEnd mis).WellFormed s (s.windowEnd mis)
/-- LOOP_SLOT. -/
def execLoopSlot (die : List Int) (s : State) : Host.Outcome State Fault Refusal :=
  onlyIf (Instr.loopSlot die).WellFormed s (s.atSlot 1 fun s => s.loopSlot die)
/-- FLASH_SLOT. -/
def execFlashSlot (s : State) : Host.Outcome State Fault Refusal := .next (s.atSlot 2 State.flashSlot).ackPorts
/-- ADC_SLOT. -/
def execAdcSlot (s : State) : Host.Outcome State Fault Refusal := .next (s.atSlot 3 State.adcSlot)
/-- CMD_SLOT. -/
def execCmdSlot (slot : Nat) (s : State) : Host.Outcome State Fault Refusal :=
  onlyIf (Instr.cmdSlot slot).WellFormed s (s.atSlot slot fun s => s.cmdSlot slot)
/-- SRAM_SCRUB_STEP. -/
def execSramScrubStep (s : State) : Host.Outcome State Fault Refusal := .next (s.atSlot 36 State.sramScrub)
/-- FLASH_SCRUB_READ. -/
def execFlashScrubRead (s : State) : Host.Outcome State Fault Refusal := .next (s.atSlot 36 State.flashScrub)
/-- COALESCE_SWEEP. -/
def execCoalesceSweep (s : State) : Host.Outcome State Fault Refusal := .next (s.atSlot 38 State.sweepSlot)
/-- GUARD_SLOT. -/
def execGuardSlot (s : State) : Host.Outcome State Fault Refusal := .next (s.atSlot 39 State.guardSlot)

end Sys2Proof.Machine
end

