-- ==== Sys2Proof/Machine/BlockRows.lean ====
section
/-! DEFINITION. The rows of the lamps and pattern engines, keys, converter and fans (spec/14 to spec/17). -/

namespace Sys2Proof.Machine

/-! ## Lamps (spec/14) -/

/-- SWITCHING_PERIOD. -/
def execSwitchingPeriod (n : Fin 16) (iCode : Nat) (oc : Bool) (pinBad : BitVec 2) (vstr ledk : Nat) (s : State) :
    Host.Outcome State Fault Refusal :=
  onlyIf (Instr.switchingPeriod n iCode oc pinBad vstr ledk).WellFormed s
    (s.switchPeriod n.val iCode oc pinBad vstr ledk)
/-- DIMMING_PERIOD. -/
def execDimmingPeriod (n : Fin 16) (s : State) : Host.Outcome State Fault Refusal := .next (s.dimPeriod n.val)
/-- FADE_END. -/
def execFadeEnd (n : Fin 16) (s : State) : Host.Outcome State Fault Refusal := .next (s.endFade n.val)

/-! ## Pattern engines (Table 14.4) -/

/-- The step that a running engine is at, executed when its op code is the row's (R329). A stopped or paused engine,
one whose step's time has not passed, and one with PD_LAMP off execute nothing. -/
def State.engineStep (s : State) (k op : Nat) (f : State → Nat → State) : State :=
  if s.up 9 ∧ s.stepOp k = some op then f s k else s

/-- RAMP. -/
def execRamp (k : Fin 4) (s : State) : Host.Outcome State Fault Refusal := .next (s.engineStep k.val 1 State.engineRamp)
/-- ROTATE. -/
def execRotate (k : Fin 4) (s : State) : Host.Outcome State Fault Refusal :=
  .next (s.engineStep k.val 2 State.engineRotate)
/-- HOLD. -/
def execHold (k : Fin 4) (s : State) : Host.Outcome State Fault Refusal := .next (s.engineStep k.val 3 State.engineHold)
/-- LOOP. -/
def execLoop (k : Fin 4) (s : State) : Host.Outcome State Fault Refusal := .next (s.engineStep k.val 4 State.engineLoop)
/-- EVENT. -/
def execEvent (k : Fin 4) (s : State) : Host.Outcome State Fault Refusal := .next (s.engineStep k.val 5 State.engineEvent)
/-- END. -/
def execPeEnd (k : Fin 4) (s : State) : Host.Outcome State Fault Refusal := .next (s.engineStep k.val 0 State.engineEnd)
/-- ENGINE_ERROR: an op code that Table 14.4 does not list. -/
def execEngineError (k : Fin 4) (s : State) : Host.Outcome State Fault Refusal :=
  .next (match s.stepOp k.val with
    | some op => if 6 ≤ op ∧ s.up 9 then s.engineErr k.val else s
    | none => s)

/-! ## Keys (spec/15) -/

/-- KEY_COLUMN_STEP; one that falls within the self-test of the keys is taken when that ends (R351). -/
def execKeyColumnStep (kp : Bool) (col : Fin 16) (rows : BitVec 16) (s : State) : Host.Outcome State Fault Refusal :=
  onlyIf (Instr.keyColumnStep kp col rows).WellFormed s
    (if s.testing 7 then s.holdRow (.column kp col.val rows) else s.keyStep kp col.val rows)
/-- SHELF_ROW_DETECT. -/
def execShelfRowDetect (s : State) : Host.Outcome State Fault Refusal := .next s.shelfRow
/-- KEY_STUCK. -/
def execKeyStuck (q : Fin 320 × Nat) (s : State) : Host.Outcome State Fault Refusal :=
  .next (s.keyStuck q.1.val q.2)

/-! ## Conversion (spec/16) -/

/-- CONVERSION_END. -/
def execConversionEnd (b : Bool) (samples : List (Int × Int × Int)) (s : State) : Host.Outcome State Fault Refusal :=
  onlyIf (Instr.conversionEnd b samples).WellFormed s (s.convEnd b samples)
/-- CALIBRATION. -/
def execCalibration (s : State) : Host.Outcome State Fault Refusal := .next s.calibrate
/-- SLICE_SWAP. -/
def execSliceSwap (offset gainErr : Int) (s : State) : Host.Outcome State Fault Refusal :=
  .next (s.sliceSwap offset gainErr)
/-- REF_SETTLED. -/
def execRefSettled (mv : Nat) (s : State) : Host.Outcome State Fault Refusal := .next (s.refSettled mv)

/-! ## Fans (spec/17) -/

/-- TACH_EDGE. -/
def execTachEdge (n : Fin 8) (us : Nat) (s : State) : Host.Outcome State Fault Refusal := .next (s.tachEdge n.val us)
/-- TACH_SILENCE. -/
def execTachSilence (n : Fin 8) (s : State) : Host.Outcome State Fault Refusal := .next (s.tachSilence n.val)

end Sys2Proof.Machine
end

