-- ==== Sys2Proof/Machine/Commands.lean ====
section
/-! DEFINITION. The letterbox commands (Table 5.5): each row executes the oldest accepted command of its tenant with its
opcode. One that a self-test holds waits among the held requests; one that waits for flash stays accepted. What a
command reaches is judged under the grants of its start (R61). -/

namespace Sys2Proof.Machine

/-- The clamps of a command's arguments counted (R25), unless the command reset the part. -/
def State.argClamps (s : State) (r : Run) (k : Nat) : State := if s.sys.bootDone then s.clamps r.ten r.path k else s

/-! ## Register commands (R119, R134) -/

/-- ADDR and COUNT of a register command: word addresses, and the clamps. -/
def cfgArgs (r : Run) (most : Nat) : List Nat × Nat :=
  let a := r.arg 4 4
  let n := argClamp 1 most (r.arg 8 1)
  ((List.range n.1).map fun k => (a / 4 * 4 + 4 * k) % 2 ^ 32, (if a % 4 = 0 then 0 else 1) + n.2)

/-- What stops a register command as a whole: the first reach failure, then the first block without power. -/
def State.cfgErrs (s : State) (t : Nat) (write : Bool) (as : List Nat) : Option Err :=
  (as.findSome? fun a => match s.cfgCmdErr t a write with
    | some .off => none
    | e => e) <|> as.findSome? fun a => s.cfgCmdErr t a write

/-- Registers read one after the other with their side effects. -/
def State.cfgReads (s : State) (t : Nat) : List Nat → State × List Byte
  | [] => (s, [])
  | a :: as =>
    let q := (s.cfgSide a).cfgReads t as
    (q.1, leBytes 4 (s.cfgGet t a).toNat ++ q.2)

/-- Registers written one after the other; a write that resets the part is the last. -/
def State.cfgWrites (s : State) (r : Run) : List (Nat × Word) → State
  | [] => s
  | (a, v) :: as =>
    let q := s.cfgPut none a v 0xF
    if q.1.sys.bootDone then (q.1.clamps r.ten r.path q.2).cfgWrites r as else q.1

/-- The words of a command's ARGS from byte 12. -/
def Run.words (r : Run) (n : Nat) : List Word := (List.range n).map fun k => wordOf (r.arg (12 + 4 * k) 4)

/-- ECHO. -/
def State.runEcho (s : State) (r : Run) : State := s.ok r (bytesAt r.slot 4 56)

/-- CFG_READ. -/
def State.runCfgRead (s : State) (r : Run) : State :=
  let a := cfgArgs r 14
  if a.1.any s.cfgHeld then s.hold (.run r.id)
  else match (s.under r).cfgErrs r.ten false a.1 with
  | some e => s.failed r e
  | none =>
    let q := (s.argClamps r a.2).cfgReads r.ten a.1
    q.1.ok r q.2

/-- CFG_WRITE. -/
def State.runCfgWrite (s : State) (r : Run) : State :=
  let a := cfgArgs r 12
  if a.1.any s.cfgHeld then s.hold (.run r.id)
  else match (s.under r).cfgErrs r.ten true a.1 with
  | some e => s.failed r e
  | none => ((s.argClamps r a.2).cfgWrites r (a.1.zip (r.words 12))).ok r []

/-- CFG_MODIFY. The read of the old value has no side effect, and a WO field's old value is 0 (R87). -/
def State.runCfgModify (s : State) (r : Run) : State :=
  let a := r.arg 4 4 / 4 * 4
  let m := wordOf (r.arg 8 4)
  let v := wordOf (r.arg 12 4)
  if s.cfgHeld a then s.hold (.run r.id)
  else match (s.under r).cfgErrs r.ten true [a] <|> (s.under r).cfgErrs r.ten false [a] with
  | some e => s.failed r e
  | none =>
    let s1 := s.argClamps r (if r.arg 4 4 = a then 0 else 1)
    let s2 := s1.cfgWrites r [(a, (s1.cfgGet r.ten a &&& ~~~m) ||| (v &&& m))]
    s2.ok r (leBytes 4 (s2.cfgGet r.ten a).toNat)

/-- OFFSET of a page command held to its range (Table 5.5): 0x000 to 0x0BC, for the keeper also 0x400 to 0x4BC. The
nearest legal offset is taken, and the lower of two equally near ones (log entry 14). -/
def pageOffset (t o : Nat) : Nat :=
  if t = 0 ∧ 0x25E < o then clampNat 0x400 0x4BC o else min 0xBC o

/-- OFFSET and COUNT of a page command: word offsets, the clamps, and whether each is a register of the tenant's page. A
COUNT in its range can still run past the last register of the page, which is unmapped (log entry 14). -/
def pageArgs (r : Run) (most : Nat) : List Nat × Nat × Bool :=
  let a := r.arg 4 2
  let o := pageOffset r.ten a / 4 * 4
  let n := argClamp 1 most (r.arg 6 1)
  let os := (List.range n.1).map fun k => o + 4 * k
  (os, n.2 + (if o = a then 0 else 1), os.all fun o => isPageReg o || (r.ten == 0 && isSysReg o))

/-- Page registers read one after the other with their side effects. -/
def State.pageReads (s : State) (t : Nat) : List Nat → State × List Byte
  | [] => (s, [])
  | o :: os =>
    let q := (s.regSide t o).pageReads t os
    (q.1, leBytes 4 (s.regGet t 0 o).toNat ++ q.2)

/-- Page registers written one after the other; a write that resets the part is the last. -/
def State.pageWrites (s : State) (r : Run) : List (Nat × Word) → State
  | [] => s
  | (o, v) :: os =>
    let q := s.regPut none r.ten o v 0xF
    if q.1.sys.bootDone then (q.1.clamps r.ten r.path q.2).pageWrites r os else q.1

/-- PAGE_READ. -/
def State.runPageRead (s : State) (r : Run) : State :=
  let a := pageArgs r 14
  if a.2.2 then
    let q := (s.argClamps r a.2.1).pageReads r.ten a.1
    q.1.ok r q.2
  else s.failed r .unmapped

/-- PAGE_WRITE. -/
def State.runPageWrite (s : State) (r : Run) : State :=
  let a := pageArgs r 12
  if a.2.2 then ((s.argClamps r a.2.1).pageWrites r (a.1.zip (r.words 12))).ok r [] else s.failed r .unmapped

/-- The bytes of entries of an EQ. -/
def State.eqBytes (s : State) (t h m : Nat) : List Byte := (List.range m).flatMap fun i => s.rdBytes (eqAddr t (h + i)) 8

/-- EQ_READ. With an uncorrectable entry among those asked for nothing is returned and EQ_HEAD stays. -/
def State.runEqRead (s : State) (r : Run) : State :=
  let t := r.ten
  let most := argClamp 1 6 (r.arg 4 1)
  let h := (s.ten t).eqHead
  let m := min most.1 (s.ten t).eqCount
  if s.sramHeld (eqAddr t 0) then s.hold (.run r.id)
  else
    let q := s.eccReadAll ((List.range m).map fun i => eqAddr t (h.toNat + i))
    if q.2 then q.1.finish r 4 []
    else
      let s1 := (q.1.argClamps r most.2).updTen t fun T => { T with eqHead := h + BitVec.ofNat 7 m }
      s1.ok r ([BitVec.ofNat 8 m, 0, 0, 0] ++ q.1.eqBytes t h.toNat m)

/-! ## Window commands (R124 to R129) -/

/-- WIN_WRITE: in full or not at all. -/
def State.runWinWrite (s : State) (r : Run) : State :=
  let t := r.ten
  let w := argClamp 0 3 (r.arg 4 1)
  let g := winRange (r.arg 6 2) (r.arg 5 1) 1 48 1
  let ws := wordsOf g.1 (bytesAt r.slot 8 g.2.1)
  if s.rangeHeld t w.1 g.1 g.2.1 then s.hold (.run r.id)
  else match (s.under r).winErrs t w.1 true (ws.map fun q => q.1) with
  | some e => s.failed r e
  | none => ((s.argClamps r (w.2 + g.2.2)).winPutAll t w.1 r.path ws).ok r []

/-- WIN_COMMIT. -/
def State.runWinCommit (s : State) (r : Run) : State :=
  let a := commitArgs r.slot
  if s.rangeHeld r.ten a.1 a.2.1 a.2.2.1 then s.hold (.run r.id)
  else if s.rangeBusy r.ten a.1 a.2.1 a.2.2.1 then s
  else
    let q := s.winCommit r.ten a.1 a.2.1 a.2.2.1 (wordOf (r.arg 12 4)) r.path
      ((s.under r).commitErr r.ten a.1 (s.commitOffs r.ten a.1 a.2.1 a.2.2.1))
    let s1 := if q.2.1 = 2 ∨ q.2.1 = 10 then q.1 else q.1.argClamps r a.2.2.2
    s1.finish r q.2.1 q.2.2

/-! ## Flips (R45, R47, R306) -/

/-- The cells of a cell map at bytes 12 to 35. -/
def mapCells (r : Run) : List Nat :=
  (List.range 192).filter fun i => (r.slot.getD (12 + i / 8) 0).getLsbD (i % 8)

/-- Some port of a map is under its self-test (R315). -/
def State.mapHeld (s : State) (cells : List Nat) : Bool :=
  match s.testUnit 5 with
  | some p => cells.any fun c => c / 16 == p
  | none => false

/-- An arm for a tick comes before slot 39 of the tick before it (R47). -/
def State.armInTime (s : State) (n : Nat) : Bool := s.now + 1 < n || (s.now + 1 == n && s.tick.slot < 39)

/-- FLIP_ARM: the whole map is the tenant's, the tick number is set, and the tick is not too near. -/
def State.runFlipArm (s : State) (r : Run) : State :=
  let cells := mapCells r
  let n := r.arg 4 6
  if s.mapHeld cells then s.hold (.run r.id)
  else if (cells.any fun c => (s.under r).owner 0 c ≠ r.ten) then s.failed r .door
  else if s.tick.numValid = false ∨ s.armInTime n = false ∨ s.up 8 = false then s.failed r .off
  else
    (s.each cells fun s c => s.updCell c fun x => { x with arm := some (BitVec.ofNat 48 n), verdict := none }).ok r
      [BitVec.ofNat 8 cells.length]

/-- FLIP_CANCEL. -/
def State.runFlipCancel (s : State) (r : Run) : State :=
  let cells := mapCells r
  if s.mapHeld cells then s.hold (.run r.id)
  else if (cells.any fun c => (s.under r).owner 0 c ≠ r.ten) then s.failed r .door
  else if s.up 8 = false then s.failed r .off
  else (s.each cells State.unarm).ok r [BitVec.ofNat 8 (cells.filter fun c => (s.cell c).arm.isSome).length]

/-! ## Flash commands (R191, R218, R220 to R224) -/

/-- A pulse of another sector can be suspended now (R189). -/
def State.suspendable (s : State) : Bool :=
  s.flash.st == .erasePulse && s.flash.suspCnt < 8 && s.flash.suspUs < 1000

/-- Firmware reads flash sectors: at once, or by suspending a pulse of another sector, or not yet (R184, R191). -/
def State.flashFor (s : State) (sects : List Nat) (f : State → State) : State :=
  if s.testing 2 ∨ (sects.any s.erasing) then s
  else if s.flashBusy then (if s.suspendable then (f s.suspend).resumePulse else s)
  else f s

/-- The sectors of a flash range. -/
def rangeSectors (off n : Nat) : List Nat := (List.range ((off % 2048 + n + 2047) / 2048)).map fun i => off / 2048 + i

/-- A tenant's flash command reaches a sector, for writing where `write` (R58, R64, R79, R179, R218). -/
def State.flashOk (s : State) (t n : Nat) (write : Bool) : Bool := s.flashReach t n && !(write && s.leafHeld n)

/-- FLASH_READ. -/
def State.runFlashRead (s : State) (r : Run) : State :=
  let off := r.arg 4 4
  let n := argClamp 1 48 (r.arg 8 1)
  let sects := rangeSectors off n.1
  if s.testing 2 then s.hold (.run r.id)
  else if 0x800000 < off + n.1 ∨ (sects.any fun x => !(s.under r).flashOk r.ten x false) then s.failed r .door
  else if s.up 5 = false then s.failed r .off
  else s.flashFor sects fun s =>
    let q := (s.argClamps r n.2).flashBytes off n.1
    match q.2 with
    | some bs => q.1.ok r bs
    | none => q.1.finish r 4 []

/-- OFFSET, COUNT, WIN and window OFFSET of FLASH_PROG, with the clamps: whole words within one sector and one
window. -/
def progArgs (r : Run) : Nat × Nat × Nat × Nat × Nat :=
  let off := r.arg 4 4 / 8 * 8
  let w := argClamp 0 3 (r.arg 9 1)
  let wo := min 8184 (r.arg 10 2 / 8 * 8)
  let n := min (clampNat 1 8 (r.arg 8 1)) (min ((2048 - off % 2048) / 8) ((8192 - wo) / 8))
  (off, n, w.1, wo, (if off = r.arg 4 4 then 0 else 1) + w.2 + (if wo = r.arg 10 2 then 0 else 1) +
    if n = r.arg 8 1 then 0 else 1)

/-- FLASH_PROG: its words join the flash queue. A pulse of another sector is suspended for it. -/
def State.runFlashProg (s : State) (r : Run) : State :=
  let (off, n, w, wo, k) := progArgs r
  if s.testing 2 ∨ s.rangeHeld r.ten w wo (8 * n) then s.hold (.run r.id)
  else if 0x800000 ≤ off ∨ (s.under r).flashOk r.ten (off / 2048) true = false then s.failed r .door
  else match (s.under r).winErrs r.ten w false (wordOffs wo (8 * n)) with
  | some e => s.failed r e
  | none =>
  if s.up 5 = false then s.failed r .off
  else if s.rangeBusy r.ten w wo (8 * n) then s
  else
    let q := s.committedBytes r.ten w wo (8 * n)
    match q.2 with
    | none => q.1.failed r .uncorrectable
    | some bs =>
      let s1 := (q.1.argClamps r k).setRun r.id .working
      let s2 := if s1.suspendable && !s1.erasing (off / 2048) then s1.suspend else s1
      s2.enqueueNew ((List.range n).map (fun i =>
        FlashOp.prog (off / 8 + i) (BitVec.ofNat 64 (natAt bs (8 * i) 8)) (.cmd r.id)) ++ [.done 0 n (.cmd r.id)])

/-- SECTOR_ERASE: the erase joins the flash queue (Table 8.6: REASON 1). -/
def State.runSectorErase (s : State) (r : Run) : State :=
  let n := argClamp 0 4095 (r.arg 4 2)
  if s.testing 2 then s.hold (.run r.id)
  else if (s.under r).flashOk r.ten n.1 true = false then s.failed r .door
  else if s.up 5 = false then s.failed r .off
  else ((s.argClamps r n.2).setRun r.id .working).enqueueNew [.erase n.1 1 (.cmd r.id), .done 0 0 (.cmd r.id)]

/-- A STORE of the tenant that was accepted before still runs (R224). -/
def State.storing (s : State) (r : Run) : Bool :=
  s.runs.any fun q => q.ten == r.ten && slotOp q.slot == 0x38 && decide (q.id < r.id) && q.result.isNone

/-- WIN, OFFSET and LEN of STORE and LOAD: LEN 0 is 1 and the range ends with the window (R220). -/
def recordArgs (r : Run) : Nat × Nat × Nat × Nat :=
  let w := argClamp 0 3 (r.arg 4 1)
  let g := winRange (r.arg 6 2) (r.arg 8 2) 1 8192 1
  (w.1, g.1, g.2.1, w.2 + g.2.2)

/-- The sectors of a tenant's settings area. -/
def areaSectors (t : Nat) : List Nat := (List.range 8).map fun i => 544 + 8 * t + i

/-- STORE: the record's operations join the flash queue (R221). -/
def State.runStore (s : State) (r : Run) : State :=
  let t := r.ten
  let (w, o, n, k) := recordArgs r
  if s.testing 2 ∨ s.rangeHeld t w o n then s.hold (.run r.id)
  else if s.storing r then s
  else if (s.ten t).wType w ≠ 2 then s.failed r .door
  else match (s.under r).winErrs t w false (wordOffs o n) with
  | some e => s.failed r e
  | none =>
  if s.up 5 = false then s.failed r .off
  else if 8176 < n then (s.argClamps r k).finish r 6 []
  else
    let q := s.committedBytes t w o n
    match q.2 with
    | none => q.1.failed r .uncorrectable
    | some bs => q.1.flashFor (areaSectors t) fun s =>
      let f := (s.argClamps r k).inForce false t
      let slot := match f.2.1 with
        | some x => 1 - x.1
        | none => 0
      let gen := match f.2.1 with
        | some x => x.2.1 + 1
        | none => 1
      (f.1.setRun r.id .working).enqueueNew (f.1.recordOps false t slot gen bs 1 (.cmd r.id))

/-- The staged words of a window in a byte range discarded. -/
def State.dropStaged (s : State) (t w off n : Nat) : State :=
  if n = 0 then s
  else s.updTen t fun T => { T with staged := SMap.clear T.staged (2048 * w + off / 4) (2048 * w + (off + n + 3) / 4) }

/-- The body of a record written into a SCRATCH window (R222). -/
def State.loadBody (s : State) (r : Run) (w o n gen : Nat) (body : List Byte) : State :=
  let t := r.ten
  let m := min n body.length
  match s.winTarget t w o with
  | some (.sram a) =>
    let q := s.sramPut a (body.take m)
    if q.2 then q.1.finish r 4 []
    else (q.1.dropStaged t w o m).ok r (leBytes 2 m ++ [0, 0] ++ leBytes 4 gen)
  | _ => s.failed r .door

/-- LOAD. -/
def State.runLoad (s : State) (r : Run) : State :=
  let t := r.ten
  let (w, o, n, k) := recordArgs r
  if s.testing 2 ∨ s.rangeHeld t w o n then s.hold (.run r.id)
  else if s.storing r then s
  else if (s.ten t).wType w ≠ 2 then s.failed r .door
  else match (s.under r).winErrs t w true (wordOffs o n) with
  | some e => s.failed r e
  | none =>
    if s.up 5 = false then s.failed r .off
    else s.flashFor (areaSectors t) fun s =>
      let f := (s.argClamps r k).inForce false t
      match f.2.1 with
      | some x => f.1.loadBody r w o n x.2.1 x.2.2
      | none => if f.2.2 then f.1.finish r 4 [] else f.1.ok r []

/-! ## Self-test, grants and power (R17, R60, R119, R262) -/

/-- The last UNIT of a block's self-test, and the domain that the block lies in. -/
def testBlock : Nat → Nat × Nat
  | 1 => (127, 1)
  | 2 => (255, 5)
  | 3 => (255, 14)
  | 4 => (1, 4)
  | 5 => (11, 8)
  | 6 => (15, 9)
  | 7 => (1, 11)
  | 8 => (7, 12)
  | _ => (31, 10)

/-- A tenant may test a unit (Table 5.5, R315, R351). -/
def State.mayTest (s : State) (t block unit : Nat) : Bool :=
  match block with
  | 5 => t == 0 || s.ownsPort t unit
  | 6 => s.owner 1 unit == t
  | 7 => (List.range (if unit = 0 then 256 else 64)).any fun k => s.owner 3 (256 * unit + k) == t
  | 8 => s.owner 5 unit == t
  | 9 => s.owner 4 unit == t
  | _ => t == 0

/-- SELF_TEST: the test starts once its block runs no other and, for FLASH, no pulse is applied. -/
def State.runSelfTest (s : State) (r : Run) : State :=
  let b := argClamp 1 9 (r.arg 4 1)
  let u := argClamp 0 (testBlock b.1).1 (r.arg 5 1)
  if s.testing b.1 ∨ (b.1 = 5 ∧ s.disp.due.isSome) ∨ (b.1 = 9 ∧ s.adc.due.isSome) then s.hold (.run r.id)
  else if b.1 = 2 ∧ s.flashBusy then s
  else if (s.under r).mayTest r.ten b.1 u.1 = false then s.failed r .door
  else if s.up (testBlock b.1).2 = false then s.failed r .off
  else ((s.argClamps r (b.2 + u.2)).setRun r.id .working).testStart b.1 ⟨u.1, r.id⟩

/-- GRANT: the writes of SYS_GRANT_IDX, whose AINC stays, and SYS_GRANT_DATA, with the arguments clamped. -/
def State.runGrant (s : State) (r : Run) : State :=
  let c := argClamp 0 9 (r.arg 4 1)
  let i := argClamp 0 (classSize c.1 - 1) (r.arg 6 2)
  let o := argClamp 0 31 (r.arg 8 1)
  let k := if c.1 < 8 then argClamp 0 1 (r.arg 9 1) else (0, 0)
  let s1 := (s.grantIdx (wordOf (i.1 + 4096 * c.1 + 65536 * bitNat s.grants.ainc)) 0).1
  let data := o.1 + 32 * k.1 + if c.1 < 8 then 0 else 256 * min 4095 (r.arg 10 2) + 2 ^ 20 * min 4095 (r.arg 12 2)
  let q := s1.grantStage (wordOf data)
  let routed := c.1 == 7 && evRouted i.1
  let done := if q.2.2 then false else if routed then Config.grantRouted s.free else true
  let s2 := (if routed then q.1.drawn else q.1).argClamps r (c.2 + i.2 + o.2 + k.2 + q.2.1)
  s2.ok r [BitVec.ofNat 8 (bitNat done)]

/-- PWR_REQ. -/
def State.runPwrReq (s : State) (r : Run) : State :=
  let q := s.sysPut none 0x400 (wordOf (r.arg 4 4)) 0xF
  (q.1.argClamps r q.2).ok r []

/-- An accepted command executed, by its opcode (Table 5.5). -/
def State.execute (s : State) (r : Run) : State :=
  match slotOp r.slot with
  | 0x01 => s.runEcho r
  | 0x02 => s.runCfgRead r
  | 0x03 => s.runCfgWrite r
  | 0x04 => s.runCfgModify r
  | 0x05 => s.runPageRead r
  | 0x06 => s.runPageWrite r
  | 0x07 => s.runEqRead r
  | 0x10 => s.runWinWrite r
  | 0x11 => s.runWinCommit r
  | 0x20 => s.runFlipArm r
  | 0x21 => s.runFlipCancel r
  | 0x30 => s.runFlashRead r
  | 0x31 => s.runFlashProg r
  | 0x32 => s.runSectorErase r
  | 0x38 => s.runStore r
  | 0x39 => s.runLoad r
  | 0x40 => s.runSelfTest r
  | 0x50 => s.runGrant r
  | 0x52 => s.runPwrReq r
  | _ => s

/-! ## The meanings of the command rows -/

/-- ECHO. -/
def execEcho (t : Fin 32) (s : State) : Host.Outcome State Fault Refusal := .next (s.withRun t.val 0x01 State.runEcho)
/-- CFG_READ. -/
def execCfgRead (t : Fin 32) (s : State) : Host.Outcome State Fault Refusal :=
  .next (s.withRun t.val 0x02 State.runCfgRead)
/-- CFG_WRITE. -/
def execCfgWrite (t : Fin 32) (s : State) : Host.Outcome State Fault Refusal :=
  .next (s.withRun t.val 0x03 State.runCfgWrite)
/-- CFG_MODIFY. -/
def execCfgModify (t : Fin 32) (s : State) : Host.Outcome State Fault Refusal :=
  .next (s.withRun t.val 0x04 State.runCfgModify)
/-- PAGE_READ. -/
def execPageRead (t : Fin 32) (s : State) : Host.Outcome State Fault Refusal :=
  .next (s.withRun t.val 0x05 State.runPageRead)
/-- PAGE_WRITE. -/
def execPageWrite (t : Fin 32) (s : State) : Host.Outcome State Fault Refusal :=
  .next (s.withRun t.val 0x06 State.runPageWrite)
/-- EQ_READ. -/
def execEqRead (t : Fin 32) (s : State) : Host.Outcome State Fault Refusal :=
  .next (s.withRun t.val 0x07 State.runEqRead)
/-- WIN_WRITE. -/
def execWinWrite (t : Fin 32) (s : State) : Host.Outcome State Fault Refusal :=
  .next (s.withRun t.val 0x10 State.runWinWrite)
/-- WIN_COMMIT. -/
def execWinCommit (t : Fin 32) (s : State) : Host.Outcome State Fault Refusal :=
  .next (s.withRun t.val 0x11 State.runWinCommit)
/-- FLIP_ARM. -/
def execFlipArm (t : Fin 32) (s : State) : Host.Outcome State Fault Refusal :=
  .next (s.withRun t.val 0x20 State.runFlipArm)
/-- FLIP_CANCEL. -/
def execFlipCancel (t : Fin 32) (s : State) : Host.Outcome State Fault Refusal :=
  .next (s.withRun t.val 0x21 State.runFlipCancel)
/-- FLASH_READ. -/
def execFlashRead (t : Fin 32) (s : State) : Host.Outcome State Fault Refusal :=
  .next (s.withRun t.val 0x30 State.runFlashRead)
/-- FLASH_PROG. -/
def execFlashProg (t : Fin 32) (s : State) : Host.Outcome State Fault Refusal :=
  .next (s.withRun t.val 0x31 State.runFlashProg)
/-- SECTOR_ERASE. -/
def execSectorErase (t : Fin 32) (s : State) : Host.Outcome State Fault Refusal :=
  .next (s.withRun t.val 0x32 State.runSectorErase)
/-- STORE. -/
def execStore (t : Fin 32) (s : State) : Host.Outcome State Fault Refusal := .next (s.withRun t.val 0x38 State.runStore)
/-- LOAD. -/
def execLoad (t : Fin 32) (s : State) : Host.Outcome State Fault Refusal := .next (s.withRun t.val 0x39 State.runLoad)
/-- SELF_TEST. -/
def execSelfTest (t : Fin 32) (s : State) : Host.Outcome State Fault Refusal :=
  .next (s.withRun t.val 0x40 State.runSelfTest)
/-- GRANT. -/
def execGrant (t : Fin 32) (s : State) : Host.Outcome State Fault Refusal := .next (s.withRun t.val 0x50 State.runGrant)
/-- PWR_REQ. -/
def execPwrReq (t : Fin 32) (s : State) : Host.Outcome State Fault Refusal :=
  .next (s.withRun t.val 0x52 State.runPwrReq)
/-- BUSY_RETRY (R117). -/
def execBusyRetry (t : Fin 32) (s : State) : Host.Outcome State Fault Refusal := .next (s.busyRetry t.val)
/-- COMMAND_COMPLETE (R114). -/
def execCommandComplete (t : Fin 32) (s : State) : Host.Outcome State Fault Refusal := .next (s.complete t.val)

end Sys2Proof.Machine
end

