-- ==== Sys2Proof/Machine/DebugRows.lean ====
section
/-! DEFINITION. The TAP's rows (spec/21): instructions, boundary scan, flash access. -/

namespace Sys2Proof.Machine

/-- TAP_RESET. -/
def execTapReset (s : State) : Host.Outcome State Fault Refusal := .next (s.tapLoad .idcode)
/-- EXTEST. -/
def execExtest (pins : BitVec 474) (s : State) : Host.Outcome State Fault Refusal := .next (s.tapScan .extest pins)
/-- SAMPLE_PRELOAD. -/
def execSamplePreload (pins : BitVec 474) (s : State) : Host.Outcome State Fault Refusal :=
  .next (s.tapScan .samplePreload pins)
/-- IDCODE. -/
def execIdcode (s : State) : Host.Outcome State Fault Refusal := .next s.tapIdcode
/-- HIGHZ. -/
def execHighz (s : State) : Host.Outcome State Fault Refusal := .next (s.tapLoad .highz)
/-- CLAMP. -/
def execClamp (s : State) : Host.Outcome State Fault Refusal := .next (s.tapLoad .clamp)
/-- BYPASS, or a code that Table 21.1 does not list. -/
def execBypass (s : State) : Host.Outcome State Fault Refusal := .next (s.tapLoad .bypass)
/-- FLASH_ACC_WRITE. -/
def execFlashAccWrite (addr : BitVec 21) (data : Word) (s : State) : Host.Outcome State Fault Refusal :=
  .next (s.accWrite addr data)
/-- FLASH_ACC_READ. -/
def execFlashAccRead (addr : BitVec 21) (s : State) : Host.Outcome State Fault Refusal := .next (s.accRead addr)
/-- FLASH_ACC_STATUS. -/
def execFlashAccStatus (s : State) : Host.Outcome State Fault Refusal := .next s.accStatus

end Sys2Proof.Machine
end

