-- ==== Sys2Proof/Machine/Delivery.lean ====
section
/-! DEFINITION. Link frames at this device (spec/10): local delivery (Tables 10.6 and 10.7), enumeration, the responses
of link commands, wake messages and path hold (R236 to R252). -/

namespace Sys2Proof.Machine

/-! ## Link frame buffers (R169, R234, Table 7.3) -/

/-- The words of the link frame area that hold errors: the part of letterbox memory behind the tenants' letterboxes. -/
def State.linkBufErrors (s : State) : List Nat :=
  (s.ecc.map fun q => q.1).filter fun k => lbxBase + 32 * 0x1200 ≤ k && k < lbxBase + 0x40000

/-- A buffer of the link frame area is read; true when a word of it is uncorrectable. -/
def State.linkBufRead (s : State) : State × Bool :=
  s.linkBufErrors.foldl (fun r k =>
    if Config.linkBufWord r.1.free then
      let q := r.1.drawn.eccRead k
      (q.1, r.2 || q.2)
    else (r.1.drawn, r.2)) (s, false)

/-- EV71 for what a link buffer lost (Table 7.4): bit 16 set. -/
def State.ev71Link (s : State) (t tag : Nat) : State := s.raise 71 (.tenant t) (wordOf (tag + 65536))

/-- EV71 for a received frame in a buffer that cannot be read: the TAG is free (Table 7.4 gives a response's). -/
def State.ev71Lost (s : State) (t : Nat) : State := s.drawn.ev71Link t (Config.lostTag s.free).toNat

/-! ## Local delivery (R237, Table 10.7) -/

/-- First row of Table 10.7. -/
def State.notReady (s : State) : Bool := !s.sys.bootDone || !s.up 1 || s.pwr.pathHold

/-- A unicast request frame for this device is delivered: the LINK source outside Louvred and Latched (Table 11.2). -/
def State.linkWake (s : State) (b : List Byte) : State :=
  if s.ownDst (frDst b) && (s.pwr.st == .opened || s.pwr.st == .ajar) then s.takeWake 0 else s

/-- A frame answered with STATUS when it is unicast (R229). -/
def State.answerUni (s : State) (b : List Byte) (status retry info : Nat) : State :=
  if frUnicast b then s.answer b status retry info else s

/-- ACNT, the tag and the bytes that it covers, of a frame with AUTH (R73). -/
def frTagged (b : List Byte) : Option (Nat × Nat × List Byte) :=
  if frAuth b then some (frAcnt b, beNat (bytesAt b (20 + frLen b) 8), b.take (20 + frLen b)) else none

/-- The rows of Table 10.7 that stop a tenant's frame; otherwise `f` delivers it. -/
def State.passFrame (s : State) (b : List Byte) (f : State → State) : State :=
  let t := frTen b
  let s0 := s.linkWake b
  if s0.notReady then s0.answerUni b 10 0 0
  else
    let r := s0.linkBufRead
    if r.2 then r.1.ev71Lost t
    else
      let q := r.1.authenticate t (frTagged b)
      match q.2 with
      | some status => q.1.answerUni b status 0 0
      | none => if q.1.door t = .opened then f q.1 else q.1.answerUni b 2 0 0

/-! ## CMD (R130, R131, R238, R239) -/

/-- A CMD (type 1) or a WIN (type 2) whose slots or whose words a self-test holds, or whose tag the self-test of SEC does
(R17). -/
def State.frameHeld (s : State) (type : Nat) : Bool :=
  match s.link.loc with
  | b :: _ =>
    frType b == type && ((s.testing 3 && frAuth b) ||
      if type = 2 then s.rangeHeld (frTen b) (natAt b 20 1) (natAt b 22 2) (frLen b - 4)
      else (List.range (frLen b / 64)).any fun j => s.sramHeld (cqAddr (frTen b) ((s.ten (frTen b)).cqTail.toNat + j)))
  | [] => false

/-- Link response buffers of a tenant in use. -/
def State.bufsOf (s : State) (t : Nat) : Nat :=
  (s.link.bufs.filter fun q => match q.2 with
    | some r => r.ten == t
    | none => false).length

/-- A number that no link response buffer has and none that a run still names. -/
def State.freeBuf (s : State) : Nat :=
  let used := s.link.bufs.map (fun q => q.1) ++ s.runs.filterMap (fun r => r.link.map fun l => l.1) ++
    s.link.cqFrom.filterMap fun q => q.2.map fun l => l.1
  used.foldl max 0 + 1

/-- A slot of a frame enters a CQ at CQ_TAIL. -/
def State.linkSlot (s : State) (t buf : Nat) (b : List Byte) (j : Nat) : State :=
  let tail := (s.ten t).cqTail
  let s1 := (s.wrWhole (cqAddr t tail.toNat) (bytesAt b (20 + 64 * j) 64)).updTen t fun T => { T with cqTail := tail + 1 }
  s1.updLink fun k => { k with
    cqFrom := SMap.set (fun _ => none) k.cqFrom (32 * t + tail.toNat % 32) (some (buf, j)) }

/-- A CMD frame at its tenant. -/
def State.deliverCmd (s : State) (b : List Byte) : State :=
  let t := frTen b
  let k := frLen b / 64
  if 32 - (s.ten t).cqCount < k ∨ 4 ≤ s.bufsOf t then
    if frUnicast b then s.answer b 1 1 0
    else (s.updLink fun l => { l with grpMiss := sat16 l.grpMiss }).raise 23 .granted
      (wordOf (t + 256 * frDst b + 65536 * frTag b))
  else
    let n := s.freeBuf
    let s1 := s.setBuf n (some ⟨t, frTag b, frUnicast b, frAuth b, List.replicate k none, false⟩)
    s1.each (List.range k) fun s j => s.linkSlot t n b j

/-- The oldest local frame, a CMD. -/
def State.cmdIn (s : State) : State :=
  if s.frameHeld 0x01 then s.hold .frame
  else match s.takeLocal 0x01 with
  | some (s1, b) => s1.passFrame b fun s => s.deliverCmd b
  | none => s

/-! ## WIN -/

/-- The words of a WIN frame. -/
def frWinWords (b : List Byte) : List (Nat × Word × BitVec 4) :=
  wordsOf (natAt b 22 2) (bytesAt b 24 (frLen b - 4))

/-- A WIN frame at its tenant: its words up to the first that would end with a bus error. -/
def State.deliverWin (s : State) (b : List Byte) : State :=
  let t := frTen b
  let ws := frWinWords b
  let inside := ws.takeWhile fun q => q.1 < 8192
  let r := s.winPutWords t (natAt b 20 1) (.cmd 0 (frTag b)) inside 0
  let ok := r.2.2.isNone && inside.length == ws.length
  r.1.answer b (if ok then 0 else 2) 0 r.2.1

/-- The oldest local frame, a WIN. -/
def State.winIn (s : State) : State :=
  if s.frameHeld 0x02 then s.hold .frame
  else match s.takeLocal 0x02 with
  | some (s1, b) => s1.passFrame b fun s => s.deliverWin b
  | none => s

/-! ## TICKNUM (R247) -/

/-- The oldest local frame, a TICKNUM: stored while PD_FAB is ready. -/
def State.ticknumIn (s : State) : State :=
  match s.takeLocal 0x03 with
  | some (s1, b) =>
    if s1.notReady then s1 else s1.updTick fun k => { k with ticknum := some (BitVec.ofNat 48 (natAt b 20 6)) }
  | none => s

/-! ## Enumeration (R241) -/

/-- ENUM originated on DN while its hop is UP. -/
def State.enumOn (s : State) (next segid ftag : Nat) : State :=
  if s.hopIsUp true then
    s.sendOn true false (withCrc (frHead 0x10 0 255 s.ownAddr 0 ftag 0 ([BitVec.ofNat 8 next, 0] ++ leBytes 2 segid)))
  else s

/-- ENUM_RSP (Table 10.4). -/
def State.enumRsp (s : State) (addr old : Nat) (full : Bool) (ftag : Nat) : State :=
  let bits := bitNat (s.hopIsUp true) + 2 * bitNat s.sys.bootDone + 4 * bitNat full
  s.sendUp (withCrc (frHead 0x90 0 0 s.ownAddr 0 ftag 0
    ([BitVec.ofNat 8 addr, BitVec.ofNat 8 old, BitVec.ofNat 8 bits, 0] ++ leBytes 4 (0x09610000 + s.part.step) ++
      leBytes 8 Config.uid.toNat)))

/-- An ENUM that is broadcast: the address is taken, or the segment is full. -/
def State.enumTake (s : State) (next segid ftag : Nat) : State :=
  let old := s.sys.linkAddr
  if next = 0 ∨ 240 < next then s
  else if next = 240 then
    ((s.updSys fun k => { k with linkAddr := 0 }).updLink fun l => { l with bound := false }).enumRsp 0 old true ftag
  else
    let s1 := (s.updSys fun k => { k with linkAddr := next }).updLink fun l => { l with
      bound := true, last := old, segid := segid }
    ((s1.enumRsp next old false ftag).raise 16 .granted (wordOf (next + 256 * old + 65536 * segid))).enumOn (next + 1)
      segid ftag

/-- The oldest local frame, an ENUM: handled by the link engine, before boot and in path hold as well. -/
def State.enumIn (s : State) : State :=
  match s.takeLocal 0x10 with
  | some (s1, b) =>
    let next := natAt b 20 1
    let segid := natAt b 22 2
    if frUnicast b then (s1.linkWake b).enumOn next segid (frTag b) else s1.enumTake next segid (frTag b)
  | none => s

/-! ## Wake messages and path hold (R248 to R252) -/

/-- A NOTICE AWAKE is owed; one is enough for a wake by message. -/
def State.owe (s : State) (n : Option Nat) : State :=
  if n = none ∧ s.link.awake.contains none then s else s.updLink fun k => { k with awake := k.awake ++ [n] }

/-- The bits of a wake message to an address (R248). -/
def wakeBits (addr : Nat) : BitVec 16 :=
  BitVec.ofNat 16 (0xA000 + 16 * (addr % 256) + (10 ^^^ (addr % 256 / 16) ^^^ (addr % 16)))

/-- A wake message as it is sent: its cells, bit 15 first, each a positive and a negative pulse (Table 10.8). -/
def sentCells (bits : BitVec 16) : List (Bool × Nat) :=
  (List.range 16).flatMap fun i =>
    if bits.getLsbD (15 - i) then [(true, 3000), (false, 1000)] else [(true, 1000), (false, 3000)]

/-- The pulses that the receiver does not ignore, those of one polarity in a row taken together (Table 10.8, log
entry 138). -/
def wakePulses (line : List (Bool × Nat)) : List (Bool × Nat) :=
  (line.filter fun p => 500 ≤ p.2).foldr (fun p ps => match ps with
    | q :: qs => if q.1 = p.1 then (p.1, p.2 + q.2) :: qs else p :: ps
    | [] => [p]) []

/-- The bit of a cell of so many ns positive and so many negative (R249): none for a length or a ratio that is not
accepted. -/
def cellBit (pos neg : Nat) : Option Bool :=
  if pos + neg < 2000 ∨ 20000 < pos + neg then none
  else if 3 * neg ≤ 2 * pos then some true
  else if 3 * pos ≤ 2 * neg then some false
  else none

/-- The bits of a line of cells. -/
def cellBits : List (Bool × Nat) → Option (List Bool)
  | [] => some []
  | (true, pos) :: (false, neg) :: ps =>
    match cellBit pos neg, cellBits ps with
    | some b, some bs => some (b :: bs)
    | _, _ => none
  | _ => none

/-- The 16 bits of a message, first bit most significant; any other line is no message. -/
def wakeDecode (line : List (Bool × Nat)) : Option (BitVec 16) :=
  match cellBits (wakePulses line) with
  | some bs => if bs.length = 16 then some (BitVec.ofNat 16 (bs.foldl (fun n b => 2 * n + bitNat b) 0)) else none
  | none => none

/-- PD_LINK comes on alone, and both ports train (R252). A restore brings it up in its own order (R273). -/
def State.pathHoldStart (s : State) : State :=
  if s.up 4 ∨ s.pwr.phase = .restoring then s
  else
    ((s.updPwr fun p => { p with
      pathHold := true, domOn := p.domOn ||| 0x0010, domReady := p.domReady ||| 0x0010 }).train false).train true

/-- Table 10.9 for an address that gives a full wake: source LINK, or path hold while SYS_WAKE_EN bit 0 is 0 (R250).
The NOTICEs AWAKE that it owes follow (R251). -/
def State.fullWake (s : State) (owed : List (Option Nat)) : State :=
  let awake := (s.pwr.st = .opened ∨ s.pwr.st = .ajar) ∧ s.pwr.phase ≠ .committed
  if s.pwr.wakeEn.getLsbD 0 then ((owed.foldl State.owe s).takeWake 0).awakeSend
  else if awake then (owed.foldl State.owe s).awakeSend
  else s.pathHoldStart

/-- The oldest local frame, a WAKE: a wake message to its DST. One that must also go on DN, whose hop is not UP, goes
there as a wake message (R251). -/
def State.wakeIn (s : State) : State :=
  match s.takeLocal 0x04 with
  | some (s1, b) =>
    let on := !s1.ownDst (frDst b) && !s1.hopIsUp true
    let s2 := if on then s1.updLink fun k => { k with wakeRpt := k.wakeRpt ++ [wakeBits (frDst b)] } else s1
    s2.fullWake (if frUnicast b then [some (frTag b)] else [])
  | none => s

/-- The AO front end listens on UP: PD_LINK off, VAO present, the port enabled (R249, R255). -/
def State.frontEnd (s : State) : Bool :=
  !s.pwr.domOn.getLsbD 4 && s.pwr.vao && s.link.up.en && (s.pwr.st == .louvred || s.pwr.st == .latched)

/-- A decoded message (R248, R250, Table 10.9). A wrong KIND or CHK discards it. -/
def State.wakeBitsIn (s : State) (bits : BitVec 16) : State :=
  let addr := fieldOf bits.toNat 4 8
  if bits ≠ wakeBits addr then s
  else if s.ownDst addr then s.fullWake [none]
  else
    let s1 := s.updLink fun k => { k with wakeRpt := k.wakeRpt ++ [bits] }
    if addr = 255 ∨ s.inGroup addr then s1.fullWake [none] else s1.pathHoldStart

/-- What the front end sees on UP: a message, or nothing that it decodes (R249). -/
def State.wakeMessage (s : State) (line : List (Bool × Nat)) : State :=
  if s.frontEnd = false then s
  else match wakeDecode line with
  | some bits => s.wakeBitsIn bits
  | none => s

/-- The oldest wake message goes out on DN; a port that PD_LINK drives then resumes TRAINING (R248, R251). -/
def State.wakeRepeat (s : State) : State :=
  match s.link.wakeRpt with
  | [] => s
  | bits :: rest =>
    let s1 := s.updLink fun k => { k with wakeRpt := rest }
    if s.pwr.vao = false ∨ s.hopIsUp true then s1 else (s1.emit true (.wakeMsg bits)).train true

/-- Path hold ends: SLEEP, PD_LINK off, LINK_PHOLD.COUNT (R252). -/
def State.pathHoldEnd (s : State) : State :=
  if s.pwr.pathHold then
    (s.linkOff.updPwr fun p => { p with
      pathHold := false, domOn := p.domOn &&& 0xFFEF, domReady := p.domReady &&& 0xFFEF }).updLink fun k =>
      { k with pholdCnt := sat16 k.pholdCnt }
  else s

/-! ## CMD_RSP (R172, R238) -/

/-- The oldest buffer of a unicast frame whose slots all have responses. -/
def State.rspDue (s : State) : Option (Nat × RspBuf × List (List Byte)) :=
  s.link.bufs.findSome? fun q => match q.2 with
    | some r => if r.unicast && !r.dead && r.slots.all Option.isSome then some (q.1, r, r.slots.filterMap id) else none
    | none => none

/-- A response that fails its exit check on its way to the link (R172). -/
def State.rspBad (s : State) (t : Nat) (b : List Byte) : State :=
  ({ s with prot := { s.prot with exitFail := sat16 s.prot.exitFail } }).ev71Link t (slotTag b)

/-- CMD_RSP is sent, once every response's CHECK has been verified. From a buffer that cannot be read every response is
lost, each with its EV71 (Tables 7.3 and 7.4). -/
def State.rspSend (s : State) : State :=
  if s.hopIsUp false = false then s
  else match s.rspDue with
  | none => s
  | some (n, b, slots) =>
    let s1 := s.setBuf n none
    let r := s1.linkBufRead
    let bad := slots.filter fun x => wordOf (natAt x 60 4) != crc32c (x.take 60)
    if r.2 then slots.foldl (fun s x => s.ev71Link b.ten (slotTag x)) r.1
    else if bad.isEmpty then
      let f := r.1.rspFrame 0x81 b.ten b.ftag b.tagged slots.flatten
      f.1.sendUp f.2
    else bad.foldl (fun s x => s.rspBad b.ten x) r.1

/-! ## The meanings of the delivery rows -/

/-- CMD. -/
def execCmd (s : State) : Host.Outcome State Fault Refusal := .next s.cmdIn
/-- WIN. -/
def execWin (s : State) : Host.Outcome State Fault Refusal := .next s.winIn
/-- TICKNUM. -/
def execTicknum (s : State) : Host.Outcome State Fault Refusal := .next s.ticknumIn
/-- WAKE. -/
def execWake (s : State) : Host.Outcome State Fault Refusal := .next s.wakeIn
/-- ENUM. -/
def execEnum (s : State) : Host.Outcome State Fault Refusal := .next s.enumIn
/-- CMD_RSP_SEND. -/
def execCmdRspSend (s : State) : Host.Outcome State Fault Refusal := .next s.rspSend
/-- WAKE_MESSAGE. -/
def execWakeMessage (line : List (Bool × Nat)) (s : State) : Host.Outcome State Fault Refusal :=
  .next (s.wakeMessage line)
/-- WAKE_REPEAT. -/
def execWakeRepeat (s : State) : Host.Outcome State Fault Refusal := .next s.wakeRepeat
/-- PATH_HOLD_END. -/
def execPathHoldEnd (s : State) : Host.Outcome State Fault Refusal := .next s.pathHoldEnd

end Sys2Proof.Machine
end

