-- ==== Sys2Proof/Machine/FlashRows.lean ====
section
/-! DEFINITION. The flash controller's rows (spec/08): completed sequences, programs, pulses, suspends, the comparator,
and SRAM upkeep (R171, R174). -/

namespace Sys2Proof.Machine

/-- The flash controller serves: PD_FLASH on, no self-test of it. -/
def State.flashServes (s : State) : Bool := s.up 5 && !s.testing 2

/-- What an end or a start in the flash controller lets go on: the verification of a swing (R219) and the host writes
that waited for the controller (R182). -/
def State.settle (s : State) : State := s.swingVerify.ackPorts

/-- A completed sequence reaches the controller (R179, R181): on the system path unless the part has halted in its Boot
ROM (R216); on the window path when its sector is one that the keeper may write (R218). The other codes of Table 8.2 name
no sector's content. -/
def State.seqReach (s : State) (sys : Bool) (sect code : Nat) : Bool :=
  s.up 5 && if sys then !s.sys.halted
  else s.sys.bootDone && ((code != 0xE5 && code != 0x70) || (s.flashReach 0 sect && !s.leafHeld sect))

/-- The command of a completed sequence acts (R181, Table 8.2). -/
def State.seqAct (s : State) (sys : Bool) (code place : Nat) (data : DWord) : State :=
  { s with flash := { s.flash with
      seqSys := if sys then none else s.flash.seqSys,
      seqWin := if sys then s.flash.seqWin else none } }.seqCommand (if sys then .sys else .window 0) (code, place, data)

/-- A sequence of the keeper's FLASH windows or of the system path is complete. A self-test of FLASH holds it (R17). -/
def State.sequenceDone (s : State) (sys : Bool) (sect code place : Nat) (data : DWord) : State :=
  if s.seqReach sys sect code = false then s
  else if s.testing 2 then s.holdRow (.sequence sys sect code place data)
  else (s.seqAct sys code place data).settle

/-- A waiting program starts: in slots 2 to 37, with 144 µs or more before slot 39, the comparator released and no
pulse or program running (R36, R185, R190, R198, Table 8.4). -/
def State.programStart (s : State) (usToGuard : Nat) : State :=
  if s.ticking ∧ s.flashServes ∧ 2 ≤ s.tick.slot ∧ s.tick.slot ≤ 37 ∧ 144 ≤ usToGuard ∧ s.flash.bor = false ∧
      (s.flash.st = .idle ∨ s.flash.st = .eraseGap ∨ s.flash.st = .eraseSusp) then
    match s.nextProg with
    | some o => s.progStart o
    | none => s
  else s

/-- The suspended time of a pulse is used up: it resumes by itself (R189). -/
def State.suspendLimit (s : State) : State :=
  match s.flash.st with
  | .eraseSusp => { s with flash := { s.flash with suspUs := 1000 } }.pulseOn
  | .suspProg => { s with flash := { s.flash with resumeDue := true, suspUs := 1000 } }
  | _ => s

/-- The comparator trips (R198): BOR, BOR_SEEN, FLASH_BOR_CNT and EV75. An erase pulse that runs is cut. -/
def State.borTrip (s : State) : State :=
  if s.flash.bor ∨ s.up 5 = false then s
  else
    let cut := s.flash.st == .erasePulse || s.flash.st == .prog || s.flash.st == .suspProg
    let s1 := ({ s with flash := { s.flash with bor := true, borSeen := true, borCnt := sat16 s.flash.borCnt } }).raise 75
      .granted (wordOf (if cut then s.flash.sector % 4096 + 65536 else 0))
    if s.flash.st = .erasePulse then s1.pulseEnd false else s1

/-- FLASH_SECTOR_ERASE. -/
def execFlashSectorErase (sys : Bool) (sect : BitVec 12) (s : State) : Host.Outcome State Fault Refusal :=
  .next (s.sequenceDone sys sect.toNat 0xE5 sect.toNat 0)
/-- FLASH_WORD_PROGRAM. -/
def execFlashWordProgram (sys : Bool) (word : BitVec 20) (data : DWord) (s : State) :
    Host.Outcome State Fault Refusal :=
  .next (s.sequenceDone sys (word.toNat / 256) 0x70 word.toNat data)
/-- ERASE_SUSPEND. -/
def execEraseSuspend (s : State) : Host.Outcome State Fault Refusal := .next (s.sequenceDone false 0 0xB0 0 0)
/-- RESUME. -/
def execResume (s : State) : Host.Outcome State Fault Refusal := .next (s.sequenceDone false 0 0xD0 0 0)
/-- STATUS_READ. -/
def execStatusRead (s : State) : Host.Outcome State Fault Refusal := .next (s.sequenceDone false 0 0x90 0 0)
/-- RESET_TO_READ. -/
def execResetToRead (s : State) : Host.Outcome State Fault Refusal := .next (s.sequenceDone false 0 0xF0 0 0)
/-- PROGRAM_START. -/
def execProgramStart (usToGuard : Nat) (s : State) : Host.Outcome State Fault Refusal :=
  .next (s.programStart usToGuard).settle
/-- PROGRAM_END. -/
def execProgramEnd (pulses : Nat) (pass : Bool) (s : State) : Host.Outcome State Fault Refusal :=
  onlyIf (Instr.programEnd pulses pass).WellFormed s (s.progEnd pulses pass).settle
/-- ERASE_PULSE_END. -/
def execErasePulseEnd (pass : Bool) (s : State) : Host.Outcome State Fault Refusal :=
  .next (if s.flash.st = .erasePulse then (s.pulseEnd pass).settle else s)
/-- SUSPEND_LIMIT. -/
def execSuspendLimit (s : State) : Host.Outcome State Fault Refusal := .next s.suspendLimit.settle
/-- BOR_TRIP. -/
def execBorTrip (s : State) : Host.Outcome State Fault Refusal := .next s.borTrip.settle
/-- BOR_RELEASE. -/
def execBorRelease (s : State) : Host.Outcome State Fault Refusal :=
  .next { s with flash := { s.flash with bor := false } }.settle
/-- SERVICE_RESTART. -/
def execServiceRestart (addr : BitVec 32) (s : State) : Host.Outcome State Fault Refusal :=
  .next (s.serviceRestart addr.toNat)
/-- FIELD_REPAIR. -/
def execFieldRepair (sect : Fin 128) (fails : Bool) (line : Bool × Nat) (s : State) :
    Host.Outcome State Fault Refusal := .next (s.fieldRepair sect.val fails line)

end Sys2Proof.Machine
end

