-- ==== Sys2Proof/Machine/Rows.lean ====
section
/-! DEFINITION. The rows that are one access of a register, whichever way it reaches the part: the reach of the page or
of config space, the register's effect, its clamps; and the meanings of the tenant, door, letterbox and system rows
(spec/03, spec/05, spec/06). -/

namespace Sys2Proof.Machine

/-! ## One register access (R6, R7, R29, R95, Table 3.4) -/

/-- Registers are served: boot has completed and PD_FAB is on (R95). -/
def State.rowServed (s : State) : Bool := s.sys.bootDone && s.up 1

/-- A register of a tenant's page that its door lets an access reach (Tables 3.4, 4.1). -/
def State.pageReach (s : State) (t off : Nat) (write : Bool) : Bool :=
  s.rowServed && (isPageReg off || (t == 0 && isSysReg off)) && s.doorServes t (.reg off) write

/-- A write of a register of a page, with its clamps; one that does not reach it has no effect. -/
def State.pageRow (s : State) (t off : Nat) (v : Word) (be : BitVec 4) : State :=
  let o := off / 4 * 4
  if s.pageReach t o true then
    let r := s.regPut none t o v be
    if r.1.sys.bootDone then r.1.clamps t (.host 0 (pageAddr t o)) r.2 else r.1
  else s

/-- A read of a register of a page: the value it returns, then what the read does. -/
def State.pageRowRead (s : State) (t off : Nat) : State :=
  let o := off / 4 * 4
  if s.pageReach t o false then { s with rdata := s.regGet t 0 o }.regSide t o else s

/-- A config register that a tenant's access reaches. -/
def State.cfgReach (s : State) (t a : Nat) (write : Bool) : Bool := s.rowServed && (s.cfgHostErr t a write).isNone

/-- The effect of a write of a config register, with its clamps. The command that carries it is not named: EV4 names a
free TAG. -/
def State.cfgWriteNow (s : State) (t a : Nat) (v : Word) (be : BitVec 4) : State :=
  let r := s.cfgPut none a v be
  if r.2 = 0 ∨ r.1.sys.bootDone = false then r.1
  else r.1.drawn.clamps t (.cmd 3 (Config.cfgTag r.1.free).toNat) r.2

/-- The value that a read of a config register returns, then what the read does. -/
def State.cfgReadNow (s : State) (t a : Nat) : State := { s with rdata := s.cfgGet t a }.cfgSide a

/-- A write of a config register; a self-test of its block holds it (R17). -/
def State.cfgRow (s : State) (t a : Nat) (v : Word) (be : BitVec 4) : State :=
  let o := a / 4 * 4
  if s.cfgReach t o true = false then s
  else if s.cfgHeld o then s.holdRow (.regWrite t o v be)
  else s.cfgWriteNow t o v be

/-- A read of a config register; a self-test of its block holds it (R17). -/
def State.cfgRowRead (s : State) (t a : Nat) : State :=
  let o := a / 4 * 4
  if s.cfgReach t o false = false then s
  else if s.cfgHeld o then s.holdRow (.regRead t o)
  else s.cfgReadNow t o

/-- REGISTER_WRITE. -/
def execRegisterWrite (t : Fin 32) (cfg : Bool) (off : Nat) (v : Word) (beN : BitVec 4) (s : State) :
    Host.Outcome State Fault Refusal :=
  .next (if cfg then s.cfgRow t.val (0x30000000 + off) v (~~~beN) else s.pageRow t.val off v (~~~beN))
/-- READ_CLEAR. -/
def execReadClear (t : Fin 32) (cfg : Bool) (off : Nat) (s : State) : Host.Outcome State Fault Refusal :=
  .next (if cfg then s.cfgRowRead t.val (0x30000000 + off) else s.pageRowRead t.val off)

/-! ## Tick number (R44, R46) -/

/-- TICK_NUMBER_READ: the low word, and the high one latched. -/
def execTickNumberRead (page : Option (Fin 32)) (s : State) : Host.Outcome State Fault Refusal :=
  .next (match page with
    | some t => s.pageRowRead t.val 0x1C
    | none => s.cfgRowRead 0 0x3001000C)
/-- TICK_NUM_SET_LOAD. -/
def execTickNumSetLoad (v : Word) (s : State) : Host.Outcome State Fault Refusal := .next (s.cfgRow 0 0x30010018 v 0xF)

/-! ## Tenants, doors and keys (spec/03) -/

/-- GRANT_STAGE. -/
def execGrantStage (v : Word) (s : State) : Host.Outcome State Fault Refusal := .next (s.pageRow 0 0x434 v 0xF)
/-- DOOR_NONE. -/
def execDoorNone (t : Fin 32) (s : State) : Host.Outcome State Fault Refusal := .next (s.pageRow 0 0x424 (wordOf t.val) 0xF)
/-- DOOR_OPEN. -/
def execDoorOpen (t : Fin 32) (s : State) : Host.Outcome State Fault Refusal :=
  .next (s.pageRow 0 0x424 (wordOf (t.val + 32)) 0xF)
/-- DOOR_SHUT. -/
def execDoorShut (t : Fin 32) (s : State) : Host.Outcome State Fault Refusal :=
  .next (s.pageRow 0 0x424 (wordOf (t.val + 64)) 0xF)
/-- DOOR_OPEN_FLUSH. -/
def execDoorOpenFlush (t : Fin 32) (s : State) : Host.Outcome State Fault Refusal :=
  .next (s.pageRow 0 0x424 (wordOf (t.val + 96)) 0xF)
/-- LEAK_COUNT_EXPIRY. -/
def execLeakCountExpiry (t : Fin 32) (s : State) : Host.Outcome State Fault Refusal := .next (s.leakExpire t.val)
/-- SEC_DOOR_CFG_WRITE. -/
def execSecDoorCfgWrite (v : Word) (s : State) : Host.Outcome State Fault Refusal := .next (s.cfgRow 0 0x300D0004 v 0xF)
/-- HEARTBEAT_WRITE. -/
def execHeartbeatWrite (t : Fin 32) (v : Word) (s : State) : Host.Outcome State Fault Refusal :=
  .next (s.pageRow t.val 0xB8 v 0xF)
/-- HEARTBEAT_EXPIRY. -/
def execHeartbeatExpiry (t : Fin 32) (s : State) : Host.Outcome State Fault Refusal := .next (s.hbExpire t.val)
/-- KEY_LOAD: LOAD, and PERSIST or not. -/
def execKeyLoad (persist : Bool) (s : State) : Host.Outcome State Fault Refusal :=
  .next (s.cfgRow 0 0x300D0040 (wordOf (1 + 2 * bitNat persist)) 0xF)
/-- KEY_ERASE: ERASE, and LOAD or not. -/
def execKeyErase (load : Bool) (s : State) : Host.Outcome State Fault Refusal :=
  .next (s.cfgRow 0 0x300D0040 (wordOf (4 + bitNat load)) 0xF)

/-! ## Pages and letterboxes (spec/04, spec/05) -/

/-- PAGE_MASK_WRITE: through a port it is a host write of page 0, never posted (R85). -/
def execPageMaskWrite (via : Option (Fin 2)) (which : Fin 2) (v : Word) (beN : BitVec 4) (s : State) :
    Host.Outcome State Fault Refusal :=
  .next (match via with
    | some p => s.portAccess p.val (writeAcc 0 (0x438 + 4 * which.val) v beN)
    | none => s.pageRow 0 (0x438 + 4 * which.val) v (~~~beN))
/-- DOORBELL. -/
def execDoorbell (t : Fin 32) (v : BitVec 6) (s : State) : Host.Outcome State Fault Refusal :=
  .next (s.pageRow t.val 0x2C (v.setWidth 32) 0xF)
/-- RQ_HEAD_WRITE. -/
def execRqHeadWrite (t : Fin 32) (v : BitVec 6) (s : State) : Host.Outcome State Fault Refusal :=
  .next (s.pageRow t.val 0x30 (v.setWidth 32) 0xF)
/-- EQ_HEAD_WRITE. -/
def execEqHeadWrite (t : Fin 32) (v : BitVec 7) (s : State) : Host.Outcome State Fault Refusal :=
  .next (s.pageRow t.val 0x38 (v.setWidth 32) 0xF)
/-- WIN_COMMIT_REG. -/
def execWinCommitReg (t : Fin 32) (v : Word) (s : State) : Host.Outcome State Fault Refusal :=
  .next (s.pageRow t.val 0x94 v 0xF)
/-- WINDOW_CONFIG_WRITE: Wn_CTRL or Wn_BASE. -/
def execWindowConfigWrite (t : Fin 32) (w : Fin 4) (ctrl : Bool) (v : Word) (s : State) :
    Host.Outcome State Fault Refusal :=
  .next (s.pageRow t.val (0x74 + 8 * w.val + 4 * bitNat ctrl) v 0xF)

/-! ## Keeper system registers (spec/06) -/

/-- EVENT_TEST. -/
def execEventTest (v : Word) (s : State) : Host.Outcome State Fault Refusal := .next (s.pageRow 0 0x4BC v 0xF)
/-- PWR_REQ_OPEN. -/
def execPwrReqOpen (force : Bool) (s : State) : Host.Outcome State Fault Refusal :=
  .next (s.pageRow 0 0x400 (wordOf (0 + 8 * bitNat force)) 0xF)
/-- PWR_REQ_AJAR. -/
def execPwrReqAjar (force : Bool) (s : State) : Host.Outcome State Fault Refusal :=
  .next (s.pageRow 0 0x400 (wordOf (1 + 8 * bitNat force)) 0xF)
/-- PWR_REQ_LOUVRED. -/
def execPwrReqLouvred (force : Bool) (s : State) : Host.Outcome State Fault Refusal :=
  .next (s.pageRow 0 0x400 (wordOf (2 + 8 * bitNat force)) 0xF)
/-- PWR_REQ_LATCHED. -/
def execPwrReqLatched (force : Bool) (s : State) : Host.Outcome State Fault Refusal :=
  .next (s.pageRow 0 0x400 (wordOf (3 + 8 * bitNat force)) 0xF)
/-- WAKE_HOLD_LAPSE. -/
def execWakeHoldLapse (t : Fin 32) (s : State) : Host.Outcome State Fault Refusal := .next (s.voteLapse t.val)
/-- GRANT_VIEW_READ. -/
def execGrantViewRead (t : Fin 32) (s : State) : Host.Outcome State Fault Refusal := .next (s.pageRowRead t.val 0xA8)
/-- TIME_SUB_READ: TIME_SUB of a page, or SYS_RTC_SUB. -/
def execTimeSubRead (page : Option (Fin 32)) (s : State) : Host.Outcome State Fault Refusal :=
  .next (match page with
    | some t => s.pageRowRead t.val 0xB0
    | none => s.pageRowRead 0 0x494)
/-- RTC_SEC_WRITE. -/
def execRtcSecWrite (v : Word) (s : State) : Host.Outcome State Fault Refusal := .next (s.pageRow 0 0x490 v 0xF)
/-- RTC_SUB_WRITE. -/
def execRtcSubWrite (v : Word) (s : State) : Host.Outcome State Fault Refusal := .next (s.pageRow 0 0x494 v 0xF)
/-- RTC_TRIM_WRITE. -/
def execRtcTrimWrite (v : Word) (s : State) : Host.Outcome State Fault Refusal := .next (s.pageRow 0 0x49C v 0xF)
/-- SOFT_RESET. -/
def execSoftReset (v : Word) (s : State) : Host.Outcome State Fault Refusal := .next (s.pageRow 0 0x458 v 0xF)
/-- SHUTTER_RELEASE. -/
def execShutterRelease (v : Word) (s : State) : Host.Outcome State Fault Refusal := .next (s.pageRow 0 0x41C v 0xF)
/-- SWING. -/
def execSwing (s : State) : Host.Outcome State Fault Refusal := .next (s.pageRow 0 0x464 1 0xF)
/-- BOOT_CONFIRM. -/
def execBootConfirm (s : State) : Host.Outcome State Fault Refusal := .next (s.pageRow 0 0x464 2 0xF)
/-- KSTORE_SAVE. -/
def execKstoreSave (s : State) : Host.Outcome State Fault Refusal := .next (s.pageRow 0 0x4A8 1 0xF)

/-! ## Debug lock and peephole (spec/21) -/

/-- UNLOCK. -/
def execUnlock (s : State) : Host.Outcome State Fault Refusal := .next (s.pageRow 0 0x478 2 0xF)
/-- RELOCK. -/
def execRelock (s : State) : Host.Outcome State Fault Refusal := .next (s.pageRow 0 0x478 4 0xF)
/-- CHALLENGE_READ. -/
def execChallengeRead (s : State) : Host.Outcome State Fault Refusal := .next (s.pageRowRead 0 0x47C)
/-- CHALLENGE_RESPONSE. -/
def execChallengeResponse (v : Word) (s : State) : Host.Outcome State Fault Refusal := .next (s.pageRow 0 0x47C v 0xF)
/-- PEEP_GROUP_WRITE. -/
def execPeepGroupWrite (v : Word) (s : State) : Host.Outcome State Fault Refusal := .next (s.cfgRow 0 0x300C0000 v 0xF)

/-! ## Registers of the other blocks -/

/-- PROT_CLEAR. -/
def execProtClear (v : Word) (s : State) : Host.Outcome State Fault Refusal := .next (s.cfgRow 0 0x30040020 v 0xF)
/-- PROT_INJECT. -/
def execProtInject (v : Word) (s : State) : Host.Outcome State Fault Refusal := .next (s.cfgRow 0 0x30040024 v 0xF)
/-- GO_UP. -/
def execGoUp (s : State) : Host.Outcome State Fault Refusal := .next (s.cfgRow 0 0x30060000 1 0xF)
/-- GO_DOWN. -/
def execGoDown (s : State) : Host.Outcome State Fault Refusal := .next (s.cfgRow 0 0x30060000 2 0xF)
/-- SEQ_MAN_WRITE. -/
def execSeqManWrite (v : Word) (s : State) : Host.Outcome State Fault Refusal := .next (s.cfgRow 0 0x30060014 v 0xF)
/-- BAT_Q_WRITE. -/
def execBatQWrite (v : Word) (s : State) : Host.Outcome State Fault Refusal := .next (s.cfgRow 0 0x30060218 v 0xF)
/-- COIN_GO: byte 0 of COIN_CTRL alone. -/
def execCoinGo (s : State) : Host.Outcome State Fault Refusal := .next (s.cfgRow 0 0x30060230 1 0x1)
/-- TARGET_WRITE, by the channel's owner. -/
def execTargetWrite (n : Fin 16) (v : Word) (s : State) : Host.Outcome State Fault Refusal :=
  .next (s.cfgRow (s.owner 1 n.val) (lampReg n.val 0x10) v 0xF)
/-- LAMP_FAULT_CLEAR, by the channel's owner. -/
def execLampFaultClear (n : Fin 16) (v : Word) (s : State) : Host.Outcome State Fault Refusal :=
  .next (s.cfgRow (s.owner 1 n.val) (lampReg n.val 0x34) v 0xF)
/-- ENGINE_RUN, by the engine's owner. -/
def execEngineRun (k : Fin 4) (start : Fin 32) (s : State) : Host.Outcome State Fault Refusal :=
  .next (s.cfgRow (s.owner 2 k.val) (peReg k.val 0) (wordOf (1 + 256 * start.val)) 0xF)
/-- ENGINE_STOP, by the engine's owner: byte 0 alone, START stays. -/
def execEngineStop (k : Fin 4) (s : State) : Host.Outcome State Fault Refusal :=
  .next (s.cfgRow (s.owner 2 k.val) (peReg k.val 0) 0 0x1)
/-- KEY_MASK_WRITE, by the key's owner. -/
def execKeyMaskWrite (k : Fin 320) (v : Word) (s : State) : Host.Outcome State Fault Refusal :=
  .next (s.cfgRow (s.owner 3 k.val) (keyCfg k.val) v 0xF)
/-- REF_SELECT. -/
def execRefSelect (v : Word) (s : State) : Host.Outcome State Fault Refusal := .next (s.cfgRow 0 0x300A0004 v 0xF)
/-- INJECT, by the channel's owner. -/
def execInject (n : Fin 32) (v : Word) (s : State) : Host.Outcome State Fault Refusal :=
  .next (s.cfgRow (s.owner 4 n.val) (adcReg n.val 0x0C) v 0xF)

end Sys2Proof.Machine
end

