-- ==== Sys2Proof/Machine/Held.lean ====
section
/-! DEFINITION. The end of a self-test: its block serves what it held, in the order of arrival (R17, R18). -/

namespace Sys2Proof.Machine

/-- The access that waits at a port takes place (R17). -/
def State.serveAccess (s : State) (p : Nat) : State := s.portComplete p

/-- The oldest frame of the local link buffers is delivered. -/
def State.serveFrame (s : State) : State :=
  match s.link.loc with
  | b :: _ => if frType b = 1 then s.cmdIn else if frType b = 2 then s.winIn else s
  | [] => s

/-- An accepted command runs. -/
def State.serveRun (s : State) (id : Nat) : State :=
  match s.runById id with
  | some r => if r.st = .accepted then s.execute r else s
  | none => s

/-- A tenant's turn goes on in the slot in which the test ends. -/
def State.serveTurn (s : State) (t : Nat) : State := if s.starting then State.turns 33 t s.tick.slot s else s

/-- A held request served. One that another self-test holds is held again, behind those before it. A request that has
reset the part leaves none of the others. -/
def State.serve (s : State) (q : Request) : State :=
  match q with
  | .access p => s.serveAccess p
  | .posted p => s.postDrain p
  | .run id => s.serveRun id
  | .turn t => s.serveTurn t
  | .response t => s.complete t
  | .frame => s.serveFrame
  | .regWrite t a v be =>
    if s.rowServed = false then s
    else if s.cfgHeld a then s.holdRow (.regWrite t a v be)
    else s.cfgWriteNow t a v be
  | .regRead t a =>
    if s.rowServed = false then s else if s.cfgHeld a then s.holdRow (.regRead t a) else s.cfgReadNow t a
  | .start b => s.seqDue b s.someInstant
  | .column kp c rows => s.keyStep kp c rows
  | .sequence sys sect code place data => s.sequenceDone sys sect code place data

/-- Every held request served, in the order of arrival (R18). -/
def State.serveHeld (s : State) : State := s.waiting.foldl State.serve { s with waiting := [] }

/-- What goes on by itself when a self-test ends: the looped port of a link sends what has queued for it (R254), and the
pairs of the converter convert again (R374). -/
def State.loopedEnd (s : State) (block unit : Nat) : State :=
  if block = 4 then s.flushPort (unit == 1) else if block = 9 then s.pairsGo else s

/-- SELF_TEST_END. -/
def State.testEnds (s : State) (block : Nat) (pass : Bool) (detail : Word) : State :=
  match s.testOf block with
  | some t => ((s.testEnd block pass detail).loopedEnd block t.unit).serveHeld
  | none => s

/-- SELF_TEST_ABORT. -/
def State.testAborts (s : State) (block : Nat) : State :=
  match s.testOf block with
  | some t => ((s.testAbort block).loopedEnd block t.unit).serveHeld
  | none => s

/-- SELF_TEST_END. -/
def execSelfTestEnd (block : Fin 10) (pass : Bool) (detail : Word) (s : State) : Host.Outcome State Fault Refusal :=
  .next (s.testEnds block.val pass detail)
/-- SELF_TEST_ABORT. -/
def execSelfTestAbort (block : Fin 10) (s : State) : Host.Outcome State Fault Refusal :=
  .next (s.testAborts block.val)

end Sys2Proof.Machine
end

