-- ==== Sys2Proof/Machine/LinkRows.lean ====
section
/-! DEFINITION. The hop layer's rows (spec/10): frames, ordered sets, training, delay, LINKCTL. -/

namespace Sys2Proof.Machine

/-- FRAME_RECEIVE. -/
def execFrameReceive (dn : Bool) (hseq notHseq : Byte) (bytes : List Byte) (codeErrs : Nat) (abort : Bool)
    (s : State) : Host.Outcome State Fault Refusal := .next (s.frameIn dn hseq notHseq bytes codeErrs abort)
/-- ACK_RECEIVE. -/
def execAckReceive (dn : Bool) (cls hseq : Byte) (codeErr : Bool) (s : State) : Host.Outcome State Fault Refusal :=
  .next (s.ackIn dn cls hseq codeErr)
/-- NAK_RECEIVE: the REASON changes nothing. -/
def execNakReceive (dn : Bool) (cls _hseq _reason : Byte) (codeErr : Bool) (s : State) :
    Host.Outcome State Fault Refusal := .next (s.nakIn dn cls codeErr)
/-- RETRANSMIT_TIMEOUT. -/
def execRetransmitTimeout (dn rsp : Bool) (s : State) : Host.Outcome State Fault Refusal := .next (s.retransmit dn rsp)
/-- CREDIT_RECEIVE; a hop that comes UP may owe NOTICE AWAKE (R251). -/
def execCreditReceive (dn : Bool) (cls count : Byte) (codeErr : Bool) (s : State) : Host.Outcome State Fault Refusal :=
  .next (s.creditIn dn cls count codeErr).awakeSend
/-- RECEIVER_LOCK; a hop that comes UP may owe NOTICE AWAKE (R251). -/
def execReceiverLock (dn : Bool) (s : State) : Host.Outcome State Fault Refusal := .next (s.receiverLock dn).awakeSend
/-- TRAINING_TIMEOUT. -/
def execTrainingTimeout (dn : Bool) (s : State) : Host.Outcome State Fault Refusal := .next (s.trainingTimeout dn)
/-- SYMBOL_LOSS. -/
def execSymbolLoss (loss : Bool × Nat) (s : State) : Host.Outcome State Fault Refusal :=
  .next (s.symbolLoss loss.1 loss.2)
/-- DLY_REQ. -/
def execDlyReq (dn : Bool) (id : Option Byte) (turn : BitVec 16) (s : State) : Host.Outcome State Fault Refusal :=
  .next (s.idSet dn id fun s i => s.dlyReq dn i turn.toNat)
/-- DLY_RSP. -/
def execDlyRsp (dn : Bool) (id : Option Byte) (turn : BitVec 16) (round : Nat) (s : State) :
    Host.Outcome State Fault Refusal := .next (s.idSet dn id fun s i => s.dlyRsp dn i turn.toNat round)
/-- DELAY_REMEASURE. -/
def execDelayRemeasure (dn : Bool) (s : State) : Host.Outcome State Fault Refusal :=
  .next (if s.hopIsUp dn then s.askDelay dn else s)
/-- LINKCTL_BREAK. -/
def execLinkctlBreak (dn : Bool) (code : Option Byte) (notCode : Byte) (s : State) : Host.Outcome State Fault Refusal :=
  .next (s.linkctl dn code notCode 1)
/-- LINKCTL_SLEEP. -/
def execLinkctlSleep (dn : Bool) (code : Option Byte) (notCode : Byte) (s : State) : Host.Outcome State Fault Refusal :=
  .next (s.linkctl dn code notCode 2)
/-- DATA_MODE_SYMBOLS_RECEIVED. -/
def execDataModeSymbolsReceived (dn : Bool) (s : State) : Host.Outcome State Fault Refusal := .next (s.dataSymbols dn)

end Sys2Proof.Machine
end

