-- ==== Sys2Proof/Machine/PowerRows.lean ====
section
/-! DEFINITION. The rows of waking, entry and restore, of resets, boot and supplies, and of the platform sequencer
(spec/09, spec/11, spec/12). -/

namespace Sys2Proof.Machine

/-! ## Waking, entry, restore (spec/11) -/

/-- WAKE_N_TAKEN. -/
def execWakeNTaken (s : State) : Host.Outcome State Fault Refusal := .next s.wakeN
/-- RTC_ALARM. -/
def execRtcAlarm (s : State) : Host.Outcome State Fault Refusal := .next s.rtcAlarm
/-- KEY_ROW_WAKE. -/
def execKeyRowWake (row : Fin 24) (s : State) : Host.Outcome State Fault Refusal := .next (s.rowWake row.val)
/-- ROW_WATCHED_AGAIN. -/
def execRowWatchedAgain (row : Fin 24) (s : State) : Host.Outcome State Fault Refusal := .next (s.rowAgain row.val)
/-- LOUVRE. -/
def execLouvre (q : Nat × List (List (Int × Int))) (s : State) : Host.Outcome State Fault Refusal :=
  onlyIf (Instr.louvre q).WellFormed s (s.louvre q.1 q.2)
/-- ENTRY_COMPLETE. -/
def execEntryComplete (us : Nat) (s : State) : Host.Outcome State Fault Refusal := .next (s.entryComplete us)
/-- RESTORE_STAGE_DONE. -/
def execRestoreStageDone (dom : Fin 16) (us : Nat) (s : State) : Host.Outcome State Fault Refusal :=
  .next (s.restoreStage dom.val us)

/-! ## Resets, boot, supplies (spec/09, spec/11) -/

/-- RESET_ASSERT. -/
def execResetAssert (s : State) : Host.Outcome State Fault Refusal := .next s.resetLow
/-- RESET_RELEASE. -/
def execResetRelease (pins : BitVec 4 × BitVec 2) (s : State) : Host.Outcome State Fault Refusal :=
  .next (s.resetHigh pins.1 pins.2)
/-- LEDGER_RECOVERY. -/
def execLedgerRecovery (marginFails pass : Bool) (pulses : Nat) (s : State) : Host.Outcome State Fault Refusal :=
  onlyIf (Instr.ledgerRecovery marginFails pass pulses).WellFormed s (s.ledgerRecover marginFails pass pulses)
/-- BOOT_COMPLETE; NOTICE AWAKE may have waited for it (R251). -/
def execBootComplete (s : State) : Host.Outcome State Fault Refusal := .next s.bootComplete
/-- SWING_END. -/
def execSwingEnd (s : State) : Host.Outcome State Fault Refusal := .next s.swingVerify.swingFinish
/-- SAVE_COMPLETE. -/
def execSaveComplete (s : State) : Host.Outcome State Fault Refusal := .next s.saveEnd
/-- VAO_LOSS. -/
def execVaoLoss (s : State) : Host.Outcome State Fault Refusal := .next s.vaoLost
/-- VAO_RECONNECT. -/
def execVaoReconnect (s : State) : Host.Outcome State Fault Refusal := .next s.vaoBack
/-- BOTH_SUPPLIES_ABSENT. -/
def execBothSuppliesAbsent (s : State) : Host.Outcome State Fault Refusal := .next s.supplyLost
/-- POWER_UP. -/
def execPowerUp (s : State) : Host.Outcome State Fault Refusal := .next s.powerUp

/-! ## The platform sequencer and the coin cell (spec/12) -/

/-- SEQ_STEP_DELAY_END. -/
def execSeqStepDelayEnd (s : State) : Host.Outcome State Fault Refusal := .next s.seqDelayEnd
/-- SEQ_PG_CHANGE. -/
def execSeqPgChange (pg late : BitVec 24) (s : State) : Host.Outcome State Fault Refusal := .next (s.pgChange pg late)
/-- PG_TIMEOUT. -/
def execPgTimeout (late : BitVec 24) (s : State) : Host.Outcome State Fault Refusal := .next (s.pgTimeout late)
/-- COIN_PERIOD: PERIOD_H 0 makes no measurement fall due (R292, Table 12.4). -/
def execCoinPeriod (s : State) : Host.Outcome State Fault Refusal :=
  .next (if s.fld 0x30060230 8 8 = 0 then s else s.coinStart)
/-- COIN_MEASURE_END. -/
def execCoinMeasureEnd (mv : Nat) (s : State) : Host.Outcome State Fault Refusal :=
  onlyIf (Instr.coinMeasureEnd mv).WellFormed s (s.coinEnd mv)

end Sys2Proof.Machine
end

