-- ==== Sys2Proof/Machine/Dispatch.lean ====
section
/-! DEFINITION. One arm per command of spec/opcode_table.json, in its order: a direct call of the command's meaning. -/

namespace Sys2Proof.Machine

/-- The effect of a command on everything but the queue. -/
def exec (i : Instr) (s : State) : Host.Outcome State Fault Refusal :=
  match i with
  | .boundary mis => Sys2Proof.Machine.execBoundary mis s
  | .tickSet flags low lead chk codeErr phase held => Sys2Proof.Machine.execTickSet flags low lead chk codeErr phase held s
  | .dsyncEdge phase => Sys2Proof.Machine.execDsyncEdge phase s
  | .dsyncClassify high => Sys2Proof.Machine.execDsyncClassify high s
  | .windowEnd mis => Sys2Proof.Machine.execWindowEnd mis s
  | .loopSlot die => Sys2Proof.Machine.execLoopSlot die s
  | .flashSlot => Sys2Proof.Machine.execFlashSlot s
  | .adcSlot => Sys2Proof.Machine.execAdcSlot s
  | .cmdSlot slot => Sys2Proof.Machine.execCmdSlot slot s
  | .sramScrubStep => Sys2Proof.Machine.execSramScrubStep s
  | .flashScrubRead => Sys2Proof.Machine.execFlashScrubRead s
  | .coalesceSweep => Sys2Proof.Machine.execCoalesceSweep s
  | .guardSlot => Sys2Proof.Machine.execGuardSlot s
  | .tickNumberRead page => Sys2Proof.Machine.execTickNumberRead page s
  | .tickNumSetLoad v => Sys2Proof.Machine.execTickNumSetLoad v s
  | .registerWrite t cfg off v beN => Sys2Proof.Machine.execRegisterWrite t cfg off v beN s
  | .readClear t cfg off => Sys2Proof.Machine.execReadClear t cfg off s
  | .grantStage v => Sys2Proof.Machine.execGrantStage v s
  | .doorNone t => Sys2Proof.Machine.execDoorNone t s
  | .doorOpen t => Sys2Proof.Machine.execDoorOpen t s
  | .doorShut t => Sys2Proof.Machine.execDoorShut t s
  | .doorOpenFlush t => Sys2Proof.Machine.execDoorOpenFlush t s
  | .leakCountExpiry t => Sys2Proof.Machine.execLeakCountExpiry t s
  | .secDoorCfgWrite v => Sys2Proof.Machine.execSecDoorCfgWrite v s
  | .heartbeatWrite t v => Sys2Proof.Machine.execHeartbeatWrite t v s
  | .heartbeatExpiry t => Sys2Proof.Machine.execHeartbeatExpiry t s
  | .keyLoad persist => Sys2Proof.Machine.execKeyLoad persist s
  | .keyErase load => Sys2Proof.Machine.execKeyErase load s
  | .hostRead p page off => Sys2Proof.Machine.execHostRead p page off s
  | .hostWrite p page off v beN => Sys2Proof.Machine.execHostWrite p page off v beN s
  | .hostAccessComplete p => Sys2Proof.Machine.execHostAccessComplete p s
  | .hostStrobeRelease p => Sys2Proof.Machine.execHostStrobeRelease p s
  | .accessAbandon p => Sys2Proof.Machine.execAccessAbandon p s
  | .waitGuardExpiry p => Sys2Proof.Machine.execWaitGuardExpiry p s
  | .postedWriteDrain p => Sys2Proof.Machine.execPostedWriteDrain p s
  | .fenceRead p page => Sys2Proof.Machine.execFenceRead p page s
  | .pageMaskWrite via which v beN => Sys2Proof.Machine.execPageMaskWrite via which v beN s
  | .doorbell t v => Sys2Proof.Machine.execDoorbell t v s
  | .rqHeadWrite t v => Sys2Proof.Machine.execRqHeadWrite t v s
  | .eqHeadWrite t v => Sys2Proof.Machine.execEqHeadWrite t v s
  | .winCommitReg t v => Sys2Proof.Machine.execWinCommitReg t v s
  | .windowConfigWrite t w ctrl v => Sys2Proof.Machine.execWindowConfigWrite t w ctrl v s
  | .echo t => Sys2Proof.Machine.execEcho t s
  | .cfgRead t => Sys2Proof.Machine.execCfgRead t s
  | .cfgWrite t => Sys2Proof.Machine.execCfgWrite t s
  | .cfgModify t => Sys2Proof.Machine.execCfgModify t s
  | .pageRead t => Sys2Proof.Machine.execPageRead t s
  | .pageWrite t => Sys2Proof.Machine.execPageWrite t s
  | .eqRead t => Sys2Proof.Machine.execEqRead t s
  | .winWrite t => Sys2Proof.Machine.execWinWrite t s
  | .winCommit t => Sys2Proof.Machine.execWinCommit t s
  | .flipArm t => Sys2Proof.Machine.execFlipArm t s
  | .flipCancel t => Sys2Proof.Machine.execFlipCancel t s
  | .flashRead t => Sys2Proof.Machine.execFlashRead t s
  | .flashProg t => Sys2Proof.Machine.execFlashProg t s
  | .sectorErase t => Sys2Proof.Machine.execSectorErase t s
  | .store t => Sys2Proof.Machine.execStore t s
  | .load t => Sys2Proof.Machine.execLoad t s
  | .selfTest t => Sys2Proof.Machine.execSelfTest t s
  | .selfTestEnd block pass detail => Sys2Proof.Machine.execSelfTestEnd block pass detail s
  | .selfTestAbort block => Sys2Proof.Machine.execSelfTestAbort block s
  | .grant t => Sys2Proof.Machine.execGrant t s
  | .pwrReq t => Sys2Proof.Machine.execPwrReq t s
  | .busyRetry t => Sys2Proof.Machine.execBusyRetry t s
  | .commandComplete t => Sys2Proof.Machine.execCommandComplete t s
  | .eventTest v => Sys2Proof.Machine.execEventTest v s
  | .pwrReqOpen force => Sys2Proof.Machine.execPwrReqOpen force s
  | .pwrReqAjar force => Sys2Proof.Machine.execPwrReqAjar force s
  | .pwrReqLouvred force => Sys2Proof.Machine.execPwrReqLouvred force s
  | .pwrReqLatched force => Sys2Proof.Machine.execPwrReqLatched force s
  | .wakeHoldLapse t => Sys2Proof.Machine.execWakeHoldLapse t s
  | .grantViewRead t => Sys2Proof.Machine.execGrantViewRead t s
  | .timeSubRead page => Sys2Proof.Machine.execTimeSubRead page s
  | .rtcSecWrite v => Sys2Proof.Machine.execRtcSecWrite v s
  | .rtcSubWrite v => Sys2Proof.Machine.execRtcSubWrite v s
  | .rtcTrimWrite v => Sys2Proof.Machine.execRtcTrimWrite v s
  | .softReset v => Sys2Proof.Machine.execSoftReset v s
  | .shutterRelease v => Sys2Proof.Machine.execShutterRelease v s
  | .swing => Sys2Proof.Machine.execSwing s
  | .swingEnd => Sys2Proof.Machine.execSwingEnd s
  | .bootConfirm => Sys2Proof.Machine.execBootConfirm s
  | .kstoreSave => Sys2Proof.Machine.execKstoreSave s
  | .saveComplete => Sys2Proof.Machine.execSaveComplete s
  | .serviceRestart addr => Sys2Proof.Machine.execServiceRestart addr s
  | .fieldRepair sect testFails fits => Sys2Proof.Machine.execFieldRepair sect testFails fits s
  | .protClear v => Sys2Proof.Machine.execProtClear v s
  | .protInject v => Sys2Proof.Machine.execProtInject v s
  | .flashSectorErase sys sect => Sys2Proof.Machine.execFlashSectorErase sys sect s
  | .flashWordProgram sys word data => Sys2Proof.Machine.execFlashWordProgram sys word data s
  | .eraseSuspend => Sys2Proof.Machine.execEraseSuspend s
  | .resume => Sys2Proof.Machine.execResume s
  | .statusRead => Sys2Proof.Machine.execStatusRead s
  | .resetToRead => Sys2Proof.Machine.execResetToRead s
  | .programStart usToGuard => Sys2Proof.Machine.execProgramStart usToGuard s
  | .programEnd pulses pass => Sys2Proof.Machine.execProgramEnd pulses pass s
  | .erasePulseEnd pass => Sys2Proof.Machine.execErasePulseEnd pass s
  | .suspendLimit => Sys2Proof.Machine.execSuspendLimit s
  | .borTrip => Sys2Proof.Machine.execBorTrip s
  | .borRelease => Sys2Proof.Machine.execBorRelease s
  | .resetAssert => Sys2Proof.Machine.execResetAssert s
  | .resetRelease pins => Sys2Proof.Machine.execResetRelease pins s
  | .ledgerRecovery marginFails pass pulses => Sys2Proof.Machine.execLedgerRecovery marginFails pass pulses s
  | .bootComplete => Sys2Proof.Machine.execBootComplete s
  | .frameReceive dn hseq notHseq bytes codeErrs abort => Sys2Proof.Machine.execFrameReceive dn hseq notHseq bytes codeErrs abort s
  | .ackReceive dn cls hseq codeErr => Sys2Proof.Machine.execAckReceive dn cls hseq codeErr s
  | .nakReceive dn cls hseq reason codeErr => Sys2Proof.Machine.execNakReceive dn cls hseq reason codeErr s
  | .retransmitTimeout dn rsp => Sys2Proof.Machine.execRetransmitTimeout dn rsp s
  | .creditReceive dn cls count codeErr => Sys2Proof.Machine.execCreditReceive dn cls count codeErr s
  | .receiverLock dn => Sys2Proof.Machine.execReceiverLock dn s
  | .trainingTimeout dn => Sys2Proof.Machine.execTrainingTimeout dn s
  | .symbolLoss loss => Sys2Proof.Machine.execSymbolLoss loss s
  | .dlyReq dn id turn => Sys2Proof.Machine.execDlyReq dn id turn s
  | .dlyRsp dn id turn round => Sys2Proof.Machine.execDlyRsp dn id turn round s
  | .delayRemeasure dn => Sys2Proof.Machine.execDelayRemeasure dn s
  | .linkctlBreak dn code notCode => Sys2Proof.Machine.execLinkctlBreak dn code notCode s
  | .linkctlSleep dn code notCode => Sys2Proof.Machine.execLinkctlSleep dn code notCode s
  | .cmd => Sys2Proof.Machine.execCmd s
  | .win => Sys2Proof.Machine.execWin s
  | .ticknum => Sys2Proof.Machine.execTicknum s
  | .wake => Sys2Proof.Machine.execWake s
  | .enum => Sys2Proof.Machine.execEnum s
  | .cmdRspSend => Sys2Proof.Machine.execCmdRspSend s
  | .wakeMessage line => Sys2Proof.Machine.execWakeMessage line s
  | .wakeRepeat => Sys2Proof.Machine.execWakeRepeat s
  | .pathHoldEnd => Sys2Proof.Machine.execPathHoldEnd s
  | .wakeNTaken => Sys2Proof.Machine.execWakeNTaken s
  | .rtcAlarm => Sys2Proof.Machine.execRtcAlarm s
  | .keyRowWake row => Sys2Proof.Machine.execKeyRowWake row s
  | .louvre q => Sys2Proof.Machine.execLouvre q s
  | .entryComplete us => Sys2Proof.Machine.execEntryComplete us s
  | .restoreStageDone dom us => Sys2Proof.Machine.execRestoreStageDone dom us s
  | .vaoLoss => Sys2Proof.Machine.execVaoLoss s
  | .vaoReconnect => Sys2Proof.Machine.execVaoReconnect s
  | .powerUp => Sys2Proof.Machine.execPowerUp s
  | .goUp => Sys2Proof.Machine.execGoUp s
  | .goDown => Sys2Proof.Machine.execGoDown s
  | .seqStepDelayEnd => Sys2Proof.Machine.execSeqStepDelayEnd s
  | .seqPgChange pg late => Sys2Proof.Machine.execSeqPgChange pg late s
  | .pgTimeout late => Sys2Proof.Machine.execPgTimeout late s
  | .seqManWrite v => Sys2Proof.Machine.execSeqManWrite v s
  | .batQWrite v => Sys2Proof.Machine.execBatQWrite v s
  | .coinGo => Sys2Proof.Machine.execCoinGo s
  | .coinPeriod => Sys2Proof.Machine.execCoinPeriod s
  | .coinMeasureEnd mv => Sys2Proof.Machine.execCoinMeasureEnd mv s
  | .switchingPeriod n iCode oc pinBad vstr ledk => Sys2Proof.Machine.execSwitchingPeriod n iCode oc pinBad vstr ledk s
  | .dimmingPeriod n => Sys2Proof.Machine.execDimmingPeriod n s
  | .targetWrite n v => Sys2Proof.Machine.execTargetWrite n v s
  | .fadeEnd n => Sys2Proof.Machine.execFadeEnd n s
  | .lampFaultClear n v => Sys2Proof.Machine.execLampFaultClear n v s
  | .engineRun k start => Sys2Proof.Machine.execEngineRun k start s
  | .engineStop k => Sys2Proof.Machine.execEngineStop k s
  | .ramp k => Sys2Proof.Machine.execRamp k s
  | .rotate k => Sys2Proof.Machine.execRotate k s
  | .hold k => Sys2Proof.Machine.execHold k s
  | .loop k => Sys2Proof.Machine.execLoop k s
  | .event k => Sys2Proof.Machine.execEvent k s
  | .peEnd k => Sys2Proof.Machine.execPeEnd k s
  | .engineError k => Sys2Proof.Machine.execEngineError k s
  | .keyColumnStep kp col rows => Sys2Proof.Machine.execKeyColumnStep kp col rows s
  | .shelfRowDetect => Sys2Proof.Machine.execShelfRowDetect s
  | .keyStuck q => Sys2Proof.Machine.execKeyStuck q s
  | .keyMaskWrite k v => Sys2Proof.Machine.execKeyMaskWrite k v s
  | .conversionEnd b samples => Sys2Proof.Machine.execConversionEnd b samples s
  | .calibration => Sys2Proof.Machine.execCalibration s
  | .sliceSwap offset gainErr => Sys2Proof.Machine.execSliceSwap offset gainErr s
  | .refSelect v => Sys2Proof.Machine.execRefSelect v s
  | .refSettled mv => Sys2Proof.Machine.execRefSettled mv s
  | .inject n v => Sys2Proof.Machine.execInject n v s
  | .tapReset => Sys2Proof.Machine.execTapReset s
  | .extest pins => Sys2Proof.Machine.execExtest pins s
  | .samplePreload pins => Sys2Proof.Machine.execSamplePreload pins s
  | .idcode => Sys2Proof.Machine.execIdcode s
  | .highz => Sys2Proof.Machine.execHighz s
  | .clamp => Sys2Proof.Machine.execClamp s
  | .bypass => Sys2Proof.Machine.execBypass s
  | .flashAccWrite addr data => Sys2Proof.Machine.execFlashAccWrite addr data s
  | .flashAccRead addr => Sys2Proof.Machine.execFlashAccRead addr s
  | .flashAccStatus => Sys2Proof.Machine.execFlashAccStatus s
  | .unlock => Sys2Proof.Machine.execUnlock s
  | .challengeRead => Sys2Proof.Machine.execChallengeRead s
  | .challengeResponse v => Sys2Proof.Machine.execChallengeResponse v s
  | .relock => Sys2Proof.Machine.execRelock s
  | .peepGroupWrite v => Sys2Proof.Machine.execPeepGroupWrite v s
  | .dataModeSymbolsReceived dn => Sys2Proof.Machine.execDataModeSymbolsReceived dn s
  | .bothSuppliesAbsent => Sys2Proof.Machine.execBothSuppliesAbsent s
  | .tachEdge n us => Sys2Proof.Machine.execTachEdge n us s
  | .tachSilence n => Sys2Proof.Machine.execTachSilence n s
  | .rowWatchedAgain row => Sys2Proof.Machine.execRowWatchedAgain row s

end Sys2Proof.Machine
end

