-- ==== Sys2Proof/Machine/Rtc.lean ====
section
/-! DEFINITION. One cycle of CK_RTC (R143, R447): what the block does while no command waits. -/

namespace Sys2Proof.Machine

/-- Magnitude of SYS_RTC_TRIM. -/
def Sys.trimSize (k : Sys) : Nat := (signedOf 8 k.rtcTrim.toNat).natAbs

/-- The advance of TIME_SUB in this cycle: 1, or 0 or 2 when the accumulator of the trim wraps (R447). -/
def Sys.rtcStep (k : Sys) : Nat :=
  if k.rtcAcc + k.trimSize < 2 ^ 20 then 1 else if k.rtcTrim.getLsbD 7 then 2 else 0

/-- The seconds and the sub-count after one cycle of CK_RTC: a load that waits for the edge (R150), else the count. -/
def Sys.rtcTime (k : Sys) : Nat × Nat :=
  match k.rtcLoad with
  | some t => t
  | none =>
    let sub := k.rtcSub + k.rtcStep
    (if sub < 32768 then k.rtcSec else (k.rtcSec + 1) % 2 ^ 32, sub % 32768)

/-- The RTC after one cycle of CK_RTC. Seconds that change, by counting or by a load, may become equal to the alarm
(R397). -/
def Sys.rtcNext (k : Sys) : Sys :=
  { k with
    rtcAcc := (k.rtcAcc + k.trimSize) % 2 ^ 20,
    rtcSec := k.rtcTime.1,
    rtcSub := k.rtcTime.2,
    rtcLoad := none,
    alarmDone := k.alarmDone && decide (k.rtcTime.1 = k.rtcSec) }

/-- One cycle of CK_RTC; in Off nothing counts (R259). The stuck times of keys go on with it (R352). -/
def State.rtcCycle (s : State) : State :=
  if s.pwr.st = .off then s
  else { s.updSys Sys.rtcNext with keys := { s.keys with cyc := s.keys.cyc + 1 } }

/-- A step without a command. -/
def State.idleStep (s : State) : State := if s.sys.resetPend then s.resetTake else s.rtcCycle

end Sys2Proof.Machine
end

