-- ==== Sys2Proof/Machine/Step.lean ====
section
/-! DEFINITION. One step: the command at the front of the queue; while none waits, one cycle of CK_RTC (log entry 15). -/

namespace Sys2Proof.Machine

/-- A step of the block. While no command waits, a reset that a host port has asked for begins (R145, log entry 128), or
CK_RTC makes a cycle. -/
def step (s : State) : Host.Outcome State Fault Refusal :=
  match s.pending with
  | [] => .next s.idleStep
  | c :: q => exec c { s with pending := q }

/-- The state with the command that a word spells at the front of its queue. -/
def State.withFetchWord (s : State) (nbits w : Nat) : State :=
  match decodeTableWord nbits w with
  | some c => { s with pending := c :: s.pending }
  | none => s

end Sys2Proof.Machine
end

