-- ==== Sys2Proof/Safety.lean ====
section
/-! DEFINITION. What claims about this part call safe: the invariants that a step keeps. -/

namespace Sys2Proof.Machine

/-- The keeper's door is OPEN (R56) and memory keeps its canonical form. -/
def State.Safe (s : State) : Prop := s.door 0 = .opened ∧ Memory.wf s.mem = true

/-- A step that answers a next state. -/
def State.StepsTo (s t : State) : Prop := step s = .next t

/-- Registers are served to a tenant: boot has completed, PD_FAB is on and the tenant's door is OPEN (R95, Table 3.4). -/
abbrev State.Serves (s : State) (t : Nat) : Prop := s.sys.bootDone = true ∧ s.up 1 = true ∧ s.door t = .opened

/-- A state that differs in nothing but one tenant. -/
def State.OnlyTenant (s n : State) (t : Nat) : Prop := n = { s with tens := n.tens } ∧ ∀ u, u ≠ t → n.ten u = s.ten u

/-- A state in which every byte of SRAM reads as it did. -/
def State.SameMemory (s n : State) : Prop := ∀ a, n.rdByte a = s.rdByte a

/-- Open with no request for a state pending: no wake source changes anything (R269, R270). -/
abbrev State.Awake (s : State) : Prop := s.pwr.st = .opened ∧ s.pwr.phase = .idle ∧ s.pwr.ajarPend = false

/-- Nothing waits for the flash controller: no verification of a swing is due (R219), and no access or posted write of a
port has completed a flash command that it waits for (R182). -/
abbrev State.Settled (s : State) : Prop :=
  s.sys.swingDue = false ∧ ∀ p : Fin 2, ((s.port p.val).acc.any fun a => a.stepped) = false ∧
    ((s.port p.val).post.any fun a => a.stepped) = false

/-- A request frame is the oldest in the local buffers, and none waits for a buffer (R234). -/
def State.HeadFrame (s : State) (b : List Byte) (bs : List (List Byte)) : Prop := s.link.loc = b :: bs ∧ s.link.hold = []

end Sys2Proof.Machine
end

