-- ==== Sys2Proof/Certificates/Slice0/Obligations.lean ====
section
/-! DEFINITION. The statements of this model, for the provers. Each says what a command or the whole part does by the
numbered rules of spec/; the frames name every field of the state that may change. -/

open Sys2Proof Sys2Proof.Machine

/-- O1. For every command c, state s and queue q, a step with c at the front of the queue and q behind it is exec of c on
the state whose queue is q. -/
def Obligations.StepRunsFrontCommand : Prop :=
  ∀ (c : Instr) (q : List Instr) (s : State), step { s with pending := c :: q } = exec c { s with pending := q }

/-- O2. With an empty queue a step answers a next state. A reset that a host port has asked for begins (log entry
128); else in Off nothing changes, and in every other state CK_RTC makes one cycle (log entry 15, the model's choice).
The trim magnitude is added to the 20-bit accumulator. A load that waits for the edge takes effect; with none,
TIME_SUB advances by 1, or in the cycle in which the accumulator wraps by 0 when TRIM is positive and by 2 when it is
negative, and a full second carries into TIME_SEC. Beside the RTC only the count that the stuck times of keys are
taken by moves. -/
def Obligations.IdleStepIsOneRtcCycle : Prop :=
  ∀ s : State, s.pending = [] →
    (s.sys.resetPend = true → step s = .next (s.resetPulse 2)) ∧
    (s.sys.resetPend = false → s.pwr.st = .off → step s = .next s) ∧
    (s.sys.resetPend = false → s.pwr.st ≠ .off → ∃ n : State, step s = .next n ∧
      n.sys.rtcAcc = (s.sys.rtcAcc + s.sys.trimSize) % 2 ^ 20 ∧ n.sys.rtcLoad = none ∧
      (∀ q : Nat × Nat, s.sys.rtcLoad = some q → n.sys.rtcSec = q.1 ∧ n.sys.rtcSub = q.2) ∧
      (s.sys.rtcLoad = none →
        (s.sys.rtcAcc + s.sys.trimSize < 2 ^ 20 → n.sys.rtcSub = (s.sys.rtcSub + 1) % 32768) ∧
        (2 ^ 20 ≤ s.sys.rtcAcc + s.sys.trimSize → s.sys.rtcTrim.getLsbD 7 = false →
          n.sys.rtcSub = s.sys.rtcSub % 32768) ∧
        (2 ^ 20 ≤ s.sys.rtcAcc + s.sys.trimSize → s.sys.rtcTrim.getLsbD 7 = true →
          n.sys.rtcSub = (s.sys.rtcSub + 2) % 32768) ∧
        n.sys.rtcSec =
          (if s.sys.rtcSub + s.sys.rtcStep < 32768 then s.sys.rtcSec else (s.sys.rtcSec + 1) % 2 ^ 32)) ∧
      n.keys.cyc = s.keys.cyc + 1 ∧
      n = { s with
        keys := { s.keys with cyc := n.keys.cyc },
        sys := { s.sys with
          rtcAcc := n.sys.rtcAcc, rtcSub := n.sys.rtcSub, rtcSec := n.sys.rtcSec, rtcLoad := none,
          alarmDone := n.sys.alarmDone } })

/-- O3. After reset the door of T0 is OPEN and the doors of T1 to T31 are SHUT. Every tenant has quota 16 (T0) or 4,
empty queues, no window mapped, no clamps, no bus error and no key; no command waits; every label cell has no flip
armed, every lamp channel drives 0, every engine is stopped, every key is released, both link ports are OFF, the debug
port is locked, and memory lists no byte. -/
def Obligations.ResetLeaves : Prop :=
  State.reset.door 0 = .opened ∧ (∀ t, t ≠ 0 → State.reset.door t = .shut) ∧
  (∀ t, (State.reset.ten t).quotaSet = (if t = 0 then 16 else 4) ∧ (State.reset.ten t).cqCount = 0 ∧
    (State.reset.ten t).rqCount = 0 ∧ (State.reset.ten t).eqCount = 0 ∧ (State.reset.ten t).winType = [] ∧
    (State.reset.ten t).clamps = 0 ∧ (State.reset.ten t).berr = 0 ∧ (State.reset.ten t).key = none) ∧
  State.reset.pending = [] ∧ (∀ c, (State.reset.cell c).arm = none) ∧ (∀ n, (State.reset.lamp n).out = 0) ∧
  (∀ k, (State.reset.engine k).st = 0) ∧ (∀ k, (State.reset.key k).down = false) ∧
  State.reset.link.up.st = .off ∧ State.reset.link.dn.st = .off ∧ State.reset.sys.locked = true ∧
  State.reset.mem = []

/-- O4. At reset the door of T0 is OPEN and the doors of T1 to T31 are SHUT, and so the part is safe as claims about it
use the word: memory is in its canonical form too. -/
def Obligations.ResetDoors : Prop :=
  State.reset.Safe ∧ ∀ t : Fin 32, t ≠ 0 → State.reset.door t.val = .shut

/-- O5. From every state in which the keeper's door is OPEN and memory has its canonical form, whatever command a step
runs, a next state has both again. So no command of the part closes the door of T0: no failure, no expiry, no action
on SYS_DOOR_CTRL, no restore of the keeper store and no reset. -/
def Obligations.StepKeepsSafe : Prop :=
  ∀ s t : State, s.Safe → s.StepsTo t → t.Safe

/-- O6. From every safe state, whatever command a step runs, the queue of the next state is the queue of the state less
its front. No effect, not even a reset, adds, drops or reorders a waiting command. -/
def Obligations.QueueIsFirstInFirstOut : Prop :=
  ∀ s t : State, s.Safe → s.StepsTo t → t.pending = s.pending.tail

/-- O7. While keeper registers are served: NONE selects the tenant whose state is read and changes nothing else. OPEN and
OPEN_FLUSH of a tenant other than T0 whose door is SHUT or FIRE select it and become pending until the next slot 0, in
place of one that is pending. On a door that is OPEN, and on T0, they have no effect but the selection. No door, no
other tenant and no other state changes. -/
def Obligations.DoorNoneOpenFlush : Prop :=
  ∀ (s : State) (t : Fin 32), s.Serves 0 →
    exec (.doorNone t) s = .next { s with sys := { s.sys with doorSel := t.val } } ∧
    (t ≠ 0 → s.door t.val ≠ .opened →
      (∃ n : State, exec (.doorOpen t) s = .next n ∧ (n.ten t.val).doorPend = some false ∧
        n.ten t.val = { s.ten t.val with doorPend := some false } ∧ (∀ u, u ≠ t.val → n.ten u = s.ten u) ∧
        n = { s with tens := n.tens, sys := { s.sys with doorSel := t.val } }) ∧
      (∃ n : State, exec (.doorOpenFlush t) s = .next n ∧
        n.ten t.val = { s.ten t.val with doorPend := some true } ∧ (∀ u, u ≠ t.val → n.ten u = s.ten u) ∧
        n = { s with tens := n.tens, sys := { s.sys with doorSel := t.val } })) ∧
    (t = 0 ∨ s.door t.val = .opened →
      exec (.doorOpen t) s = .next { s with sys := { s.sys with doorSel := t.val } } ∧
      exec (.doorOpenFlush t) s = .next { s with sys := { s.sys with doorSel := t.val } })

/-- O8. While keeper registers are served, SHUT of a tenant other than T0 whose door is OPEN or FIRE shuts it at once:
CQ_HEAD, CQ_TAIL, RQ_HEAD, RQ_TAIL, EQ_HEAD, EQ_TAIL and EQ_PENDING read 0, windows W0 to W3 are unmapped, staged
words are discarded, a pending OPEN is cancelled and TIRQ_N is not driven. On T0 nothing is shut. Every byte of
memory, every other tenant and every other door stay as they were; only the selection of SYS_DOOR_CTRL and the
tenant's slots from the link go with it. -/
def Obligations.DoorShut : Prop :=
  ∀ (s : State) (t : Fin 32), s.Serves 0 →
    (t ≠ 0 → s.door t.val ≠ .shut → ∃ n : State, exec (.doorShut t) s = .next n ∧ n.door t.val = .shut ∧
      (n.ten t.val).cqHead = 0 ∧ (n.ten t.val).cqTail = 0 ∧ (n.ten t.val).rqHead = 0 ∧ (n.ten t.val).rqTail = 0 ∧
      (n.ten t.val).eqHead = 0 ∧ (n.ten t.val).eqTail = 0 ∧ (n.ten t.val).eqPending = 0 ∧
      (∀ w, (n.ten t.val).wType w = 0 ∧ (n.ten t.val).stagedIn w = 0) ∧ (n.ten t.val).doorPend = none ∧
      n.tirqLow t.val = false ∧ (∀ u, u ≠ t.val → n.ten u = s.ten u ∧ n.door u = s.door u) ∧ s.SameMemory n ∧
      n = { s with doors := n.doors, tens := n.tens, sys := { s.sys with doorSel := t.val }, link := n.link }) ∧
    exec (.doorShut 0) s = .next { s with sys := { s.sys with doorSel := 0 } }

/-- O9. When the leak count of a tenant has reached LEAK_TICKS it restarts at 0 and each counter above 0 falls by 1;
before that nothing changes. A write of HEARTBEAT at an open door restarts the supervisor at HB_TICKS when the value
differs from the one written before, and otherwise restarts nothing. A supervisor of a tenant other than T0 that has
run out, with the door OPEN in the Open state, sets the door to FIRE with CAUSE 3 and no other door changes; in any
other case nothing changes. -/
def Obligations.LeakAndHeartbeat : Prop :=
  ∀ (s : State) (t : Fin 32),
    ((s.ten t.val).leakTicks ≤ (s.ten t.val).leak → ∃ n : State, exec (.leakCountExpiry t) s = .next n ∧
      n.ten t.val = { s.ten t.val with
        leak := 0, chkCnt := (s.ten t.val).chkCnt - 1, authCnt := (s.ten t.val).authCnt - 1 } ∧
      s.OnlyTenant n t.val) ∧
    ((s.ten t.val).leak < (s.ten t.val).leakTicks → exec (.leakCountExpiry t) s = .next s) ∧
    (s.Serves t.val → ∀ v : Word, ∃ n : State, exec (.heartbeatWrite t v) s = .next n ∧
      n.ten t.val = { s.ten t.val with
        heartbeat := v,
        hbLeft := if v = (s.ten t.val).heartbeat then (s.ten t.val).hbLeft else (s.ten t.val).hbTicks } ∧
      s.OnlyTenant n t.val) ∧
    (t ≠ 0 → (s.ten t.val).hbTicks ≠ 0 → (s.ten t.val).hbLeft = 0 → s.door t.val = .opened → s.pwr.st = .opened →
      ∃ n : State, exec (.heartbeatExpiry t) s = .next n ∧ n = s.fireDoor t.val 3 0) ∧
    (t = 0 ∨ (s.ten t.val).hbTicks = 0 ∨ (s.ten t.val).hbLeft ≠ 0 ∨ s.door t.val ≠ .opened ∨ s.pwr.st ≠ .opened →
      exec (.heartbeatExpiry t) s = .next s)

/-- O10. When the keeper reaches the SEC registers: a write of SEC_DOOR_CFG restarts the leak count of the selected
tenant at 0 and holds each limit at 1 where 0 is written, and with no field clamped nothing but that tenant changes.
KEY_LOAD stages the key in the staging registers with its PERSIST for slot 0 and clears the staging registers; the key
in effect, H and the map stay. KEY_ERASE clears the key in effect, a loaded key that waits, and the sealed record, and
with LOAD also the staging registers; no other tenant changes. Where a sealed record stands or is being written, the
flash controller is given the job that takes it out, and none that writes one stays queued; the rest of the flash, and
with no record all of it, stays. While the self-test of SEC runs, each of these writes is held and does nothing else.
-/
def Obligations.SecRows : Prop :=
  ∀ s : State,
    (s.testing 3 = true →
      (s.cfgReach 0 0x300D0004 true = true → ∀ v : Word, exec (.secDoorCfgWrite v) s =
        .next { s with waiting := s.waiting ++ [.regWrite 0 0x300D0004 v 0xF#4] }) ∧
      (s.cfgReach 0 0x300D0040 true = true → ∀ persist : Bool, exec (.keyLoad persist) s =
        .next { s with waiting := s.waiting ++ [.regWrite 0 0x300D0040 (wordOf (1 + 2 * bitNat persist)) 0xF#4] }) ∧
      (s.cfgReach 0 0x300D0040 true = true → ∀ load : Bool, exec (.keyErase load) s =
        .next { s with waiting := s.waiting ++ [.regWrite 0 0x300D0040 (wordOf (4 + bitNat load)) 0xF#4] })) ∧
    (s.testing 3 = false → s.cfgReach 0 0x300D0004 true = true → ∀ v : Word, ∃ n : State, exec (.secDoorCfgWrite v) s = .next n ∧
      (v.fld 0 8 ≠ 0 → v.fld 8 8 ≠ 0 → v.fld 16 16 ≠ 0 →
        n.ten s.secTen = { s.ten s.secTen with doorCfg := v, leak := 0 } ∧ s.OnlyTenant n s.secTen) ∧
      (n.ten s.secTen).leak = 0 ∧ (n.ten s.secTen).doorCfg.fld 0 8 = max 1 (v.fld 0 8) ∧
      (n.ten s.secTen).doorCfg.fld 8 8 = max 1 (v.fld 8 8) ∧
      (n.ten s.secTen).doorCfg.fld 16 16 = max 1 (v.fld 16 16)) ∧
    (s.testing 3 = false → s.cfgReach 0 0x300D0040 true = true → ∀ persist : Bool, ∃ n : State, exec (.keyLoad persist) s = .next n ∧
      n.ten s.secTen = { s.ten s.secTen with keyNew := some (s.stagedKey, persist) } ∧
      (∀ u, u ≠ s.secTen → n.ten u = s.ten u) ∧ n = { s with tens := n.tens, keyStage := 0 }) ∧
    (s.testing 3 = false → s.cfgReach 0 0x300D0040 true = true → ∀ load : Bool, ∃ n : State, exec (.keyErase load) s = .next n ∧
      n.ten s.secTen = { s.ten s.secTen with key := none, keyNew := none } ∧
      (∀ u, u ≠ s.secTen → n.ten u = s.ten u) ∧ SMap.get (fun _ => none) n.sealed s.secTen = none ∧
      (s.sealHeld s.secTen = true → ∃ k : Nat,
        FlashOp.done k 0 (.sealing s.secTen none) ∈ n.flash.queue ++ n.flash.wait) ∧
      (∀ o : FlashOp, o ∈ n.flash.queue ++ n.flash.wait → ∀ k, o.job.root ≠ .sealing s.secTen (some k)) ∧
      (s.sealHeld s.secTen = false → n.flash = s.flash ∧ n.free = s.free) ∧
      n = { s with
        tens := n.tens, sealed := n.sealed, keyStage := if load then 0 else s.keyStage, free := n.free,
        flash := { s.flash with queue := n.flash.queue, wait := n.flash.wait } })

/-- O11. While keeper registers are served, a write of SYS_GRANT_DATA stages the entry that SYS_GRANT_IDX selects and
leaves the grants in effect as they are; no other entry is staged. An extent that overlaps another valid extent of its
class is not staged: ERR is set and nothing is clamped. A routed event takes no entry. INDEX advances where AINC is 1.
With nothing clamped nothing else changes. -/
def Obligations.GrantStageRow : Prop :=
  ∀ (s : State) (v : Word), s.Serves 0 →
    let cls := s.grants.cls
    let i := s.grants.idx
    let w := grantWrite cls v
    let next := if s.grants.ainc then nextIndex cls i else i
    (8 ≤ cls → s.overlaps cls i w.1 = true →
      exec (.grantStage v) s = .next { s with grants := { s.grants with err := true, idx := next } }) ∧
    (cls = 7 → evRouted i = true → exec (.grantStage v) s = .next { s with grants := { s.grants with idx := next } }) ∧
    (¬(8 ≤ cls ∧ s.overlaps cls i w.1 = true) → ¬(cls = 7 ∧ evRouted i = true) →
      ∃ n : State, exec (.grantStage v) s = .next n ∧ n.stagedOf cls i = some w.1 ∧
        (∀ c j, 512 * c + j ≠ 512 * cls + i → n.stagedOf c j = s.stagedOf c j) ∧
        n.grants.table = s.grants.table ∧ n.grants.idx = next ∧ (w.2 = 0 → n = { s with grants := n.grants }))

/-- O12. After boot, on a port that is free: a read that fails at decode ends with a bus error and data 0;
the addressed page records the first cause with port and address, or sets only OVF, and nothing else of any tenant,
and no byte of memory, changes. A read of a page register other than PG_FENCE that its page mask and door let through,
with no posted write to the same place waiting, ends without error and returns the register's value; beside the port
only what the register's read side effect touches changes. In asynchronous mode HA_RDY is then high and HA_BERR_N tells
the error; in synchronous mode both have been so at Ek alone (log entry 127). -/
def Obligations.HostReadRow : Prop :=
  ∀ (s : State) (p : Fin 2) (page : Fin 32) (off : BitVec 16), s.portFree p.val = true → s.sys.bootDone = true →
    let o := off.toNat / 4 * 4
    (∀ e : Err, s.portErr p.val page.val o false = some e → ∃ n : State, exec (.hostRead p page off) s = .next n ∧
      (n.port p.val).ended = some ⟨false, some 0⟩ ∧ (n.port p.val).rdy = !(s.port p.val).sync ∧
      (n.port p.val).berrN = (s.port p.val).sync ∧ (n.port p.val).dOut = some 0 ∧ n.rdata = 0 ∧
      ((s.ten page.val).berr.fld 0 3 = 0 →
        (n.ten page.val).berr = wordOf (e.cause + 8 * p.val) ∧
        (n.ten page.val).berrAddr = wordOf ((page.val * 65536 + o) / 4 % 2 ^ 19 * 4)) ∧
      ((s.ten page.val).berr.fld 0 3 ≠ 0 →
        (n.ten page.val).berr = (s.ten page.val).berr ||| 0x40#32 ∧
        (n.ten page.val).berrAddr = (s.ten page.val).berrAddr) ∧
      n.ten page.val = { s.ten page.val with berr := (n.ten page.val).berr, berrAddr := (n.ten page.val).berrAddr } ∧
      (∀ u, u ≠ page.val → n.ten u = s.ten u) ∧ s.SameMemory n ∧
      n = { s with tens := n.tens, portA := n.portA, portB := n.portB, rdata := 0 }) ∧
    ((isPageReg o || (page.val == 0 && isSysReg o)) = true → o ≠ 0xC →
      (s.port p.val).pages.getLsbD page.val = true → s.doorServes page.val (.reg o) false = true →
      ((s.port p.val).post.any fun q => s.behind q (readAcc page.val off.toNat)) = false →
      ∃ n : State, exec (.hostRead p page off) s = .next n ∧
        (n.port p.val).rdy = !(s.port p.val).sync ∧ (n.port p.val).berrN = true ∧ (n.port p.val).acc = none ∧
        (let s1 := s.updPort p.val fun h => { h with clkOk := h.sync }
         (n.port p.val).ended = some ⟨true, some (s1.regGet page.val p.val o)⟩ ∧
         (n.port p.val).dOut = some (s1.regGet page.val p.val o) ∧ n.rdata = s1.regGet page.val p.val o ∧ s.SameMemory n ∧
         n = { s1.regSide page.val o with portA := n.portA, portB := n.portB, rdata := n.rdata }))

/-- O13. After boot, on a port that is free and reaches a page whose door is OPEN: without posting and with no posted
write waiting, a write of PG_SCRATCH replaces the bytes whose enables are low and no other tenant, register or byte of
memory changes. A write of a word of a CQ slot that the host owns, with no stored error in its 64-bit word, replaces
exactly the enabled bytes of SRAM; every other byte reads as before. With POST_EN 1 a write that passes decode and is
not of a page mask enters the posting buffer, which has room, and nothing else of the part changes. A write with no
byte enabled has no effect at its target. Each ends without error: HA_BERR_N is high, and so is HA_RDY but in
synchronous mode, where it has been so at Ek alone (log entry 127). -/
def Obligations.HostWriteRow : Prop :=
  ∀ (s : State) (p : Fin 2) (page : Fin 32) (v : Word) (beN : BitVec 4),
    s.portFree p.val = true → s.sys.bootDone = true → (s.port p.val).pages.getLsbD page.val = true →
    s.door page.val = .opened →
    ((s.port p.val).postEn = false → (s.port p.val).post = [] →
      ∃ n : State, exec (.hostWrite p page 0xB4 v beN) s = .next n ∧ (n.port p.val).ended = some ⟨true, none⟩ ∧
        (n.port p.val).rdy = !(s.port p.val).sync ∧ (n.port p.val).berrN = true ∧
        n.ten page.val = { s.ten page.val with scratch := mergeBytes (s.ten page.val).scratch v (~~~beN) } ∧
        (∀ u, u ≠ page.val → n.ten u = s.ten u) ∧ s.SameMemory n) ∧
    ((s.port p.val).postEn = false → (s.port p.val).post = [] → ∀ off : BitVec 16,
      0x1000 ≤ off.toNat → off.toNat < 0x1800 → s.cqOwned page.val ((off.toNat - 0x1000) / 64) = false →
      (let a := lbxBase + page.val * 0x1200 + (off.toNat / 4 * 4 - 0x1000)
       s.eccOf (a / 8 * 8) = .good → s.sramHeld a = false →
       ∃ n : State, exec (.hostWrite p page off v beN) s = .next n ∧ (n.port p.val).ended = some ⟨true, none⟩ ∧
         (n.port p.val).rdy = !(s.port p.val).sync ∧ (n.port p.val).berrN = true ∧
         (∀ i, i < 4 → n.rdByte (a + i) =
           if beN.getLsbD i then s.rdByte (a + i) else BitVec.ofNat 8 (fieldOf v.toNat (8 * i) 8)) ∧
         (∀ x, x < a ∨ a + 4 ≤ x → n.rdByte x = s.rdByte x) ∧ n.tens = s.tens)) ∧
    ((s.port p.val).postEn = true → (s.port p.val).post.length < 8 → beN ≠ 0xF#4 → ∀ off : BitVec 16,
      s.portErr p.val page.val (off.toNat / 4 * 4) true = none →
      neverPosted page.val (off.toNat / 4 * 4) = false →
      ∃ n : State, exec (.hostWrite p page off v beN) s = .next n ∧
        (n.port p.val).post = (s.port p.val).post ++ [writeAcc page.val off.toNat v beN] ∧
        (n.port p.val).ended = some ⟨true, none⟩ ∧
        (n.port p.val).rdy = !(s.port p.val).sync ∧ (n.port p.val).berrN = true ∧
        n = { s with portA := n.portA, portB := n.portB })

/-- O14. The strobes going high after completion drive HA_RDY low and HA_BERR_N high and release HA_D, and a reset that a
port has asked for begins (log entry 128); before completion they change nothing of the port. Where no posted write of
the port is a flash command that the controller has taken: an access abandoned before it completes leaves the port with
no effect and no record, and a flash command of its that waits is void. When the wait guard expires the access ends with
a bus error and cause STALL. What a self-test held of either is no longer held. A waiting access is served once its
target gives its result, as it would have been when sampled. -/
def Obligations.HostWaits : Prop :=
  ∀ (s : State) (p : Fin 2),
    ((s.port p.val).ended ≠ none → ∃ m : State,
      m.port p.val = { s.port p.val with rdy := false, berrN := true, dOut := none, ended := none } ∧
      m.port (1 - p.val) = s.port (1 - p.val) ∧ m = { s with portA := m.portA, portB := m.portB } ∧
      exec (.hostStrobeRelease p) s = .next (if s.sys.resetPend then m.resetPulse 2 else m)) ∧
    ((s.port p.val).ended = none → s.sys.resetPend = false → exec (.hostStrobeRelease p) s = .next s) ∧
    (((s.port p.val).post.any fun q => q.stepped) = false →
      (∀ a : Access, (s.port p.val).acc = some a → a.stepped = false →
        (∃ n : State, exec (.accessAbandon p) s = .next n ∧
          n.port p.val = { s.port p.val with acc := none, dOut := none } ∧
          n = { s with
            portA := n.portA, portB := n.portB, waiting := s.waiting.filter fun q => q != .access p.val }) ∧
        (∃ n : State, exec (.waitGuardExpiry p) s = .next n ∧ (n.port p.val).acc = none ∧
          (n.port p.val).ended = some ⟨false, if a.write then none else some 0⟩ ∧
          (n.port p.val).rdy = !(s.port p.val).sync ∧ (n.port p.val).berrN = (s.port p.val).sync ∧
          ((s.ten a.page).berr.fld 0 3 = 0 →
            (n.ten a.page).berr = wordOf (3 + 8 * p.val + 16 * bitNat a.write)) ∧
          n = { s with
            tens := n.tens, portA := n.portA, portB := n.portB, rdata := n.rdata,
            waiting := s.waiting.filter fun q => q != .access p.val })) ∧
      (∀ a : Access, (s.port p.val).acc = some a → a.stepped = true → s.winWaits p.val = true →
        ∃ n : State, exec (.accessAbandon p) s = .next n ∧ (n.port p.val).acc = none ∧
          (n.winOps p.val).length + 1 = (s.winOps p.val).length ∧
          n = { s with
            portA := n.portA, portB := n.portB, waiting := s.waiting.filter fun q => q != .access p.val,
            flash := { s.flash with queue := n.flash.queue, wait := n.flash.wait } }) ∧
      ((s.port p.val).acc = none → exec (.accessAbandon p) s = .next s ∧ exec (.waitGuardExpiry p) s = .next s)) ∧
    (∀ a : Access, (s.port p.val).acc = some a → s.up (2 + p.val) = true →
      exec (.hostAccessComplete p) s = .next (s.portServe p.val a)) ∧
    ((s.port p.val).acc = none → exec (.hostAccessComplete p) s = .next s)

/-- O15. The oldest posted write of a port that does not wait takes effect: a PG_SCRATCH write replaces the enabled bytes
of its page and leaves every other tenant alone. A posted write that meets an error at its target has no effect there,
is recorded with POSTED 1, and its cause is kept for the page's next fence unless one is kept already. A fence read of
a served page with no posted write waiting ends without error and returns 0 when no cause is kept, and with a bus
error when one is; the kept cause is then cleared and the page records nothing more. -/
def Obligations.PostAndFence : Prop :=
  ∀ (s : State) (p : Fin 2),
    ((s.port p.val).post = [] → exec (.postedWriteDrain p) s = .next s) ∧
    (∀ (a : Access) (q : List Access), (s.port p.val).post = a :: q → a.off = 0xB4 → a.stepped = false →
      s.sys.bootDone = true → ∃ n : State, exec (.postedWriteDrain p) s = .next n ∧ (n.port p.val).post = q ∧
        (n.ten a.page).scratch = mergeBytes (s.ten a.page).scratch a.val (~~~a.beN) ∧
        (∀ u, u ≠ a.page → n.ten u = s.ten u) ∧ s.SameMemory n) ∧
    (∀ (a : Access) (q : List Access) (ref : PageRef) (e : Err), (s.port p.val).post = a :: q →
      pageRef a.page a.off = some ref → s.refHeld a.page ref true = false → a.stepped = false →
      s.refErr a.page ref true = some e → (s.ten a.page).berr.fld 0 3 = 0 →
      SMap.get (fun _ => 0) (s.port p.val).fence a.page = 0 →
      ∃ n : State, exec (.postedWriteDrain p) s = .next n ∧ (n.port p.val).post = q ∧
        (n.ten a.page).berr = wordOf (e.cause + 8 * p.val + 16 + 32) ∧
        SMap.get (fun _ => 0) (n.port p.val).fence a.page = e.cause ∧
        n = { s with tens := n.tens, portA := n.portA, portB := n.portB }) ∧
    (∀ page : Fin 32, s.portFree p.val = true → s.sys.bootDone = true →
      (s.port p.val).pages.getLsbD page.val = true → s.door page.val ≠ .shut → (s.port p.val).post = [] →
      ∃ n : State, exec (.fenceRead p page) s = .next n ∧ (n.port p.val).rdy = !(s.port p.val).sync ∧
        n.rdata = 0 ∧ (n.port p.val).ended =
          some ⟨decide (SMap.get (fun _ => 0) (s.port p.val).fence page.val = 0), some 0⟩ ∧
        SMap.get (fun _ => 0) (n.port p.val).fence page.val = 0 ∧ n.tens = s.tens ∧
        n = { s with portA := n.portA, portB := n.portB, rdata := 0 })

/-- O16. By a command, a write of SYS_PORTA_PAGES or SYS_PORTB_PAGES with every byte enabled sets that mask to the value
written and changes nothing else. Through a port without waits that reaches page 0, a write of the port's own mask
with every byte enabled keeps bit 0 at 1; of the other port's mask, it sets the value written. -/
def Obligations.PageMaskRow : Prop :=
  ∀ (s : State) (which : Fin 2) (v : Word), s.Serves 0 →
    (∃ n : State, exec (.pageMaskWrite none which v 0#4) s = .next n ∧ (n.port which.val).pages = v ∧
      n.port which.val = { s.port which.val with pages := v } ∧ n.port (1 - which.val) = s.port (1 - which.val) ∧
      n = { s with portA := n.portA, portB := n.portB }) ∧
    (∀ p : Fin 2, s.portFree p.val = true → (s.port p.val).pages.getLsbD 0 = true → (s.port p.val).post = [] →
      ∃ n : State, exec (.pageMaskWrite (some p) which v 0#4) s = .next n ∧
        (n.port which.val).pages = (if p = which then v ||| 1 else v) ∧
        (n.port p.val).ended = some ⟨true, none⟩ ∧ (n.port p.val).rdy = !(s.port p.val).sync)

/-- O17. At an open door with registers served: a doorbell that keeps the CQ within 32 slots hands the new slots over; a
value equal to CQ_TAIL has no effect; any other value leaves CQ_TAIL unchanged and counts one clamp. RQ_HEAD and
EQ_HEAD move to a value that lies from the head to the tail, counted forward; any other value leaves the register
unchanged and counts one clamp. A move changes nothing else of the part. -/
def Obligations.QueueIndexRows : Prop :=
  ∀ (s : State) (t : Fin 32), s.Serves t.val →
    (∀ v : BitVec 6,
      ((v - (s.ten t.val).cqTail).toNat ≤ 32 - (s.ten t.val).cqCount → v ≠ (s.ten t.val).cqTail →
        ∃ n : State, exec (.doorbell t v) s = .next n ∧ n.ten t.val = { s.ten t.val with cqTail := v } ∧
          s.OnlyTenant n t.val) ∧
      (v = (s.ten t.val).cqTail → exec (.doorbell t v) s = .next s) ∧
      (32 - (s.ten t.val).cqCount < (v - (s.ten t.val).cqTail).toNat → v ≠ (s.ten t.val).cqTail →
        ∃ n : State, exec (.doorbell t v) s = .next n ∧ (n.ten t.val).cqTail = (s.ten t.val).cqTail ∧
          (n.ten t.val).clamps = satAdd 65535 (s.ten t.val).clamps 1 ∧ (n.ten t.val).irqClamp = true)) ∧
    (∀ v : BitVec 6,
      ((v - (s.ten t.val).rqHead).toNat ≤ (s.ten t.val).rqCount →
        ∃ n : State, exec (.rqHeadWrite t v) s = .next n ∧ n.ten t.val = { s.ten t.val with rqHead := v } ∧
          s.OnlyTenant n t.val) ∧
      ((s.ten t.val).rqCount < (v - (s.ten t.val).rqHead).toNat →
        ∃ n : State, exec (.rqHeadWrite t v) s = .next n ∧ (n.ten t.val).rqHead = (s.ten t.val).rqHead ∧
          (n.ten t.val).clamps = satAdd 65535 (s.ten t.val).clamps 1 ∧ (n.ten t.val).irqClamp = true)) ∧
    (∀ v : BitVec 7,
      ((v - (s.ten t.val).eqHead).toNat ≤ (s.ten t.val).eqCount →
        ∃ n : State, exec (.eqHeadWrite t v) s = .next n ∧ n.ten t.val = { s.ten t.val with eqHead := v } ∧
          s.OnlyTenant n t.val) ∧
      ((s.ten t.val).eqCount < (v - (s.ten t.val).eqHead).toNat →
        ∃ n : State, exec (.eqHeadWrite t v) s = .next n ∧ (n.ten t.val).eqHead = (s.ten t.val).eqHead ∧
          (n.ten t.val).clamps = satAdd 65535 (s.ten t.val).clamps 1 ∧ (n.ten t.val).irqClamp = true))

/-- O18. At an open door with registers served: a write of Wn_CTRL discards the window's staged words and sets TYPE, OFF
for a reserved code and for FLASH of a tenant other than the keeper; BASE keeps its stored value. A write of Wn_BASE
discards the staged words and stores the value held to the range of the TYPE in force. A write of WIN_COMMIT while
STATE is BUSY sets REJ and nothing else; otherwise STATE reads BUSY and the request keeps the CRC of WIN_CHECK of that
instant. No byte of memory, and no other tenant unless a clamp raises its event, changes. -/
def Obligations.WindowRegisterRows : Prop :=
  ∀ (s : State) (t : Fin 32), s.Serves t.val →
    (∀ (w : Fin 4) (v : Word), ∃ n : State, exec (.windowConfigWrite t w true v) s = .next n ∧
      (n.ten t.val).wType w.val =
        (if 5 ≤ v.toNat % 8 ∨ (v.toNat % 8 = 4 ∧ t ≠ 0) then 0 else v.toNat % 8) ∧
      (n.ten t.val).stagedIn w.val = 0 ∧ (n.ten t.val).wBase w.val = (s.ten t.val).wBase w.val ∧
      (¬(5 ≤ v.toNat % 8 ∨ (v.toNat % 8 = 4 ∧ t ≠ 0)) → s.OnlyTenant n t.val ∧
        (n.ten t.val).clamps = (s.ten t.val).clamps)) ∧
    (∀ (w : Fin 4) (v : Word), ∃ n : State, exec (.windowConfigWrite t w false v) s = .next n ∧
      (n.ten t.val).wBase w.val = min (baseMax ((s.ten t.val).wType w.val)) (v.toNat % 1024) ∧
      (n.ten t.val).stagedIn w.val = 0 ∧ (n.ten t.val).wType w.val = (s.ten t.val).wType w.val ∧
      (v.toNat % 1024 ≤ baseMax ((s.ten t.val).wType w.val) → s.OnlyTenant n t.val)) ∧
    (∀ v : Word,
      ((s.ten t.val).winState = 1 → ∃ n : State, exec (.winCommitReg t v) s = .next n ∧
        n.ten t.val = { s.ten t.val with winRej := true } ∧ s.OnlyTenant n t.val) ∧
      ((s.ten t.val).winState ≠ 1 → ∃ n : State, exec (.winCommitReg t v) s = .next n ∧
        (n.ten t.val).winState = 1 ∧
        (n.ten t.val).winReq = some ⟨v.fld 22 2, 4 * v.fld 0 11, 4 * (min (v.fld 11 11) (2047 - v.fld 0 11) + 1),
          (s.ten t.val).winCheck⟩ ∧
        (v.fld 0 11 + v.fld 11 11 ≤ 2047 → s.OnlyTenant n t.val)))

/-- O19. In CMD slot n, one of the even slots 4 to 34, while the tick counts, boot has completed and no power request
runs: a tenant whose door is not OPEN, that is paused, that has no slot in its CQ and no commit requested, or whose
service has ended, gets nothing. A tenant's turn with a slot at CQ_HEAD that reads without error, passes its CHECK, is
not in the tag history, and whose cost its quota and the capacity cover, accepts it: CQ_HEAD advances by 1, the cost
is charged to the tenant and to the capacity, the tag enters the history, and the command waits for its row, with the
grants in effect at this instant. -/
def Obligations.SlotAccepted : Prop :=
  (∀ (s : State) (n : Nat), (Instr.cmdSlot n).WellFormed = true →
    (s.ticking = true → s.sys.bootDone = true → s.pwr.phase = .idle →
      exec (.cmdSlot n) s = .next ((s.updTick fun k => { k with slot := n }).each (serviceOrder s.tick.first)
        fun x t => State.turns 33 t n x)) ∧
    (s.ticking = false → exec (.cmdSlot n) s = .next s)) ∧
  (∀ (s : State) (t n k : Nat), (s.door t ≠ .opened ∨ (s.ten t).ended = true ∨
      ((s.ten t).winReq = none ∧ ((s.ten t).pause = true ∨ (s.ten t).cqCount = 0))) →
    State.turns (k + 1) t n s = s) ∧
  (∀ (s : State) (t n cost : Nat), s.door t = .opened → (s.ten t).ended = false → (s.ten t).winReq = none →
    (s.ten t).pause = false → (s.ten t).cqCount ≠ 0 → s.rqFree t ≠ 0 → s.cqLink t (s.ten t).cqHead.toNat = none →
    s.sramHeld (cqAddr t (s.ten t).cqHead.toNat) = false →
    (∀ i, i < 8 → s.eccOf (cqAddr t (s.ten t).cqHead.toNat + 8 * i) = .good) →
    (let b := s.rdBytes (cqAddr t (s.ten t).cqHead.toNat) 64
     wordOf (natAt b 60 4) = crc32c (b.take 60) → (s.ten t).histOf (slotTag b) = none → s.slotCost t b = some cost →
     cost ≤ (s.ten t).quota → (s.ten t).spent + cost ≤ (s.ten t).quota → cost ≤ s.tick.capLeft →
     ∃ m : State, s.turn t n = (m, true) ∧ (m.ten t).cqHead = (s.ten t).cqHead + 1 ∧
       (m.ten t).spent = (s.ten t).spent + cost ∧ m.tick.capLeft = s.tick.capLeft - cost ∧
       (m.ten t).hist = (⟨s.nextRun, slotTag b, none⟩ :: (s.ten t).hist).take 64 ∧ m.nextRun = s.nextRun + 1 ∧
       m.runs = s.runs ++ [⟨s.nextRun, t, b, 0, n, none, false, .accepted, s.grants.table, s.grants.wipe⟩] ∧ (∀ u, u ≠ t → m.ten u = s.ten u) ∧
       s.SameMemory m))

/-- O20. The row of a command runs the oldest accepted command of its tenant with its opcode; with none, nothing
happens. ECHO returns its 56 argument bytes. A register command that reaches all its registers, none of them held,
finishes with OK: CFG_READ with the registers read one after the other, each with its side effects, CFG_WRITE after it
has written them one after the other, CFG_MODIFY after it has replaced the masked bits, with the register as it reads
afterwards, PAGE_READ and PAGE_WRITE with the registers of the tenant's page. Out of reach, by the grants of its
start, each finishes with DENIED, or NOT_READY without power, and writes nothing but its result. One that meets a
self-test is held and changes nothing. -/
def Obligations.RegisterCommands : Prop :=
  ∀ (s : State) (t : Fin 32),
    ((∀ op, s.runOf t.val op = none) → exec (.echo t) s = .next s ∧ exec (.cfgRead t) s = .next s ∧
      exec (.cfgWrite t) s = .next s ∧ exec (.cfgModify t) s = .next s ∧ exec (.pageRead t) s = .next s ∧
      exec (.pageWrite t) s = .next s) ∧
    (∀ r : Run, s.runOf t.val 0x01 = some r → exec (.echo t) s = .next (s.finish r 0 (bytesAt r.slot 4 56))) ∧
    (∀ r : Run, s.runOf t.val 0x02 = some r → (cfgArgs r 14).1.any s.cfgHeld = true →
      exec (.cfgRead t) s = .next (s.hold (.run r.id))) ∧
    (∀ r : Run, s.runOf t.val 0x03 = some r → (cfgArgs r 12).1.any s.cfgHeld = true →
      exec (.cfgWrite t) s = .next (s.hold (.run r.id))) ∧
    (∀ r : Run, s.runOf t.val 0x04 = some r → s.cfgHeld (r.arg 4 4 / 4 * 4) = true →
      exec (.cfgModify t) s = .next (s.hold (.run r.id))) ∧
    (∀ r : Run, s.runOf t.val 0x02 = some r → (cfgArgs r 14).1.any s.cfgHeld = false →
      ((s.under r).cfgErrs r.ten false (cfgArgs r 14).1 = none → ∃ n : State, exec (.cfgRead t) s = .next n ∧
        n = (((s.argClamps r (cfgArgs r 14).2).cfgReads r.ten (cfgArgs r 14).1).1).finish r 0
          ((s.argClamps r (cfgArgs r 14).2).cfgReads r.ten (cfgArgs r 14).1).2) ∧
      (∀ e, (s.under r).cfgErrs r.ten false (cfgArgs r 14).1 = some e → exec (.cfgRead t) s = .next (s.finish r e.status []))) ∧
    (∀ r : Run, s.runOf t.val 0x03 = some r → (cfgArgs r 12).1.any s.cfgHeld = false →
      ((s.under r).cfgErrs r.ten true (cfgArgs r 12).1 = none → exec (.cfgWrite t) s =
        .next (((s.argClamps r (cfgArgs r 12).2).cfgWrites r ((cfgArgs r 12).1.zip (r.words 12))).finish r 0 [])) ∧
      (∀ e, (s.under r).cfgErrs r.ten true (cfgArgs r 12).1 = some e → exec (.cfgWrite t) s = .next (s.finish r e.status []))) ∧
    (∀ (r : Run) (a : Nat), s.runOf t.val 0x04 = some r → a = r.arg 4 4 → a % 4 = 0 → s.cfgHeld a = false →
      (s.under r).cfgCmdErr r.ten a true = none → (s.under r).cfgCmdErr r.ten a false = none →
      ∃ n m : State, exec (.cfgModify t) s = .next n ∧
        m = s.cfgWrites r [(a, (s.cfgGet r.ten a &&& ~~~wordOf (r.arg 8 4)) ||| (wordOf (r.arg 12 4) &&& wordOf (r.arg 8 4)))] ∧
        n = m.finish r 0 (leBytes 4 (m.cfgGet r.ten a).toNat)) ∧
    (∀ r : Run, s.runOf t.val 0x05 = some r →
      ((pageArgs r 14).2.2 = true → ∃ n : State, exec (.pageRead t) s = .next n ∧
        n = (((s.argClamps r (pageArgs r 14).2.1).pageReads r.ten (pageArgs r 14).1).1).finish r 0
          ((s.argClamps r (pageArgs r 14).2.1).pageReads r.ten (pageArgs r 14).1).2) ∧
      ((pageArgs r 14).2.2 = false → exec (.pageRead t) s = .next (s.finish r 2 []))) ∧
    (∀ r : Run, s.runOf t.val 0x06 = some r →
      ((pageArgs r 12).2.2 = true → exec (.pageWrite t) s =
        .next (((s.argClamps r (pageArgs r 12).2.1).pageWrites r ((pageArgs r 12).1.zip (r.words 12))).finish r 0 [])) ∧
      ((pageArgs r 12).2.2 = false → exec (.pageWrite t) s = .next (s.finish r 2 [])))

/-- O21. EQ_READ of a queue whose entries read without error returns their number, at most 1 to 6 as COUNT asks, and
their bytes, and EQ_HEAD moves past them; no byte of memory changes. GRANT makes the two writes of SYS_GRANT_IDX and
SYS_GRANT_DATA with its arguments held to their ranges and answers 0 where R62 refused the extent and 1 where the
entry was staged; the grants in effect stay. PWR_REQ writes SYS_PWR_REQ with its argument. Each finishes with OK. -/
def Obligations.EqGrantPowerCommands : Prop :=
  ∀ (s : State) (t : Fin 32) (r : Run),
    (s.runOf t.val 0x07 = some r → r.ten = t.val → s.sramHeld (eqAddr t.val 0) = false →
      (let m := min (argClamp 1 6 (r.arg 4 1)).1 (s.ten t.val).eqCount
       (∀ i, i < m → s.eccOf (eqAddr t.val ((s.ten t.val).eqHead.toNat + i)) = .good) →
       1 ≤ r.arg 4 1 → r.arg 4 1 ≤ 6 →
       ∃ n x : State, exec (.eqRead t) s = .next n ∧ x.SameMemory s ∧
         n = x.finish r 0 ([BitVec.ofNat 8 m, 0, 0, 0] ++ s.eqBytes t.val (s.ten t.val).eqHead.toNat m) ∧
         x.ten t.val = { s.ten t.val with eqHead := (s.ten t.val).eqHead + BitVec.ofNat 7 m } ∧
         s.OnlyTenant x t.val)) ∧
    (s.runOf t.val 0x50 = some r → r.ten = 0 → s.sys.bootDone = true → ∀ cls i own : Nat, cls < 6 → i < classSize cls →
      own < 32 → r.arg 4 1 = cls → r.arg 6 2 = i → r.arg 8 1 = own → r.arg 9 1 = 0 →
      ∃ n x : State, exec (.grant t) s = .next n ∧ n = x.finish r 0 [1#8] ∧
        x.stagedOf cls i = some ⟨own, false, 0, 0⟩ ∧ x.grants.table = s.grants.table ∧
        x = { s with grants := x.grants }) ∧
    (s.runOf t.val 0x52 = some r → (let v := wordOf (r.arg 4 4)
      s.pwr.phase ≠ .idle ∨ v.fld 0 3 ≤ 3 →
      exec (.pwrReq t) s = .next ((s.pwrRequest (min 3 (v.fld 0 3)) (v.bit 3)).finish r 0 [])))

/-- O22. WIN_WRITE that reaches every word of its range, none of them held, stages its bytes word by word and finishes
with OK; where a word is out of reach it finishes with that error and stages nothing. WIN_COMMIT that reaches its
range finishes with CHECK_FAIL and counts a check failure, with nothing written, when the CRC-32C of the content to be
is not the one given; with the CRC right and no stored error met it writes the staged words and finishes with OK and
the CRC. -/
def Obligations.WindowCommands : Prop :=
  ∀ (s : State) (t : Fin 32) (r : Run),
    (s.runOf t.val 0x10 = some r →
      (let w := argClamp 0 3 (r.arg 4 1)
       let g := winRange (r.arg 6 2) (r.arg 5 1) 1 48 1
       let ws := wordsOf g.1 (bytesAt r.slot 8 g.2.1)
       s.rangeHeld r.ten w.1 g.1 g.2.1 = false →
       ((s.under r).winErrs r.ten w.1 true (ws.map fun q => q.1) = none →
         exec (.winWrite t) s =
           .next (((s.argClamps r (w.2 + g.2.2)).winPutAll r.ten w.1 r.path ws).finish r 0 [])) ∧
       (∀ e, (s.under r).winErrs r.ten w.1 true (ws.map fun q => q.1) = some e →
         exec (.winWrite t) s = .next (s.finish r e.status [])))) ∧
    (s.runOf t.val 0x11 = some r →
      (let a := commitArgs r.slot
       let rng := commitRange ((s.ten r.ten).wType a.1) a.2.1 a.2.2.1
       let os := wordOffs rng.1 rng.2
       s.rangeHeld r.ten a.1 a.2.1 a.2.2.1 = false → s.rangeBusy r.ten a.1 a.2.1 a.2.2.1 = false →
       (∀ e, (s.under r).commitErr r.ten a.1 os = some e → exec (.winCommit t) s = .next (s.finish r e.status [])) ∧
       (rng = (a.2.1, a.2.2.1) → a.2.2.2 = 0 → (s.under r).commitErr r.ten a.1 os = none →
       ∀ vs : List Word, (s.commitWords r.ten a.1 os).2 = some vs →
       (let x := (s.commitWords r.ten a.1 os).1
        let c := crc32c (vs.flatMap fun v => leBytes 4 v.toNat)
        (c ≠ wordOf (r.arg 12 4) → exec (.winCommit t) s =
          .next ((x.doorFail r.ten false).finish r 3 (leBytes 4 c.toNat))) ∧
        (c = wordOf (r.arg 12 4) → (x.commitPart r.ten a.1 rng.1 rng.2).2 = false →
          exec (.winCommit t) s =
            .next (((x.commitPart r.ten a.1 rng.1 rng.2).1.commitWrite r.ten a.1 rng.1 rng.2 r.path).finish r 0
              (leBytes 4 c.toNat)))))))

/-- O23. A map with a cell that is not the tenant's finishes with DENIED and arms or cancels nothing. FLIP_ARM for a
tick it precedes in time, with the tick number set and PD_DISP on, arms exactly the cells of the map for that tick,
and FLIP_CANCEL ends the arms of exactly the cells of the map; every other cell, every front sash and every byte of
memory stay. FLIP_ARM too late, or without a tick number, finishes with NOT_READY and arms nothing. Both are held
while a port of the map is under its self-test. -/
def Obligations.FlipCommands : Prop :=
  ∀ (s : State) (t : Fin 32) (r : Run),
    (s.mapHeld (mapCells r) = true →
      (s.runOf t.val 0x20 = some r → exec (.flipArm t) s = .next (s.hold (.run r.id))) ∧
      (s.runOf t.val 0x21 = some r → exec (.flipCancel t) s = .next (s.hold (.run r.id)))) ∧
    (s.mapHeld (mapCells r) = false → s.runOf t.val 0x20 = some r →
      ((mapCells r).any (fun c => (s.under r).owner 0 c ≠ r.ten) = true →
        exec (.flipArm t) s = .next (s.finish r 2 [])) ∧
      ((mapCells r).any (fun c => (s.under r).owner 0 c ≠ r.ten) = false →
        ((s.tick.numValid = false ∨ s.armInTime (r.arg 4 6) = false ∨ s.up 8 = false) →
          exec (.flipArm t) s = .next (s.finish r 10 [])) ∧
        (s.tick.numValid = true → s.armInTime (r.arg 4 6) = true → s.up 8 = true →
          ∃ n x : State, exec (.flipArm t) s = .next n ∧ n = x.finish r 0 [BitVec.ofNat 8 (mapCells r).length] ∧
            (∀ c, c ∈ mapCells r → x.cell c = { s.cell c with
              arm := some (BitVec.ofNat 48 (r.arg 4 6)), verdict := none }) ∧
            (∀ c, c ∉ mapCells r → x.cell c = s.cell c) ∧
            x = { s with disp := { s.disp with cells := x.disp.cells } }))) ∧
    (s.mapHeld (mapCells r) = false → s.runOf t.val 0x21 = some r →
      ((mapCells r).any (fun c => (s.under r).owner 0 c ≠ r.ten) = true →
        exec (.flipCancel t) s = .next (s.finish r 2 [])) ∧
      ((mapCells r).any (fun c => (s.under r).owner 0 c ≠ r.ten) = false → s.up 8 = true →
        ∃ n x : State, exec (.flipCancel t) s = .next n ∧
          n = x.finish r 0 [BitVec.ofNat 8 ((mapCells r).filter fun c => (s.cell c).arm.isSome).length] ∧
          (∀ c, c ∈ mapCells r → x.cell c = { s.cell c with arm := none, verdict := none }) ∧
          (∀ c, c ∉ mapCells r → x.cell c = s.cell c) ∧
          x = { s with disp := { s.disp with cells := x.disp.cells } }))

/-- O24. While FLASH is under its self-test each is held. Out of the tenant's reach each finishes with DENIED, without
PD_FLASH with NOT_READY, and nothing of flash changes. Within reach, with no self-test of FLASH: FLASH_READ with no
pulse running and no erase of its sectors in progress returns the bytes read; SECTOR_ERASE and FLASH_PROG go on
working, and join the flash queue, or while a power entry runs the operations that wait for its end: one erase of the
sector with REASON 1, or one program for each word of the committed content of the window, and then the job's end. -/
def Obligations.FlashCommands : Prop :=
  ∀ (s : State) (t : Fin 32) (r : Run),
    (s.testing 2 = true →
      (s.runOf t.val 0x30 = some r → exec (.flashRead t) s = .next (s.hold (.run r.id))) ∧
      (s.runOf t.val 0x31 = some r → exec (.flashProg t) s = .next (s.hold (.run r.id))) ∧
      (s.runOf t.val 0x32 = some r → exec (.sectorErase t) s = .next (s.hold (.run r.id)))) ∧
    (s.runOf t.val 0x30 = some r → s.testing 2 = false → (let n := argClamp 1 48 (r.arg 8 1)
      let off := r.arg 4 4
      (0x800000 < off + n.1 ∨ (rangeSectors off n.1).any (fun x => !(s.under r).flashOk r.ten x false) = true →
        exec (.flashRead t) s = .next (s.finish r 2 [])) ∧
      (off + n.1 ≤ 0x800000 → (rangeSectors off n.1).any (fun x => !(s.under r).flashOk r.ten x false) = false →
        (s.up 5 = false → exec (.flashRead t) s = .next (s.finish r 10 [])) ∧
        (s.up 5 = true → (rangeSectors off n.1).any s.erasing = false → s.flashBusy = false →
          n.2 = 0 → ∀ bs : List Byte, (s.flashBytes off n.1).2 = some bs →
          exec (.flashRead t) s = .next ((s.flashBytes off n.1).1.finish r 0 bs))))) ∧
    (s.runOf t.val 0x32 = some r → s.testing 2 = false → (let n := argClamp 0 4095 (r.arg 4 2)
      ((s.under r).flashOk r.ten n.1 true = false → exec (.sectorErase t) s = .next (s.finish r 2 [])) ∧
      ((s.under r).flashOk r.ten n.1 true = true → s.up 5 = false →
        exec (.sectorErase t) s = .next (s.finish r 10 [])) ∧
      ((s.under r).flashOk r.ten n.1 true = true → s.up 5 = true → n.2 = 0 →
        ∃ m : State, exec (.sectorErase t) s = .next m ∧ m.runs = (s.setRun r.id .working).runs ∧
          (let j := Job.cmd r.id
           m.flash = { s.flash with
             queue := if s.inEntry then s.flash.queue else s.flash.queue ++ [FlashOp.erase n.1 1 j, .done 0 0 j],
             wait := if s.inEntry then s.flash.wait ++ [FlashOp.erase n.1 1 j, .done 0 0 j] else s.flash.wait }) ∧
          m = { s with runs := m.runs, flash := m.flash }))) ∧
    (s.runOf t.val 0x31 = some r → s.testing 2 = false →
      (let a := progArgs r
       s.rangeHeld r.ten a.2.2.1 a.2.2.2.1 (8 * a.2.1) = false → a.1 < 0x800000 →
       ((s.under r).flashOk r.ten (a.1 / 2048) true = false → exec (.flashProg t) s = .next (s.finish r 2 [])) ∧
       ((s.under r).flashOk r.ten (a.1 / 2048) true = true →
         (∀ e, (s.under r).winErrs r.ten a.2.2.1 false (wordOffs a.2.2.2.1 (8 * a.2.1)) = some e →
           exec (.flashProg t) s = .next (s.finish r e.status [])) ∧
         ((s.under r).winErrs r.ten a.2.2.1 false (wordOffs a.2.2.2.1 (8 * a.2.1)) = none →
           (s.up 5 = false → exec (.flashProg t) s = .next (s.finish r 10 [])) ∧
           (s.up 5 = true → s.rangeBusy r.ten a.2.2.1 a.2.2.2.1 (8 * a.2.1) = false → a.2.2.2.2 = 0 →
             ∀ (x : State) (bs : List Byte), s.committedBytes r.ten a.2.2.1 a.2.2.2.1 (8 * a.2.1) = (x, some bs) →
             x.suspendable = false →
             (let j := Job.cmd r.id
              exec (.flashProg t) s = .next ((x.setRun r.id .working).enqueueNew
                ((List.range a.2.1).map (fun i =>
                  FlashOp.prog (a.1 / 8 + i) (BitVec.ofNat 64 (natAt bs (8 * i) 8)) j) ++ [.done 0 a.2.1 j]))))))))

/-- O25. While FLASH is under its self-test each is held, and while an earlier STORE of the tenant runs each waits.
Through a window that is not a SCRATCH window each finishes with DENIED. While nothing of the window is held and no
pulse, erase or self-test keeps the area busy: a STORE of at most 8,176 bytes of
committed content goes on working, and the operations of a record of the slot not in force, with the GEN after the one
in force (1 after none), join the flash operations; a longer one finishes with NO_SPACE. A LOAD with no valid record
finishes with OK and no results; with one, its body goes into the window. -/
def Obligations.SettingsCommands : Prop :=
  ∀ (s : State) (t : Fin 32) (r : Run),
    (s.testing 2 = true →
      (s.runOf t.val 0x38 = some r → exec (.store t) s = .next (s.hold (.run r.id))) ∧
      (s.runOf t.val 0x39 = some r → exec (.load t) s = .next (s.hold (.run r.id)))) ∧
    (let a := recordArgs r
    s.testing 2 = false → s.rangeHeld r.ten a.1 a.2.1 a.2.2.1 = false →
    (s.storing r = true →
      (s.runOf t.val 0x38 = some r → exec (.store t) s = .next s) ∧
      (s.runOf t.val 0x39 = some r → exec (.load t) s = .next s)) ∧
    (s.storing r = false → a.2.2.2 = 0 → s.runOf t.val 0x38 = some r →
      ((s.ten r.ten).wType a.1 ≠ 2 → exec (.store t) s = .next (s.finish r 2 [])) ∧
      ((s.ten r.ten).wType a.1 = 2 → (s.under r).winErrs r.ten a.1 false (wordOffs a.2.1 a.2.2.1) = none →
        s.up 5 = true →
        (8176 < a.2.2.1 → exec (.store t) s = .next (s.finish r 6 [])) ∧
        (a.2.2.1 ≤ 8176 → ∀ (x : State) (bs : List Byte),
          s.committedBytes r.ten a.1 a.2.1 a.2.2.1 = (x, some bs) → x.testing 2 = false →
          (areaSectors r.ten).any x.erasing = false → x.flashBusy = false →
          (let f := x.inForce false r.ten
           let j := Job.cmd r.id
           let slot := match f.2.1 with
             | some q => 1 - q.1
             | none => 0
           let gen := match f.2.1 with
             | some q => q.2.1 + 1
             | none => 1
           exec (.store t) s = .next ((f.1.setRun r.id .working).enqueueNew
             (f.1.recordOps false r.ten slot gen bs 1 j)))))) ∧
    (s.storing r = false → a.2.2.2 = 0 → s.runOf t.val 0x39 = some r →
      ((s.ten r.ten).wType a.1 ≠ 2 → exec (.load t) s = .next (s.finish r 2 [])) ∧
      ((s.ten r.ten).wType a.1 = 2 → (s.under r).winErrs r.ten a.1 true (wordOffs a.2.1 a.2.2.1) = none →
        s.up 5 = true → (areaSectors r.ten).any s.erasing = false → s.flashBusy = false →
        (let f := s.inForce false r.ten
         (f.2.1 = none → f.2.2 = false → exec (.load t) s = .next (f.1.finish r 0 [])) ∧
         (f.2.1 = none → f.2.2 = true → exec (.load t) s = .next (f.1.finish r 4 [])) ∧
         (∀ q, f.2.1 = some q →
           exec (.load t) s = .next (f.1.loadBody r a.1 a.2.1 a.2.2.1 q.2.1 q.2.2))))))

/-- O26. SELF_TEST is held while its block runs a test or has one due. A tenant that may not test the unit gets DENIED,
and a block without power NOT_READY. Otherwise the command goes on working and the test starts, that of a display port
with the next frame and the deep test of the converter where its time fits. A test that ends, or is aborted at its hold
limit, releases the block and finishes its command: with OK and 0 or 1 as it passed (of FLASH, as no word failed), or
with ABORTED. What the block
held, and no more, is then served in the order of arrival. With no test running neither row does anything. -/
def Obligations.SelfTestRows : Prop :=
  ∀ s : State,
    (∀ (t : Fin 32) (r : Run), s.runOf t.val 0x40 = some r → (let b := argClamp 1 9 (r.arg 4 1)
      let u := argClamp 0 (testBlock b.1).1 (r.arg 5 1)
      b.2 = 0 → u.2 = 0 →
      (s.testing b.1 = true ∨ (b.1 = 5 ∧ s.disp.due.isSome = true) ∨ (b.1 = 9 ∧ s.adc.due.isSome = true) →
        exec (.selfTest t) s = .next (s.hold (.run r.id))) ∧
      (s.testing b.1 = false → ¬(b.1 = 5 ∧ s.disp.due.isSome = true) → ¬(b.1 = 9 ∧ s.adc.due.isSome = true) →
        (b.1 = 2 ∧ s.flashBusy = true → exec (.selfTest t) s = .next s) ∧
        (¬(b.1 = 2 ∧ s.flashBusy = true) →
          ((s.under r).mayTest r.ten b.1 u.1 = false → exec (.selfTest t) s = .next (s.finish r 2 [])) ∧
          ((s.under r).mayTest r.ten b.1 u.1 = true → s.up (testBlock b.1).2 = false →
            exec (.selfTest t) s = .next (s.finish r 10 [])) ∧
          ((s.under r).mayTest r.ten b.1 u.1 = true → s.up (testBlock b.1).2 = true →
            ∃ n : State, exec (.selfTest t) s = .next n ∧ n.runs = (s.setRun r.id .working).runs ∧
              (b.1 ≠ 5 → b.1 ≠ 9 → n.testOf b.1 = some ⟨u.1, r.id⟩) ∧
              (b.1 = 5 → n.disp.due = some ⟨u.1, r.id⟩ ∧ n.tests = s.tests) ∧
              (b.1 = 9 → n.testOf 9 = some ⟨u.1, r.id⟩ ∨ n.adc.due = some ⟨u.1, r.id⟩) ∧
              n = { s with
                runs := n.runs, tests := n.tests, lamps := n.lamps, keys := n.keys, adc := n.adc, free := n.free,
                disp := { s.disp with due := n.disp.due } }))))) ∧
    (∀ (block : Fin 10) (pass : Bool) (detail : Word),
      (s.testOf block.val = none → exec (.selfTestEnd block pass detail) s = .next s ∧
        exec (.selfTestAbort block) s = .next s) ∧
      (∀ (x : Test) (r : Run), s.testOf block.val = some x → s.runById x.run = some r →
        (∃ m : State, exec (.selfTestEnd block pass detail) s = .next (s.waiting.foldl State.serve m) ∧
          m.testing block.val = false ∧ m.waiting = [] ∧
          (∃ res, m.runs = (s.runs.filter fun q => q.id != x.run) ++ [{ r with st := .finished 0 [res] }] ∧
            (block.val = 1 ∨ block.val = 3 ∨ block.val = 4 → res = if pass then 0 else 1) ∧
            (block.val = 2 → res = (if detail.fld 0 9 = 0 then 0 else 1) ∧ m.flash.marginWords = min 256 (detail.fld 0 9))) ∧
          (block.val ≤ 3 → m = { s with runs := m.runs, tests := m.tests, flash := m.flash, waiting := [] })) ∧
        (∃ m : State, exec (.selfTestAbort block) s = .next (s.waiting.foldl State.serve m) ∧
          m.testing block.val = false ∧ m.waiting = [] ∧
          m.runs = (s.runs.filter fun q => q.id != x.run) ++ [{ r with st := .finished 8 [] }])))

/-- O27. With no command of the tenant that is due, neither row does anything. The oldest command from the host that has
not finished two ticks after its acceptance gets a response of status 1, once: at an OPEN or FIRE door RQ_TAIL
advances by 1 and the slot's 64 bytes are that response with its CHECK; every byte of SRAM outside the slot and the
tenant's EQ reads as before. The oldest finished command gets its final response in the same way, leaves the commands
that run, and the tag history keeps the response. -/
def Obligations.ResponseRows : Prop :=
  ∀ (s : State) (t : Fin 32),
    (s.runs = [] → exec (.busyRetry t) s = .next s ∧ exec (.commandComplete t) s = .next s) ∧
    (∀ (r : Run) (rs : List Run), s.runs = r :: rs → r.ten = t.val → r.link = none → r.busySent = false →
      slotFlags r.slot % 2 = 0 → s.door t.val ≠ .shut →
      (r.result = none → 2 ≤ r.age → ∃ n : State, exec (.busyRetry t) s = .next n ∧
        (n.ten t.val).rqTail = (s.ten t.val).rqTail + 1 ∧
        (let resp := rspSlot (slotOp r.slot) 1 (slotTag r.slot) (leBytes 2 (s.retryAfter r.id))
         n.rdBytes (rqAddr t.val (s.ten t.val).rqTail.toNat) 64 = resp) ∧
        (∀ a, a < rqAddr t.val (s.ten t.val).rqTail.toNat ∨ rqAddr t.val (s.ten t.val).rqTail.toNat + 64 ≤ a →
          n.rdByte a = s.rdByte a) ∧
        (∀ u, u ≠ t.val → n.ten u = s.ten u) ∧
        n = { s with tens := n.tens, runs := n.runs, mem := n.mem, ecc := n.ecc }) ∧
      (∀ (status : Nat) (res : List Byte), r.st = .finished status res →
        s.sramHeld (rqAddr t.val (s.ten t.val).rqTail.toNat) = false →
        ∃ n : State, exec (.commandComplete t) s = .next n ∧ n.runs = rs ∧
          (n.ten t.val).rqTail = (s.ten t.val).rqTail + 1 ∧
          (let resp := rspSlot (slotOp r.slot) status (slotTag r.slot) res
           n.rdBytes (rqAddr t.val (s.ten t.val).rqTail.toNat) 64 = resp ∧
           (n.ten t.val).hist = histSet r.id resp (s.ten t.val).hist) ∧
          (∀ a, a < rqAddr t.val (s.ten t.val).rqTail.toNat ∨ rqAddr t.val (s.ten t.val).rqTail.toNat + 64 ≤ a →
            n.rdByte a = s.rdByte a) ∧
          (∀ u, u ≠ t.val → n.ten u = s.ten u) ∧
          n = { s with tens := n.tens, runs := rs, mem := n.mem, ecc := n.ecc })) 

/-- O28. While the controller serves and nothing waits for it, a complete sequence of the system path, or of the
keeper's FLASH windows on a sector the keeper may write, has its effect: an erase or a program of exactly that sector
or word joins the flash operations, with REASON 1 on the system path and 2 on the window path, waiting while a power
entry runs. Status read sets status mode and reset to read clears it. Without power, on a sector of the leaf that is
held, or on the system path of a part that has halted in its Boot ROM, a sequence has no effect; a self-test of FLASH
holds it. No stored word of flash changes. -/
def Obligations.FlashSequenceRows : Prop :=
  ∀ s : State, s.Settled →
    (s.flashServes = true → ∀ (sect : BitVec 12) (word : BitVec 20) (data : DWord),
      (s.sys.halted = true →
        exec (.flashSectorErase true sect) s = .next s ∧ exec (.flashWordProgram true word data) s = .next s) ∧
      (s.sys.halted = false → s.inEntry = false →
        exec (.flashSectorErase true sect) s = .next { s with flash := { s.flash with
          seqSys := none, queue := s.flash.queue ++ [.erase sect.toNat 1 .sys] } } ∧
        exec (.flashWordProgram true word data) s = .next { s with flash := { s.flash with
          seqSys := none, queue := s.flash.queue ++ [.prog word.toNat data .sys] } } ∧
        (s.sys.bootDone = true → s.flashReach 0 sect.toNat = true → s.leafHeld sect.toNat = false →
          exec (.flashSectorErase false sect) s = .next { s with flash := { s.flash with
            seqWin := none, queue := s.flash.queue ++ [.erase sect.toNat 2 (.window 0)] } }) ∧
        (s.sys.bootDone = true → s.flashReach 0 (word.toNat / 256) = true → s.leafHeld (word.toNat / 256) = false →
          exec (.flashWordProgram false word data) s = .next { s with flash := { s.flash with
            seqWin := none, queue := s.flash.queue ++ [.prog word.toNat data (.window 0)] } })) ∧
      (s.sys.halted = false → s.inEntry = true →
        exec (.flashSectorErase true sect) s = .next { s with flash := { s.flash with
          seqSys := none, wait := s.flash.wait ++ [.erase sect.toNat 1 .sys] } } ∧
        exec (.flashWordProgram true word data) s = .next { s with flash := { s.flash with
          seqSys := none, wait := s.flash.wait ++ [.prog word.toNat data .sys] } }) ∧
      (s.leafHeld sect.toNat = true → exec (.flashSectorErase false sect) s = .next s) ∧
      (s.sys.bootDone = true →
        exec .statusRead s = .next { s with flash := { s.flash with seqWin := none, statMode := true } } ∧
        exec .resetToRead s = .next { s with flash := { s.flash with seqWin := none, statMode := false } })) ∧
    (s.up 5 = true → s.testing 2 = true → s.sys.halted = false → ∀ (sect : BitVec 12) (word : BitVec 20) (data : DWord),
      exec (.flashSectorErase true sect) s = .next { s with
        waiting := s.waiting ++ [.sequence true sect.toNat 0xE5 sect.toNat 0] } ∧
      exec (.flashWordProgram true word data) s = .next { s with
        waiting := s.waiting ++ [.sequence true (word.toNat / 256) 0x70 word.toNat data] }) ∧
    (s.up 5 = false → ∀ (sys : Bool) (sect : BitVec 12) (word : BitVec 20) (data : DWord),
      exec (.flashSectorErase sys sect) s = .next s ∧ exec (.flashWordProgram sys word data) s = .next s ∧
      exec .statusRead s = .next s ∧ exec .resetToRead s = .next s)

/-- O29. While the controller serves after boot, and nothing waits for it: a suspend stops a running erase pulse if it
has had fewer than 8 suspends and less than 1,000 us suspended, and otherwise sets SUSP_REJ. A resume lets a suspended
pulse go on, with the suspended time counted and still below 1,000 us, makes the pulse due at the end of a program
that runs under the suspend, sets SUSP_REJ in IDLE, and in the other states does nothing. At 1,000 us the controller
resumes by itself, or when the program under the suspend ends. While the comparator is tripped a pulse that would go
on counts as cut. Nothing but the controller changes; its suspended time on a resume is free. -/
def Obligations.FlashSuspendRows : Prop :=
  ∀ s : State, s.Settled →
    (s.flashServes = true → s.sys.bootDone = true →
      (s.flash.st = .erasePulse → s.flash.suspCnt < 8 → s.flash.suspUs < 1000 →
        exec .eraseSuspend s = .next { s with flash := { s.flash with
          seqWin := none, st := .eraseSusp, suspCnt := s.flash.suspCnt + 1 } }) ∧
      (¬(s.flash.st = .erasePulse ∧ s.flash.suspCnt < 8 ∧ s.flash.suspUs < 1000) →
        exec .eraseSuspend s = .next { s with flash := { s.flash with seqWin := none, suspRej := true } }) ∧
      (s.flash.st = .eraseSusp → s.flash.bor = false → ∃ n : State, exec .resume s = .next n ∧ n.flash.st = .erasePulse ∧
        (s.flash.suspUs ≤ 999 → s.flash.suspUs ≤ n.flash.suspUs ∧ n.flash.suspUs ≤ 999) ∧
        n = { s with free := n.free, flash := { s.flash with
          seqWin := none, st := .erasePulse, suspUs := n.flash.suspUs } }) ∧
      (s.flash.st = .suspProg →
        exec .resume s = .next { s with flash := { s.flash with seqWin := none, resumeDue := true } }) ∧
      (s.flash.st = .idle →
        exec .resume s = .next { s with flash := { s.flash with seqWin := none, suspRej := true } }) ∧
      (s.flash.st ≠ .idle → s.flash.st ≠ .eraseSusp → s.flash.st ≠ .suspProg →
        exec .resume s = .next { s with flash := { s.flash with seqWin := none } })) ∧
    (s.flash.st = .eraseSusp → s.flash.bor = true → ∀ e es, s.flash.erases = e :: es → e.pulses < 24 →
      exec .suspendLimit s = .next { s with flash := { s.flash with
        erases := es ++ [e], st := .eraseGap, suspUs := 1000 } }) ∧
    (s.flash.st = .eraseSusp → s.flash.bor = false →
      exec .suspendLimit s = .next { s with flash := { s.flash with st := .erasePulse, suspUs := 1000 } }) ∧
    (s.flash.st = .suspProg →
      exec .suspendLimit s = .next { s with flash := { s.flash with resumeDue := true, suspUs := 1000 } }) ∧
    (s.flash.st ≠ .eraseSusp → s.flash.st ≠ .suspProg → exec .suspendLimit s = .next s)

/-- O30. While nothing waits for the controller: a program starts in slots 2 to 37 with 144 us or more before slot 39,
the comparator released and no pulse running: the first waiting word, when no erase of its sector or of its job is
under way, leaves the queue, and no stored word changes. At its end a passing program leaves its word stored as asked
with no bit in error and every other word as it was; one that met a bit already 0 where the codeword holds 1 sets FAIL
with CAUSE 2 at the limit of 16 pulses and changes no other word; while the comparator blocks its pulses none ends. At
slot 2 a waiting erase that may be accepted gets its first pulse after an INTENT record in the next word of the active
ring sector; no other stored word changes; with the comparator tripped, a program or a pulse running, or a self-test,
none starts. A pulse whose verify fails before the 24th sends its erase to the end of those in progress. One that
passes leaves its sector erased and programs DONE as the next record of the erase journal; no other stored word
changes. The two clauses on records say where they go when their programs do not fail (log entry 121). -/
def Obligations.FlashRunRows : Prop :=
  ∀ s : State, s.Settled →
    (∀ us w d j q, s.flash.queue = .prog w d j :: q → s.flash.prog = none →
      (∀ e, e ∈ s.flash.erases → e.sect ≠ w / 256 ∧ e.job.root ≠ j.root ∧ w / 256 ∉ e.job.kept) → s.ticking = true →
      s.flashServes = true → 2 ≤ s.tick.slot → s.tick.slot ≤ 37 → 144 ≤ us → s.flash.bor = false →
      (s.flash.st = .idle ∨ s.flash.st = .eraseGap ∨ s.flash.st = .eraseSusp) →
      ∃ n : State, exec (.programStart us) s = .next n ∧ n.flash.prog = some (.prog w d j) ∧ n.flash.queue = q ∧
        n.flash.sector = s.phys (w / 256) ∧ n.flash.pulses = 0 ∧ n.flash.fail = false ∧ n.flash.cause = 0 ∧
        n.flash.st = (if s.flash.st = .eraseSusp then .suspProg else .prog) ∧
        n.flash.words = s.flash.words ∧ n = { s with flash := n.flash, free := n.free }) ∧
    (∀ us, (s.ticking = false ∨ s.flashServes = false ∨ s.tick.slot < 2 ∨ 37 < s.tick.slot ∨ us < 144 ∨
        s.flash.bor = true ∨ s.flash.queue = []) → exec (.programStart us) s = .next s) ∧
    (s.flash.bor = true → ∀ pulses pass, exec (.programEnd pulses pass) s = .next s) ∧
    (∀ pulses w d j, pulses ≤ 16 → s.flash.bor = false → s.flash.prog = some (.prog w d j) →
      s.flash.queue.any FlashOp.acts = false →
      (s.flash.progBad = false → ∃ n : State, exec (.programEnd pulses true) s = .next n ∧
        n.fword (s.physWord w) = ⟨d, 0, none⟩ ∧ (∀ x, x ≠ s.physWord w → n.fword x = s.fword x) ∧
        n.flash.prog = none ∧ n.flash.pulses = pulses ∧ n = { s with flash := n.flash, free := n.free }) ∧
      (s.flash.progBad = true → j = .sys → ∀ pass, ∃ n : State, exec (.programEnd pulses pass) s = .next n ∧
        n.flash.fail = true ∧ n.flash.cause = 2 ∧ n.flash.pulses = 16 ∧ n.flash.prog = none ∧
        (∀ x, x ≠ s.physWord w → n.fword x = s.fword x))) ∧
    (s.ticking = true →
      ((s.flash.bor = true ∨ s.flash.prog.isSome = true ∨ s.flash.st = .erasePulse ∨ s.flash.st = .eraseSusp ∨
          s.flash.st = .suspProg ∨ s.testing 2 = true) → exec .flashSlot s = .next { s with tick := { s.tick with slot := 2 } }) ∧
      (∀ x r j, s.flash.bor = false → s.flash.prog = none → s.flash.st = .idle → s.testing 2 = false →
        s.flash.queue = [.erase x r j] → s.flash.erases = [] → s.mayErase x j = true → s.flash.ringWord < 256 →
        Config.recordFails s.free = false →
        (let at_ := (522 + s.flash.ring) * 256 + s.flash.ringWord
         s.fword at_ = FWord.erased → ∃ n : State, exec .flashSlot s = .next n ∧ n.flash.st = .erasePulse ∧
          n.flash.erases = [⟨x, r, j, 1, s.flash.ring⟩] ∧
          n.flash.queue = [] ∧ n.flash.sector = s.phys x ∧ n.flash.pulses = 1 ∧
          n.fword at_ = ⟨recWord 0x4A (s.phys x) r s.flash.seq, 0, none⟩ ∧ (∀ a, a ≠ at_ → n.fword a = s.fword a) ∧
          n = { s with flash := n.flash, tick := { s.tick with slot := 2 }, free := n.free }))) ∧
    (∀ e es, s.flash.st = .erasePulse → s.flash.erases = e :: es →
      (e.pulses < 24 → exec (.erasePulseEnd false) s = .next { s with flash := { s.flash with
        erases := es ++ [e], st := .eraseGap } }) ∧
      (s.suspect (s.phys e.sect) = false → (∀ k, e.job ≠ .wipe k) → s.flash.queue.any FlashOp.acts = false →
        s.flash.ringWord < 256 → Config.recordFails s.free = false →
        (let at_ := (522 + s.flash.ring) * 256 + s.flash.ringWord
         s.fword at_ = FWord.erased → ∃ n : State, exec (.erasePulseEnd true) s = .next n ∧ n.flash.erases = es ∧
          n.fword at_ = ⟨recWord 0x4D (s.phys e.sect) e.reason s.flash.seq, 0, none⟩ ∧
          (∀ x, x ≠ at_ → n.fword x = if x / 256 = s.phys e.sect then FWord.erased else s.fword x) ∧
          (e.sect ≠ 542 → e.sect ≠ 543 → n.sealed = s.sealed) ∧
          n = { s with flash := n.flash, sealed := n.sealed, free := n.free }))) ∧
    (s.flash.st ≠ .erasePulse → ∀ pass, exec (.erasePulseEnd pass) s = .next s)

/-- O31. While nothing waits for the controller and with PD_FLASH on, a trip of the comparator that has released sets
BOR and BOR_SEEN, counts FLASH_BOR_CNT up to its top and raises EV75 with the sector of the operation it cuts; a pulse
with no passing verify stays in progress behind the others and its count of pulses stays counted. A second trip, or
one with PD_FLASH off, changes nothing. A release clears BOR alone: BOR_SEEN and the count stay. -/
def Obligations.ComparatorRows : Prop :=
  ∀ s : State, s.Settled →
    (s.flash.bor = false → s.up 5 = true →
      (let f := { s.flash with bor := true, borSeen := true, borCnt := min 65535 (s.flash.borCnt + 1) }
       (s.flash.st = .prog ∨ s.flash.st = .suspProg →
        exec .borTrip s = .next ({ s with flash := f }.raise 75 .granted (wordOf (s.flash.sector % 4096 + 65536)))) ∧
       (s.flash.st = .idle ∨ s.flash.st = .eraseGap ∨ s.flash.st = .eraseSusp →
        exec .borTrip s = .next ({ s with flash := f }.raise 75 .granted 0)) ∧
       (s.flash.st = .erasePulse → ∀ e es, s.flash.erases = e :: es → e.pulses < 24 →
        (let r := { s with flash := f }.raise 75 .granted (wordOf (s.flash.sector % 4096 + 65536))
         exec .borTrip s = .next { r with flash := { r.flash with erases := es ++ [e], st := .eraseGap } })))) ∧
    (s.flash.bor = true ∨ s.up 5 = false → exec .borTrip s = .next s) ∧
    exec .borRelease s = .next { s with flash := { s.flash with bor := false } }

/-- O32. When the keeper reaches the PROT registers: PROT_CLEAR with GO writes zero with a valid check over exactly the
64-bit word at ADDR and clears its error or poison; without GO, or outside SRAM, it does nothing. PROT_INJECT of KIND
1 or 2 adds 1 or 2 stored bits in error to the word; while LOCKED is 1, outside SRAM, or on a poisoned word it does
nothing and counts no clamp. A scrub step with no stored error advances the pass by its words and changes no word of
SRAM; a correctable word at its position is good afterwards. A flash scrub read due this tick advances the position,
and one whose sector cannot be read now does not. Field repair follows the test: a passing test only forgets the
section; a failing one blows a field entry for the row or column, while fewer than 32 are blown and the section has a
spare of that kind left, of two rows and one column, and otherwise raises EV69 with kind 2. -/
def Obligations.ProtectRows : Prop :=
  ∀ s : State,
    (s.cfgReach 0 0x30040020 true = true → ∀ v : Word,
      let a := v.toNat / 8 * 8
      (v.bit 0 = true → (sramRegion a).isSome = true →
        ∃ n : State, exec (.protClear v) s = .next n ∧ (∀ i, i < 8 → n.rdByte (a + i) = 0) ∧
          (∀ x, x < a ∨ a + 8 ≤ x → n.rdByte x = s.rdByte x) ∧ n.eccOf a = .good ∧
          (∀ k, k ≠ a → n.eccOf k = s.eccOf k) ∧ n = { s with mem := n.mem, ecc := n.ecc, disp := n.disp }) ∧
      (v.bit 0 = false ∨ (sramRegion a).isNone = true → exec (.protClear v) s = .next s)) ∧
    (s.cfgReach 0 0x30040024 true = true → ∀ v : Word,
      let a := v.toNat / 8 * 8
      (s.sys.locked = true ∨ (sramRegion a).isNone = true ∨ s.eccOf a = .poisoned → exec (.protInject v) s = .next s) ∧
      (s.sys.locked = false → (sramRegion a).isSome = true → ∀ kind, v.fld 0 2 = kind → kind = 1 ∨ kind = 2 →
        ∀ k, s.eccOf a = (if k = 0 then .good else .bits k) →
        ∃ n : State, exec (.protInject v) s = .next n ∧ n.eccOf a = .bits (k + kind) ∧
          (∀ x, x ≠ a → n.eccOf x = s.eccOf x) ∧ n = { s with ecc := n.ecc, disp := n.disp })) ∧
    (s.ticking = true →
      (s.sys.scrubSram = false → exec .sramScrubStep s = .next { s with tick := { s.tick with slot := 36 } }) ∧
      (s.sys.scrubSram = true →
        (let q := (262144 * s.periodUs + 7999999) / 8000000
         s.ecc = [] → s.prot.pos + q < 262144 → s.prot.passUs + s.periodUs ≤ 8000000 →
          exec .sramScrubStep s = .next { s with tick := { s.tick with slot := 36 }, prot := { s.prot with
            pos := s.prot.pos + q, passUs := s.prot.passUs + s.periodUs } }) ∧
        (0 < s.periodUs → s.eccOf (sramWordAddr s.prot.pos) = .bits 1 →
          ∃ n : State, exec .sramScrubStep s = .next n ∧ n.eccOf (sramWordAddr s.prot.pos) = .good)) ∧
      (s.sys.scrubFlash = true → s.tick.fscrub = 0 →
        ((∀ w, s.scrubFlashWord s.prot.fpos = some w → s.flashWaits (w / 256) = false) → s.prot.fpos + 1 < 1048576 →
          ∃ n : State, exec .flashScrubRead s = .next n ∧ n.prot.fpos = s.prot.fpos + 1 ∧
            n.tick.fscrub = 43200000000 / (1048576 * s.periodUs) ∧
            n.regs = s.regs ∧ n.disp.cells = s.disp.cells ∧ n.lamps = s.lamps ∧ n.grants = s.grants) ∧
        ((∃ w, s.scrubFlashWord s.prot.fpos = some w ∧ s.flashWaits (w / 256) = true) →
          ∃ n : State, exec .flashScrubRead s = .next n ∧ n.prot.fpos = s.prot.fpos ∧ n.tick.fscrub = 0 ∧
            n.flash = s.flash)) ∧
      (s.sys.scrubFlash = false ∨ 0 < s.tick.fscrub →
        exec .flashScrubRead s = .next { s with tick := { s.tick with slot := 36 } })) ∧
    (∀ (sect : Fin 128) (fails : Bool) (line : Bool × Nat),
      (s.twiceFixed sect.val = false → exec (.fieldRepair sect fails line) s = .next s) ∧
      (s.twiceFixed sect.val = true →
        (let p := { s.prot with fixed := s.prot.fixed.filter fun q => sectionOf q.1 != some sect.val }
         let spent := (s.prot.fuses.filter fun q => q.sect == sect.val && q.col == line.1).length
         let blown := (s.prot.fuses.filter fun q => q.field).length
         let room : Nat := if line.1 then 1 else 2
         (fails = false → exec (.fieldRepair sect fails line) s = .next { s with prot := p }) ∧
         (fails = true → spent < room → blown < 32 → exec (.fieldRepair sect fails line) s = .next
          ({ s with prot := { p with fuses := s.prot.fuses ++ [(⟨sect.val, line.1, line.2, true, false⟩ : Repair)] } }.raise 69
            .granted (wordOf (sect.val + 256)))) ∧
         (fails = true → room ≤ spent ∨ 32 ≤ blown → exec (.fieldRepair sect fails line) s = .next
          ({ s with prot := p }.raise 69 .granted (wordOf (sect.val + 512)))))))

/-- O33. While keeper registers are served, a write of SYS_EV_TEST with GO raises the event with data 0xFFFFFFFF to the
owner that R151 names. If that owner's door is not SHUT and the event is not masked, it is written at EQ_TAIL, which
advances, with the low half of the tick number, when the EQ has room and nothing is pending; otherwise it becomes a
pending bit whose count saturates at 127. At a SHUT door or under the mask nothing changes, and without GO nothing
changes. No other tenant, and no byte outside the entry, changes. -/
def Obligations.EventTestRow : Prop :=
  ∀ (s : State) (v : Word), s.Serves 0 →
    let e := v.fld 0 8
    let t := if evNever e then 0 else if evRouted e then (if 32 ≤ e ∧ e < 64 then e - 32 else 0) else s.owner 7 e
    let T := s.ten t
    (v.bit 31 = false ∨ s.door t = .shut ∨ T.evMask.getLsbD e = true → exec (.eventTest v) s = .next s) ∧
    (v.bit 31 = true → s.door t ≠ .shut → T.evMask.getLsbD e = false →
      (T.eqCount < 64 → T.eqPending = 0 →
        (let a := eqAddr t T.eqTail.toNat
         ∃ n : State, exec (.eventTest v) s = .next n ∧
          n.rdBytes a 8 = eventEntry e 2 (s.now % 65536) 0xFFFFFFFF#32 ∧
          (∀ x, x < a ∨ a + 8 ≤ x → n.rdByte x = s.rdByte x) ∧ n.ten t = { T with eqTail := T.eqTail + 1 } ∧
          (∀ u, u ≠ t → n.ten u = s.ten u) ∧ n = { s with tens := n.tens, mem := n.mem, ecc := n.ecc })) ∧
      (¬(T.eqCount < 64 ∧ T.eqPending = 0) → ∃ n : State, exec (.eventTest v) s = .next n ∧
        (let was : PendEv := SMap.get (fun _ => ⟨0, 0, 0⟩) T.pend e
         let now : PendEv := ⟨min 127 (was.count + 1), s.now % 65536, 0xFFFFFFFF#32⟩
         n.ten t = { T with pend := SMap.set (fun _ => ⟨0, 0, 0⟩) T.pend e now }) ∧
        s.OnlyTenant n t))

/-- O34. A served read of PG_TICK or TICK_NUM_LO returns the low word of the tick number and latches bits [47:32]
where the next read of PG_TICK_HI or TICK_NUM_HI finds them; one of TIME_SUB or SYS_RTC_SUB returns the running count
and latches the seconds in the same instant. A load of TICK_NUM_SET is left aside and sets LOAD_REJ while SRC is LINK,
or AUTO with the link in use, and is otherwise taken for the next boundary. SYS_RTC_SEC stages seconds; SYS_RTC_SUB
leaves them with the sub-count for the next edge of CK_RTC to load; SYS_RTC_TRIM takes the value, held at -127, and
restarts its accumulation. Each changes nothing else, but that a clamped trim is counted. -/
def Obligations.TimeRows : Prop :=
  ∀ s : State,
    (∀ t : Fin 32, s.Serves t.val →
      (∃ n : State, exec (.tickNumberRead (some t)) s = .next n ∧ n.rdata = BitVec.ofNat 32 s.tick.num.toNat ∧
        n.pageGet t.val 0 0x20 = BitVec.ofNat 32 (s.tick.num.toNat / 2 ^ 32) ∧
        n.ten t.val = { s.ten t.val with tickHi := s.tick.num.toNat / 2 ^ 32 } ∧
        (∀ u, u ≠ t.val → n.ten u = s.ten u) ∧ n = { s with tens := n.tens, rdata := n.rdata }) ∧
      (∃ n : State, exec (.timeSubRead (some t)) s = .next n ∧ n.rdata = BitVec.ofNat 32 s.sys.rtcSub ∧
        n.pageGet t.val 0 0xAC = BitVec.ofNat 32 s.sys.rtcSec ∧
        n.ten t.val = { s.ten t.val with timeSec := BitVec.ofNat 32 s.sys.rtcSec } ∧
        (∀ u, u ≠ t.val → n.ten u = s.ten u) ∧ n = { s with tens := n.tens, rdata := n.rdata }) ∧
      (∃ n : State, exec (.grantViewRead t) s = .next n ∧
        (let g := (s.ten t.val).gv
         let own := s.grantOwned t.val (g.fld 12 4) (g.fld 0 9)
         n.rdata.bit 0 = own ∧
         n.rdata.fld 8 12 = (if own = true ∧ 8 ≤ g.fld 12 4 then (s.grant (g.fld 12 4) (g.fld 0 9)).base % 4096 else 0) ∧
         n.ten t.val = { s.ten t.val with gv := (if g.bit 16 then
            wordOf (g.toNat - g.fld 0 9 + nextIndex (g.fld 12 4) (g.fld 0 9)) else g) }) ∧
        (∀ u, u ≠ t.val → n.ten u = s.ten u) ∧ n = { s with tens := n.tens, rdata := n.rdata })) ∧
    (s.cfgReach 0 0x3001000C false = true → exec (.tickNumberRead none) s = .next { s with
      rdata := BitVec.ofNat 32 s.tick.num.toNat, tick := { s.tick with hiLatch := s.tick.num.toNat / 2 ^ 32 } }) ∧
    (s.cfgReach 0 0x30010018 true = true → ∀ v : Word,
      (v.bit 31 = false → exec (.tickNumSetLoad v) s = .next s) ∧
      (v.bit 31 = true → s.tick.srcF = 1 ∨ (s.tick.srcF = 0 ∧ s.tick.use = some false) →
        exec (.tickNumSetLoad v) s = .next { s with tick := { s.tick with loadRej := true } }) ∧
      (v.bit 31 = true → s.tick.srcF ≠ 1 → ¬(s.tick.srcF = 0 ∧ s.tick.use = some false) →
        exec (.tickNumSetLoad v) s = .next { s with tick := { s.tick with
          load := some (BitVec.ofNat 48 (v.fld 0 16 * 2 ^ 32 + s.tick.setLo.toNat)), loadLink := false } })) ∧
    (s.Serves 0 → ∀ v : Word,
      exec (.timeSubRead none) s = .next { s with
        rdata := BitVec.ofNat 32 s.sys.rtcSub, sys := { s.sys with rtcLatch := BitVec.ofNat 32 s.sys.rtcSec } } ∧
      exec (.rtcSecWrite v) s = .next { s with sys := { s.sys with rtcStage := v } } ∧
      exec (.rtcSubWrite v) s = .next { s with sys := { s.sys with
        rtcLoad := some (s.sys.rtcStage.toNat, v.toNat % 32768) } } ∧
      (v.toNat % 256 ≠ 128 → exec (.rtcTrimWrite v) s = .next { s with sys := { s.sys with
        rtcTrim := BitVec.ofNat 8 v.toNat, rtcAcc := 0 } }) ∧
      (v.toNat % 256 = 128 → ∃ n : State, exec (.rtcTrimWrite v) s = .next n ∧ n.sys.rtcTrim = 0x81 ∧
        n.sys.rtcAcc = 0 ∧ (n.ten 0).clamps = min 65535 ((s.ten 0).clamps + 1)))

/-- O35. While keeper registers are served: with an entry or a restore in progress a request has no effect but REJ.
Otherwise the request is taken with its FORCE; one for the state in force completes at once with RESULT ENTERED. One
for Open returns to Open at once, restarts every heartbeat supervisor and reads ENTERED. One for Ajar waits for slot
39, and one for Louvred or Latched starts the handshake, with its FORCE. Nothing else of the part changes, unless
WAKE_N has been low and may be so still: then it may be taken at once (log entry 139). -/
def Obligations.PowerRequestRows : Prop :=
  ∀ s : State, s.Serves 0 → ∀ (force : Bool) (c : Instr) (want : Nat),
    (c, want) ∈ [(Instr.pwrReqOpen force, 0), (.pwrReqAjar force, 1), (.pwrReqLouvred force, 2), (.pwrReqLatched force, 3)] →
    (s.pwr.phase ≠ .idle → exec c s = .next { s with pwr := { s.pwr with rej := true } }) ∧
    (s.pwr.phase = .idle →
      (∃ n : State, exec c s = .next n ∧ n.pwr.reqState = want ∧ n.pwr.force = force ∧ n.pwr.rej = s.pwr.rej) ∧
      (want = s.pwr.st.code → exec c s = .next { s with pwr := { s.pwr with
        reqState := want, force := force, ajarPend := false, result := 1 } }) ∧
      (want ≠ s.pwr.st.code →
        (want = 0 → ∃ n : State, exec c s = .next n ∧ (∀ t, t < 32 →
            n.ten t = { s.ten t with hbLeft := (s.ten t).hbTicks }) ∧
          n = { s with tens := n.tens, pwr := { s.pwr with
            reqState := 0, force := force, ajarPend := false, st := .opened, result := 1 } }) ∧
        (want = 1 → s.pwr.wakeLow = false → exec c s = .next { s with pwr := { s.pwr with
          reqState := 1, force := force, ajarPend := true } }) ∧
        (2 ≤ want → s.pwr.wakeLow = false → exec c s = .next { s with pwr := { s.pwr with
          reqState := want, force := force, ajarPend := false, phase := .query, queries := 0, taken := 0 } })))

/-- O36. A write that reaches PG_SCRATCH of a served tenant replaces the enabled bytes alone; one of SYS_RESET_CAUSE
clears the causes written as 1 and no other; one of FANn_DUTY stores DUTY held at 1,000, with its reserved bits
unstored, and counts one clamp when it holds. A read of PG_CLAMP returns the count and clears it; one of the PROT
counts of corrections, of uncorrectable words, or of the link's protocol errors returns and clears them. A write or
read that does not reach its register has no effect, and one whose block is under its self-test is held. -/
def Obligations.RegisterAccessRows : Prop :=
  ∀ (s : State) (t : Fin 32) (v : Word) (beN : BitVec 4),
    (s.Serves t.val →
      (∃ n : State, exec (.registerWrite t false 0xB4 v beN) s = .next n ∧
        n.ten t.val = { s.ten t.val with scratch := mergeBytes (s.ten t.val).scratch v (~~~beN) } ∧
        s.OnlyTenant n t.val) ∧
      (∃ n : State, exec (.readClear t false 0x10) s = .next n ∧ n.rdata = BitVec.ofNat 32 (s.ten t.val).clamps ∧
        n.ten t.val = { s.ten t.val with clamps := 0 } ∧ (∀ u, u ≠ t.val → n.ten u = s.ten u) ∧
        n = { s with tens := n.tens, rdata := n.rdata })) ∧
    (s.Serves 0 → exec (.registerWrite 0 false 0x454 v 0) s = .next { s with sys := { s.sys with
      resetCause := s.sys.resetCause &&& ~~~BitVec.ofNat 5 (v.toNat % 32) } }) ∧
    (∀ i : Fin 8, s.cfgReach t.val (fanReg i.val 0) true = true → s.testing 8 = false →
      ∃ n : State, exec (.registerWrite t true (0xB1000 + i.val * 0x20) v 0) s = .next n ∧
        n.reg (fanReg i.val 0) = BitVec.ofNat 32 (min 1000 (v.toNat % 1024)) ∧
        (∀ a, a ≠ fanReg i.val 0 → n.reg a = s.reg a) ∧
        (v.toNat % 1024 ≤ 1000 → n = { s with regs := n.regs }) ∧
        (1000 < v.toNat % 1024 → (n.ten t.val).clamps = min 65535 ((s.ten t.val).clamps + 1))) ∧
    (s.cfgReach 0 0x30040004 false = true → ∃ n : State, exec (.readClear 0 true 0x40004) s = .next n ∧
      n.rdata = BitVec.ofNat 32 s.prot.ceSram ∧
      n = { s with rdata := n.rdata, prot := { s.prot with ceSram := 0, ceDone := s.prot.ceDone &&& 6#3 } }) ∧
    (s.cfgReach 0 0x3004000C false = true → ∃ n : State, exec (.readClear 0 true 0x4000C) s = .next n ∧
      n.rdata = s.cfgGet 0 0x3004000C ∧ n = { s with rdata := n.rdata, prot := { s.prot with ue := 0 } }) ∧
    (s.cfgReach 0 0x30020024 false = true → s.testing 4 = false → ∃ n : State, exec (.readClear 0 true 0x20024) s = .next n ∧
      n.rdata = BitVec.ofNat 32 s.link.proto ∧
      n = { s with rdata := n.rdata, link := { s.link with proto := 0 } }) ∧
    (s.pageReach t.val 0xB4 true = false → exec (.registerWrite t false 0xB4 v beN) s = .next s) ∧
    (∀ off, s.cfgHeld ((0x30000000 + off) / 4 * 4) = true →
      (s.cfgReach t.val ((0x30000000 + off) / 4 * 4) true = true → exec (.registerWrite t true off v beN) s =
        .next { s with waiting := s.waiting ++ [.regWrite t.val ((0x30000000 + off) / 4 * 4) v (~~~beN)] }) ∧
      (s.cfgReach t.val ((0x30000000 + off) / 4 * 4) false = true → exec (.readClear t true off) s =
        .next { s with waiting := s.waiting ++ [.regRead t.val ((0x30000000 + off) / 4 * 4)] })) ∧
    (∀ off, s.cfgReach t.val ((0x30000000 + off) / 4 * 4) true = false → exec (.registerWrite t true off v beN) s = .next s) ∧
    (∀ off, s.cfgReach t.val ((0x30000000 + off) / 4 * 4) false = false → exec (.readClear t true off) s = .next s)

/-- O37. RESET_N low in Open, Ajar, Louvred or Latched sets PIN beside the earlier causes, keeps the RTC, TIME_SEC,
SYS_WAKE_EN, SYS_WAKE_SRC and the PWR block, returns every other plain register to its reset value, shuts every door
but the keeper's, and leaves flash as it was where no program or erase was cut. In Shuttered and Off it resets
nothing. At the release the supplies of banks HA and HB are latched, and the Boot ROM samples the straps, sets every
domain on in Open, and shuts no door anew; a release that no boot is due for only raises the pin and latches the
supplies. A write of SYS_RESET_CTRL with GO and KEY resets as a low pulse
of RESET_N does, with SOFT in place of PIN; without GO nothing happens, and with another KEY one clamp is counted. -/
def Obligations.ResetRows : Prop :=
  ∀ s : State,
    (s.pwr.st = .off ∨ s.pwr.st = .shuttered → exec .resetAssert s = .next { s with sys := { s.sys with resetN := false } }) ∧
    (s.pwr.st ≠ .off → s.pwr.st ≠ .shuttered → ∃ n : State, exec .resetAssert s = .next n ∧
      n.sys.resetN = false ∧ n.sys.bootDone = false ∧ n.sys.resetCause = s.sys.resetCause ||| 2#5 ∧
      n.sys.rtcSec = s.sys.rtcSec ∧ n.sys.rtcSub = s.sys.rtcSub ∧ n.pwr.wakeEn = s.pwr.wakeEn ∧
      n.pwr.wakeSrc = s.pwr.wakeSrc ∧ (∀ t, t < 32 → (n.ten t).timeSec = (s.ten t).timeSec) ∧
      (∀ t, n.door t = if t = 0 then .opened else .shut) ∧
      (∀ a, n.reg a = if 0x30050000 ≤ a ∧ a < 0x30050080 then s.reg a else regReset a) ∧
      (s.flash.prog = none → (∀ e ∈ s.flash.erases, e.pulses = 0) → n.flash.words = s.flash.words)) ∧
    (∀ straps high, (s.bootDue = false → exec (.resetRelease (straps, high)) s =
        .next { s with sys := { s.sys with padsHigh := high, resetN := true } }) ∧
      (s.bootDue = true → ∃ n : State, exec (.resetRelease (straps, high)) s = .next n ∧ n.sys.straps = straps ∧
        n.sys.padsHigh = high ∧ n.sys.resetN = true ∧ n.sys.sweep = true ∧ n.pwr.st = .opened ∧ n.pwr.domOn = 0xFFFF ∧
        n.portA.sync = straps.getLsbD 0 ∧ n.portB.sync = straps.getLsbD 1 ∧ n.doors = s.doors ∧ n.regs = s.regs)) ∧
    (s.Serves 0 → s.pwr.vao = true → s.pwr.st ≠ .off → s.pwr.st ≠ .shuttered → ∀ v : Word,
      (v.bit 31 = false → exec (.softReset v) s = .next s) ∧
      (v.bit 31 = true → v.fld 0 16 ≠ 0xD961 → ∃ n : State, exec (.softReset v) s = .next n ∧
        (n.ten 0).clamps = min 65535 ((s.ten 0).clamps + 1) ∧ n.sys = s.sys ∧ n.regs = s.regs) ∧
      (v.bit 31 = true → v.fld 0 16 = 0xD961 → ∃ low n : State,
        exec .resetAssert s = .next low ∧
        exec (.resetRelease (s.sys.straps, s.sys.padsHigh)) { low with sys := { low.sys with resetCause := s.sys.resetCause ||| 4#5 } } = .next n ∧
        exec (.softReset v) s = .next n))

/-- O38. Boot completes only after the sweep, with a leaf running, RESET_N high and no erase open in the journal; it then
sets BOOT_DONE, and neither plain registers nor the lamps, cells or ticks change. Ledger recovery acts only before
that: with an open INTENT it reports the sector, the pulses and what was done, and it erases the sector when the margin
read fails and the erase passes; with nothing open and no mark owed it does nothing. CONFIRM clears SYS_BOOT_CNT alone,
unless a swing runs. -/
def Obligations.BootRows : Prop :=
  ∀ s : State,
    ((s.sys.sweep = false ∨ s.sys.halted = true ∨ s.sys.bootDone = true ∨ s.sys.resetN = false ∨ s.openIntent.isSome = true) →
      exec .bootComplete s = .next s) ∧
    (s.sys.sweep = true → s.sys.halted = false → s.sys.bootDone = false → s.sys.resetN = true → s.openIntent = none →
      ∃ n : State, exec .bootComplete s = .next n ∧ n.sys.bootDone = true ∧ n.regs = s.regs ∧ n.lamps = s.lamps ∧
        n.disp = s.disp ∧ n.tick = s.tick ∧ n.keys = s.keys ∧ n.adc = s.adc) ∧
    (∀ fails pass pulses, pulses ≤ 24 →
      ((s.sys.sweep = false ∨ s.sys.halted = true ∨ s.sys.bootDone = true) →
        exec (.ledgerRecovery fails pass pulses) s = .next s) ∧
      (s.openIntent = none → s.owedClears = [] → exec (.ledgerRecovery fails pass pulses) s = .next s) ∧
      (∀ d, s.openIntent = some d → s.sys.sweep = true → s.sys.halted = false → s.sys.bootDone = false →
        ∃ n : State, exec (.ledgerRecovery fails pass pulses) s = .next n ∧ n.flash.recSector = recSect d ∧
          (fails = true → n.flash.recPulses = pulses ∧ n.flash.recKind = if pass then 2 else 3) ∧
          (fails = true → pass = true → recSect d < 512 ∨ 529 < recSect d → ∀ x, x / 256 = recSect d →
            n.fword x = FWord.erased) ∧
          n.doors = s.doors ∧ n.regs = s.regs ∧ n.sys = s.sys)) ∧
    (s.Serves 0 →
      (s.sys.leafSt = 1 → exec .bootConfirm s = .next s) ∧
      (s.sys.leafSt ≠ 1 → exec .bootConfirm s = .next { s with sys := { s.sys with bootCnt := 0 } }))

/-- O39. While keeper registers are served: a SWING while BUSY, or a SAVE while BUSY, has no effect. A SWING sets
BUSY; while words of the leaf that the selector does not name cannot be read its verification is still due, and when
that leaf fails verification nothing is queued for it; otherwise the word that names it joins the flash queue. The end
of a swing reads FAILED with EV9 in the second case, and otherwise, its selector word programmed, DONE with the other
leaf named, the next GEN and EV9. A SAVE sets BUSY, takes the snapshot in one step and clears RESULT; its end reads
FAILED with the RESULT already noted, or follows the read-back of the record: DONE with its GEN, or FAILED with status
5. -/
def Obligations.SwingAndSaveRows : Prop :=
  ∀ s : State,
    (s.Serves 0 →
      (s.sys.leafSt = 1 → exec .swing s = .next s) ∧
      (s.sys.leafSt ≠ 1 → ∃ n : State, exec .swing s = .next n ∧ n.sys.leafSt = 1 ∧ n.sys.selLeaf = s.sys.selLeaf ∧
        n.sys.bootCnt = s.sys.bootCnt ∧ n.doors = s.doors ∧ n.regs = s.regs ∧
        (let s0 := { s with sys := { s.sys with leafSt := 1, swingDue := true, swingBad := false } }
         let v := s0.leafVerify !s.sys.selLeaf
         (s.leafBusy (!s.sys.selLeaf) = true → n = s0) ∧
         (s.leafBusy (!s.sys.selLeaf) = false →
          n.sys.swingDue = false ∧ n.sys.swingBad = v.2.isNone ∧ (v.2 = none → n = { v.1 with sys := n.sys }) ∧
          (v.2.isSome = true → ∃ w g, .prog w (selWord (!s.sys.selLeaf) g) .swing ∈ n.flash.queue ++ n.flash.wait)))) ∧
      (s.sys.kstSt = 1 → exec .kstoreSave s = .next s) ∧
      (s.sys.kstSt ≠ 1 → ∃ n : State, exec .kstoreSave s = .next n ∧ n.sys.kstSt = 1 ∧ n.sys.kstResult = 0 ∧
        n.doors = s.doors ∧ n.regs = s.regs ∧
        ∃ slot gen k, .done slot gen .save ∈ n.flash.queue ++ n.flash.wait ∧ n.snapOf gen = some k ∧
          k.pagesA = s.portA.pages ∧ k.pagesB = s.portB.pages ∧ k.grants = s.grants.table ∧
          k.wakeEn = s.pwr.wakeEn ∧ ∀ t, t < 32 → SMap.get (fun _ => false) k.doors t = (s.door t == .opened))) ∧
    (s.sys.swingDue = false →
      (s.sys.leafSt ≠ 1 → exec .swingEnd s = .next s) ∧
      (s.sys.leafSt = 1 → s.sys.swingBad = true → exec .swingEnd s = .next
        ({ s with sys := { s.sys with leafSt := 3, swingBad := false } }.raise 9 .granted
          (wordOf (2 + 256 * bitNat s.sys.selLeaf)))) ∧
      (∀ a b q, s.sys.leafSt = 1 → s.sys.swingBad = false → (∀ o ∈ s.flash.running, o.job.root ≠ .swing) →
        s.flash.queue = .done a b .swing :: q → exec .swingEnd s = .next ({ s with
          flash := { s.flash with queue := q },
          sys := { s.sys with leafSt := 2, selLeaf := !s.sys.selLeaf, selGen := s.sys.selGen + 1 } }.raise 9 .granted
            (wordOf (1 + 256 * bitNat (!s.sys.selLeaf)))))) ∧
    (s.flash.queue = [] → exec .saveComplete s = .next s) ∧
    (∀ slot gen q, (∀ o ∈ s.flash.running, o.job.root ≠ .save) → s.flash.queue = .done slot gen .save :: q →
      (let s1 := { s with flash := { s.flash with queue := q } }
       (s.sys.kstResult ≠ 0 → exec .saveComplete s = .next { s1 with sys := { s.sys with kstSt := 3 } }) ∧
       (s.sys.kstResult = 0 → ∃ n : State, exec .saveComplete s = .next n ∧ n.doors = s.doors ∧ n.regs = s.regs ∧
        n.ksnap = s.ksnap ∧
        ((s1.readBack true 0 slot gen).2 = true → n.sys.kstSt = 2 ∧ n.sys.kstGen = gen) ∧
        ((s1.readBack true 0 slot gen).2 = false → n.sys.kstSt = 3 ∧ n.sys.kstResult = 5))))

/-- O40. While keeper registers are served, a write of SYS_SHUTTER_REL stores AUTO_HA and AUTO_HB and opens each bank
named by RELEASE whose domains are on and out of reset, and, for DP and LC, whose up sequence is complete; any other
named bank stays closed and sets REJ, and a bank not named keeps its state. REJ stays set once set, and EV83 names the
refused banks. Beside the lamps and engines, which an opening of LC lets fade in, and that event, nothing else
changes. -/
def Obligations.ShutterReleaseRow : Prop :=
  ∀ (s : State) (v : Word), s.Serves 0 →
    let ready := fun b : Nat => (bankDomains b).all s.up && (!(b == 2 || b == 3) || s.seq.upDone)
    ∃ (n : State) (refused : Word),
      exec (.shutterRelease v) s = .next (if refused = 0 then n else n.raise 83 .granted refused) ∧
      (∀ b, refused.getLsbD b = (decide (b < 6) && v.bit b && !ready b)) ∧
      (∀ b, b < 6 → n.pwr.closed.getLsbD b = (s.pwr.closed.getLsbD b && !(v.bit b && ready b))) ∧
      (n.pwr.shutRej = true ↔ s.pwr.shutRej = true ∨ refused ≠ 0) ∧
      n.pwr.autoHA = v.bit 8 ∧ n.pwr.autoHB = v.bit 9 ∧
      (v.bit 3 = false → n.lamps = s.lamps ∧ n.engines = s.engines) ∧
      n = { s with lamps := n.lamps, engines := n.engines, pwr := { s.pwr with
        closed := n.pwr.closed, shutRej := n.pwr.shutRej, autoHA := v.bit 8, autoHB := v.bit 9 } }

/-- O41. An arrival of DSYNC comes DLY after its edge, and the edges of a held pad are ignored. While DSYNC is locked and
in use, an arrival within 8 us of the boundary is this tick's, with its phase, and one outside the window or after
another is none. In holdover a first arrival starts the count of four with its phase, one that agrees within 2 us adds
to it, and the fourth locks when its error is within 1 us and starts the slew when it is not; the tick number stays.
An edge before a boundary whose arrival falls after it waits for that arrival. A classified pulse is a flip indication
when it was high for 4 to 8 us and its boundary is still to come, and gives TICK_OUT its width when that boundary has
been made. A TICK set while the UP hop is not UP does nothing; one with a code error or a wrong CHK only counts a code
error; one with LATE set is no arrival; a valid one in the window of a device locked to the link is, and carries FLIP.
One that cannot go on to DN in time is counted in LATE. -/
def Obligations.TickArrivalRows : Prop :=
  ∀ (s : State) (phase : Int),
    let edge := phase + 5 * s.tick.dly
    let waits := phase ≤ 0 ∧ 0 < edge ∧ s.tick.st ≠ .lockedDsync
    (s.genHeld 1 = true → exec (.dsyncEdge phase) s = .next s) ∧
    (s.genHeld 1 = false → waits → exec (.dsyncEdge phase) s = .next { s with tick := { s.tick with
      laterDs := some edge } }) ∧
    (s.genHeld 1 = false → ¬waits → s.ticking = false → exec (.dsyncEdge phase) s = .next s) ∧
    (s.genHeld 1 = false → ¬waits → s.ticking = true → s.tick.srcF = 2 ∨ (s.tick.srcF = 0 ∧ s.tick.dsyncF = true) →
      (s.tick.st = .lockedDsync → edge.natAbs ≤ 8000 → s.tick.dsync.arrived = false →
        exec (.dsyncEdge phase) s = .next { s with tick := { s.tick with
          dsync := ⟨0, 0, true⟩, phase := edge, adj39 := edge, flipInd := false,
          dsHigh := true, dsWidth := 0, dsMark := 1 } }) ∧
      (s.tick.st = .lockedDsync → 8000 < edge.natAbs ∨ s.tick.dsync.arrived = true →
        exec (.dsyncEdge phase) s = .next s) ∧
      (let err := phaseIn s.periodUs edge
       s.tick.st = .holdover → s.tick.dsync.arrived = false →
        (s.tick.dsync.count = 0 → exec (.dsyncEdge phase) s = .next { s with tick := { s.tick with
          dsync := ⟨1, err, true⟩, phase := err } }) ∧
        ((phaseIn s.periodUs (err - s.tick.dsync.first)).natAbs ≤ 2000 →
          (0 < s.tick.dsync.count → s.tick.dsync.count < 3 → exec (.dsyncEdge phase) s = .next { s with tick := { s.tick with
            dsync := ⟨s.tick.dsync.count + 1, s.tick.dsync.first, true⟩, phase := err } }) ∧
          (s.tick.dsync.count = 3 → ∃ n : State, exec (.dsyncEdge phase) s = .next n ∧
            n.tick.st = (if err.natAbs ≤ 1000 then .lockedDsync else .slewing) ∧ n.tick.num = s.tick.num ∧
            n.tick.adj39 = (if err.natAbs ≤ 1000 then err else if 0 < err then 1000 else -1000))))) ∧
    (∀ high, (s.tick.dsHigh = false → exec (.dsyncClassify high) s = .next s) ∧
      (s.tick.dsHigh = true → s.tick.flipWait = false → ∃ n : State, exec (.dsyncClassify high) s = .next n ∧
        n.tick.flipInd = (if s.tick.dsMark = 1 then
          decide (4000 ≤ high ∧ high ≤ 8000) && s.tick.st == .lockedDsync else s.tick.flipInd) ∧
        (s.tick.dsMark = 2 → s.tick.st = .lockedDsync → s.tick.ctrl.bit 2 = true → s.genHeld 1 = false →
          n.tick.tickOut = max 1000 (min 8500 high)) ∧
        n = { s with tick := { s.tick with
          dsHigh := false, dsWidth := high, flipInd := n.tick.flipInd, tickOut := n.tick.tickOut } })) ∧
    (∀ (flags low : Byte) (lead : BitVec 24) (chk : Byte) (codeErr : Bool) (held : Nat),
      (s.hopIsUp false = false → exec (.tickSet flags low lead chk codeErr phase held) s = .next s) ∧
      (s.hopIsUp false = true → codeErr = true ∨ chk ≠ tickChk flags low lead →
        exec (.tickSet flags low lead chk codeErr phase held) s = .next { s with link := { s.link with
          code := min 65535 (s.link.code + 1) } }) ∧
      (s.hopIsUp false = true → codeErr = false → chk = tickChk flags low lead →
        (s.hopIsUp true = false →
          (flags.getLsbD 1 = true → exec (.tickSet flags low lead chk codeErr phase held) s = .next { s with
            link := { s.link with tickLead := lead.toNat, tickLow := low.toNat } }) ∧
          (flags.getLsbD 1 = false → s.ticking = true → s.tick.st = .lockedLink → s.tick.srcF ≤ 1 →
            phase.natAbs ≤ 8000 → s.tick.link.arrived = false → s.tick.ticknum = none →
            low.toNat = (s.now + bitNat (decide (phase ≤ (lead.toNat : Int)))) % 256 →
            exec (.tickSet flags low lead chk codeErr phase held) s = .next { s with
              link := { s.link with tickLead := lead.toNat, tickLow := low.toNat },
              tick := { s.tick with
                link := ⟨0, 0, true⟩, phase := phase, adj39 := phase, flipInd := flags.getLsbD 0 } })) ∧
        (s.hopIsUp true = true → lead.toNat < held + s.link.dn.delay →
          ∃ n : State, exec (.tickSet flags low lead chk codeErr phase held) s = .next n ∧
            n.link.late = min 65535 (s.link.late + 1))))

/-- O42. While the tick counts, a boundary starts slot 0 of the next tick: its number is one more, or the number loaded
for it; TICK_PERIOD comes into force; the capacity is whole again; the placement of the first tenant moves on; every
tenant has its whole quota, no units spent, and its heartbeats and leak counts go on; doors asked to open are open. A
locked source without an arrival puts the part into holdover at that boundary, as its first tick. The end of the
window makes the boundary of a locked source without an arrival, and does nothing otherwise. In states in which no
tick counts a boundary does nothing. -/
def Obligations.BoundaryRows : Prop :=
  ∀ (s : State) (mis : List (BitVec 12)), mis.length ≤ 12 →
    (s.ticking = false → exec (.boundary mis) s = .next s) ∧
    (s.ticking = true → ∃ n : State, exec (.boundary mis) s = .next n ∧
      (s.tick.load = none → n.tick.num = s.tick.num + 1) ∧ (∀ x, s.tick.load = some x → n.tick.num = x) ∧
      n.tick.load = none ∧ n.tick.slot = 0 ∧ n.tick.periodF = s.tick.period ∧ n.tick.capLeft = Config.capacity ∧
      n.tick.first = s.tick.first % 31 + 1 ∧
      (∀ t, t < 32 → (n.ten t).quota = (s.ten t).quotaSet ∧ (n.ten t).spent = 0 ∧
        (n.ten t).deferred = (s.ten t).deferNow ∧ (t ≠ 0 → (s.ten t).doorPend.isSome = true → n.door t = .opened)) ∧
      (∀ ds, s.tick.use = some ds → s.tick.locked = true → (s.tick.lockOf ds).arrived = false →
        s.tick.srcF ≠ 3 → s.tick.ctrl.fld 0 2 = s.tick.srcF → s.tick.ctrl.bit 3 = s.tick.dsyncF →
        n.tick.st = .holdover ∧ n.tick.holdTicks = 1)) ∧
    (∀ ds, s.tick.use = some ds → s.tick.locked = true → (s.tick.lockOf ds).arrived = false →
      exec (.windowEnd mis) s = exec (.boundary mis) s) ∧
    (s.tick.use = none ∨ s.tick.locked = false → exec (.windowEnd mis) s = .next s) ∧
    (∀ ds, s.tick.use = some ds → (s.tick.lockOf ds).arrived = true → exec (.windowEnd mis) s = .next s)

/-- O43. While the tick counts: slot 1 makes every converter result one tick older, up to 17, and updates the four die
sensors within their range. Slot 3 with both DIV fields 0, no cut sequence and no waiting request starts nothing. Slot
38 with no pending event changes nothing else; a tenant's one pending event, with room in its EQ, is written at
EQ_TAIL with COALESCED, its count and its tick, and is pending no more. At slot 39 a request for Ajar is in force with
RESULT ENTERED, a first query with a counted vote and no FORCE ends the entry with RESULT 3, and without a request the
power controller does nothing. In a state in which no tick counts none of them does anything. -/
def Obligations.SlotRows : Prop :=
  ∀ s : State,
    (s.ticking = false → (∀ die, die.length = 4 → exec (.loopSlot die) s = .next s) ∧ exec .adcSlot s = .next s ∧
      exec .coalesceSweep s = .next s ∧ exec .guardSlot s = .next s) ∧
    (s.ticking = true →
      (∀ die, die.length = 4 → ∃ n : State, exec (.loopSlot die) s = .next n ∧ n.tick = { s.tick with slot := 1 } ∧
        (∀ i, i < 32 → (n.chan i).age = min 17 ((s.chan i).age + 1)) ∧ n.doors = s.doors ∧ n.regs = s.regs ∧
        (s.up 12 = true → ∀ i, i < 4 → (s.sensor i).testBad = false →
          (n.sensor i).t = clampInt (-400) 1500 (die.getD i 0) ∧ (n.sensor i).kind = 0)) ∧
      (s.up 10 = false → exec .adcSlot s = .next { s with tick := { s.tick with slot := 3 } }) ∧
      (s.up 10 = true → s.fld 0x300A0014 0 8 = 0 → s.fld 0x300A001C 0 8 = 0 → s.adc.inj = [] →
        s.adc.seqA.left = [] → s.adc.seqB.left = [] → exec .adcSlot s = .next { s with
          tick := { s.tick with slot := 3 },
          adc := { s.adc with seqA := { s.adc.seqA with cut := false }, seqB := { s.adc.seqB with cut := false } } }) ∧
      (s.after = [] →
        ((∀ t, t < 32 → (s.ten t).pend = []) →
          exec .coalesceSweep s = .next { s with tick := { s.tick with slot := 38 } }) ∧
        (∀ t e p, t < 32 → (∀ u, u < 32 → u ≠ t → (s.ten u).pend = []) → (s.ten t).pend = [(e, p)] →
          (s.ten t).eqCount < 64 →
          (let a := eqAddr t (s.ten t).eqTail.toNat
           ∃ n : State, exec .coalesceSweep s = .next n ∧
            n.rdBytes a 8 = eventEntry e (1 + 2 * p.count) p.tick p.data ∧ (n.ten t).pend = [] ∧
            (n.ten t).eqTail = (s.ten t).eqTail + 1 ∧ (∀ x, x < a ∨ a + 8 ≤ x → n.rdByte x = s.rdByte x) ∧
            (∀ u, u ≠ t → n.ten u = s.ten u) ∧
            n = { s with tick := { s.tick with slot := 38 }, tens := n.tens, mem := n.mem, ecc := n.ecc }))) ∧
      (∃ n : State, exec .guardSlot s = .next n ∧ n.tick.slot = 39 ∧ n.doors = s.doors ∧
        (s.pwr.ajarPend = true → n.pwr = { s.pwr with st := .ajar, ajarPend := false, result := 1 }) ∧
        (s.pwr.ajarPend = false → s.pwr.phase ≠ .query → s.pwr.phase ≠ .delayed → n.pwr = s.pwr) ∧
        (s.pwr.ajarPend = false → s.pwr.phase = .query → s.pwr.queries = 0 → s.pwr.force = false → s.votes ≠ 0 →
          n.pwr.phase = .idle ∧ n.pwr.result = 3 ∧ n.pwr.st = s.pwr.st)))

/-- O44. While a hop is not UP a frame has no effect; an aborted one counts its code errors alone, and one whose HSEQ
and its complement disagree counts one more. A frame in order, whole, without error and with the expected HSEQ is
acknowledged with it and the next HSEQ is expected. One that is not a duplicate is answered NAK with the HSEQ
expected: with REASON 2 for code errors, which are counted, 4 for a wrong length, and 1 for a wrong FCS, which is
counted. An ACK takes the frame it names and those before it, one that names no unacknowledged frame or the other
class does nothing, and an ACK or NAK with a code error or a bad CLASS counts a code error. A NAK, or 20 us without
either, repeats every unacknowledged frame and counts the repeats, and after a fourth transmission the hop goes down
and retrains with its frames dropped. -/
def Obligations.LinkFrameRows : Prop :=
  ∀ (s : State) (dn : Bool),
    (∀ hseq notH b errs abort,
      (s.hopIsUp dn = false → exec (.frameReceive dn hseq notH b errs abort) s = .next s) ∧
      (s.hopIsUp dn = true → abort = true → exec (.frameReceive dn hseq notH b errs abort) s =
        .next { s with link := { s.link with code := min 65535 (s.link.code + errs) } }) ∧
      (s.hopIsUp dn = true → abort = false →
        (notH ≠ ~~~hseq → exec (.frameReceive dn hseq notH b errs abort) s = .next { s with link := { s.link with
          code := min 65535 (s.link.code + errs + 1) } }) ∧
        (notH = ~~~hseq →
          (let e := ((s.lport dn).cls (frRsp b)).expect
           let whole := b.length = frSize b ∧ frLen b ≤ 576
           let again := 1 ≤ (e + 256 - hseq.toNat) % 256 ∧ (e + 256 - hseq.toNat) % 256 ≤ 8
           (errs = 0 → whole → frFcsOk b = true → hseq.toNat = e →
            ∃ n : State, exec (.frameReceive dn hseq notH b errs abort) s = .next n ∧
              ((n.lport dn).cls (frRsp b)).expect = (e + 1) % 256 ∧
              LinkItem.ack (bitNat (frRsp b)) hseq.toNat ∈ (n.lport dn).sent) ∧
           (¬again → ∀ reason, (reason = 2 ∧ errs ≠ 0) ∨ (reason = 4 ∧ errs = 0 ∧ ¬whole) ∨
              (reason = 1 ∧ errs = 0 ∧ whole ∧ frFcsOk b = false) →
            ∃ n : State, exec (.frameReceive dn hseq notH b errs abort) s = .next n ∧
              n.link.code = min 65535 (s.link.code + errs) ∧
              (frFcsOk b = false → n.link.fcs = min 65535 (s.link.fcs + 1)) ∧
              (n.lport dn).sent = .nak (bitNat (frRsp b)) e reason :: (s.lport dn).sent ∧
              n = { s with link := n.link }))))) ∧
    (s.hopIsUp dn = true → ∀ (cls hseq reason : Byte) (codeErr : Bool),
      (codeErr = true ∨ 2 ≤ cls.toNat →
        (let n := { s with link := { s.link with code := min 65535 (s.link.code + 1) } }
         exec (.ackReceive dn cls hseq codeErr) s = .next n ∧ exec (.nakReceive dn cls hseq reason codeErr) s = .next n)) ∧
      (codeErr = false → cls.toNat = bitNat dn →
        exec (.ackReceive dn cls hseq codeErr) s = .next s ∧ exec (.nakReceive dn cls hseq reason codeErr) s = .next s) ∧
      (codeErr = false → cls.toNat = bitNat (!dn) →
        (let u := (s.sending dn).unacked
         ((∀ q ∈ u, q.hseq ≠ hseq.toNat) → exec (.ackReceive dn cls hseq codeErr) s = .next s) ∧
         (∀ i, u.findIdx? (fun q => q.hseq == hseq.toNat) = some i → (s.sending dn).queue = [] →
          ∃ n : State, exec (.ackReceive dn cls hseq codeErr) s = .next n ∧ (n.sending dn).unacked = u.drop (i + 1) ∧
            n = { s with link := n.link }) ∧
         (u = [] → exec (.nakReceive dn cls hseq reason codeErr) s = .next s) ∧
         (u ≠ [] → s.looped dn = false → (∀ q ∈ u, q.tx < 4) →
          ∃ n : State, exec (.nakReceive dn cls hseq reason codeErr) s = .next n ∧
            (n.sending dn).unacked = u.map (fun q => { q with tx := q.tx + 1 }) ∧
            n.link.retries = min 65535 (s.link.retries + u.length) ∧ n = { s with link := n.link }) ∧
         (s.looped dn = false → (∃ q ∈ u, 4 ≤ q.tx) →
          ∃ n : State, exec (.nakReceive dn cls hseq reason codeErr) s = .next n ∧ (n.lport dn).st = .training ∧
            (n.sending dn).unacked = [] ∧ (n.sending dn).queue = []) ∧
         exec (.retransmitTimeout dn (!dn)) s = exec (.nakReceive dn cls hseq reason codeErr) s))) ∧
    exec (.retransmitTimeout dn dn) s = .next s

/-- O45. On a port that works and trains: a locked receiver sends the credit of both classes, and the hop comes UP
when it is locked and has had a CREDIT, whichever comes last. Without UP in 10 ms the hop is OFF. Data symbols in OFF
start training. A lost UP hop drops its frames, goes down, retrains, and on UP leaves the device unbound; a training
one only loses its lock; the code errors that came before it are counted. A CREDIT on an UP hop with nothing waiting
sets the credit; one with a code error or a bad CLASS counts a code error. On a port that is off or not in the state
named, each does nothing, but that after a CREDIT and after a lock a NOTICE AWAKE that is owed goes out once it can.
-/
def Obligations.HopRows : Prop :=
  ∀ (s : State) (dn : Bool),
    (∀ (cls count : Byte) (codeErr : Bool),
      (s.linkOn dn = false ∨ (s.lport dn).st = .off → exec (.creditReceive dn cls count codeErr) s = .next s.awakeSend) ∧
      (s.linkOn dn = true → (s.lport dn).st ≠ .off →
        (codeErr = true ∨ 2 ≤ cls.toNat → exec (.creditReceive dn cls count codeErr) s = .next { s with
          link := { s.link with code := min 65535 (s.link.code + 1) } }.awakeSend) ∧
        (codeErr = false → cls.toNat ≤ 1 →
          ((s.lport dn).st = .training → (s.lport dn).rxLock = true →
            ∃ n : State, exec (.creditReceive dn cls count codeErr) s = .next n ∧ (n.lport dn).st = .up) ∧
          ((s.lport dn).st = .up → (s.sending dn).queue = [] →
            ∃ n : State, exec (.creditReceive dn cls count codeErr) s = .next n ∧
              ((n.lport dn).cls (cls.toNat == 1)).credit = count.toNat ∧ (n.lport dn).gotCredit = true ∧
              n = { s with link := n.link })))) ∧
    (s.linkOn dn = true → (s.lport dn).st = .training →
      ((s.lport dn).rxLock = false →
        ∃ n : State, exec (.receiverLock dn) s = .next n ∧ (n.lport dn).rxLock = true ∧
          (n.lport dn).st = (if (s.lport dn).gotCredit then .up else .training) ∧
          LinkItem.credit 0 ((s.lport dn).cls false).freed ∈ (n.lport dn).sent ∧
          LinkItem.credit 1 ((s.lport dn).cls true).freed ∈ (n.lport dn).sent) ∧
      (∃ n : State, exec (.trainingTimeout dn) s = .next n ∧ (n.lport dn).st = .off ∧ (n.lport dn).rxLock = false) ∧
      (∀ errs, ∃ n : State, exec (.symbolLoss (dn, errs)) s = .next n ∧ (n.lport dn).rxLock = false ∧
        (n.lport dn).st = .training ∧ n.link.code = min 65535 (s.link.code + errs) ∧ n = { s with link := n.link })) ∧
    (s.linkOn dn = true → (s.lport dn).st = .off →
      ∃ n : State, exec (.dataModeSymbolsReceived dn) s = .next n ∧ (n.lport dn).st = .training ∧
        (n.lport dn).rxLock = false ∧ (n.lport dn).gotCredit = false) ∧
    (s.linkOn dn = true → (s.lport dn).st = .up →
      ∀ errs, ∃ n : State, exec (.symbolLoss (dn, errs)) s = .next n ∧ (n.lport dn).st = .training ∧
        n.link.code = min 65535 (s.link.code + errs) ∧ (n.sending dn).unacked = [] ∧ (n.sending dn).queue = [] ∧ (dn = false → n.link.bound = false)) ∧
    (s.linkOn dn = false → exec (.receiverLock dn) s = .next s.awakeSend ∧ exec (.trainingTimeout dn) s = .next s ∧
      (∀ errs, exec (.symbolLoss (dn, errs)) s = .next s) ∧ exec (.dataModeSymbolsReceived dn) s = .next s)

/-- O46. A DLY_REQ on a port whose receiver is locked is answered with its ID and turn-round time. A DLY_RSP to the
request that is out adds its measurement, half the round less the turn-round, to the last eight. A measurement on an
UP hop sends a DLY_REQ with the next ID. BREAK on UP leaves the device unbound, and goes on to DN where that hop is
UP; on DN it does nothing. SLEEP takes an UP hop OFF. A LINKCTL whose code and complement disagree, and one of these
sets with a code error, counts a code error, and one with another code does nothing here. On a port that does not work
none of them does anything. -/
def Obligations.DelayAndControlRows : Prop :=
  ∀ (s : State) (dn : Bool),
    (∀ (id : Byte) (turn : BitVec 16) (round : Nat),
      (s.linkOn dn = true → (s.lport dn).rxLock = true → ∃ n : State, exec (.dlyReq dn (some id) turn) s = .next n ∧
        n.lport dn = { s.lport dn with sent := .dlyRsp id.toNat turn.toNat :: (s.lport dn).sent } ∧
        n.lport (!dn) = s.lport (!dn) ∧ n = { s with link := n.link }) ∧
      (s.linkOn dn = false ∨ (s.lport dn).rxLock = false → exec (.dlyReq dn (some id) turn) s = .next s) ∧
      (s.hopIsUp dn = true → (s.lport dn).dlyId = id.toNat → ∃ n : State, exec (.dlyRsp dn (some id) turn round) s = .next n ∧
        n.lport dn = { s.lport dn with dly := ((round - turn.toNat) / 2 :: (s.lport dn).dly).take 8 } ∧
        n.lport (!dn) = s.lport (!dn) ∧ n = { s with link := n.link }) ∧
      (s.hopIsUp dn = false ∨ (s.lport dn).dlyId ≠ id.toNat → exec (.dlyRsp dn (some id) turn round) s = .next s)) ∧
    (∀ c ∈ [fun t _ _ => Instr.dlyReq dn none t, fun t r _ => .dlyRsp dn none t r, fun _ _ b => .linkctlBreak dn none b,
        fun _ _ b => .linkctlSleep dn none b], ∀ (turn : BitVec 16) (round : Nat) (notCode : Byte),
      (s.linkOn dn = false ∨ (s.lport dn).st = .off → exec (c turn round notCode) s = .next s) ∧
      (s.linkOn dn = true → (s.lport dn).st ≠ .off → exec (c turn round notCode) s = .next { s with
        link := { s.link with code := min 65535 (s.link.code + 1) } })) ∧
    (s.hopIsUp dn = true → ∃ n : State, exec (.delayRemeasure dn) s = .next n ∧
      (let i := ((s.lport dn).dlyId + 1) % 256
       n.lport dn = { s.lport dn with dlyId := i, sent := .dlyReq i :: (s.lport dn).sent }) ∧
      n.lport (!dn) = s.lport (!dn) ∧ n = { s with link := n.link }) ∧
    (s.hopIsUp dn = false → exec (.delayRemeasure dn) s = .next s) ∧
    (∀ code notCode : Byte,
      (s.linkOn dn = false ∨ (s.lport dn).st = .off →
        exec (.linkctlBreak dn (some code) notCode) s = .next s ∧ exec (.linkctlSleep dn (some code) notCode) s = .next s) ∧
      (s.linkOn dn = true → (s.lport dn).st ≠ .off →
        (notCode ≠ ~~~code →
          (let n := { s with link := { s.link with code := min 65535 (s.link.code + 1) } }
           exec (.linkctlBreak dn (some code) notCode) s = .next n ∧ exec (.linkctlSleep dn (some code) notCode) s = .next n)) ∧
        (notCode = ~~~code →
          (code ≠ 1 → exec (.linkctlBreak dn (some code) notCode) s = .next s) ∧
          (code ≠ 2 → exec (.linkctlSleep dn (some code) notCode) s = .next s) ∧
          (code = 1 → dn = true → exec (.linkctlBreak dn (some code) notCode) s = .next s) ∧
          (code = 1 → dn = false → s.hopIsUp true = false →
            exec (.linkctlBreak dn (some code) notCode) s = .next { s with link := { s.link with bound := false } }) ∧
          (code = 1 → dn = false → s.hopIsUp true = true → ∃ n : State,
            exec (.linkctlBreak dn (some code) notCode) s = .next n ∧ n.link.bound = false ∧
            (n.lport true).sent = .breakSet :: (s.lport true).sent) ∧
          (code = 2 → (s.lport dn).st ≠ .up → exec (.linkctlSleep dn (some code) notCode) s = .next s) ∧
          (code = 2 → (s.lport dn).st = .up → ∃ n : State, exec (.linkctlSleep dn (some code) notCode) s = .next n ∧
            (n.lport dn).st = .off ∧ (n.sending dn).unacked = [] ∧ (n.sending dn).queue = []))))

/-- O47. With no frame of its type at the head of the local buffers a delivery row does nothing. In Open, after boot
and with no path hold: a TICKNUM stores its number; a CMD frame of a tenant that needs no tag and whose door is OPEN
puts its slots at CQ_TAIL, in order and unchanged, when they fit and a response buffer is free, and otherwise enters
no slot, a group frame being counted as missed; a WIN frame of one word that its window lets through stages that word,
and no other tenant changes. One that a self-test holds waits. Before boot a TICKNUM is dropped. An ENUM broadcast
gives the device the address NEXT, bound, with its SEGID, and NEXT 240 leaves it unbound with address 0. A WAKE frame
for this device asks for NOTICE AWAKE with its FTAG beside those that are owed, and one that must go on where the DN
hop is not UP goes as a wake message behind those that wait. -/
def Obligations.DeliveryRows : Prop :=
  ∀ s : State,
    ((∀ b bs, s.link.loc = b :: bs → frType b ≠ 1) → exec .cmd s = .next s) ∧
    ((∀ b bs, s.link.loc = b :: bs → frType b ≠ 2) → exec .win s = .next s) ∧
    ((∀ b bs, s.link.loc = b :: bs → frType b ≠ 3) → exec .ticknum s = .next s) ∧
    ((∀ b bs, s.link.loc = b :: bs → frType b ≠ 4) → exec .wake s = .next s) ∧
    ((∀ b bs, s.link.loc = b :: bs → frType b ≠ 0x10) → exec .enum s = .next s) ∧
    (s.frameHeld 1 = true → exec .cmd s = .next (s.hold .frame)) ∧
    (s.frameHeld 2 = true → exec .win s = .next (s.hold .frame)) ∧
    (∀ b bs, s.HeadFrame b bs →
      (frType b = 3 →
        (s.notReady = true → exec .ticknum s = .next { s with link := { s.link with loc := bs } }) ∧
        (s.notReady = false → exec .ticknum s = .next { s with
          link := { s.link with loc := bs }, tick := { s.tick with ticknum := some (BitVec.ofNat 48 (natAt b 20 6)) } })) ∧
      (s.Awake → s.notReady = false → s.linkBufErrors = [] → frAuth b = false →
        s.door (frTen b) = .opened → (s.ten (frTen b)).authReq = false →
        (frType b = 1 → s.frameHeld 1 = false →
          (let t := frTen b
           let k := frLen b / 64
           let tail := (s.ten t).cqTail
           ((s.ten t).cqCount + k ≤ 32 → s.bufsOf t < 4 → ∃ n : State, exec .cmd s = .next n ∧
            n.ten t = { s.ten t with cqTail := tail + BitVec.ofNat 6 k } ∧ (∀ u, u ≠ t → n.ten u = s.ten u) ∧
            (∀ j, j < k → n.rdBytes (cqAddr t (tail + BitVec.ofNat 6 j).toNat) 64 = bytesAt b (20 + 64 * j) 64) ∧
            n.link.loc = bs ∧ n.doors = s.doors ∧ n.regs = s.regs) ∧
           ((s.ten t).cqCount ≤ 32 → 32 < (s.ten t).cqCount + k ∨ 4 ≤ s.bufsOf t → ∃ n : State, exec .cmd s = .next n ∧
            (n.ten t).cqTail = tail ∧ n.link.loc = bs ∧ n.link.bufs = s.link.bufs ∧
            (frUnicast b = false → n.link.grpMiss = min 65535 (s.link.grpMiss + 1))))) ∧
        (frType b = 2 → s.frameHeld 2 = false →
          (let t := frTen b
           let w := natAt b 20 1
           let off := natAt b 22 2
           ∀ v tg, frWinWords b = [(off, v, 0xF#4)] → off < 8192 → s.winTarget t w off = some tg →
            s.targetErr t tg true = none → (∀ a, tg ≠ .flash a) → s.stagedAt t w off = none →
            (s.ten t).staged.length < 2048 → frUnicast b = true →
            ∃ n : State, exec .win s = .next n ∧ n.stagedAt t w off = some ⟨v, 0xF#4⟩ ∧
              (∀ w2 o, 2048 * w2 + o / 4 ≠ 2048 * w + off / 4 → n.stagedAt t w2 o = s.stagedAt t w2 o) ∧
              (∀ u, u ≠ t → n.ten u = s.ten u) ∧ s.SameMemory n ∧ n.link.loc = bs))) ∧
      (frType b = 0x10 → frUnicast b = false →
        (let next := natAt b 20 1
         (1 ≤ next → next ≤ 239 → ∃ n : State, exec .enum s = .next n ∧ n.sys = { s.sys with linkAddr := next } ∧
          n.link.bound = true ∧ n.link.segid = natAt b 22 2 ∧ n.link.last = s.sys.linkAddr ∧ n.link.loc = bs) ∧
         (next = 240 → ∃ n : State, exec .enum s = .next n ∧ n.sys = { s.sys with linkAddr := 0 } ∧
          n.link.bound = false ∧ n.link.loc = bs) ∧
         (next = 0 ∨ 240 < next → exec .enum s = .next { s with link := { s.link with loc := bs } }))) ∧
      (frType b = 4 → s.Awake → s.hopIsUp false = false →
        (frUnicast b = true → s.ownDst (frDst b) = true →
          exec .wake s = .next { s with link := { s.link with loc := bs, awake := s.link.awake ++ [some (frTag b)] } }) ∧
        (frUnicast b = false → s.ownDst (frDst b) = false →
          (s.hopIsUp true = true → exec .wake s = .next { s with link := { s.link with loc := bs } }) ∧
          (s.hopIsUp true = false → exec .wake s = .next { s with link := { s.link with
            loc := bs, wakeRpt := s.link.wakeRpt ++ [wakeBits (frDst b)] } }))))

/-- O48. While the UP hop is not UP, or no unicast frame has all its responses, no CMD_RSP is sent. One is sent for
the oldest such frame, untagged where the request was, with its FTAG and its responses in order, and its buffer is
free; a response whose CHECK fails is not sent and is counted. A wake message is 16 cells of 2 to 20 us whose positive
and negative parts are in a ratio of 1.5 or more, the longer part giving the bit. A line with a cell of another length
or ratio or of another number of cells, a message with a wrong KIND or CHK, and one where the AO front end does not
listen have no effect. One for this device starts an exit with source LINK, or path hold while SYS_WAKE_EN bit 0 is 0;
one for another device is to be repeated on DN, with path hold. The repeat goes out on DN once and is then no longer
due. Path hold ends with PD_LINK off, both ports OFF, and its count one more. -/
def Obligations.LinkAnswerRows : Prop :=
  ∀ s : State,
    (s.hopIsUp false = false ∨ s.rspDue = none → exec .cmdRspSend s = .next s) ∧
    (∀ i b slots, s.hopIsUp false = true → s.rspDue = some (i, b, slots) → s.linkBufErrors = [] →
      ((∀ x ∈ slots, wordOf (natAt x 60 4) = crc32c (x.take 60)) → b.tagged = false →
        ∃ n : State, exec .cmdRspSend s = .next n ∧ SMap.get (fun _ => none) n.link.bufs i = none ∧
          (withCrc (frHead 0x81 0 0 s.ownAddr b.ten b.ftag 0 slots.flatten) ∈
            (n.sending false).queue.map (fun q => q.2) ++ (n.sending false).unacked.map (fun q => q.bytes)) ∧
          n = { s with link := n.link }) ∧
      (∀ x, slots = [x] → wordOf (natAt x 60 4) ≠ crc32c (x.take 60) →
        ∃ n : State, exec .cmdRspSend s = .next n ∧ SMap.get (fun _ => none) n.link.bufs i = none ∧
          n.prot.exitFail = min 65535 (s.prot.exitFail + 1) ∧ (n.sending false) = s.sending false)) ∧
    (s.frontEnd = false → ∀ line, exec (.wakeMessage line) s = .next s) ∧
    (∀ cells : List (Nat × Nat), (∀ c ∈ cells, 500 ≤ c.1 ∧ 500 ≤ c.2) →
      (let line := cells.flatMap fun c => [(true, c.1), (false, c.2)]
       let fit := cells.length = 16 ∧ ∀ c ∈ cells, 2000 ≤ c.1 + c.2 ∧ c.1 + c.2 ≤ 20000 ∧
         (3 * c.2 ≤ 2 * c.1 ∨ 3 * c.1 ≤ 2 * c.2)
       let n := cells.foldl (fun n c => 2 * n + bitNat (decide (c.2 < c.1))) 0
       let addr := n / 16 % 256
       (¬fit → exec (.wakeMessage line) s = .next s) ∧
       (BitVec.ofNat 16 n ≠ wakeBits addr → exec (.wakeMessage line) s = .next s) ∧
       (s.frontEnd = true → fit → BitVec.ofNat 16 n = wakeBits addr → s.pwr.phase = .idle →
        (s.ownDst addr = true →
          (s.pwr.wakeEn.getLsbD 0 = true → ∃ n : State, exec (.wakeMessage line) s = .next n ∧
            n.pwr.phase = .restoring ∧ n.pwr.wakeSrc = 1 ∧ none ∈ n.link.awake ∧ n.link.wakeRpt = s.link.wakeRpt ∧
            n.doors = s.doors ∧ n.regs = s.regs) ∧
          (s.pwr.wakeEn.getLsbD 0 = false → ∃ n : State, exec (.wakeMessage line) s = .next n ∧
            n.pwr.pathHold = true ∧ n.pwr.domOn = s.pwr.domOn ||| 0x0010 ∧ n.pwr.phase = .idle ∧ n.pwr.st = s.pwr.st)) ∧
        (s.ownDst addr = false → addr ≠ 255 → s.inGroup addr = false → ∃ n : State,
          exec (.wakeMessage line) s = .next n ∧ n.link.wakeRpt = s.link.wakeRpt ++ [wakeBits addr] ∧
          n.pwr.pathHold = true ∧ n.pwr.st = s.pwr.st ∧ n.doors = s.doors)))) ∧
    (s.link.wakeRpt = [] → exec .wakeRepeat s = .next s) ∧
    (∀ bits rest, s.link.wakeRpt = bits :: rest →
      (s.pwr.vao = false ∨ s.hopIsUp true = true →
        exec .wakeRepeat s = .next { s with link := { s.link with wakeRpt := rest } }) ∧
      (s.pwr.vao = true → s.hopIsUp true = false → ∃ n : State, exec .wakeRepeat s = .next n ∧
        n.link.wakeRpt = rest ∧ (s.link.dn.en = true → n.link.dn.sent.head? = some (.wakeMsg bits)) ∧ n.doors = s.doors)) ∧
    (s.pwr.pathHold = false → exec .pathHoldEnd s = .next s) ∧
    (s.pwr.pathHold = true → ∃ n : State, exec .pathHoldEnd s = .next n ∧ n.pwr.pathHold = false ∧
      n.pwr.domOn = s.pwr.domOn &&& 0xFFEF ∧ n.link.up.st = .off ∧ n.link.dn.st = .off ∧ n.link.loc = [] ∧
      n.link.pholdCnt = min 65535 (s.link.pholdCnt + 1) ∧ n.pwr.st = s.pwr.st ∧ n.doors = s.doors)

/-- O49. In Shuttered, in Off and while RESET_N is low WAKE_N takes nothing, and with its enable bit 0 it is only held
to be low. Enabled, it is latched from the commit point of an entry on, joins the sources of an exit in progress, ends
an entry before the commit point with RESULT 4, starts an exit from Louvred and Latched, and does nothing in Open with
no request pending. The RTC alarm, when TIME_SEC has become equal to it, raises EV11 in Open once, and otherwise does
nothing. A watched row starts an exit as source KEY, a row not watched does nothing, and a row that was high for 1 ms
is watched again. A vote whose TICKS have run out clears HOLD and TICKS together. -/
def Obligations.WakeSourceRows : Prop :=
  ∀ s : State,
    (s.awakeAble = false → exec .wakeNTaken s = .next s) ∧
    (s.awakeAble = true → s.pwr.wakeEn.getLsbD 4 = false →
      exec .wakeNTaken s = .next { s with pwr := { s.pwr with wakeLow := true } }) ∧
    (s.awakeAble = true → s.pwr.wakeEn.getLsbD 4 = true →
      (s.pwr.phase = .committed → exec .wakeNTaken s = .next { s with pwr := { s.pwr with
        wakeLow := true, wakeLatch := s.pwr.wakeLatch ||| 16#6, taken := s.pwr.taken ||| 16#6 } }) ∧
      (s.pwr.phase = .restoring → exec .wakeNTaken s = .next { s with pwr := { s.pwr with
        wakeLow := true, wakeSrc := s.pwr.wakeSrc ||| 16#6 } }) ∧
      (s.pwr.phase = .query ∨ s.pwr.phase = .delayed → ∃ n : State, exec .wakeNTaken s = .next n ∧ n.pwr.phase = .idle ∧
        n.pwr.result = 4 ∧ n.pwr.wakeSrc = 16#6 ∧ n.doors = s.doors ∧ n.regs = s.regs ∧
        (s.pwr.st = .ajar → n.pwr.st = .opened) ∧ (s.pwr.st ≠ .ajar → n.pwr.st = s.pwr.st)) ∧
      (s.pwr.phase = .idle → s.pwr.st = .louvred ∨ s.pwr.st = .latched → exec .wakeNTaken s = .next { s with
        pwr := { s.pwr with
          wakeLow := true, phase := .restoring, wakeSrc := 16#6, replayed := false, left := s.pwr.st.code,
          stage := SMap.set (fun _ => 0) [] 10 s.pwr.lvStage, lvStage := 0, pathHold := false } })) ∧
    (s.awakeAble = true → s.Awake →
      exec .wakeNTaken s = .next { s with pwr := { s.pwr with wakeLow := true } }) ∧
    (s.Awake → s.sys.resetN = true → s.sys.rtcSec ≠ 0 → BitVec.ofNat 32 s.sys.rtcSec = s.sys.rtcAlarm →
      s.sys.alarmDone = false → exec .rtcAlarm s = .next
        ({ s with sys := { s.sys with alarmDone := true } }.raise 11 .granted (wordOf s.sys.rtcSec))) ∧
    (s.awakeAble = false ∨ s.sys.rtcSec = 0 ∨ BitVec.ofNat 32 s.sys.rtcSec ≠ s.sys.rtcAlarm ∨ s.sys.alarmDone = true →
      exec .rtcAlarm s = .next s) ∧
    (∀ row : Fin 24,
      (s.rowWatch = false → exec (.keyRowWake row) s = .next s ∧ exec (.rowWatchedAgain row) s = .next s) ∧
      (s.pwr.unwatched.getLsbD row.val = true → exec (.keyRowWake row) s = .next s) ∧
      (s.rowWatch = true → s.pwr.unwatched.getLsbD row.val = false → s.pwr.wakeEn.getLsbD 2 = true →
        s.pwr.phase = .idle → exec (.keyRowWake row) s = .next { s with pwr := { s.pwr with
          phase := .restoring, wakeSrc := 4#6, replayed := false, left := s.pwr.st.code,
          stage := SMap.set (fun _ => 0) [] 10 s.pwr.lvStage, lvStage := 0, pathHold := false } }) ∧
      (s.rowWatch = true → ∃ n : State, exec (.rowWatchedAgain row) s = .next n ∧
        (∀ i, i < 24 → n.pwr.unwatched.getLsbD i = (s.pwr.unwatched.getLsbD i && i != row.val)) ∧
        n = { s with pwr := { s.pwr with unwatched := n.pwr.unwatched } })) ∧
    (∀ t : Fin 32,
      ((s.ten t.val).wakeLapse = true → ∃ n : State, exec (.wakeHoldLapse t) s = .next n ∧
        n.ten t.val = { s.ten t.val with wakeHold := false, wakeTicks := 0, wakeLapse := false } ∧ s.OnlyTenant n t.val) ∧
      ((s.ten t.val).wakeLapse = false → exec (.wakeHoldLapse t) s = .next s))

/-- O50. The entry completes only after its commit point: the state asked for is in force, only the domains that PWR_CTRL
keeps in Louvred stay on, both link ports are off, and RESULT reads 1, or 5 with an exit begun by every source latched
since the commit point. A restore stage counts for a domain that is off while an exit runs, in order, the second after
PD_FAB's; the third turns the domain on, the fourth releases its logic, and with the last domain Open is reached:
the tick restarts in HOLDOVER, NUM_VALID reading 0 unless a load waits, the doors that were asked to open are open, and
the exit time is kept. A louvre of one enabled entry in Louvred writes its mean,
counts, and keeps its length; a mean inside the window restarts the consecutive count, and one outside for CONSEC + 1
louvres takes the LOUVRE source. One cut short is counted, and writes and compares nothing of an entry whose samples are
not all there. Out of place, each does nothing. -/
def Obligations.EntryRestoreRows : Prop :=
  ∀ s : State,
    (∀ us, (s.pwr.phase ≠ .committed → exec (.entryComplete us) s = .next s) ∧
      (s.pwr.phase = .committed → ∃ n : State, exec (.entryComplete us) s = .next n ∧
        n.pwr.st = (if s.pwr.reqState = 2 then .louvred else .latched) ∧ n.pwr.entryUs = min 65535 us ∧
        (∀ d, d < 16 → n.pwr.domOn.getLsbD d = (s.pwr.reqState == 2 &&
          ((d == 12 && s.rbit 0x30050000 16) || (d == 13 && s.rbit 0x30050000 17)))) ∧
        n.link.up.st = .off ∧ n.link.dn.st = .off ∧ n.doors = s.doors ∧ n.regs = s.regs ∧
        (s.pwr.wakeLatch = 0 → n.pwr.phase = .idle ∧ n.pwr.result = 1) ∧
        (s.pwr.wakeLatch ≠ 0 → n.pwr.phase = .restoring ∧ n.pwr.result = 5 ∧ n.pwr.wakeSrc = s.pwr.wakeLatch ∧
          n.pwr.replayed = true ∧ n.pwr.wakeLatch = 0))) ∧
    (∀ (d : Fin 16) us,
      (s.pwr.phase ≠ .restoring ∨ s.up d.val = true → exec (.restoreStageDone d us) s = .next s) ∧
      (s.pwr.phase = .restoring → s.up d.val = false →
        (let k := (SMap.get (fun _ => 0) s.pwr.stage d.val : Nat)
         let bit := BitVec.ofNat 16 (2 ^ d.val)
         (k = 1 → d.val ≠ 1 → (SMap.get (fun _ => 0) s.pwr.stage 1 : Nat) < 2 → exec (.restoreStageDone d us) s = .next s) ∧
         (k = 0 ∨ (k = 1 ∧ (d.val = 1 ∨ 2 ≤ (SMap.get (fun _ => 0) s.pwr.stage 1 : Nat))) →
          exec (.restoreStageDone d us) s = .next { s with pwr := { s.pwr with
            stage := SMap.set (fun _ => 0) s.pwr.stage d.val (k + 1) } }) ∧
         (k = 2 → exec (.restoreStageDone d us) s = .next { s with pwr := { s.pwr with
            stage := SMap.set (fun _ => 0) s.pwr.stage d.val 3, domOn := s.pwr.domOn ||| bit } }) ∧
         (k = 3 → s.pwr.domReady ||| bit ≠ 0xFFFF → ∃ n : State, exec (.restoreStageDone d us) s = .next n ∧
            n.pwr.domReady = s.pwr.domReady ||| bit ∧ n.pwr.phase = .restoring ∧ n.pwr.st = s.pwr.st ∧ n.doors = s.doors) ∧
         (k = 3 → s.pwr.domReady ||| bit = 0xFFFF → ∃ n : State, exec (.restoreStageDone d us) s = .next n ∧
            n.pwr.st = .opened ∧ n.pwr.phase = .idle ∧ n.pwr.exitUs = min 65535 us ∧
            (s.tick.load = none → n.tick.numValid = false ∧ n.tick.num = s.tick.num + 1) ∧
            (∀ x, s.tick.load = some x → n.tick.numValid = true ∧ n.tick.num = x) ∧
            n.tick.st = .holdover ∧ n.tick.holdTicks = 0 ∧
            (∀ t, t < 32 → n.door t = if (s.ten t).doorPend.isSome then .opened else s.door t))))) ∧
    (∀ mv samples, samples.length ≤ 8 → (∀ l ∈ samples, l.length ≤ 64) →
      (s.pwr.st ≠ .louvred ∨ s.pwr.phase ≠ .idle ∨ s.lvEntries = [] → exec (.louvre (mv, samples)) s = .next s) ∧
      (∀ k, s.pwr.st = .louvred → s.pwr.phase = .idle → s.lvEntries = [k] →
        (samples.getD k []).length < 4 ^ s.fld (lvReg k 0) 8 2 →
        ∃ n : State, exec (.louvre (mv, samples)) s = .next n ∧ n.pwr.lvRes = s.pwr.lvRes ∧
          n.pwr.lvCons = s.pwr.lvCons ∧ n.pwr.phase = .idle ∧ n.pwr.lvCount = min 65535 (s.pwr.lvCount + 1) ∧
          n = { s with pwr := n.pwr, free := n.free }) ∧
      (∀ k, s.pwr.st = .louvred → s.pwr.phase = .idle → s.lvEntries = [k] →
        (samples.getD k []).length = 4 ^ s.fld (lvReg k 0) 8 2 →
        (let ref := if s.fld 0x3005000C 28 2 = 0 then 2500 else mv
         let xs := (samples.getD k []).map fun x =>
           sampleCode (s.fld (lvReg k 0) 0 5) (s.fld (lvReg k 0) 5 3) ref x.1 x.2
         let mean := (xs.map fun x => x.1).sum / (xs.length : Int)
         let ovr := xs.any fun x => x.2
         (s.lvOutside k mean ovr = false → exec (.louvre (mv, samples)) s = .next { s with pwr := { s.pwr with
            lvRes := SMap.set (fun _ => 0) s.pwr.lvRes k (wordOf (twosOf 16 mean + 65536 * bitNat ovr)),
            lvCons := SMap.set (fun _ => 0) s.pwr.lvCons k 0,
            lvCount := min 65535 (s.pwr.lvCount + 1), lvStage := 0,
            lvOnUs := min 4095 (140 + s.fld 0x3005000C 16 12 + 20 * xs.length) } }) ∧
         (s.lvOutside k mean ovr = true → s.pwr.wakeEn.getLsbD 3 = true →
            s.fld (lvReg k 0) 10 2 ≤ (SMap.get (fun _ => 0) s.pwr.lvCons k : Nat) →
            ∃ n : State, exec (.louvre (mv, samples)) s = .next n ∧ n.pwr.phase = .restoring ∧ n.pwr.wakeSrc = 8#6 ∧
              n.pwr.lvEntry = k ∧ n.pwr.lvCount = min 65535 (s.pwr.lvCount + 1) ∧
              n = { s with pwr := n.pwr }))))

/-- O51. A loss of VAO while VCOIN is there enters Shuttered from any state but Off: every domain is off, every shutter
closed, the cause set beside the earlier ones, the time kept, and the RTC goes on. VAO coming back in Shuttered is
source RAIL: with RESET_N high the boot runs, and with it low only the supply and the source change. With both
supplies absent the part is Off with every register, AO included, at its reset value, and only flash keeps what it
holds. Power-up from Off turns every domain on behind closed shutters. Out of place each does nothing. -/
def Obligations.SupplyRows : Prop :=
  ∀ s : State,
    (s.pwr.vao = false ∨ s.pwr.st = .off → exec .vaoLoss s = .next s) ∧
    (s.pwr.vao = true → s.pwr.st ≠ .off → ∃ n : State, exec .vaoLoss s = .next n ∧ n.pwr.st = .shuttered ∧
      n.pwr.domOn = 0 ∧ n.pwr.domReady = 0 ∧ n.pwr.closed = 0x3F ∧ n.pwr.vao = false ∧
      n.sys.resetCause = s.sys.resetCause ||| 16#5 ∧ n.pwr.shutSec = BitVec.ofNat 32 s.sys.rtcSec ∧
      n.sys.rtcSec = s.sys.rtcSec ∧ n.sys.rtcSub = s.sys.rtcSub ∧ n.sys.bootDone = false ∧
      (∀ t, n.door t = if t = 0 then .opened else .shut) ∧
      (s.flash.prog = none → (∀ e ∈ s.flash.erases, e.pulses = 0) → n.flash.words = s.flash.words)) ∧
    (s.pwr.st = .shuttered → s.pwr.vao = false →
      (s.sys.resetN = false → exec .vaoReconnect s = .next { s with pwr := { s.pwr with
        vao := true, wakeSrc := 32#6, replayed := false } }) ∧
      (s.sys.resetN = true → ∃ n : State, exec .vaoReconnect s = .next n ∧ n.pwr.st = .opened ∧ n.pwr.vao = true ∧
        n.pwr.wakeSrc = 32#6 ∧ n.pwr.domOn = 0xFFFF ∧ n.sys.sweep = true ∧ n.doors = s.doors ∧ n.regs = s.regs)) ∧
    (s.pwr.st ≠ .shuttered ∨ s.pwr.vao = true → exec .vaoReconnect s = .next s) ∧
    (∃ n : State, exec .bothSuppliesAbsent s = .next n ∧ n.pwr.st = .off ∧ n.pwr.vao = false ∧ n.pwr.vcoin = false ∧
      n.pwr.domOn = 0 ∧ n.sys.rtcSec = State.reset.sys.rtcSec ∧ n.sys.resetCause = State.reset.sys.resetCause ∧
      n.tens = State.reset.tens ∧ n.regs = State.reset.regs ∧ n.tick = State.reset.tick ∧ n.link = State.reset.link ∧
      n.mem = State.reset.mem ∧
      (s.flash.prog = none → (∀ e ∈ s.flash.erases, e.pulses = 0) → n.flash.words = s.flash.words)) ∧
    (s.pwr.st = .off → exec .powerUp s = .next { s with seq := { s.seq with gapDue := true }, pwr := { s.pwr with
      st := .opened, domOn := 0xFFFF, vao := true, vcoin := true, closed := 0x3F } }) ∧
    (s.pwr.st ≠ .off → exec .powerUp s = .next s)

/-- O52. When the keeper reaches SEQ_CTRL: GO_UP while a sequence runs, and GO_DOWN while a down sequence runs, set REJ
alone. GO_UP with no step to take is complete at once, with UP_DONE, RESULT 1 and EV252, and otherwise waits for the
DLY of its first step with no enable changed. GO_DOWN clears UP_DONE, whose shutters of DP and LC close, before any
enable changes. When a DLY of an up step has passed the enables of its rails go high, and it waits for the power-good
of those that watch one. Power-goods that rise outside a sequence end the waits on them. The watched rails that fall in
one cycle are all recorded, and the strongest of their actions is applied: with REPORT alone nothing else changes, with
RAIL_OFF the enables of the rails of that ACTION go low, and DOWN_ALL clears UP_DONE. A rail that times out on an up step
faults with kind 2 and EV253, and with ACTION 1 its enable goes low and the up sequence ends FAULTED. Held pads, and a
timeout before the inputs have been read anew, change nothing. SEQ_MAN moves the enables of the manual rails and no
others. -/
def Obligations.SequencerRows : Prop :=
  ∀ s : State,
    (s.cfgReach 0 0x30060000 true = true →
      (s.seq.st ≠ 0 → exec .goUp s = .next { s with seq := { s.seq with rej := true } }) ∧
      (2 ≤ s.seq.st → exec .goDown s = .next { s with seq := { s.seq with rej := true } }) ∧
      (s.seq.st = 0 →
        (s.nextStep true 0 = none → exec .goUp s = .next ({ s with seq := { s.seq with
          st := 0, wait := 0, dlyRun := false, upDone := true, result := 1 } }.raise 252 .granted
            (wordOf (1 + 256 * s.seq.step)))) ∧
        (∀ k, s.nextStep true 0 = some k → (s.stepRails true k).any (fun n => s.railDly n != 0) = true →
          exec .goUp s = .next { s with seq := { s.seq with st := 1, step := k, dlyRun := true, wait := 0 } })) ∧
      (s.seq.st ≤ 1 → ∃ n : State, exec .goDown s = .next n ∧ n.seq.upDone = false ∧
        (s.seq.upDone = true → n.pwr.closed = s.pwr.closed ||| 0x0C) ∧ (s.seq.upDone = false → n.pwr = s.pwr) ∧
        (∀ k, s.nextStep false 0 = some k → (s.stepRails false k).any (fun n => s.railDly n != 0) = true →
          n.seq.st = 2 ∧ n.seq.step = k ∧ n.seq.en = s.seq.en ∧ n.seq.dlyRun = true) ∧
        (s.seq.st = 1 → n.seq.result = 3) ∧ n.doors = s.doors ∧ n.regs = s.regs)) ∧
    (s.up 13 = false ∨ s.seq.st = 0 ∨ s.seq.dlyRun = false → exec .seqStepDelayEnd s = .next s) ∧
    (s.up 13 = true → s.seq.st = 1 → s.seq.dlyRun = true →
      (let on := (s.stepRails true s.seq.step).filter fun n => !s.seq.en.getLsbD n
       let w := railSet (on.filter fun n => s.railPg n && !s.seq.pg.getLsbD n)
       w ≠ 0 → exec .seqStepDelayEnd s = .next { s with seq := { s.seq with
        dlyRun := false, en := s.seq.en ||| railSet on, wait := w } })) ∧
    (s.up 13 = false ∨ (s.genHeld 13 = true ∧ s.seq.reread = false) → ∀ pg late, exec (.seqPgChange pg late) s = .next s) ∧
    (s.up 13 = true → s.genHeld 13 = false → s.seq.reread = false → s.seq.st = 0 →
      (∀ pg, pg &&& s.seq.pg = s.seq.pg → exec (.seqPgChange pg 0) s = .next { s with seq := { s.seq with
        pg := pg, manWait := s.seq.manWait &&& ~~~pg, wait := s.seq.wait &&& ~~~pg } }) ∧
      (∀ f : BitVec 24, f ≠ 0 → s.seq.wait = 0 →
        (∀ i, i < 24 → f.getLsbD i = true → s.seq.pg.getLsbD i = true ∧ s.seq.en.getLsbD i = true ∧
          s.railPg i = true ∧ s.seq.manWait.getLsbD i = false) →
        ∃ n : State, exec (.seqPgChange (s.seq.pg &&& ~~~f) 0) s = .next n ∧ n.seq.fault = s.seq.fault ||| f ∧
          ((∀ i, i < 24 → f.getLsbD i = true → s.railAct i ≠ 1 ∧ s.railAct i ≠ 2) →
            n.seq.en = s.seq.en ∧ n.seq.pg = s.seq.pg &&& ~~~f ∧ n.pwr = s.pwr) ∧
          ((∀ i, i < 24 → f.getLsbD i = true → s.railAct i ≠ 2) →
            ∀ i, i < 24 → n.seq.en.getLsbD i = (s.seq.en.getLsbD i && !(f.getLsbD i && s.railAct i == 1))) ∧
          ((∃ i, i < 24 ∧ f.getLsbD i = true ∧ s.railAct i = 2) →
            n.seq.upDone = false ∧ n.seq.result = s.seq.result))) ∧
    (s.up 13 = false ∨ s.seq.reread = true → ∀ late, exec (.pgTimeout late) s = .next s) ∧
    (s.up 13 = true → s.seq.reread = false →
      (∀ late, s.seq.st = 0 → late &&& (s.seq.wait ||| s.seq.manWait) = 0 → exec (.pgTimeout late) s = .next { s with
        seq := { s.seq with manWait := s.seq.manWait &&& ~~~s.seq.pg, wait := s.seq.wait &&& ~~~s.seq.pg } }) ∧
      (∀ i : Fin 24, s.seq.wait = railSet [i.val] → s.seq.pg.getLsbD i.val = false → s.seq.st = 1 → s.railAct i.val = 1 →
        s.railManual i.val = false → s.seq.upDone = false → ∃ r : State, r = { s with seq := { s.seq with
          fault := s.seq.fault ||| railSet [i.val] } }.raise 253 .granted (wordOf (i.val + 256 * 2 + 4096 * 1)) ∧
        exec (.pgTimeout (railSet [i.val])) s = .next { r with seq := { s.seq with
          fault := s.seq.fault ||| railSet [i.val], wait := 0,
          manWait := s.seq.manWait &&& ~~~s.seq.pg &&& ~~~railSet [i.val],
          en := s.seq.en &&& ~~~railSet [i.val], result := 2, st := 0, dlyRun := false } })) ∧
    (s.cfgReach 0 0x30060014 true = true → ∀ v : Word,
      (2 ≤ s.seq.st → exec (.seqManWrite v) s = .next { s with seq := { s.seq with rej := true } }) ∧
      (s.seq.st ≤ 1 → ∃ n : State, exec (.seqManWrite v) s = .next n ∧
        (∀ i, i < 24 → n.seq.en.getLsbD i = if s.railManual i then v.bit i else s.seq.en.getLsbD i) ∧
        n.seq.man = v.setWidth 24 ∧ n = { s with seq := { s.seq with
          man := n.seq.man, en := n.seq.en, manWait := n.seq.manWait } }))

/-- O53. When the keeper reaches the battery registers: a write of BAT_Q makes the charge that value in mC, when it fits
the 48-bit accumulator, and otherwise an open value; nothing else changes. GO starts a coin measurement while VAO is
there and sets SKIP without it, and a running one goes on. The period does the same unless PERIOD_H is 0. The end of a
measurement keeps its voltage, and below MIN raises EV255; with none running it does nothing. -/
def Obligations.BatteryRows : Prop :=
  ∀ s : State,
    (s.cfgReach 0 0x30060218 true = true → ∀ v : Word,
      (let q : Int := signedOf 32 v.toNat * 1000000
       (-(2 ^ 47 : Int) ≤ q → q < 2 ^ 47 → exec (.batQWrite v) s = .next { s with seq := { s.seq with batAcc := q } }) ∧
       (q < -(2 ^ 47 : Int) ∨ (2 ^ 47 : Int) ≤ q → ∃ n : State, exec (.batQWrite v) s = .next n ∧
        -(2 ^ 47 : Int) ≤ n.seq.batAcc ∧ n.seq.batAcc < 2 ^ 47 ∧
        n = { s with seq := { s.seq with batAcc := n.seq.batAcc }, free := n.free }))) ∧
    (s.cfgReach 0 0x30060230 true = true → s.up 13 = true → ∃ n : State, exec .coinGo s = .next n ∧
      (s.seq.coinBusy = true → n.seq = s.seq) ∧
      (s.seq.coinBusy = false → s.pwr.vao = true → n.seq = { s.seq with coinBusy := true, coinSkip := false }) ∧
      (s.seq.coinBusy = false → s.pwr.vao = false → n.seq = { s.seq with coinSkip := true }) ∧
      (∀ a, a ≠ 0x30060230 → n.reg a = s.reg a) ∧ (∀ t, n.door t = s.door t)) ∧
    (s.fld 0x30060230 8 8 = 0 ∨ s.up 13 = false ∨ s.seq.coinBusy = true → exec .coinPeriod s = .next s) ∧
    (s.fld 0x30060230 8 8 ≠ 0 → s.up 13 = true → s.seq.coinBusy = false →
      (s.pwr.vao = true → exec .coinPeriod s = .next { s with seq := { s.seq with coinBusy := true, coinSkip := false } }) ∧
      (s.pwr.vao = false → exec .coinPeriod s = .next { s with seq := { s.seq with coinSkip := true } })) ∧
    (∀ mv, mv < 8192 →
      (s.up 13 = false ∨ s.seq.coinBusy = false → exec (.coinMeasureEnd mv) s = .next s) ∧
      (s.up 13 = true → s.seq.coinBusy = true →
        (s.fld 0x30060230 16 16 ≤ mv → exec (.coinMeasureEnd mv) s = .next { s with seq := { s.seq with
          coinBusy := false, coinMv := mv, coinLow := false } }) ∧
        (mv < s.fld 0x30060230 16 16 → exec (.coinMeasureEnd mv) s = .next ({ s with seq := { s.seq with
          coinBusy := false, coinMv := mv, coinLow := true } }.raise 255 .granted (wordOf mv)))))

/-- O54. A switching period moves the time of the channel's dimming period and of its fades on by P, whether the channel
works or not: a fade whose time has passed ends at its target, and a linear one stands at its level in proportion. A
channel that is not live, and one outside its on-window, drives neither output and keeps its duty word. In a live period
inside the on-window, with no over-current and no bad pad, the on-time is the duty word in ns, at most the largest
on-time, from 60 ns up; below that the owed time grows by it and a pulse of 60 ns is made when it reaches 60; then the
duty word moves by the gains times the error, held between 0 and 16 times the largest on-time. The sixteenth
over-current period in a row sets OC and stops the channel. A dimming period takes SHOWN and sets its on-periods: 0,
all, or in proportion and at least 8. A write of TARGET by the owner of a channel that follows no engine starts a fade
from the present OUT, over the time of its direction, or moves OUT at once with a time of 0; the same level starts none.
At a fade's end OUT is TARGET, with EV180 under FADE_EV; of a fade of OUT and one of PF the one with less time left ends.
A write of LCn_FAULT clears the bits written 1; when the last FAULT bit goes the channel restarts with d and PF at 0,
and PF fades to 4,096 while bank LC is released. A self-test of the channel holds a write. -/
def Obligations.LampRows : Prop :=
  ∀ (s : State) (k : Fin 16),
    (let l := s.lamp k.val
     let want := min (s.lampMax k.val) (l.duty / 16)
     let step := s.lampP k.val
     ∀ (i v d : Nat) (oc : Bool) (pb : BitVec 2), i ≤ 4095 → v < 65536 → d ≤ 3300 →
      (s.up 9 = false → exec (.switchingPeriod k i oc pb v d) s = .next s) ∧
      (s.up 9 = true → ∃ n : State, exec (.switchingPeriod k i oc pb v d) s = .next n ∧
        (let m := n.lamp k.val
         m.perDone = l.perDone + 1 ∧ m.target = l.target ∧ (∀ j, j ≠ k.val → n.lamp j = s.lamp j) ∧
         n.regs = s.regs ∧ n.engines = s.engines ∧ (l.fade = none → m.fade = none ∧ m.out = l.out) ∧
         (l.pfFade = none → m.pfFade = none ∧ m.pf = l.pf) ∧
         (∀ f, l.fade = some f →
          (f.tot ≤ f.el + step → m.fade = none ∧ m.out = l.target) ∧
          (f.el + step < f.tot → m.fade = some { f with el := f.el + step } ∧
            (f.cie = false → m.out = min 4095
              ((f.a : Int) + ((f.b : Int) - f.a) * ((f.el + step) / 1000 : Nat) / (f.tot / 1000 : Nat)).toNat))) ∧
         (∀ f, l.pfFade = some f →
          (f.tot ≤ f.el + step → m.pfFade = none ∧ m.pf = f.b) ∧
          (f.el + step < f.tot → m.pfFade = some { f with el := f.el + step })) ∧
         (s.lampLive k.val = false ∨ (l.onNow = false ∧ pb = 0) →
          m.tOn = 0 ∧ m.ocCnt = 0 ∧ m.pinCnt = 0 ∧ m.duty = l.duty ∧ m.ePrev = l.ePrev ∧ m.fault = l.fault) ∧
         (s.lampLive k.val = true → l.onNow = true → pb = 0 →
          (oc = false →
            (60 ≤ want → m.tOn = want ∧ m.owed = 0 ∧ m.skip = false) ∧
            (want < 60 → m.skip = true ∧
              (60 ≤ l.owed + want → m.tOn = 60 ∧ m.owed = l.owed + want - 60) ∧
              (l.owed + want < 60 → m.tOn = 0 ∧ m.owed = l.owed + want)) ∧
            (let e : Int := (max 41 l.ieff : Int) - i
             let g : Int := ((s.fld (lampReg k.val 8) 0 8 : Int) * (e - l.ePrev) +
               (s.fld (lampReg k.val 8) 8 8 : Int) * e) / 64
             m.ePrev = e ∧ (m.duty : Int) = min (max ((l.duty : Int) + g) 0) (16 * (s.lampMax k.val : Int))) ∧
            m.fault = l.fault) ∧
          (oc = true → 60 ≤ want → l.ocCnt = 15 → m.fault = l.fault ||| 8#5 ∧ m.tOn = 0 ∧ m.pins = l.pins)) ∧
         (l.fade = none → l.pfFade = none → s.lampLive k.val = false ∨ (oc = false ∧ pb = 0) →
          n = { s with lamps := n.lamps })))) ∧
    (let per := s.fld (lampReg k.val 0x18) 0 16
     (s.up 9 = false → exec (.dimmingPeriod k) s = .next s) ∧
     (s.up 9 = true → ∃ n : State, exec (.dimmingPeriod k) s = .next n ∧
        (let shown := (s.lamp k.val).out * (s.lamp k.val).pf / 4096
         n.lamp k.val = { s.lamp k.val with perDone := 0, onN :=
          if shown = 0 then 0 else if shown = 4095 then per else max 8 (shown * per / 4095) }) ∧
        (∀ m, m ≠ k.val → n.lamp m = s.lamp m) ∧ n = { s with lamps := n.lamps })) ∧
    (s.cfgReach (s.owner 1 k.val) (lampReg k.val 0x10) true = true → ∀ v : Word,
      (let l := s.lamp k.val
       let t := v.toNat % 4096
       let ms := if l.out < t then s.fld (lampReg k.val 0x14) 0 16 else s.fld (lampReg k.val 0x14) 16 16
       (s.testUnit 6 = some k.val → exec (.targetWrite k v) s = .next { s with
          waiting := s.waiting ++ [.regWrite (s.owner 1 k.val) (lampReg k.val 0x10) v 0xF#4] }) ∧
       (s.testUnit 6 ≠ some k.val → s.follows k.val = none →
         (t = l.target → exec (.targetWrite k v) s = .next (s.updLamp k.val fun l => { l with own := t })) ∧
         (t ≠ l.target → ms ≠ 0 → exec (.targetWrite k v) s = .next (s.updLamp k.val fun l => { l with
            own := t, target := t, fade := some ⟨l.out, t, 0, ms * 1000000, s.rbit (lampReg k.val 0) 6⟩ })) ∧
         (t ≠ l.target → ms = 0 → exec (.targetWrite k v) s = .next
            (let r := s.updLamp k.val fun l => { l with own := t, target := t, out := t, fade := none }
             if s.rbit (lampReg k.val 0) 7 then r.raise 180 (.res 1 k.val) (wordOf (k.val + t * 65536)) else r))))) ∧
    ((s.lamp k.val).fade = none → (s.lamp k.val).pfFade = none → exec (.fadeEnd k) s = .next s) ∧
    (∀ f, (s.lamp k.val).fade = some f → (∀ g, (s.lamp k.val).pfFade = some g → f.tot - f.el ≤ g.tot - g.el) →
      (let r := s.updLamp k.val fun l => { l with out := l.target, fade := none }
       exec (.fadeEnd k) s = .next (if s.rbit (lampReg k.val 0) 7 then
        r.raise 180 (.res 1 k.val) (wordOf (k.val + (s.lamp k.val).target * 65536)) else r))) ∧
    (∀ g, (s.lamp k.val).pfFade = some g → (∀ f, (s.lamp k.val).fade = some f → g.tot - g.el < f.tot - f.el) →
      exec (.fadeEnd k) s = .next (s.updLamp k.val fun l => { l with pf := g.b, pfFade := none })) ∧
    (s.cfgReach (s.owner 1 k.val) (lampReg k.val 0x34) true = true → s.testUnit 6 ≠ some k.val → ∀ v : Word,
      (let l := s.lamp k.val
       let f := l.fault &&& ~~~BitVec.ofNat 5 v.toNat
       let p := l.pins &&& ~~~BitVec.ofNat 3 (v.toNat / 256)
       let ms := s.fld (lampReg k.val 0x14) 0 16
       (l.fault = 0 ∨ f ≠ 0 → exec (.lampFaultClear k v) s = .next (s.updLamp k.val fun l => { l with
          fault := f, pins := p })) ∧
       (l.fault ≠ 0 → f = 0 → ∃ n : State, exec (.lampFaultClear k v) s = .next n ∧
          n.lamp k.val = { l with
            fault := 0, pins := p, duty := 0, ePrev := 0, owed := 0, tOn := 0, ocCnt := 0, pinCnt := 0, openCnt := 0,
            shortCnt := 0, ledkCnt := 0, allMax := true, anyPer := false,
            pf := if s.shut 3 = false ∧ ms = 0 then 4096 else 0,
            pfFade := if s.shut 3 = false ∧ ms ≠ 0 then
              some ⟨0, 4096, 0, ms * 1000000, s.rbit (lampReg k.val 0) 6⟩ else none } ∧
          (∀ m, m ≠ k.val → n.lamp m = s.lamp m) ∧ n = { s with lamps := n.lamps })))

/-- O55. RUN by the engine's owner clears LC and starts the engine at START; a stop keeps its step and lanes. A step row
executes nothing unless the engine runs at a step of its operation. RAMP gives each selected lane the step's level,
time and curve; ROTATE moves the levels of the selected lanes one place, up or down; both go on to the next step and,
with WAIT and a time, after that time. HOLD waits its time. LOOP with COUNT 0 always goes to its step; otherwise LC is
loaded with COUNT when it is 0 and counted down, and the engine goes to the step while LC is not 0. EVENT raises EV176
+ k with kind 2, END stops with kind 1, and an operation that is not listed stops with ERROR and kind 3. A step
without time that would be the 32nd in a row stops the engine with ERROR. No step of one engine changes another. -/
def Obligations.EngineRows : Prop :=
  ∀ (s : State) (k : Fin 4),
    (s.cfgReach (s.owner 2 k.val) (peReg k.val 0) true = true →
      (∀ start : Fin 32, exec (.engineRun k start) s = .next (s.updEngine k.val fun e => { e with
        start := start.val, st := 1, pc := start.val, lc := 0, left := 0, quick := 0 })) ∧
      (∃ n : State, exec (.engineStop k) s = .next n ∧ (n.engine k.val).st = 0 ∧ (n.engine k.val).pc = (s.engine k.val).pc ∧
        (n.engine k.val).lanes = (s.engine k.val).lanes ∧ (n.engine k.val).lc = (s.engine k.val).lc ∧
        ((s.engine k.val).start < 32 → (n.engine k.val).start = (s.engine k.val).start) ∧
        (∀ m, m ≠ k.val → n.engine m = s.engine m) ∧ n = { s with engines := n.engines })) ∧
    (∀ (c : Instr) (op : Nat), (c, op) ∈ [(Instr.peEnd k, 0), (.ramp k, 1), (.rotate k, 2), (.hold k, 3), (.loop k, 4), (.event k, 5)] →
      s.stepOp k.val ≠ some op → exec c s = .next s) ∧
    (let e := s.engine k.val
     let w := s.stepWord k.val
     let ms := w.toNat / 4096 % 1024 * 10
     let lanes := (List.range 4).filter fun j => w.getLsbD (24 + j)
     (s.stepOp k.val = some 0 → exec (.peEnd k) s = .next ((s.updEngine k.val fun e => { e with st := 0 }).raise (176 + k.val)
        (.res 2 k.val) (wordOf (1 + e.pc * 256)))) ∧
     (s.stepOp k.val = some 1 → (w.getLsbD 22 = true ∧ ms ≠ 0 ∨ e.quick < 31) → ∃ n : State, exec (.ramp k) s = .next n ∧
        (∀ j, j < 4 → n.lane k.val j = if w.getLsbD (24 + j) then ⟨w.toNat % 4096, ms, w.getLsbD 23⟩ else s.lane k.val j) ∧
        (n.engine k.val).pc = (e.pc + 1) % 32 ∧ (n.engine k.val).left = (if w.getLsbD 22 then ms else 0) ∧
        (n.engine k.val).st = e.st ∧ (∀ m, m ≠ k.val → n.engine m = s.engine m) ∧ n.regs = s.regs ∧ n.doors = s.doors) ∧
     (s.stepOp k.val = some 2 → (w.getLsbD 22 = true ∧ ms ≠ 0 ∨ e.quick < 31) → ∃ n : State, exec (.rotate k) s = .next n ∧
        (∀ i, i < lanes.length → n.lane k.val (lanes.getD i 0) =
          ⟨(s.lane k.val (lanes.getD ((if w.getLsbD 0 then i + 1 else i + lanes.length - 1) % lanes.length) 0)).level, ms,
            w.getLsbD 23⟩) ∧
        (∀ j, j ∉ lanes → n.lane k.val j = s.lane k.val j) ∧ (n.engine k.val).pc = (e.pc + 1) % 32 ∧
        (n.engine k.val).st = e.st ∧ (∀ m, m ≠ k.val → n.engine m = s.engine m) ∧ n.regs = s.regs ∧ n.doors = s.doors) ∧
     (s.stepOp k.val = some 3 →
        (ms ≠ 0 → exec (.hold k) s = .next (s.updEngine k.val fun e => { e with
          pc := (e.pc + 1) % 32, left := ms, quick := 0 })) ∧
        (ms = 0 → e.quick < 31 → exec (.hold k) s = .next (s.updEngine k.val fun e => { e with
          pc := (e.pc + 1) % 32, left := 0, quick := e.quick + 1 })) ∧
        (ms = 0 → 31 ≤ e.quick → exec (.hold k) s = .next ((s.updEngine k.val fun e => { e with st := 3 }).raise (176 + k.val)
          (.res 2 k.val) (wordOf (3 + e.pc * 256))))) ∧
     (s.stepOp k.val = some 4 → e.quick < 31 →
        (let c := w.toNat / 32 % 128
         let lc := (if e.lc = 0 then c else e.lc) - 1
         (c = 0 → exec (.loop k) s = .next (s.updEngine k.val fun e => { e with
          pc := w.toNat % 32, left := 0, quick := e.quick + 1 })) ∧
         (c ≠ 0 → exec (.loop k) s = .next (s.updEngine k.val fun e => { e with
          lc := lc, pc := if lc = 0 then (e.pc + 1) % 32 else w.toNat % 32, left := 0, quick := e.quick + 1 })))) ∧
     (s.stepOp k.val = some 5 → e.quick < 31 → exec (.event k) s = .next ((s.raise (176 + k.val) (.res 2 k.val)
        (wordOf (2 + e.pc * 256 + w.toNat % 4096 * 65536))).updEngine k.val fun e => { e with
          pc := (e.pc + 1) % 32, left := 0, quick := e.quick + 1 })) ∧
     (∀ op, s.stepOp k.val = some op → 6 ≤ op → exec (.engineError k) s = .next ((s.updEngine k.val fun e => { e with
        st := 3 }).raise (176 + k.val) (.res 2 k.val) (wordOf (3 + e.pc * 256)))) ∧
     ((∀ op, s.stepOp k.val = some op → op < 6) → exec (.engineError k) s = .next s))

/-- O56. A column step within the self-test of the keys is held, and one of a matrix that is not scanned changes
nothing. One before the last column takes that column's rows, all released while bank KEY is held, into the raw
samples and no other column's; a scanned shelf matrix is active from then on. After the last column of an unambiguous
scan a key whose raw state has differed from its debounced state for DEB_P samples, or DEB_R for a release, changes,
and one read as it is keeps its state with its count at 0. A shelf row seen on the idle matrix makes the next scan
start from column 0 with every key read released. A key held for STUCK_S, counted in cycles of CK_RTC from its press,
is marked with EV188 and EV189 once. A mask written by the key's owner stores MASK, and clears STUCK with EV188; a key
unmasked counts its stuck time from then. A tach edge puts its interval first of the last four and gives RPM from PPR
of them, held at 65,535, and 0 with fewer; silence reads 0. Outside Louvred no fan event comes of either, and the
edges of a held pad are ignored. -/
def Obligations.KeyAndFanRows : Prop :=
  ∀ s : State,
    (∀ (kp : Bool) (c : Fin 16) (rows : BitVec 16), (kp = true → c.val < 8) → s.testing 7 = true →
      exec (.keyColumnStep kp c rows) s = .next { s with waiting := s.waiting ++ [.column kp c.val rows] }) ∧
    (∀ (kp : Bool) (c : Fin 16) (rows : BitVec 16), (kp = true → c.val < 8) → s.testing 7 = false →
      (s.scanOn kp c.val = false → exec (.keyColumnStep kp c rows) s = .next s) ∧
      (s.scanOn kp c.val = true →
        (c.val + 1 < colsOf kp → ∃ n : State, exec (.keyColumnStep kp c rows) s = .next n ∧
          (∀ i, i < 320 → n.keys.raw.getLsbD i =
            if keyAt kp c.val 0 ≤ i ∧ i < keyAt kp c.val 0 + rowsOf kp then
              !s.shut 4 && rows.getLsbD (i - keyAt kp c.val 0)
            else s.keys.raw.getLsbD i) ∧
          n.keys.active = (s.keys.active || !kp) ∧ n.keys.keys = s.keys.keys ∧ n = { s with keys := n.keys }) ∧
        (c.val + 1 = colsOf kp → s.Awake →
          (let raw := rawColumn s.keys.raw kp c.val (if s.shut 4 then 0 else rows)
           Keys.ghostsOf { s.keys with raw := raw } kp = [] → ∃ n : State, exec (.keyColumnStep kp c rows) s = .next n ∧
            (∀ x, x ∈ keysOf kp →
              (raw.getLsbD x = (s.key x).down → (n.key x).down = (s.key x).down ∧ (n.key x).count = 0) ∧
              (raw.getLsbD x = true → (s.key x).down = false →
                (n.key x).down = decide ((s.key x).count + 1 = s.fld (keyCfg x) 4 4)) ∧
              (raw.getLsbD x = false → (s.key x).down = true →
                (n.key x).down = !decide ((s.key x).count + 1 = s.fld (keyCfg x) 8 4))) ∧
            (∀ x, x ∉ keysOf kp → n.key x = s.key x) ∧ n.keys.raw = raw ∧ n.regs = s.regs ∧ n.pwr = s.pwr)))) ∧
    (s.up 11 = true → s.keys.active = false → ∃ n : State, exec .shelfRowDetect s = .next n ∧ n.keys.wakeScan = true ∧
      (∀ i, i < 320 → n.keys.raw.getLsbD i = (decide (256 ≤ i) && s.keys.raw.getLsbD i)) ∧
      n.keys.keys = s.keys.keys ∧ n = { s with keys := n.keys }) ∧
    (s.up 11 = false ∨ s.keys.active = true → exec .shelfRowDetect s = .next s) ∧
    (∀ (k : Fin 320) (more : Nat),
      (s.up 11 = true → s.keyHeld k.val = true → (s.key k.val).stuck = false →
        32768 * s.fld 0x30090004 0 12 ≤ s.keys.cyc - (s.key k.val).since + more →
        exec (.keyStuck (k, more)) s = .next (((s.updKey k.val fun q => { q with stuck := true }).raise 188 (.res 3 k.val)
          (wordOf (k.val + 65536))).raise 189 .granted (wordOf (k.val + 65536 * s.owner 3 k.val)))) ∧
      (s.up 11 = false ∨ s.keyHeld k.val = false ∨ (s.key k.val).stuck = true ∨
        s.keys.cyc - (s.key k.val).since + more < 32768 * s.fld 0x30090004 0 12 → exec (.keyStuck (k, more)) s = .next s) ∧
      (s.cfgReach (s.owner 3 k.val) (keyCfg k.val) true = true → s.testing 7 = false → ∀ v : Word, 1 ≤ v.toNat / 16 % 16 → 1 ≤ v.toNat / 256 % 16 →
        1 ≤ v.toNat / 65536 % 256 → 1 ≤ v.toNat / 16777216 → ∃ n : State, exec (.keyMaskWrite k v) s = .next n ∧
          n.keyMasked k.val = v.getLsbD 0 ∧ (∀ a, a ≠ keyCfg k.val → n.reg a = s.reg a) ∧
          n.key k.val = { s.key k.val with
            stuck := (s.key k.val).stuck && !v.getLsbD 0,
            since := if s.keyMasked k.val && !v.getLsbD 0 then s.keys.cyc else (s.key k.val).since } ∧
          (∀ m, m ≠ k.val → n.key m = s.key m) ∧
          (let m := { s with regs := n.regs, keys := { s.keys with keys := n.keys.keys } }
           n = if v.getLsbD 0 = true ∧ (s.key k.val).stuck = true then m.raise 188 (.res 3 k.val) (wordOf k.val)
             else m))) ∧
    (s.genHeld 12 = true → ∀ (k : Fin 8) (us : Nat), exec (.tachEdge k us) s = .next s) ∧
    (s.up 12 = false → ∀ k : Fin 8, exec (.tachSilence k) s = .next s) ∧
    (s.pwr.st ≠ .louvred → ∀ k : Fin 8,
      (s.genHeld 12 = false → ∀ us, ∃ n : State, exec (.tachEdge k us) s = .next n ∧
        (let es := (us :: (s.fan k.val).edges).take 4
         let ppr := s.fld (fanReg k.val 8) 24 2 + 1
         (n.fan k.val).edges = es ∧ (n.fan k.val).silent = false ∧ (n.fan k.val).stall = (s.fan k.val).stall ∧
         (es.length < ppr → (n.fan k.val).rpm = 0) ∧
         (ppr ≤ es.length → 0 < (es.take ppr).sum →
          (n.fan k.val).rpm = min 65535 (60000000 / (es.take ppr).sum))) ∧
        (∀ m, m ≠ k.val → n.fan m = s.fan m) ∧ n = { s with therm := { s.therm with fans := n.therm.fans } }) ∧
      (s.up 12 = true → exec (.tachSilence k) s = .next (s.updFan k.val fun f => { f with silent := true, rpm := 0 })))

/-- O57. A pair that converts nothing, one that is not able, and a conversion with another number of samples give no
result. The last conversion of a sequence writes the channel's result word: the mean of the samples, each the code of
its input at the channel's gain and the reference, at the end of the range beyond it; the over-range flag, SINGLE, the
source and the tick; with INT at 0 it raises nothing for its end. A calibration ages every slice by one period, held at
6, and starts the spare's; without the reference, the block's enable or its power it does nothing. A calibration within
its limits puts the spare into the lane whose slice is oldest and makes that slice the spare; one beyond them retires
the spare with EV235; in a pass over all slices it is that slice's, and the next one follows, or REF_RDY with EV238 1. A
reference selection stores SEL, at 2 for 3, clears REF_RDY and REF_BAD, and the same selection changes nothing. A
settled reference starts the pass that is due, or sets REF_RDY with EV238 1, or REF_BAD with EV238 2 when an external one
is outside 1,000 to 2,700 mV. An injection without GO does nothing; one on a channel that has one, or with four waiting,
only sets REJ; on an idle pair it starts, or waits for slot 0 where it does not fit. -/
def Obligations.ConversionRows : Prop :=
  ∀ s : State,
    (∀ (b : Bool) (xs : List (Int × Int × Int)), 1 ≤ xs.length → xs.length ≤ 128 →
      (s.pairAble b = false ∨ (s.adc.refRdy = false ∧ s.adc.refWait = false) ∨
          (s.injOf b = none ∧ (s.seqOf b).run = none) ∨
          (∃ c, s.injOf b = none ∧ (s.seqOf b).run = some c ∧ xs.length ≠ 2 ^ c.ovs) →
        exec (.conversionEnd b xs) s = .next s) ∧
      (∀ c : Conv, s.pairAble b = true → s.adc.refRdy = true ∨ s.adc.refWait = true → s.injOf b = none →
        (s.seqOf b).run = some c → xs.length = 2 ^ c.ovs →
        c.drop = false → (s.seqOf b).left = [] → s.adc.inj = [] → s.rbit (seqCtrl b) 9 = false →
        ∃ n : State, exec (.conversionEnd b xs) s = .next n ∧ (n.seqOf b).run = none ∧ (n.seqOf b).made = (s.seqOf b).made + 1 ∧
          (n.seqOf b).left = [] ∧
          (let w := (n.chan c.ch).res
           let r : Int := (s.adc.vref * 1000000 : Nat)
           let full : Int := if c.ch < 16 then 32768 else 65536
           let least : Int := if c.ch < 16 then -1 else 0
           let beyond := fun v : Int => decide (r ≤ v * 2 ^ c.gain ∨ v * 2 ^ c.gain < least * r)
           let inside := fun x : Int => min (max x (least * full)) (full - 1)
           let ideal := fun v : Int => inside ((2 * full * (v * 2 ^ c.gain) + r) / (2 * r))
           let code := fun v d : Int => if beyond v then ideal v else inside (ideal v + d)
           let mean := (xs.map fun p => if s.pairDouble b then (code p.1 p.2.1 + code p.1 p.2.2) / 2 else code p.1 p.2.1).sum /
            (xs.length : Int)
           w.toNat % 65536 = twosOf 16 mean % 65536 ∧ w.getLsbD 16 = xs.any (fun p => beyond p.1) ∧
           w.getLsbD 17 = !s.pairDouble b ∧ w.toNat / 2 ^ 20 % 16 = bitNat b ∧ w.toNat / 2 ^ 24 = s.now % 256 ∧
           (n.chan c.ch).ovr = w.getLsbD 16 ∧ (n.chan c.ch).age = 0) ∧
          (∀ m, m ≠ c.ch → n.chan m = s.chan m) ∧ n.regs = s.regs ∧ n.therm = s.therm ∧ n.seqOf (!b) = s.seqOf (!b))) ∧
    (s.up 10 = false ∨ s.rbit 0x300A0000 0 = false ∨ s.adc.refRdy = false ∨ s.adc.calRun = true ∨ s.testing 9 = true →
      exec .calibration s = .next s) ∧
    (s.up 10 = true → s.rbit 0x300A0000 0 = true → s.adc.refRdy = true → s.adc.calRun = false → s.testing 9 = false →
      ∃ n : State, exec .calibration s = .next n ∧ n.adc.calRun = decide (s.adc.spare < 5) ∧
        (∀ i, i < 5 → SMap.get (fun _ => 0) n.adc.calAge i = min 6 (SMap.get (fun _ => 0) s.adc.calAge i + 1)) ∧
        n = { s with adc := { s.adc with calAge := n.adc.calAge, calRun := n.adc.calRun } }) ∧
    (∀ off gain : Int,
      let good := -256 ≤ off ∧ off ≤ 256 ∧ -100 ≤ gain ∧ gain ≤ 100
      (s.up 10 = false ∨ s.rbit 0x300A0000 0 = false ∨ s.testing 9 = true → exec (.sliceSwap off gain) s = .next s) ∧
      (s.up 10 = true → s.rbit 0x300A0000 0 = true → s.testing 9 = false →
        (∀ i, s.adc.calPass = some i → good →
          (let aged := SMap.set (fun _ => 0) s.adc.calAge i 0
           (∀ j, s.adc.nextSlice (i + 1) = some j → exec (.sliceSwap off gain) s = .next { s with adc := { s.adc with
              calAge := aged, calPass := some j } }) ∧
           (s.adc.nextSlice (i + 1) = none → exec (.sliceSwap off gain) s = .next ({ s with adc := { s.adc with
              calAge := aged, refRdy := true, calAll := false, calPass := none } }.raise 238 .granted
                (wordOf (1 + 16 * s.adc.refSel))).pairsGo))) ∧
        (s.adc.calPass = none → s.adc.calRun = false ∨ 5 ≤ s.adc.spare → exec (.sliceSwap off gain) s = .next s) ∧
        (s.adc.calPass = none → s.adc.calRun = true → s.adc.spare < 5 →
          (good → ∃ (n : State) (l : Nat),
            exec (.sliceSwap off gain) s = .next n ∧ l < 4 ∧ n.laneOf l = s.adc.spare ∧ n.adc.spare = s.laneOf l ∧
            (∀ m, m < 4 → m ≠ l → n.laneOf m = s.laneOf m) ∧ n.adc.calRun = false ∧
            (∀ m, m < 4 → SMap.get (fun _ => 0) s.adc.calAge (s.laneOf m) ≤ SMap.get (fun _ => 0) s.adc.calAge (s.laneOf l)) ∧
            SMap.get (fun _ => 0) n.adc.calAge s.adc.spare = 0 ∧ n.adc.retired = s.adc.retired ∧
            n = { s with adc := { s.adc with
              lanes := n.adc.lanes, spare := n.adc.spare, calRun := false, calAge := n.adc.calAge } }) ∧
          (¬good → s.adc.retired.getLsbD s.adc.spare = false →
            ∃ n : State, exec (.sliceSwap off gain) s = .next n ∧ n.adc.retired = s.adc.retired ||| BitVec.ofNat 5 (2 ^ s.adc.spare) ∧
              n.adc.calRun = false ∧ n.regs = s.regs ∧ n.adc.chans = s.adc.chans)))) ∧
    (s.cfgReach 0 0x300A0004 true = true → s.testing 9 = false → ∀ v : Word,
      (v.toNat % 4 = s.adc.refSel → s.adc.refSel < 3 → exec (.refSelect v) s = .next s) ∧
      (v.toNat % 4 < 3 → v.toNat % 4 ≠ s.adc.refSel → exec (.refSelect v) s = .next { s.loosen with adc := { s.loosen.adc with
        refSel := v.toNat % 4, refRdy := false, refBad := false, calAll := true, calPass := none, calRun := false,
        refWait := s.adc.refRdy && (s.pairRuns false || s.pairRuns true) } }) ∧
      (v.toNat % 4 = 3 → ∃ n : State, exec (.refSelect v) s = .next n ∧ n.adc.refSel = 2 ∧
        (n.ten 0).clamps = min 65535 ((s.ten 0).clamps + 1) ∧ (s.adc.refSel = 2 → n.adc = s.adc))) ∧
    (∀ mv, (s.up 10 = false ∨ s.adc.refRdy = true ∨ s.adc.calPass.isSome = true → exec (.refSettled mv) s = .next s) ∧
      (s.up 10 = true → s.adc.refRdy = false → s.adc.calPass = none →
        (let set := { s.adc with refBad := false, refWait := false, vref := if s.adc.refSel = 0 then 2500 else mv }
         (s.adc.refSel = 1 → mv < 1000 ∨ 2700 < mv → exec (.refSettled mv) s = .next ({ s with adc := { s.adc with
            refBad := true, refWait := false } }.raise 238 .granted (wordOf 18))) ∧
         (s.adc.refSel ≠ 1 ∨ (1000 ≤ mv ∧ mv ≤ 2700) →
          (∀ i, s.adc.calAll = true → s.adc.nextSlice 0 = some i →
            exec (.refSettled mv) s = .next { s with adc := { set with calPass := some i } }) ∧
          (s.adc.calAll = false ∨ s.adc.nextSlice 0 = none →
            exec (.refSettled mv) s = .next ({ s with adc := { set with refRdy := true, calAll := false } }.raise 238
              .granted (wordOf (1 + 16 * s.adc.refSel))).pairsGo))))) ∧
    (∀ k : Fin 32, s.cfgReach (s.owner 4 k.val) (adcReg k.val 0x0C) true = true → s.testing 9 = false → ∀ v : Word,
      20 ≤ v.toNat / 32 % 1024 → v.toNat / 32 % 1024 ≤ 1000 →
      (v.getLsbD 0 = false → exec (.inject k v) s = .next s) ∧
      (v.getLsbD 0 = true →
        (let all := s.adc.inj ++ s.adc.injA.toList ++ s.adc.injB.toList
         let b := v.getLsbD 1
         let i : Inj := ⟨k.val, b, v.toNat / 4 % 8, v.toNat / 32 % 1024, v.toNat / 32768 % 8, false, false⟩
         ((∃ i ∈ all, i.ch = k.val) ∨ 4 ≤ all.length →
          exec (.inject k v) s = .next (s.updChan k.val fun c => { c with injRej := true })) ∧
         ((∀ i ∈ all, i.ch ≠ k.val) → all.length < 4 →
          (s.adcReady b = false →
            exec (.inject k v) s = .next { s with adc := { s.adc with inj := s.adc.inj ++ [i] } }) ∧
          (s.adcReady b = true → s.pairRuns b = false → s.injNext b = none → s.entering = false →
            ∃ n : State, exec (.inject k v) s = .next n ∧
              (n.injOf b = some i ∨ { i with late := true } ∈ n.adc.inj))))))

/-- O58. While the TAP works, each instruction takes the instruction register, IDCODE and a TAP reset that of IDCODE,
with the code of the part's stepping read; EXTEST and SAMPLE/PRELOAD take the pads into the boundary-scan register
when they are allowed, and EXTEST under the lock with RESET_N high does not; nothing else of the part changes. Where
the TAP does not work they change nothing. FLASH_ACC under the lock acts as BYPASS while the boot has not halted. With
no read waiting, FLASH_ACC_STATUS reads FLASH_STATUS; a read or write beyond the leaves sets ACC_ERR and changes no
stored word; a read that need not wait returns the word stored. -/
def Obligations.TapRows : Prop :=
  ∀ (s : State) (pins : BitVec 474),
    (s.tapWorks = false → ∀ c ∈ [Instr.tapReset, .extest pins, .samplePreload pins, .idcode, .highz, .clamp, .bypass],
      exec c s = .next s) ∧
    (s.tapWorks = true →
      (∀ (c : Instr) (i : TapIr), (c, i) ∈ [(Instr.tapReset, .idcode), (.highz, .highz), (.clamp, .clamp), (.bypass, .bypass)] →
        exec c s = .next { s with dbg := { s.dbg with ir := i } }) ∧
      exec .idcode s = .next { s with
        dbg := { s.dbg with ir := .idcode }, rdata := if s.part.a0 then 0x009619CB#32 else 0x109619CB#32 } ∧
      exec (.samplePreload pins) s = .next { s with dbg := { s.dbg with ir := .samplePreload, bsr := pins } } ∧
      (s.sys.resetN = false ∨ s.sys.locked = false →
        exec (.extest pins) s = .next { s with dbg := { s.dbg with ir := .extest, bsr := pins } }) ∧
      (s.sys.resetN = true → s.sys.locked = true →
        exec (.extest pins) s = .next { s with dbg := { s.dbg with ir := .extest } })) ∧
    (∀ (a : BitVec 21) (v : Word), ∀ c ∈ [Instr.flashAccWrite a v, .flashAccRead a, .flashAccStatus],
      (s.tapWorks = false → exec c s = .next s) ∧
      (s.tapWorks = true → s.sys.locked = true → s.sys.halted = false →
        exec c s = .next { s with dbg := { s.dbg with ir := .flashAcc } })) ∧
    (s.tapWorks = true → s.sys.locked = false ∨ s.sys.halted = true → s.flash.accBusy = false →
      exec .flashAccStatus s = .next { s with
        dbg := { s.dbg with ir := .flashAcc }, rdata := s.flash.status,
        flash := { s.flash with accData := s.flash.status } } ∧
      (∀ (a : BitVec 21) (v : Word), 0x40000 ≤ a.toNat → ∀ c ∈ [Instr.flashAccWrite a v, .flashAccRead a],
        exec c s = .next { s with dbg := { s.dbg with ir := .flashAcc }, flash := { s.flash with accErr := true } }) ∧
      (∀ a : BitVec 21, a.toNat < 0x40000 → s.flashWaits (a.toNat * 4 / 0x800) = false →
        s.suspect (s.phys (a.toNat * 4 / 0x800)) = false → (s.fword (s.physWord (a.toNat / 2))).bad = 0 → ∃ n : State, exec (.flashAccRead a) s = .next n ∧
          n.rdata = BitVec.ofNat 32 ((s.fword (s.physWord (a.toNat / 2))).data.toNat / 2 ^ (32 * (a.toNat % 2))) ∧
          n.flash.accBusy = false ∧ n.flash.accErr = false ∧ n.flash.words = s.flash.words ∧ n.regs = s.regs) ∧
      (∀ (a : BitVec 21) (v : Word), a.toNat < 0x40000 → s.flash.seqWin = none →
        ¬(a.toNat * 4 % 0x800 = 0x5A8 ∧ v = 0xD47B#32) → exec (.flashAccWrite a v) s = .next { s with
          dbg := { s.dbg with ir := .flashAcc }, flash := { s.flash with accErr := false, seqErr := true } }) ∧
      (∀ a : BitVec 21, a.toNat * 4 % 0x800 = 0x5A8 → a.toNat < 0x40000 → s.flash.seqWin = none →
        exec (.flashAccWrite a 0xD47B#32) s = .next { s with
          dbg := { s.dbg with ir := .flashAcc },
          flash := { s.flash with accErr := false, seqWin := some ⟨a.toNat * 4 / 0x800, 1, 0, 0⟩ } }))

/-- O59. While keeper registers are served: UNLOCK with no keeper key, or within 1 s of the last failure, sets FAIL and
issues no challenge; otherwise it draws one, whose value is open, and clears the words read and written. Reads of the
challenge return its words in turn and nothing else, 0 without one. A response word before the eighth is only kept;
the eighth opens the lock when the words are the MAC of the challenge and UID under the keeper's key, and otherwise
sets FAIL; either way the challenge is spent, and a response with none is a failure. RELOCK locks and stops the
peephole. Under the lock a write of PEEP_CTRL has no effect; without it PEEP_EN and GROUP are stored. A poisoned
core-SRAM word restarts its service with EV68, and a second one of that service resets the part with WDOG set; any
other word does nothing. -/
def Obligations.DebugRows : Prop :=
  ∀ s : State,
    (s.Serves 0 →
      (((s.ten 0).key = none ∨ s.unlockSoon = true) → exec .unlock s = .next { s with
        sys := { s.sys with dbgFail := true },
        dbg := { s.dbg with chal := none, failAt := some s.rtcNow, rdPos := 0, wrPos := 0, resp := [] } }) ∧
      ((s.ten 0).key ≠ none → s.unlockSoon = false → ∃ n : State, exec .unlock s = .next n ∧ (n.dbg.chal.isSome = true) ∧
        n = { s with free := n.free, dbg := { s.dbg with chal := n.dbg.chal, rdPos := 0, wrPos := 0, resp := [] } }) ∧
      (∃ n : State, exec .challengeRead s = .next n ∧
        (s.dbg.chal = none → n.rdata = 0) ∧
        (∀ c, s.dbg.chal = some c → n.rdata = BitVec.ofNat 32 (c.toNat / 2 ^ (32 * s.dbg.rdPos))) ∧
        n = { s with rdata := n.rdata, dbg := { s.dbg with rdPos := (s.dbg.rdPos + 1) % 4 } }) ∧
      (∀ v : Word,
        (s.dbg.chal = none → exec (.challengeResponse v) s = .next { s with
          sys := { s.sys with dbgFail := true },
          dbg := { s.dbg with chal := none, failAt := some s.rtcNow, rdPos := 0, wrPos := 0, resp := [] } }) ∧
        (∀ c, s.dbg.chal = some c →
          (let r := s.dbg.resp ++ leBytes 4 v.toNat
           (s.dbg.wrPos ≠ 7 → exec (.challengeResponse v) s = .next { s with dbg := { s.dbg with
              resp := r, wrPos := s.dbg.wrPos + 1 } }) ∧
           (s.dbg.wrPos = 7 → ∀ key, (s.ten 0).key = some key →
            (r = dbgMac key c → exec (.challengeResponse v) s = .next { s with
              sys := { s.sys with locked := false },
              dbg := { s.dbg with chal := none, rdPos := 0, wrPos := 0, resp := [] } }) ∧
            (r ≠ dbgMac key c → exec (.challengeResponse v) s = .next { s with
              sys := { s.sys with dbgFail := true },
              dbg := { s.dbg with chal := none, failAt := some s.rtcNow, rdPos := 0, wrPos := 0, resp := [] } }))))) ∧
      exec .relock s = .next { s with
        sys := { s.sys with locked := true }, dbg := { s.dbg with peepEn := false } }) ∧
    (s.cfgReach 0 0x300C0000 true = true → ∀ v : Word,
      (s.sys.locked = true → exec (.peepGroupWrite v) s = .next s) ∧
      (s.sys.locked = false → exec (.peepGroupWrite v) s = .next { s with dbg := { s.dbg with
        peepEn := v.getLsbD 0, peepGroup := v.toNat / 256 % 64 } })) ∧
    (∀ a : BitVec 32,
      (let w := a.toNat / 8 * 8
       (sramRegion w ≠ some 0 ∨ s.eccOf w ≠ .poisoned → exec (.serviceRestart a) s = .next s) ∧
       (sramRegion w = some 0 → s.eccOf w = .poisoned →
        ((s.prot.restarts.any fun q => q.1 == (Config.serviceOf w).toNat) = false →
          (∀ r ∈ s.runs, r.st ≠ .working) →
          exec (.serviceRestart a) s = .next ({ s with prot := { s.prot with
            restarts := SMap.set (fun _ => 0) s.prot.restarts (Config.serviceOf w).toNat 1 } }.raise 68 .granted
              (wordOf (Config.serviceOf w).toNat))) ∧
        ((s.prot.restarts.any fun q => q.1 == (Config.serviceOf w).toNat) = true → ∃ n : State,
          exec (.serviceRestart a) s = .next n ∧ n.sys.bootDone = false ∧
          n.sys.resetCause = s.sys.resetCause ||| 8#5 ∧ n.pwr.st = .opened ∧
          (∀ t, n.door t = if t = 0 then .opened else .shut)))))

/-- O60. In every state every command answers a next state, and step with it at the front of the queue does too: no
data, mode, door or power state ends a run. Operands outside the ranges that the spec gives them are no event of the part
(log entry 116, the model's choice), and the state stays: among them a boundary with more than 12 mismatches, a CMD slot
that is not an even slot 4 to 34, three die readings, 17 program pulses, a KP column 8, and a conversion with no
sample. -/
def Obligations.EveryCommandRuns : Prop :=
  (∀ (c : Instr) (s : State), ∃ n : State, exec c s = .next n) ∧
  (∀ (c : Instr) (s : State), c.WellFormed = false → exec c s = .next s) ∧
  (∀ (c : Instr) (q : List Instr) (s : State), s.pending = c :: q → ∃ n : State, s.StepsTo n) ∧
  (∀ c ∈ [Instr.boundary (List.replicate 13 0), .windowEnd (List.replicate 13 0), .cmdSlot 2, .cmdSlot 5, .cmdSlot 36,
      .loopSlot [0, 0, 0], .programEnd 17 true, .keyColumnStep true 8 0, .conversionEnd false [],
      .switchingPeriod 0 4096 false 0 0 0, .coinMeasureEnd 8192, .ledgerRecovery true true 25,
      .louvre (2500, List.replicate 9 [])], c.WellFormed = false)
end

