-- ==== Sys2Proof/Laws/Store.lean ====
section
/-! SUPPORT. Reading after writing in a sparse store, and its canonical form. -/

namespace Sys2Proof.Machine

variable {α : Type} (d : Nat → α)

theorem SMap.get_erase_self (m : SMap α) (k : Nat) : SMap.get d (SMap.erase m k) k = d k := by
  induction m with
  | nil => rfl
  | cons q m ih =>
    obtain ⟨j, v⟩ := q
    by_cases h : j = k <;> simp [SMap.erase, SMap.get, h, ih]

theorem SMap.get_erase_ne (m : SMap α) {k j : Nat} (h : j ≠ k) : SMap.get d (SMap.erase m k) j = SMap.get d m j := by
  induction m with
  | nil => rfl
  | cons q m ih =>
    obtain ⟨i, v⟩ := q
    by_cases hi : i = k
    · simp [SMap.erase, SMap.get, hi, ih, Ne.symm h]
    · simp [SMap.erase, SMap.get, hi, ih]

theorem SMap.get_ins_self (m : SMap α) (k : Nat) (v : α) : SMap.get d (SMap.ins k v (SMap.erase m k)) k = v := by
  induction m with
  | nil => simp [SMap.erase, SMap.ins, SMap.get]
  | cons q m ih =>
    obtain ⟨j, w⟩ := q
    by_cases h : j = k
    · simpa [SMap.erase, h] using ih
    · by_cases hk : k < j <;> simp [SMap.erase, SMap.ins, SMap.get, h, hk, ih]

theorem SMap.get_ins_ne (m : SMap α) {k j : Nat} (v : α) (h : j ≠ k) :
    SMap.get d (SMap.ins k v m) j = SMap.get d m j := by
  induction m with
  | nil => simp [SMap.ins, SMap.get, Ne.symm h]
  | cons q m ih =>
    obtain ⟨i, w⟩ := q
    by_cases hk : k < i
    · simp [SMap.ins, SMap.get, hk, Ne.symm h]
    · simp [SMap.ins, SMap.get, hk, ih]

variable [DecidableEq α]

/-- A write is read back. -/
@[simp] theorem SMap.get_set_self (m : SMap α) (k : Nat) (v : α) : SMap.get d (SMap.set d m k v) k = v := by
  unfold SMap.set
  split
  · rename_i h; rw [SMap.get_erase_self, h]
  · exact SMap.get_ins_self d m k v

/-- A write leaves every other key alone. -/
theorem SMap.get_set_ne (m : SMap α) {k j : Nat} (v : α) (h : j ≠ k) :
    SMap.get d (SMap.set d m k v) j = SMap.get d m j := by
  unfold SMap.set
  split
  · exact SMap.get_erase_ne d m h
  · rw [SMap.get_ins_ne d _ v h, SMap.get_erase_ne d m h]

/-- A write, read at any key. -/
theorem SMap.get_set (m : SMap α) (k j : Nat) (v : α) :
    SMap.get d (SMap.set d m k v) j = if j = k then v else SMap.get d m j := by
  split
  · rename_i h; rw [h, SMap.get_set_self]
  · rename_i h; exact SMap.get_set_ne d m v h

@[simp] theorem SMap.get_upd_self (m : SMap α) (k : Nat) (f : α → α) :
    SMap.get d (SMap.upd d m k f) k = f (SMap.get d m k) := SMap.get_set_self d m k _

theorem SMap.get_upd_ne (m : SMap α) {k j : Nat} (f : α → α) (h : j ≠ k) :
    SMap.get d (SMap.upd d m k f) j = SMap.get d m j := SMap.get_set_ne d m _ h

theorem SMap.get_upd (m : SMap α) (k j : Nat) (f : α → α) :
    SMap.get d (SMap.upd d m k f) j = if j = k then f (SMap.get d m k) else SMap.get d m j := SMap.get_set d m k j _

omit [DecidableEq α] in
/-- A cleared range reads as nothing ever written; the rest stays. -/
theorem SMap.get_clear (m : SMap α) (lo hi k : Nat) :
    SMap.get d (SMap.clear m lo hi) k = if lo ≤ k ∧ k < hi then d k else SMap.get d m k := by
  induction m with
  | nil => simp [SMap.clear, SMap.get]
  | cons q m ih =>
    obtain ⟨j, v⟩ := q
    by_cases hr : j < lo ∨ hi ≤ j
    · have e : SMap.clear ((j, v) :: m) lo hi = (j, v) :: SMap.clear m lo hi := by simp [SMap.clear, hr]
      by_cases hj : j = k
      · have : ¬(lo ≤ k ∧ k < hi) := by omega
        rw [e]; simp [SMap.get, hj, this]
      · simp [e, SMap.get, hj, ih]
    · have e : SMap.clear ((j, v) :: m) lo hi = SMap.clear m lo hi := by simp [SMap.clear, hr]
      by_cases hj : j = k
      · have : lo ≤ k ∧ k < hi := by omega
        rw [e]; simp [ih, this]
      · simp [e, SMap.get, hj, ih]

/-! ## The canonical form -/

omit [DecidableEq α] in
theorem SMap.erase_erase (m : SMap α) (k : Nat) : SMap.erase (SMap.erase m k) k = SMap.erase m k := by
  induction m with
  | nil => rfl
  | cons q m ih =>
    obtain ⟨j, v⟩ := q
    by_cases h : j = k
    · simp [SMap.erase, h, ih]
    · simp [SMap.erase, h, ih]

omit [DecidableEq α] in
theorem SMap.erase_ins (m : SMap α) (k : Nat) (v : α) : SMap.erase (SMap.ins k v (SMap.erase m k)) k = SMap.erase m k := by
  have e := SMap.erase_erase m k
  generalize SMap.erase m k = n at e
  induction n with
  | nil => simp [SMap.ins, SMap.erase]
  | cons q n ih =>
    obtain ⟨j, w⟩ := q
    by_cases hj : j = k
    · have l : (SMap.erase n k).length ≤ n.length := by
        clear ih e
        induction n with
        | nil => simp [SMap.erase]
        | cons q n ih => obtain ⟨i, u⟩ := q; simp only [SMap.erase]; split <;> simp <;> omega
      have : (SMap.erase n k).length = n.length + 1 := by simpa [SMap.erase, hj] using congrArg List.length e
      omega
    · have e' : SMap.erase n k = n := by simpa [SMap.erase, hj] using e
      by_cases hk : k < j
      · simp [SMap.ins, hk, SMap.erase, hj, e']
      · simp [SMap.ins, hk, SMap.erase, hj, ih e']

/-- The last of two writes to a key stays. -/
theorem SMap.set_set (m : SMap α) (k : Nat) (v w : α) : SMap.set d (SMap.set d m k v) k w = SMap.set d m k w := by
  have h : SMap.erase (SMap.set d m k v) k = SMap.erase m k := by
    unfold SMap.set
    split
    · exact SMap.erase_erase m k
    · exact SMap.erase_ins m k v
  simp only [SMap.set] at h ⊢
  rw [h]

theorem SMap.upd_upd (m : SMap α) (k : Nat) (f g : α → α) :
    SMap.upd d (SMap.upd d m k f) k g = SMap.upd d m k (fun x => g (f x)) := by
  unfold SMap.upd
  rw [SMap.get_set_self, SMap.set_set]

omit [DecidableEq α] in
theorem SMap.mem_erase {m : SMap α} {k : Nat} {q : Nat × α} (h : q ∈ SMap.erase m k) : q ∈ m ∧ q.1 ≠ k := by
  induction m with
  | nil => simp [SMap.erase] at h
  | cons p m ih =>
    obtain ⟨j, v⟩ := p
    by_cases hj : j = k
    · simp only [SMap.erase, hj, if_true] at h
      exact ⟨List.mem_cons_of_mem _ (ih h).1, (ih h).2⟩
    · simp only [SMap.erase, hj, if_false, List.mem_cons] at h
      rcases h with h | h
      · subst h; exact ⟨List.mem_cons_self, hj⟩
      · exact ⟨List.mem_cons_of_mem _ (ih h).1, (ih h).2⟩

omit [DecidableEq α] in
theorem SMap.mem_ins {m : SMap α} {k : Nat} {v : α} {q : Nat × α} (h : q ∈ SMap.ins k v m) : q = (k, v) ∨ q ∈ m := by
  induction m with
  | nil => simpa [SMap.ins] using h
  | cons p m ih =>
    obtain ⟨j, w⟩ := p
    by_cases hj : k < j
    · simpa [SMap.ins, hj] using h
    · simp only [SMap.ins, hj, if_false, List.mem_cons] at h ⊢
      rcases h with h | h
      · exact .inr (.inl h)
      · rcases ih h with h | h
        · exact .inl h
        · exact .inr (.inr h)

theorem SMap.wf_erase {m : SMap α} (h : SMap.wf d m = true) (k : Nat) : SMap.wf d (SMap.erase m k) = true := by
  induction m with
  | nil => rfl
  | cons p m ih =>
    obtain ⟨j, v⟩ := p
    simp only [SMap.wf, Bool.and_eq_true, decide_eq_true_eq, List.all_eq_true] at h
    by_cases hj : j = k
    · simpa [SMap.erase, hj] using ih h.2
    · simp only [SMap.erase, hj, if_false, SMap.wf, Bool.and_eq_true, decide_eq_true_eq, List.all_eq_true]
      exact ⟨⟨h.1.1, fun q hq => h.1.2 q (SMap.mem_erase hq).1⟩, ih h.2⟩

theorem SMap.wf_ins {m : SMap α} (h : SMap.wf d m = true) {k : Nat} {v : α} (hv : v ≠ d k) (hk : ∀ q ∈ m, q.1 ≠ k) :
    SMap.wf d (SMap.ins k v m) = true := by
  induction m with
  | nil => simp [SMap.ins, SMap.wf, hv]
  | cons p m ih =>
    obtain ⟨j, w⟩ := p
    simp only [SMap.wf, Bool.and_eq_true, decide_eq_true_eq, List.all_eq_true] at h
    have hjk : j ≠ k := hk (j, w) List.mem_cons_self
    by_cases hj : k < j
    · simp only [SMap.ins, hj, if_true, SMap.wf, Bool.and_eq_true, decide_eq_true_eq, List.all_eq_true, List.mem_cons]
      refine ⟨⟨hv, fun q hq => ?_⟩, h⟩
      rcases hq with hq | hq
      · subst hq; exact hj
      · exact Nat.lt_trans hj (h.1.2 q hq)
    · simp only [SMap.ins, hj, if_false, SMap.wf, Bool.and_eq_true, decide_eq_true_eq, List.all_eq_true]
      refine ⟨⟨h.1.1, fun q hq => ?_⟩, ih h.2 fun q hq => hk q (List.mem_cons_of_mem _ hq)⟩
      rcases SMap.mem_ins hq with hq | hq
      · subst hq; show j < k; omega
      · exact h.1.2 q hq

/-- A write keeps the canonical form. -/
theorem SMap.wf_set {m : SMap α} (h : SMap.wf d m = true) (k : Nat) (v : α) : SMap.wf d (SMap.set d m k v) = true := by
  unfold SMap.set
  split
  · exact SMap.wf_erase d h k
  · rename_i hv
    exact SMap.wf_ins d (SMap.wf_erase d h k) hv fun q hq => (SMap.mem_erase hq).2

/-- Clearing a range keeps the canonical form. -/
theorem SMap.wf_clear {m : SMap α} (h : SMap.wf d m = true) (lo hi : Nat) : SMap.wf d (SMap.clear m lo hi) = true := by
  induction m with
  | nil => rfl
  | cons p m ih =>
    obtain ⟨j, v⟩ := p
    simp only [SMap.wf, Bool.and_eq_true, decide_eq_true_eq, List.all_eq_true] at h
    have ih := ih h.2
    simp only [SMap.clear, List.filter_cons] at ih ⊢
    split
    · simp only [SMap.wf, Bool.and_eq_true, decide_eq_true_eq, List.all_eq_true]
      exact ⟨⟨h.1.1, fun q hq => h.1.2 q (List.mem_of_mem_filter hq)⟩, ih⟩
    · exact ih

end Sys2Proof.Machine
end

