-- ==== Sys2Proof/Laws/State.lean ====
section
/-! SUPPORT. Which fields of State each updater leaves alone, and what it does to its own. One lemma a field. -/

namespace Sys2Proof.Machine

variable (s : State)

/-! ## setDoor -/

@[simp] theorem State.setDoor_pending (t : Nat) (d : DoorSt) : (s.setDoor t d).pending = s.pending := by unfold State.setDoor; split <;> rfl
@[simp] theorem State.setDoor_tens (t : Nat) (d : DoorSt) : (s.setDoor t d).tens = s.tens := by unfold State.setDoor; split <;> rfl
@[simp] theorem State.setDoor_runs (t : Nat) (d : DoorSt) : (s.setDoor t d).runs = s.runs := by unfold State.setDoor; split <;> rfl
@[simp] theorem State.setDoor_portA (t : Nat) (d : DoorSt) : (s.setDoor t d).portA = s.portA := by unfold State.setDoor; split <;> rfl
@[simp] theorem State.setDoor_portB (t : Nat) (d : DoorSt) : (s.setDoor t d).portB = s.portB := by unfold State.setDoor; split <;> rfl
@[simp] theorem State.setDoor_tick (t : Nat) (d : DoorSt) : (s.setDoor t d).tick = s.tick := by unfold State.setDoor; split <;> rfl
@[simp] theorem State.setDoor_grants (t : Nat) (d : DoorSt) : (s.setDoor t d).grants = s.grants := by unfold State.setDoor; split <;> rfl
@[simp] theorem State.setDoor_sys (t : Nat) (d : DoorSt) : (s.setDoor t d).sys = s.sys := by unfold State.setDoor; split <;> rfl
@[simp] theorem State.setDoor_pwr (t : Nat) (d : DoorSt) : (s.setDoor t d).pwr = s.pwr := by unfold State.setDoor; split <;> rfl
@[simp] theorem State.setDoor_seq (t : Nat) (d : DoorSt) : (s.setDoor t d).seq = s.seq := by unfold State.setDoor; split <;> rfl
@[simp] theorem State.setDoor_disp (t : Nat) (d : DoorSt) : (s.setDoor t d).disp = s.disp := by unfold State.setDoor; split <;> rfl
@[simp] theorem State.setDoor_lamps (t : Nat) (d : DoorSt) : (s.setDoor t d).lamps = s.lamps := by unfold State.setDoor; split <;> rfl
@[simp] theorem State.setDoor_engines (t : Nat) (d : DoorSt) : (s.setDoor t d).engines = s.engines := by unfold State.setDoor; split <;> rfl
@[simp] theorem State.setDoor_keys (t : Nat) (d : DoorSt) : (s.setDoor t d).keys = s.keys := by unfold State.setDoor; split <;> rfl
@[simp] theorem State.setDoor_adc (t : Nat) (d : DoorSt) : (s.setDoor t d).adc = s.adc := by unfold State.setDoor; split <;> rfl
@[simp] theorem State.setDoor_therm (t : Nat) (d : DoorSt) : (s.setDoor t d).therm = s.therm := by unfold State.setDoor; split <;> rfl
@[simp] theorem State.setDoor_prot (t : Nat) (d : DoorSt) : (s.setDoor t d).prot = s.prot := by unfold State.setDoor; split <;> rfl
@[simp] theorem State.setDoor_flash (t : Nat) (d : DoorSt) : (s.setDoor t d).flash = s.flash := by unfold State.setDoor; split <;> rfl
@[simp] theorem State.setDoor_link (t : Nat) (d : DoorSt) : (s.setDoor t d).link = s.link := by unfold State.setDoor; split <;> rfl
@[simp] theorem State.setDoor_tests (t : Nat) (d : DoorSt) : (s.setDoor t d).tests = s.tests := by unfold State.setDoor; split <;> rfl
@[simp] theorem State.setDoor_dbg (t : Nat) (d : DoorSt) : (s.setDoor t d).dbg = s.dbg := by unfold State.setDoor; split <;> rfl
@[simp] theorem State.setDoor_held (t : Nat) (d : DoorSt) : (s.setDoor t d).held = s.held := by unfold State.setDoor; split <;> rfl
@[simp] theorem State.setDoor_after (t : Nat) (d : DoorSt) : (s.setDoor t d).after = s.after := by unfold State.setDoor; split <;> rfl
@[simp] theorem State.setDoor_keyStage (t : Nat) (d : DoorSt) : (s.setDoor t d).keyStage = s.keyStage := by unfold State.setDoor; split <;> rfl
@[simp] theorem State.setDoor_secTen (t : Nat) (d : DoorSt) : (s.setDoor t d).secTen = s.secTen := by unfold State.setDoor; split <;> rfl
@[simp] theorem State.setDoor_nextRun (t : Nat) (d : DoorSt) : (s.setDoor t d).nextRun = s.nextRun := by unfold State.setDoor; split <;> rfl
@[simp] theorem State.setDoor_waiting (t : Nat) (d : DoorSt) : (s.setDoor t d).waiting = s.waiting := by unfold State.setDoor; split <;> rfl
@[simp] theorem State.setDoor_part (t : Nat) (d : DoorSt) : (s.setDoor t d).part = s.part := by unfold State.setDoor; split <;> rfl
@[simp] theorem State.setDoor_regs (t : Nat) (d : DoorSt) : (s.setDoor t d).regs = s.regs := by unfold State.setDoor; split <;> rfl
@[simp] theorem State.setDoor_mem (t : Nat) (d : DoorSt) : (s.setDoor t d).mem = s.mem := by unfold State.setDoor; split <;> rfl
@[simp] theorem State.setDoor_ecc (t : Nat) (d : DoorSt) : (s.setDoor t d).ecc = s.ecc := by unfold State.setDoor; split <;> rfl
@[simp] theorem State.setDoor_chk (t : Nat) (d : DoorSt) : (s.setDoor t d).chk = s.chk := by unfold State.setDoor; split <;> rfl
@[simp] theorem State.setDoor_ksnap (t : Nat) (d : DoorSt) : (s.setDoor t d).ksnap = s.ksnap := by unfold State.setDoor; split <;> rfl
@[simp] theorem State.setDoor_sealed (t : Nat) (d : DoorSt) : (s.setDoor t d).sealed = s.sealed := by unfold State.setDoor; split <;> rfl
@[simp] theorem State.setDoor_rdata (t : Nat) (d : DoorSt) : (s.setDoor t d).rdata = s.rdata := by unfold State.setDoor; split <;> rfl
@[simp] theorem State.setDoor_free (t : Nat) (d : DoorSt) : (s.setDoor t d).free = s.free := by unfold State.setDoor; split <;> rfl

/-! ## updTen -/

@[simp] theorem State.updTen_pending (t : Nat) (f : Tenant → Tenant) : (s.updTen t f).pending = s.pending := rfl
@[simp] theorem State.updTen_doors (t : Nat) (f : Tenant → Tenant) : (s.updTen t f).doors = s.doors := rfl
@[simp] theorem State.updTen_tens (t : Nat) (f : Tenant → Tenant) : (s.updTen t f).tens = SMap.upd Tenant.reset s.tens t f := rfl
@[simp] theorem State.updTen_runs (t : Nat) (f : Tenant → Tenant) : (s.updTen t f).runs = s.runs := rfl
@[simp] theorem State.updTen_portA (t : Nat) (f : Tenant → Tenant) : (s.updTen t f).portA = s.portA := rfl
@[simp] theorem State.updTen_portB (t : Nat) (f : Tenant → Tenant) : (s.updTen t f).portB = s.portB := rfl
@[simp] theorem State.updTen_tick (t : Nat) (f : Tenant → Tenant) : (s.updTen t f).tick = s.tick := rfl
@[simp] theorem State.updTen_grants (t : Nat) (f : Tenant → Tenant) : (s.updTen t f).grants = s.grants := rfl
@[simp] theorem State.updTen_sys (t : Nat) (f : Tenant → Tenant) : (s.updTen t f).sys = s.sys := rfl
@[simp] theorem State.updTen_pwr (t : Nat) (f : Tenant → Tenant) : (s.updTen t f).pwr = s.pwr := rfl
@[simp] theorem State.updTen_seq (t : Nat) (f : Tenant → Tenant) : (s.updTen t f).seq = s.seq := rfl
@[simp] theorem State.updTen_disp (t : Nat) (f : Tenant → Tenant) : (s.updTen t f).disp = s.disp := rfl
@[simp] theorem State.updTen_lamps (t : Nat) (f : Tenant → Tenant) : (s.updTen t f).lamps = s.lamps := rfl
@[simp] theorem State.updTen_engines (t : Nat) (f : Tenant → Tenant) : (s.updTen t f).engines = s.engines := rfl
@[simp] theorem State.updTen_keys (t : Nat) (f : Tenant → Tenant) : (s.updTen t f).keys = s.keys := rfl
@[simp] theorem State.updTen_adc (t : Nat) (f : Tenant → Tenant) : (s.updTen t f).adc = s.adc := rfl
@[simp] theorem State.updTen_therm (t : Nat) (f : Tenant → Tenant) : (s.updTen t f).therm = s.therm := rfl
@[simp] theorem State.updTen_prot (t : Nat) (f : Tenant → Tenant) : (s.updTen t f).prot = s.prot := rfl
@[simp] theorem State.updTen_flash (t : Nat) (f : Tenant → Tenant) : (s.updTen t f).flash = s.flash := rfl
@[simp] theorem State.updTen_link (t : Nat) (f : Tenant → Tenant) : (s.updTen t f).link = s.link := rfl
@[simp] theorem State.updTen_tests (t : Nat) (f : Tenant → Tenant) : (s.updTen t f).tests = s.tests := rfl
@[simp] theorem State.updTen_dbg (t : Nat) (f : Tenant → Tenant) : (s.updTen t f).dbg = s.dbg := rfl
@[simp] theorem State.updTen_held (t : Nat) (f : Tenant → Tenant) : (s.updTen t f).held = s.held := rfl
@[simp] theorem State.updTen_after (t : Nat) (f : Tenant → Tenant) : (s.updTen t f).after = s.after := rfl
@[simp] theorem State.updTen_keyStage (t : Nat) (f : Tenant → Tenant) : (s.updTen t f).keyStage = s.keyStage := rfl
@[simp] theorem State.updTen_secTen (t : Nat) (f : Tenant → Tenant) : (s.updTen t f).secTen = s.secTen := rfl
@[simp] theorem State.updTen_nextRun (t : Nat) (f : Tenant → Tenant) : (s.updTen t f).nextRun = s.nextRun := rfl
@[simp] theorem State.updTen_waiting (t : Nat) (f : Tenant → Tenant) : (s.updTen t f).waiting = s.waiting := rfl
@[simp] theorem State.updTen_part (t : Nat) (f : Tenant → Tenant) : (s.updTen t f).part = s.part := rfl
@[simp] theorem State.updTen_regs (t : Nat) (f : Tenant → Tenant) : (s.updTen t f).regs = s.regs := rfl
@[simp] theorem State.updTen_mem (t : Nat) (f : Tenant → Tenant) : (s.updTen t f).mem = s.mem := rfl
@[simp] theorem State.updTen_ecc (t : Nat) (f : Tenant → Tenant) : (s.updTen t f).ecc = s.ecc := rfl
@[simp] theorem State.updTen_chk (t : Nat) (f : Tenant → Tenant) : (s.updTen t f).chk = s.chk := rfl
@[simp] theorem State.updTen_ksnap (t : Nat) (f : Tenant → Tenant) : (s.updTen t f).ksnap = s.ksnap := rfl
@[simp] theorem State.updTen_sealed (t : Nat) (f : Tenant → Tenant) : (s.updTen t f).sealed = s.sealed := rfl
@[simp] theorem State.updTen_rdata (t : Nat) (f : Tenant → Tenant) : (s.updTen t f).rdata = s.rdata := rfl
@[simp] theorem State.updTen_free (t : Nat) (f : Tenant → Tenant) : (s.updTen t f).free = s.free := rfl

/-! ## updPort -/

@[simp] theorem State.updPort_pending (p : Nat) (f : HPort → HPort) : (s.updPort p f).pending = s.pending := by unfold State.updPort; split <;> rfl
@[simp] theorem State.updPort_doors (p : Nat) (f : HPort → HPort) : (s.updPort p f).doors = s.doors := by unfold State.updPort; split <;> rfl
@[simp] theorem State.updPort_tens (p : Nat) (f : HPort → HPort) : (s.updPort p f).tens = s.tens := by unfold State.updPort; split <;> rfl
@[simp] theorem State.updPort_runs (p : Nat) (f : HPort → HPort) : (s.updPort p f).runs = s.runs := by unfold State.updPort; split <;> rfl
@[simp] theorem State.updPort_portA (p : Nat) (f : HPort → HPort) : (s.updPort p f).portA = if p = 0 then f s.portA else s.portA := by unfold State.updPort; split <;> rfl
@[simp] theorem State.updPort_portB (p : Nat) (f : HPort → HPort) : (s.updPort p f).portB = if p = 0 then s.portB else f s.portB := by unfold State.updPort; split <;> rfl
@[simp] theorem State.updPort_tick (p : Nat) (f : HPort → HPort) : (s.updPort p f).tick = s.tick := by unfold State.updPort; split <;> rfl
@[simp] theorem State.updPort_grants (p : Nat) (f : HPort → HPort) : (s.updPort p f).grants = s.grants := by unfold State.updPort; split <;> rfl
@[simp] theorem State.updPort_sys (p : Nat) (f : HPort → HPort) : (s.updPort p f).sys = s.sys := by unfold State.updPort; split <;> rfl
@[simp] theorem State.updPort_pwr (p : Nat) (f : HPort → HPort) : (s.updPort p f).pwr = s.pwr := by unfold State.updPort; split <;> rfl
@[simp] theorem State.updPort_seq (p : Nat) (f : HPort → HPort) : (s.updPort p f).seq = s.seq := by unfold State.updPort; split <;> rfl
@[simp] theorem State.updPort_disp (p : Nat) (f : HPort → HPort) : (s.updPort p f).disp = s.disp := by unfold State.updPort; split <;> rfl
@[simp] theorem State.updPort_lamps (p : Nat) (f : HPort → HPort) : (s.updPort p f).lamps = s.lamps := by unfold State.updPort; split <;> rfl
@[simp] theorem State.updPort_engines (p : Nat) (f : HPort → HPort) : (s.updPort p f).engines = s.engines := by unfold State.updPort; split <;> rfl
@[simp] theorem State.updPort_keys (p : Nat) (f : HPort → HPort) : (s.updPort p f).keys = s.keys := by unfold State.updPort; split <;> rfl
@[simp] theorem State.updPort_adc (p : Nat) (f : HPort → HPort) : (s.updPort p f).adc = s.adc := by unfold State.updPort; split <;> rfl
@[simp] theorem State.updPort_therm (p : Nat) (f : HPort → HPort) : (s.updPort p f).therm = s.therm := by unfold State.updPort; split <;> rfl
@[simp] theorem State.updPort_prot (p : Nat) (f : HPort → HPort) : (s.updPort p f).prot = s.prot := by unfold State.updPort; split <;> rfl
@[simp] theorem State.updPort_flash (p : Nat) (f : HPort → HPort) : (s.updPort p f).flash = s.flash := by unfold State.updPort; split <;> rfl
@[simp] theorem State.updPort_link (p : Nat) (f : HPort → HPort) : (s.updPort p f).link = s.link := by unfold State.updPort; split <;> rfl
@[simp] theorem State.updPort_tests (p : Nat) (f : HPort → HPort) : (s.updPort p f).tests = s.tests := by unfold State.updPort; split <;> rfl
@[simp] theorem State.updPort_dbg (p : Nat) (f : HPort → HPort) : (s.updPort p f).dbg = s.dbg := by unfold State.updPort; split <;> rfl
@[simp] theorem State.updPort_held (p : Nat) (f : HPort → HPort) : (s.updPort p f).held = s.held := by unfold State.updPort; split <;> rfl
@[simp] theorem State.updPort_after (p : Nat) (f : HPort → HPort) : (s.updPort p f).after = s.after := by unfold State.updPort; split <;> rfl
@[simp] theorem State.updPort_keyStage (p : Nat) (f : HPort → HPort) : (s.updPort p f).keyStage = s.keyStage := by unfold State.updPort; split <;> rfl
@[simp] theorem State.updPort_secTen (p : Nat) (f : HPort → HPort) : (s.updPort p f).secTen = s.secTen := by unfold State.updPort; split <;> rfl
@[simp] theorem State.updPort_nextRun (p : Nat) (f : HPort → HPort) : (s.updPort p f).nextRun = s.nextRun := by unfold State.updPort; split <;> rfl
@[simp] theorem State.updPort_waiting (p : Nat) (f : HPort → HPort) : (s.updPort p f).waiting = s.waiting := by unfold State.updPort; split <;> rfl
@[simp] theorem State.updPort_part (p : Nat) (f : HPort → HPort) : (s.updPort p f).part = s.part := by unfold State.updPort; split <;> rfl
@[simp] theorem State.updPort_regs (p : Nat) (f : HPort → HPort) : (s.updPort p f).regs = s.regs := by unfold State.updPort; split <;> rfl
@[simp] theorem State.updPort_mem (p : Nat) (f : HPort → HPort) : (s.updPort p f).mem = s.mem := by unfold State.updPort; split <;> rfl
@[simp] theorem State.updPort_ecc (p : Nat) (f : HPort → HPort) : (s.updPort p f).ecc = s.ecc := by unfold State.updPort; split <;> rfl
@[simp] theorem State.updPort_chk (p : Nat) (f : HPort → HPort) : (s.updPort p f).chk = s.chk := by unfold State.updPort; split <;> rfl
@[simp] theorem State.updPort_ksnap (p : Nat) (f : HPort → HPort) : (s.updPort p f).ksnap = s.ksnap := by unfold State.updPort; split <;> rfl
@[simp] theorem State.updPort_sealed (p : Nat) (f : HPort → HPort) : (s.updPort p f).sealed = s.sealed := by unfold State.updPort; split <;> rfl
@[simp] theorem State.updPort_rdata (p : Nat) (f : HPort → HPort) : (s.updPort p f).rdata = s.rdata := by unfold State.updPort; split <;> rfl
@[simp] theorem State.updPort_free (p : Nat) (f : HPort → HPort) : (s.updPort p f).free = s.free := by unfold State.updPort; split <;> rfl

/-! ## updCell -/

@[simp] theorem State.updCell_pending (c : Nat) (f : Cell → Cell) : (s.updCell c f).pending = s.pending := rfl
@[simp] theorem State.updCell_doors (c : Nat) (f : Cell → Cell) : (s.updCell c f).doors = s.doors := rfl
@[simp] theorem State.updCell_tens (c : Nat) (f : Cell → Cell) : (s.updCell c f).tens = s.tens := rfl
@[simp] theorem State.updCell_runs (c : Nat) (f : Cell → Cell) : (s.updCell c f).runs = s.runs := rfl
@[simp] theorem State.updCell_portA (c : Nat) (f : Cell → Cell) : (s.updCell c f).portA = s.portA := rfl
@[simp] theorem State.updCell_portB (c : Nat) (f : Cell → Cell) : (s.updCell c f).portB = s.portB := rfl
@[simp] theorem State.updCell_tick (c : Nat) (f : Cell → Cell) : (s.updCell c f).tick = s.tick := rfl
@[simp] theorem State.updCell_grants (c : Nat) (f : Cell → Cell) : (s.updCell c f).grants = s.grants := rfl
@[simp] theorem State.updCell_sys (c : Nat) (f : Cell → Cell) : (s.updCell c f).sys = s.sys := rfl
@[simp] theorem State.updCell_pwr (c : Nat) (f : Cell → Cell) : (s.updCell c f).pwr = s.pwr := rfl
@[simp] theorem State.updCell_seq (c : Nat) (f : Cell → Cell) : (s.updCell c f).seq = s.seq := rfl
@[simp] theorem State.updCell_lamps (c : Nat) (f : Cell → Cell) : (s.updCell c f).lamps = s.lamps := rfl
@[simp] theorem State.updCell_engines (c : Nat) (f : Cell → Cell) : (s.updCell c f).engines = s.engines := rfl
@[simp] theorem State.updCell_keys (c : Nat) (f : Cell → Cell) : (s.updCell c f).keys = s.keys := rfl
@[simp] theorem State.updCell_adc (c : Nat) (f : Cell → Cell) : (s.updCell c f).adc = s.adc := rfl
@[simp] theorem State.updCell_therm (c : Nat) (f : Cell → Cell) : (s.updCell c f).therm = s.therm := rfl
@[simp] theorem State.updCell_prot (c : Nat) (f : Cell → Cell) : (s.updCell c f).prot = s.prot := rfl
@[simp] theorem State.updCell_flash (c : Nat) (f : Cell → Cell) : (s.updCell c f).flash = s.flash := rfl
@[simp] theorem State.updCell_link (c : Nat) (f : Cell → Cell) : (s.updCell c f).link = s.link := rfl
@[simp] theorem State.updCell_tests (c : Nat) (f : Cell → Cell) : (s.updCell c f).tests = s.tests := rfl
@[simp] theorem State.updCell_dbg (c : Nat) (f : Cell → Cell) : (s.updCell c f).dbg = s.dbg := rfl
@[simp] theorem State.updCell_held (c : Nat) (f : Cell → Cell) : (s.updCell c f).held = s.held := rfl
@[simp] theorem State.updCell_after (c : Nat) (f : Cell → Cell) : (s.updCell c f).after = s.after := rfl
@[simp] theorem State.updCell_keyStage (c : Nat) (f : Cell → Cell) : (s.updCell c f).keyStage = s.keyStage := rfl
@[simp] theorem State.updCell_secTen (c : Nat) (f : Cell → Cell) : (s.updCell c f).secTen = s.secTen := rfl
@[simp] theorem State.updCell_nextRun (c : Nat) (f : Cell → Cell) : (s.updCell c f).nextRun = s.nextRun := rfl
@[simp] theorem State.updCell_waiting (c : Nat) (f : Cell → Cell) : (s.updCell c f).waiting = s.waiting := rfl
@[simp] theorem State.updCell_part (c : Nat) (f : Cell → Cell) : (s.updCell c f).part = s.part := rfl
@[simp] theorem State.updCell_regs (c : Nat) (f : Cell → Cell) : (s.updCell c f).regs = s.regs := rfl
@[simp] theorem State.updCell_mem (c : Nat) (f : Cell → Cell) : (s.updCell c f).mem = s.mem := rfl
@[simp] theorem State.updCell_ecc (c : Nat) (f : Cell → Cell) : (s.updCell c f).ecc = s.ecc := rfl
@[simp] theorem State.updCell_chk (c : Nat) (f : Cell → Cell) : (s.updCell c f).chk = s.chk := rfl
@[simp] theorem State.updCell_ksnap (c : Nat) (f : Cell → Cell) : (s.updCell c f).ksnap = s.ksnap := rfl
@[simp] theorem State.updCell_sealed (c : Nat) (f : Cell → Cell) : (s.updCell c f).sealed = s.sealed := rfl
@[simp] theorem State.updCell_rdata (c : Nat) (f : Cell → Cell) : (s.updCell c f).rdata = s.rdata := rfl
@[simp] theorem State.updCell_free (c : Nat) (f : Cell → Cell) : (s.updCell c f).free = s.free := rfl

/-! ## updDport -/

@[simp] theorem State.updDport_pending (p : Nat) (f : DPort → DPort) : (s.updDport p f).pending = s.pending := rfl
@[simp] theorem State.updDport_doors (p : Nat) (f : DPort → DPort) : (s.updDport p f).doors = s.doors := rfl
@[simp] theorem State.updDport_tens (p : Nat) (f : DPort → DPort) : (s.updDport p f).tens = s.tens := rfl
@[simp] theorem State.updDport_runs (p : Nat) (f : DPort → DPort) : (s.updDport p f).runs = s.runs := rfl
@[simp] theorem State.updDport_portA (p : Nat) (f : DPort → DPort) : (s.updDport p f).portA = s.portA := rfl
@[simp] theorem State.updDport_portB (p : Nat) (f : DPort → DPort) : (s.updDport p f).portB = s.portB := rfl
@[simp] theorem State.updDport_tick (p : Nat) (f : DPort → DPort) : (s.updDport p f).tick = s.tick := rfl
@[simp] theorem State.updDport_grants (p : Nat) (f : DPort → DPort) : (s.updDport p f).grants = s.grants := rfl
@[simp] theorem State.updDport_sys (p : Nat) (f : DPort → DPort) : (s.updDport p f).sys = s.sys := rfl
@[simp] theorem State.updDport_pwr (p : Nat) (f : DPort → DPort) : (s.updDport p f).pwr = s.pwr := rfl
@[simp] theorem State.updDport_seq (p : Nat) (f : DPort → DPort) : (s.updDport p f).seq = s.seq := rfl
@[simp] theorem State.updDport_lamps (p : Nat) (f : DPort → DPort) : (s.updDport p f).lamps = s.lamps := rfl
@[simp] theorem State.updDport_engines (p : Nat) (f : DPort → DPort) : (s.updDport p f).engines = s.engines := rfl
@[simp] theorem State.updDport_keys (p : Nat) (f : DPort → DPort) : (s.updDport p f).keys = s.keys := rfl
@[simp] theorem State.updDport_adc (p : Nat) (f : DPort → DPort) : (s.updDport p f).adc = s.adc := rfl
@[simp] theorem State.updDport_therm (p : Nat) (f : DPort → DPort) : (s.updDport p f).therm = s.therm := rfl
@[simp] theorem State.updDport_prot (p : Nat) (f : DPort → DPort) : (s.updDport p f).prot = s.prot := rfl
@[simp] theorem State.updDport_flash (p : Nat) (f : DPort → DPort) : (s.updDport p f).flash = s.flash := rfl
@[simp] theorem State.updDport_link (p : Nat) (f : DPort → DPort) : (s.updDport p f).link = s.link := rfl
@[simp] theorem State.updDport_tests (p : Nat) (f : DPort → DPort) : (s.updDport p f).tests = s.tests := rfl
@[simp] theorem State.updDport_dbg (p : Nat) (f : DPort → DPort) : (s.updDport p f).dbg = s.dbg := rfl
@[simp] theorem State.updDport_held (p : Nat) (f : DPort → DPort) : (s.updDport p f).held = s.held := rfl
@[simp] theorem State.updDport_after (p : Nat) (f : DPort → DPort) : (s.updDport p f).after = s.after := rfl
@[simp] theorem State.updDport_keyStage (p : Nat) (f : DPort → DPort) : (s.updDport p f).keyStage = s.keyStage := rfl
@[simp] theorem State.updDport_secTen (p : Nat) (f : DPort → DPort) : (s.updDport p f).secTen = s.secTen := rfl
@[simp] theorem State.updDport_nextRun (p : Nat) (f : DPort → DPort) : (s.updDport p f).nextRun = s.nextRun := rfl
@[simp] theorem State.updDport_waiting (p : Nat) (f : DPort → DPort) : (s.updDport p f).waiting = s.waiting := rfl
@[simp] theorem State.updDport_part (p : Nat) (f : DPort → DPort) : (s.updDport p f).part = s.part := rfl
@[simp] theorem State.updDport_regs (p : Nat) (f : DPort → DPort) : (s.updDport p f).regs = s.regs := rfl
@[simp] theorem State.updDport_mem (p : Nat) (f : DPort → DPort) : (s.updDport p f).mem = s.mem := rfl
@[simp] theorem State.updDport_ecc (p : Nat) (f : DPort → DPort) : (s.updDport p f).ecc = s.ecc := rfl
@[simp] theorem State.updDport_chk (p : Nat) (f : DPort → DPort) : (s.updDport p f).chk = s.chk := rfl
@[simp] theorem State.updDport_ksnap (p : Nat) (f : DPort → DPort) : (s.updDport p f).ksnap = s.ksnap := rfl
@[simp] theorem State.updDport_sealed (p : Nat) (f : DPort → DPort) : (s.updDport p f).sealed = s.sealed := rfl
@[simp] theorem State.updDport_rdata (p : Nat) (f : DPort → DPort) : (s.updDport p f).rdata = s.rdata := rfl
@[simp] theorem State.updDport_free (p : Nat) (f : DPort → DPort) : (s.updDport p f).free = s.free := rfl

/-! ## updLamp -/

@[simp] theorem State.updLamp_pending (n : Nat) (f : Lamp → Lamp) : (s.updLamp n f).pending = s.pending := rfl
@[simp] theorem State.updLamp_doors (n : Nat) (f : Lamp → Lamp) : (s.updLamp n f).doors = s.doors := rfl
@[simp] theorem State.updLamp_tens (n : Nat) (f : Lamp → Lamp) : (s.updLamp n f).tens = s.tens := rfl
@[simp] theorem State.updLamp_runs (n : Nat) (f : Lamp → Lamp) : (s.updLamp n f).runs = s.runs := rfl
@[simp] theorem State.updLamp_portA (n : Nat) (f : Lamp → Lamp) : (s.updLamp n f).portA = s.portA := rfl
@[simp] theorem State.updLamp_portB (n : Nat) (f : Lamp → Lamp) : (s.updLamp n f).portB = s.portB := rfl
@[simp] theorem State.updLamp_tick (n : Nat) (f : Lamp → Lamp) : (s.updLamp n f).tick = s.tick := rfl
@[simp] theorem State.updLamp_grants (n : Nat) (f : Lamp → Lamp) : (s.updLamp n f).grants = s.grants := rfl
@[simp] theorem State.updLamp_sys (n : Nat) (f : Lamp → Lamp) : (s.updLamp n f).sys = s.sys := rfl
@[simp] theorem State.updLamp_pwr (n : Nat) (f : Lamp → Lamp) : (s.updLamp n f).pwr = s.pwr := rfl
@[simp] theorem State.updLamp_seq (n : Nat) (f : Lamp → Lamp) : (s.updLamp n f).seq = s.seq := rfl
@[simp] theorem State.updLamp_disp (n : Nat) (f : Lamp → Lamp) : (s.updLamp n f).disp = s.disp := rfl
@[simp] theorem State.updLamp_engines (n : Nat) (f : Lamp → Lamp) : (s.updLamp n f).engines = s.engines := rfl
@[simp] theorem State.updLamp_keys (n : Nat) (f : Lamp → Lamp) : (s.updLamp n f).keys = s.keys := rfl
@[simp] theorem State.updLamp_adc (n : Nat) (f : Lamp → Lamp) : (s.updLamp n f).adc = s.adc := rfl
@[simp] theorem State.updLamp_therm (n : Nat) (f : Lamp → Lamp) : (s.updLamp n f).therm = s.therm := rfl
@[simp] theorem State.updLamp_prot (n : Nat) (f : Lamp → Lamp) : (s.updLamp n f).prot = s.prot := rfl
@[simp] theorem State.updLamp_flash (n : Nat) (f : Lamp → Lamp) : (s.updLamp n f).flash = s.flash := rfl
@[simp] theorem State.updLamp_link (n : Nat) (f : Lamp → Lamp) : (s.updLamp n f).link = s.link := rfl
@[simp] theorem State.updLamp_tests (n : Nat) (f : Lamp → Lamp) : (s.updLamp n f).tests = s.tests := rfl
@[simp] theorem State.updLamp_dbg (n : Nat) (f : Lamp → Lamp) : (s.updLamp n f).dbg = s.dbg := rfl
@[simp] theorem State.updLamp_held (n : Nat) (f : Lamp → Lamp) : (s.updLamp n f).held = s.held := rfl
@[simp] theorem State.updLamp_after (n : Nat) (f : Lamp → Lamp) : (s.updLamp n f).after = s.after := rfl
@[simp] theorem State.updLamp_keyStage (n : Nat) (f : Lamp → Lamp) : (s.updLamp n f).keyStage = s.keyStage := rfl
@[simp] theorem State.updLamp_secTen (n : Nat) (f : Lamp → Lamp) : (s.updLamp n f).secTen = s.secTen := rfl
@[simp] theorem State.updLamp_nextRun (n : Nat) (f : Lamp → Lamp) : (s.updLamp n f).nextRun = s.nextRun := rfl
@[simp] theorem State.updLamp_waiting (n : Nat) (f : Lamp → Lamp) : (s.updLamp n f).waiting = s.waiting := rfl
@[simp] theorem State.updLamp_part (n : Nat) (f : Lamp → Lamp) : (s.updLamp n f).part = s.part := rfl
@[simp] theorem State.updLamp_regs (n : Nat) (f : Lamp → Lamp) : (s.updLamp n f).regs = s.regs := rfl
@[simp] theorem State.updLamp_mem (n : Nat) (f : Lamp → Lamp) : (s.updLamp n f).mem = s.mem := rfl
@[simp] theorem State.updLamp_ecc (n : Nat) (f : Lamp → Lamp) : (s.updLamp n f).ecc = s.ecc := rfl
@[simp] theorem State.updLamp_chk (n : Nat) (f : Lamp → Lamp) : (s.updLamp n f).chk = s.chk := rfl
@[simp] theorem State.updLamp_ksnap (n : Nat) (f : Lamp → Lamp) : (s.updLamp n f).ksnap = s.ksnap := rfl
@[simp] theorem State.updLamp_sealed (n : Nat) (f : Lamp → Lamp) : (s.updLamp n f).sealed = s.sealed := rfl
@[simp] theorem State.updLamp_rdata (n : Nat) (f : Lamp → Lamp) : (s.updLamp n f).rdata = s.rdata := rfl
@[simp] theorem State.updLamp_free (n : Nat) (f : Lamp → Lamp) : (s.updLamp n f).free = s.free := rfl

/-! ## updEngine -/

@[simp] theorem State.updEngine_pending (k : Nat) (f : Engine → Engine) : (s.updEngine k f).pending = s.pending := rfl
@[simp] theorem State.updEngine_doors (k : Nat) (f : Engine → Engine) : (s.updEngine k f).doors = s.doors := rfl
@[simp] theorem State.updEngine_tens (k : Nat) (f : Engine → Engine) : (s.updEngine k f).tens = s.tens := rfl
@[simp] theorem State.updEngine_runs (k : Nat) (f : Engine → Engine) : (s.updEngine k f).runs = s.runs := rfl
@[simp] theorem State.updEngine_portA (k : Nat) (f : Engine → Engine) : (s.updEngine k f).portA = s.portA := rfl
@[simp] theorem State.updEngine_portB (k : Nat) (f : Engine → Engine) : (s.updEngine k f).portB = s.portB := rfl
@[simp] theorem State.updEngine_tick (k : Nat) (f : Engine → Engine) : (s.updEngine k f).tick = s.tick := rfl
@[simp] theorem State.updEngine_grants (k : Nat) (f : Engine → Engine) : (s.updEngine k f).grants = s.grants := rfl
@[simp] theorem State.updEngine_sys (k : Nat) (f : Engine → Engine) : (s.updEngine k f).sys = s.sys := rfl
@[simp] theorem State.updEngine_pwr (k : Nat) (f : Engine → Engine) : (s.updEngine k f).pwr = s.pwr := rfl
@[simp] theorem State.updEngine_seq (k : Nat) (f : Engine → Engine) : (s.updEngine k f).seq = s.seq := rfl
@[simp] theorem State.updEngine_disp (k : Nat) (f : Engine → Engine) : (s.updEngine k f).disp = s.disp := rfl
@[simp] theorem State.updEngine_lamps (k : Nat) (f : Engine → Engine) : (s.updEngine k f).lamps = s.lamps := rfl
@[simp] theorem State.updEngine_keys (k : Nat) (f : Engine → Engine) : (s.updEngine k f).keys = s.keys := rfl
@[simp] theorem State.updEngine_adc (k : Nat) (f : Engine → Engine) : (s.updEngine k f).adc = s.adc := rfl
@[simp] theorem State.updEngine_therm (k : Nat) (f : Engine → Engine) : (s.updEngine k f).therm = s.therm := rfl
@[simp] theorem State.updEngine_prot (k : Nat) (f : Engine → Engine) : (s.updEngine k f).prot = s.prot := rfl
@[simp] theorem State.updEngine_flash (k : Nat) (f : Engine → Engine) : (s.updEngine k f).flash = s.flash := rfl
@[simp] theorem State.updEngine_link (k : Nat) (f : Engine → Engine) : (s.updEngine k f).link = s.link := rfl
@[simp] theorem State.updEngine_tests (k : Nat) (f : Engine → Engine) : (s.updEngine k f).tests = s.tests := rfl
@[simp] theorem State.updEngine_dbg (k : Nat) (f : Engine → Engine) : (s.updEngine k f).dbg = s.dbg := rfl
@[simp] theorem State.updEngine_held (k : Nat) (f : Engine → Engine) : (s.updEngine k f).held = s.held := rfl
@[simp] theorem State.updEngine_after (k : Nat) (f : Engine → Engine) : (s.updEngine k f).after = s.after := rfl
@[simp] theorem State.updEngine_keyStage (k : Nat) (f : Engine → Engine) : (s.updEngine k f).keyStage = s.keyStage := rfl
@[simp] theorem State.updEngine_secTen (k : Nat) (f : Engine → Engine) : (s.updEngine k f).secTen = s.secTen := rfl
@[simp] theorem State.updEngine_nextRun (k : Nat) (f : Engine → Engine) : (s.updEngine k f).nextRun = s.nextRun := rfl
@[simp] theorem State.updEngine_waiting (k : Nat) (f : Engine → Engine) : (s.updEngine k f).waiting = s.waiting := rfl
@[simp] theorem State.updEngine_part (k : Nat) (f : Engine → Engine) : (s.updEngine k f).part = s.part := rfl
@[simp] theorem State.updEngine_regs (k : Nat) (f : Engine → Engine) : (s.updEngine k f).regs = s.regs := rfl
@[simp] theorem State.updEngine_mem (k : Nat) (f : Engine → Engine) : (s.updEngine k f).mem = s.mem := rfl
@[simp] theorem State.updEngine_ecc (k : Nat) (f : Engine → Engine) : (s.updEngine k f).ecc = s.ecc := rfl
@[simp] theorem State.updEngine_chk (k : Nat) (f : Engine → Engine) : (s.updEngine k f).chk = s.chk := rfl
@[simp] theorem State.updEngine_ksnap (k : Nat) (f : Engine → Engine) : (s.updEngine k f).ksnap = s.ksnap := rfl
@[simp] theorem State.updEngine_sealed (k : Nat) (f : Engine → Engine) : (s.updEngine k f).sealed = s.sealed := rfl
@[simp] theorem State.updEngine_rdata (k : Nat) (f : Engine → Engine) : (s.updEngine k f).rdata = s.rdata := rfl
@[simp] theorem State.updEngine_free (k : Nat) (f : Engine → Engine) : (s.updEngine k f).free = s.free := rfl

/-! ## updKey -/

@[simp] theorem State.updKey_pending (k : Nat) (f : Key → Key) : (s.updKey k f).pending = s.pending := rfl
@[simp] theorem State.updKey_doors (k : Nat) (f : Key → Key) : (s.updKey k f).doors = s.doors := rfl
@[simp] theorem State.updKey_tens (k : Nat) (f : Key → Key) : (s.updKey k f).tens = s.tens := rfl
@[simp] theorem State.updKey_runs (k : Nat) (f : Key → Key) : (s.updKey k f).runs = s.runs := rfl
@[simp] theorem State.updKey_portA (k : Nat) (f : Key → Key) : (s.updKey k f).portA = s.portA := rfl
@[simp] theorem State.updKey_portB (k : Nat) (f : Key → Key) : (s.updKey k f).portB = s.portB := rfl
@[simp] theorem State.updKey_tick (k : Nat) (f : Key → Key) : (s.updKey k f).tick = s.tick := rfl
@[simp] theorem State.updKey_grants (k : Nat) (f : Key → Key) : (s.updKey k f).grants = s.grants := rfl
@[simp] theorem State.updKey_sys (k : Nat) (f : Key → Key) : (s.updKey k f).sys = s.sys := rfl
@[simp] theorem State.updKey_pwr (k : Nat) (f : Key → Key) : (s.updKey k f).pwr = s.pwr := rfl
@[simp] theorem State.updKey_seq (k : Nat) (f : Key → Key) : (s.updKey k f).seq = s.seq := rfl
@[simp] theorem State.updKey_disp (k : Nat) (f : Key → Key) : (s.updKey k f).disp = s.disp := rfl
@[simp] theorem State.updKey_lamps (k : Nat) (f : Key → Key) : (s.updKey k f).lamps = s.lamps := rfl
@[simp] theorem State.updKey_engines (k : Nat) (f : Key → Key) : (s.updKey k f).engines = s.engines := rfl
@[simp] theorem State.updKey_adc (k : Nat) (f : Key → Key) : (s.updKey k f).adc = s.adc := rfl
@[simp] theorem State.updKey_therm (k : Nat) (f : Key → Key) : (s.updKey k f).therm = s.therm := rfl
@[simp] theorem State.updKey_prot (k : Nat) (f : Key → Key) : (s.updKey k f).prot = s.prot := rfl
@[simp] theorem State.updKey_flash (k : Nat) (f : Key → Key) : (s.updKey k f).flash = s.flash := rfl
@[simp] theorem State.updKey_link (k : Nat) (f : Key → Key) : (s.updKey k f).link = s.link := rfl
@[simp] theorem State.updKey_tests (k : Nat) (f : Key → Key) : (s.updKey k f).tests = s.tests := rfl
@[simp] theorem State.updKey_dbg (k : Nat) (f : Key → Key) : (s.updKey k f).dbg = s.dbg := rfl
@[simp] theorem State.updKey_held (k : Nat) (f : Key → Key) : (s.updKey k f).held = s.held := rfl
@[simp] theorem State.updKey_after (k : Nat) (f : Key → Key) : (s.updKey k f).after = s.after := rfl
@[simp] theorem State.updKey_keyStage (k : Nat) (f : Key → Key) : (s.updKey k f).keyStage = s.keyStage := rfl
@[simp] theorem State.updKey_secTen (k : Nat) (f : Key → Key) : (s.updKey k f).secTen = s.secTen := rfl
@[simp] theorem State.updKey_nextRun (k : Nat) (f : Key → Key) : (s.updKey k f).nextRun = s.nextRun := rfl
@[simp] theorem State.updKey_waiting (k : Nat) (f : Key → Key) : (s.updKey k f).waiting = s.waiting := rfl
@[simp] theorem State.updKey_part (k : Nat) (f : Key → Key) : (s.updKey k f).part = s.part := rfl
@[simp] theorem State.updKey_regs (k : Nat) (f : Key → Key) : (s.updKey k f).regs = s.regs := rfl
@[simp] theorem State.updKey_mem (k : Nat) (f : Key → Key) : (s.updKey k f).mem = s.mem := rfl
@[simp] theorem State.updKey_ecc (k : Nat) (f : Key → Key) : (s.updKey k f).ecc = s.ecc := rfl
@[simp] theorem State.updKey_chk (k : Nat) (f : Key → Key) : (s.updKey k f).chk = s.chk := rfl
@[simp] theorem State.updKey_ksnap (k : Nat) (f : Key → Key) : (s.updKey k f).ksnap = s.ksnap := rfl
@[simp] theorem State.updKey_sealed (k : Nat) (f : Key → Key) : (s.updKey k f).sealed = s.sealed := rfl
@[simp] theorem State.updKey_rdata (k : Nat) (f : Key → Key) : (s.updKey k f).rdata = s.rdata := rfl
@[simp] theorem State.updKey_free (k : Nat) (f : Key → Key) : (s.updKey k f).free = s.free := rfl

/-! ## updChan -/

@[simp] theorem State.updChan_pending (n : Nat) (f : Chan → Chan) : (s.updChan n f).pending = s.pending := rfl
@[simp] theorem State.updChan_doors (n : Nat) (f : Chan → Chan) : (s.updChan n f).doors = s.doors := rfl
@[simp] theorem State.updChan_tens (n : Nat) (f : Chan → Chan) : (s.updChan n f).tens = s.tens := rfl
@[simp] theorem State.updChan_runs (n : Nat) (f : Chan → Chan) : (s.updChan n f).runs = s.runs := rfl
@[simp] theorem State.updChan_portA (n : Nat) (f : Chan → Chan) : (s.updChan n f).portA = s.portA := rfl
@[simp] theorem State.updChan_portB (n : Nat) (f : Chan → Chan) : (s.updChan n f).portB = s.portB := rfl
@[simp] theorem State.updChan_tick (n : Nat) (f : Chan → Chan) : (s.updChan n f).tick = s.tick := rfl
@[simp] theorem State.updChan_grants (n : Nat) (f : Chan → Chan) : (s.updChan n f).grants = s.grants := rfl
@[simp] theorem State.updChan_sys (n : Nat) (f : Chan → Chan) : (s.updChan n f).sys = s.sys := rfl
@[simp] theorem State.updChan_pwr (n : Nat) (f : Chan → Chan) : (s.updChan n f).pwr = s.pwr := rfl
@[simp] theorem State.updChan_seq (n : Nat) (f : Chan → Chan) : (s.updChan n f).seq = s.seq := rfl
@[simp] theorem State.updChan_disp (n : Nat) (f : Chan → Chan) : (s.updChan n f).disp = s.disp := rfl
@[simp] theorem State.updChan_lamps (n : Nat) (f : Chan → Chan) : (s.updChan n f).lamps = s.lamps := rfl
@[simp] theorem State.updChan_engines (n : Nat) (f : Chan → Chan) : (s.updChan n f).engines = s.engines := rfl
@[simp] theorem State.updChan_keys (n : Nat) (f : Chan → Chan) : (s.updChan n f).keys = s.keys := rfl
@[simp] theorem State.updChan_therm (n : Nat) (f : Chan → Chan) : (s.updChan n f).therm = s.therm := rfl
@[simp] theorem State.updChan_prot (n : Nat) (f : Chan → Chan) : (s.updChan n f).prot = s.prot := rfl
@[simp] theorem State.updChan_flash (n : Nat) (f : Chan → Chan) : (s.updChan n f).flash = s.flash := rfl
@[simp] theorem State.updChan_link (n : Nat) (f : Chan → Chan) : (s.updChan n f).link = s.link := rfl
@[simp] theorem State.updChan_tests (n : Nat) (f : Chan → Chan) : (s.updChan n f).tests = s.tests := rfl
@[simp] theorem State.updChan_dbg (n : Nat) (f : Chan → Chan) : (s.updChan n f).dbg = s.dbg := rfl
@[simp] theorem State.updChan_held (n : Nat) (f : Chan → Chan) : (s.updChan n f).held = s.held := rfl
@[simp] theorem State.updChan_after (n : Nat) (f : Chan → Chan) : (s.updChan n f).after = s.after := rfl
@[simp] theorem State.updChan_keyStage (n : Nat) (f : Chan → Chan) : (s.updChan n f).keyStage = s.keyStage := rfl
@[simp] theorem State.updChan_secTen (n : Nat) (f : Chan → Chan) : (s.updChan n f).secTen = s.secTen := rfl
@[simp] theorem State.updChan_nextRun (n : Nat) (f : Chan → Chan) : (s.updChan n f).nextRun = s.nextRun := rfl
@[simp] theorem State.updChan_waiting (n : Nat) (f : Chan → Chan) : (s.updChan n f).waiting = s.waiting := rfl
@[simp] theorem State.updChan_part (n : Nat) (f : Chan → Chan) : (s.updChan n f).part = s.part := rfl
@[simp] theorem State.updChan_regs (n : Nat) (f : Chan → Chan) : (s.updChan n f).regs = s.regs := rfl
@[simp] theorem State.updChan_mem (n : Nat) (f : Chan → Chan) : (s.updChan n f).mem = s.mem := rfl
@[simp] theorem State.updChan_ecc (n : Nat) (f : Chan → Chan) : (s.updChan n f).ecc = s.ecc := rfl
@[simp] theorem State.updChan_chk (n : Nat) (f : Chan → Chan) : (s.updChan n f).chk = s.chk := rfl
@[simp] theorem State.updChan_ksnap (n : Nat) (f : Chan → Chan) : (s.updChan n f).ksnap = s.ksnap := rfl
@[simp] theorem State.updChan_sealed (n : Nat) (f : Chan → Chan) : (s.updChan n f).sealed = s.sealed := rfl
@[simp] theorem State.updChan_rdata (n : Nat) (f : Chan → Chan) : (s.updChan n f).rdata = s.rdata := rfl
@[simp] theorem State.updChan_free (n : Nat) (f : Chan → Chan) : (s.updChan n f).free = s.free := rfl

/-! ## updSensor -/

@[simp] theorem State.updSensor_pending (i : Nat) (f : Sensor → Sensor) : (s.updSensor i f).pending = s.pending := rfl
@[simp] theorem State.updSensor_doors (i : Nat) (f : Sensor → Sensor) : (s.updSensor i f).doors = s.doors := rfl
@[simp] theorem State.updSensor_tens (i : Nat) (f : Sensor → Sensor) : (s.updSensor i f).tens = s.tens := rfl
@[simp] theorem State.updSensor_runs (i : Nat) (f : Sensor → Sensor) : (s.updSensor i f).runs = s.runs := rfl
@[simp] theorem State.updSensor_portA (i : Nat) (f : Sensor → Sensor) : (s.updSensor i f).portA = s.portA := rfl
@[simp] theorem State.updSensor_portB (i : Nat) (f : Sensor → Sensor) : (s.updSensor i f).portB = s.portB := rfl
@[simp] theorem State.updSensor_tick (i : Nat) (f : Sensor → Sensor) : (s.updSensor i f).tick = s.tick := rfl
@[simp] theorem State.updSensor_grants (i : Nat) (f : Sensor → Sensor) : (s.updSensor i f).grants = s.grants := rfl
@[simp] theorem State.updSensor_sys (i : Nat) (f : Sensor → Sensor) : (s.updSensor i f).sys = s.sys := rfl
@[simp] theorem State.updSensor_pwr (i : Nat) (f : Sensor → Sensor) : (s.updSensor i f).pwr = s.pwr := rfl
@[simp] theorem State.updSensor_seq (i : Nat) (f : Sensor → Sensor) : (s.updSensor i f).seq = s.seq := rfl
@[simp] theorem State.updSensor_disp (i : Nat) (f : Sensor → Sensor) : (s.updSensor i f).disp = s.disp := rfl
@[simp] theorem State.updSensor_lamps (i : Nat) (f : Sensor → Sensor) : (s.updSensor i f).lamps = s.lamps := rfl
@[simp] theorem State.updSensor_engines (i : Nat) (f : Sensor → Sensor) : (s.updSensor i f).engines = s.engines := rfl
@[simp] theorem State.updSensor_keys (i : Nat) (f : Sensor → Sensor) : (s.updSensor i f).keys = s.keys := rfl
@[simp] theorem State.updSensor_adc (i : Nat) (f : Sensor → Sensor) : (s.updSensor i f).adc = s.adc := rfl
@[simp] theorem State.updSensor_prot (i : Nat) (f : Sensor → Sensor) : (s.updSensor i f).prot = s.prot := rfl
@[simp] theorem State.updSensor_flash (i : Nat) (f : Sensor → Sensor) : (s.updSensor i f).flash = s.flash := rfl
@[simp] theorem State.updSensor_link (i : Nat) (f : Sensor → Sensor) : (s.updSensor i f).link = s.link := rfl
@[simp] theorem State.updSensor_tests (i : Nat) (f : Sensor → Sensor) : (s.updSensor i f).tests = s.tests := rfl
@[simp] theorem State.updSensor_dbg (i : Nat) (f : Sensor → Sensor) : (s.updSensor i f).dbg = s.dbg := rfl
@[simp] theorem State.updSensor_held (i : Nat) (f : Sensor → Sensor) : (s.updSensor i f).held = s.held := rfl
@[simp] theorem State.updSensor_after (i : Nat) (f : Sensor → Sensor) : (s.updSensor i f).after = s.after := rfl
@[simp] theorem State.updSensor_keyStage (i : Nat) (f : Sensor → Sensor) : (s.updSensor i f).keyStage = s.keyStage := rfl
@[simp] theorem State.updSensor_secTen (i : Nat) (f : Sensor → Sensor) : (s.updSensor i f).secTen = s.secTen := rfl
@[simp] theorem State.updSensor_nextRun (i : Nat) (f : Sensor → Sensor) : (s.updSensor i f).nextRun = s.nextRun := rfl
@[simp] theorem State.updSensor_waiting (i : Nat) (f : Sensor → Sensor) : (s.updSensor i f).waiting = s.waiting := rfl
@[simp] theorem State.updSensor_part (i : Nat) (f : Sensor → Sensor) : (s.updSensor i f).part = s.part := rfl
@[simp] theorem State.updSensor_regs (i : Nat) (f : Sensor → Sensor) : (s.updSensor i f).regs = s.regs := rfl
@[simp] theorem State.updSensor_mem (i : Nat) (f : Sensor → Sensor) : (s.updSensor i f).mem = s.mem := rfl
@[simp] theorem State.updSensor_ecc (i : Nat) (f : Sensor → Sensor) : (s.updSensor i f).ecc = s.ecc := rfl
@[simp] theorem State.updSensor_chk (i : Nat) (f : Sensor → Sensor) : (s.updSensor i f).chk = s.chk := rfl
@[simp] theorem State.updSensor_ksnap (i : Nat) (f : Sensor → Sensor) : (s.updSensor i f).ksnap = s.ksnap := rfl
@[simp] theorem State.updSensor_sealed (i : Nat) (f : Sensor → Sensor) : (s.updSensor i f).sealed = s.sealed := rfl
@[simp] theorem State.updSensor_rdata (i : Nat) (f : Sensor → Sensor) : (s.updSensor i f).rdata = s.rdata := rfl
@[simp] theorem State.updSensor_free (i : Nat) (f : Sensor → Sensor) : (s.updSensor i f).free = s.free := rfl

/-! ## updZone -/

@[simp] theorem State.updZone_pending (k : Nat) (f : Zone → Zone) : (s.updZone k f).pending = s.pending := rfl
@[simp] theorem State.updZone_doors (k : Nat) (f : Zone → Zone) : (s.updZone k f).doors = s.doors := rfl
@[simp] theorem State.updZone_tens (k : Nat) (f : Zone → Zone) : (s.updZone k f).tens = s.tens := rfl
@[simp] theorem State.updZone_runs (k : Nat) (f : Zone → Zone) : (s.updZone k f).runs = s.runs := rfl
@[simp] theorem State.updZone_portA (k : Nat) (f : Zone → Zone) : (s.updZone k f).portA = s.portA := rfl
@[simp] theorem State.updZone_portB (k : Nat) (f : Zone → Zone) : (s.updZone k f).portB = s.portB := rfl
@[simp] theorem State.updZone_tick (k : Nat) (f : Zone → Zone) : (s.updZone k f).tick = s.tick := rfl
@[simp] theorem State.updZone_grants (k : Nat) (f : Zone → Zone) : (s.updZone k f).grants = s.grants := rfl
@[simp] theorem State.updZone_sys (k : Nat) (f : Zone → Zone) : (s.updZone k f).sys = s.sys := rfl
@[simp] theorem State.updZone_pwr (k : Nat) (f : Zone → Zone) : (s.updZone k f).pwr = s.pwr := rfl
@[simp] theorem State.updZone_seq (k : Nat) (f : Zone → Zone) : (s.updZone k f).seq = s.seq := rfl
@[simp] theorem State.updZone_disp (k : Nat) (f : Zone → Zone) : (s.updZone k f).disp = s.disp := rfl
@[simp] theorem State.updZone_lamps (k : Nat) (f : Zone → Zone) : (s.updZone k f).lamps = s.lamps := rfl
@[simp] theorem State.updZone_engines (k : Nat) (f : Zone → Zone) : (s.updZone k f).engines = s.engines := rfl
@[simp] theorem State.updZone_keys (k : Nat) (f : Zone → Zone) : (s.updZone k f).keys = s.keys := rfl
@[simp] theorem State.updZone_adc (k : Nat) (f : Zone → Zone) : (s.updZone k f).adc = s.adc := rfl
@[simp] theorem State.updZone_prot (k : Nat) (f : Zone → Zone) : (s.updZone k f).prot = s.prot := rfl
@[simp] theorem State.updZone_flash (k : Nat) (f : Zone → Zone) : (s.updZone k f).flash = s.flash := rfl
@[simp] theorem State.updZone_link (k : Nat) (f : Zone → Zone) : (s.updZone k f).link = s.link := rfl
@[simp] theorem State.updZone_tests (k : Nat) (f : Zone → Zone) : (s.updZone k f).tests = s.tests := rfl
@[simp] theorem State.updZone_dbg (k : Nat) (f : Zone → Zone) : (s.updZone k f).dbg = s.dbg := rfl
@[simp] theorem State.updZone_held (k : Nat) (f : Zone → Zone) : (s.updZone k f).held = s.held := rfl
@[simp] theorem State.updZone_after (k : Nat) (f : Zone → Zone) : (s.updZone k f).after = s.after := rfl
@[simp] theorem State.updZone_keyStage (k : Nat) (f : Zone → Zone) : (s.updZone k f).keyStage = s.keyStage := rfl
@[simp] theorem State.updZone_secTen (k : Nat) (f : Zone → Zone) : (s.updZone k f).secTen = s.secTen := rfl
@[simp] theorem State.updZone_nextRun (k : Nat) (f : Zone → Zone) : (s.updZone k f).nextRun = s.nextRun := rfl
@[simp] theorem State.updZone_waiting (k : Nat) (f : Zone → Zone) : (s.updZone k f).waiting = s.waiting := rfl
@[simp] theorem State.updZone_part (k : Nat) (f : Zone → Zone) : (s.updZone k f).part = s.part := rfl
@[simp] theorem State.updZone_regs (k : Nat) (f : Zone → Zone) : (s.updZone k f).regs = s.regs := rfl
@[simp] theorem State.updZone_mem (k : Nat) (f : Zone → Zone) : (s.updZone k f).mem = s.mem := rfl
@[simp] theorem State.updZone_ecc (k : Nat) (f : Zone → Zone) : (s.updZone k f).ecc = s.ecc := rfl
@[simp] theorem State.updZone_chk (k : Nat) (f : Zone → Zone) : (s.updZone k f).chk = s.chk := rfl
@[simp] theorem State.updZone_ksnap (k : Nat) (f : Zone → Zone) : (s.updZone k f).ksnap = s.ksnap := rfl
@[simp] theorem State.updZone_sealed (k : Nat) (f : Zone → Zone) : (s.updZone k f).sealed = s.sealed := rfl
@[simp] theorem State.updZone_rdata (k : Nat) (f : Zone → Zone) : (s.updZone k f).rdata = s.rdata := rfl
@[simp] theorem State.updZone_free (k : Nat) (f : Zone → Zone) : (s.updZone k f).free = s.free := rfl

/-! ## updFan -/

@[simp] theorem State.updFan_pending (n : Nat) (f : Fan → Fan) : (s.updFan n f).pending = s.pending := rfl
@[simp] theorem State.updFan_doors (n : Nat) (f : Fan → Fan) : (s.updFan n f).doors = s.doors := rfl
@[simp] theorem State.updFan_tens (n : Nat) (f : Fan → Fan) : (s.updFan n f).tens = s.tens := rfl
@[simp] theorem State.updFan_runs (n : Nat) (f : Fan → Fan) : (s.updFan n f).runs = s.runs := rfl
@[simp] theorem State.updFan_portA (n : Nat) (f : Fan → Fan) : (s.updFan n f).portA = s.portA := rfl
@[simp] theorem State.updFan_portB (n : Nat) (f : Fan → Fan) : (s.updFan n f).portB = s.portB := rfl
@[simp] theorem State.updFan_tick (n : Nat) (f : Fan → Fan) : (s.updFan n f).tick = s.tick := rfl
@[simp] theorem State.updFan_grants (n : Nat) (f : Fan → Fan) : (s.updFan n f).grants = s.grants := rfl
@[simp] theorem State.updFan_sys (n : Nat) (f : Fan → Fan) : (s.updFan n f).sys = s.sys := rfl
@[simp] theorem State.updFan_pwr (n : Nat) (f : Fan → Fan) : (s.updFan n f).pwr = s.pwr := rfl
@[simp] theorem State.updFan_seq (n : Nat) (f : Fan → Fan) : (s.updFan n f).seq = s.seq := rfl
@[simp] theorem State.updFan_disp (n : Nat) (f : Fan → Fan) : (s.updFan n f).disp = s.disp := rfl
@[simp] theorem State.updFan_lamps (n : Nat) (f : Fan → Fan) : (s.updFan n f).lamps = s.lamps := rfl
@[simp] theorem State.updFan_engines (n : Nat) (f : Fan → Fan) : (s.updFan n f).engines = s.engines := rfl
@[simp] theorem State.updFan_keys (n : Nat) (f : Fan → Fan) : (s.updFan n f).keys = s.keys := rfl
@[simp] theorem State.updFan_adc (n : Nat) (f : Fan → Fan) : (s.updFan n f).adc = s.adc := rfl
@[simp] theorem State.updFan_prot (n : Nat) (f : Fan → Fan) : (s.updFan n f).prot = s.prot := rfl
@[simp] theorem State.updFan_flash (n : Nat) (f : Fan → Fan) : (s.updFan n f).flash = s.flash := rfl
@[simp] theorem State.updFan_link (n : Nat) (f : Fan → Fan) : (s.updFan n f).link = s.link := rfl
@[simp] theorem State.updFan_tests (n : Nat) (f : Fan → Fan) : (s.updFan n f).tests = s.tests := rfl
@[simp] theorem State.updFan_dbg (n : Nat) (f : Fan → Fan) : (s.updFan n f).dbg = s.dbg := rfl
@[simp] theorem State.updFan_held (n : Nat) (f : Fan → Fan) : (s.updFan n f).held = s.held := rfl
@[simp] theorem State.updFan_after (n : Nat) (f : Fan → Fan) : (s.updFan n f).after = s.after := rfl
@[simp] theorem State.updFan_keyStage (n : Nat) (f : Fan → Fan) : (s.updFan n f).keyStage = s.keyStage := rfl
@[simp] theorem State.updFan_secTen (n : Nat) (f : Fan → Fan) : (s.updFan n f).secTen = s.secTen := rfl
@[simp] theorem State.updFan_nextRun (n : Nat) (f : Fan → Fan) : (s.updFan n f).nextRun = s.nextRun := rfl
@[simp] theorem State.updFan_waiting (n : Nat) (f : Fan → Fan) : (s.updFan n f).waiting = s.waiting := rfl
@[simp] theorem State.updFan_part (n : Nat) (f : Fan → Fan) : (s.updFan n f).part = s.part := rfl
@[simp] theorem State.updFan_regs (n : Nat) (f : Fan → Fan) : (s.updFan n f).regs = s.regs := rfl
@[simp] theorem State.updFan_mem (n : Nat) (f : Fan → Fan) : (s.updFan n f).mem = s.mem := rfl
@[simp] theorem State.updFan_ecc (n : Nat) (f : Fan → Fan) : (s.updFan n f).ecc = s.ecc := rfl
@[simp] theorem State.updFan_chk (n : Nat) (f : Fan → Fan) : (s.updFan n f).chk = s.chk := rfl
@[simp] theorem State.updFan_ksnap (n : Nat) (f : Fan → Fan) : (s.updFan n f).ksnap = s.ksnap := rfl
@[simp] theorem State.updFan_sealed (n : Nat) (f : Fan → Fan) : (s.updFan n f).sealed = s.sealed := rfl
@[simp] theorem State.updFan_rdata (n : Nat) (f : Fan → Fan) : (s.updFan n f).rdata = s.rdata := rfl
@[simp] theorem State.updFan_free (n : Nat) (f : Fan → Fan) : (s.updFan n f).free = s.free := rfl

/-! ## setFword -/

@[simp] theorem State.setFword_pending (w : Nat) (v : FWord) : (s.setFword w v).pending = s.pending := rfl
@[simp] theorem State.setFword_doors (w : Nat) (v : FWord) : (s.setFword w v).doors = s.doors := rfl
@[simp] theorem State.setFword_tens (w : Nat) (v : FWord) : (s.setFword w v).tens = s.tens := rfl
@[simp] theorem State.setFword_runs (w : Nat) (v : FWord) : (s.setFword w v).runs = s.runs := rfl
@[simp] theorem State.setFword_portA (w : Nat) (v : FWord) : (s.setFword w v).portA = s.portA := rfl
@[simp] theorem State.setFword_portB (w : Nat) (v : FWord) : (s.setFword w v).portB = s.portB := rfl
@[simp] theorem State.setFword_tick (w : Nat) (v : FWord) : (s.setFword w v).tick = s.tick := rfl
@[simp] theorem State.setFword_grants (w : Nat) (v : FWord) : (s.setFword w v).grants = s.grants := rfl
@[simp] theorem State.setFword_sys (w : Nat) (v : FWord) : (s.setFword w v).sys = s.sys := rfl
@[simp] theorem State.setFword_pwr (w : Nat) (v : FWord) : (s.setFword w v).pwr = s.pwr := rfl
@[simp] theorem State.setFword_seq (w : Nat) (v : FWord) : (s.setFword w v).seq = s.seq := rfl
@[simp] theorem State.setFword_disp (w : Nat) (v : FWord) : (s.setFword w v).disp = s.disp := rfl
@[simp] theorem State.setFword_lamps (w : Nat) (v : FWord) : (s.setFword w v).lamps = s.lamps := rfl
@[simp] theorem State.setFword_engines (w : Nat) (v : FWord) : (s.setFword w v).engines = s.engines := rfl
@[simp] theorem State.setFword_keys (w : Nat) (v : FWord) : (s.setFword w v).keys = s.keys := rfl
@[simp] theorem State.setFword_adc (w : Nat) (v : FWord) : (s.setFword w v).adc = s.adc := rfl
@[simp] theorem State.setFword_therm (w : Nat) (v : FWord) : (s.setFword w v).therm = s.therm := rfl
@[simp] theorem State.setFword_prot (w : Nat) (v : FWord) : (s.setFword w v).prot = s.prot := rfl
@[simp] theorem State.setFword_link (w : Nat) (v : FWord) : (s.setFword w v).link = s.link := rfl
@[simp] theorem State.setFword_tests (w : Nat) (v : FWord) : (s.setFword w v).tests = s.tests := rfl
@[simp] theorem State.setFword_dbg (w : Nat) (v : FWord) : (s.setFword w v).dbg = s.dbg := rfl
@[simp] theorem State.setFword_held (w : Nat) (v : FWord) : (s.setFword w v).held = s.held := rfl
@[simp] theorem State.setFword_after (w : Nat) (v : FWord) : (s.setFword w v).after = s.after := rfl
@[simp] theorem State.setFword_keyStage (w : Nat) (v : FWord) : (s.setFword w v).keyStage = s.keyStage := rfl
@[simp] theorem State.setFword_secTen (w : Nat) (v : FWord) : (s.setFword w v).secTen = s.secTen := rfl
@[simp] theorem State.setFword_nextRun (w : Nat) (v : FWord) : (s.setFword w v).nextRun = s.nextRun := rfl
@[simp] theorem State.setFword_waiting (w : Nat) (v : FWord) : (s.setFword w v).waiting = s.waiting := rfl
@[simp] theorem State.setFword_part (w : Nat) (v : FWord) : (s.setFword w v).part = s.part := rfl
@[simp] theorem State.setFword_regs (w : Nat) (v : FWord) : (s.setFword w v).regs = s.regs := rfl
@[simp] theorem State.setFword_mem (w : Nat) (v : FWord) : (s.setFword w v).mem = s.mem := rfl
@[simp] theorem State.setFword_ecc (w : Nat) (v : FWord) : (s.setFword w v).ecc = s.ecc := rfl
@[simp] theorem State.setFword_chk (w : Nat) (v : FWord) : (s.setFword w v).chk = s.chk := rfl
@[simp] theorem State.setFword_ksnap (w : Nat) (v : FWord) : (s.setFword w v).ksnap = s.ksnap := rfl
@[simp] theorem State.setFword_sealed (w : Nat) (v : FWord) : (s.setFword w v).sealed = s.sealed := rfl
@[simp] theorem State.setFword_rdata (w : Nat) (v : FWord) : (s.setFword w v).rdata = s.rdata := rfl
@[simp] theorem State.setFword_free (w : Nat) (v : FWord) : (s.setFword w v).free = s.free := rfl

/-! ## drawn -/

@[simp] theorem State.drawn_pending : (s.drawn).pending = s.pending := rfl
@[simp] theorem State.drawn_doors : (s.drawn).doors = s.doors := rfl
@[simp] theorem State.drawn_tens : (s.drawn).tens = s.tens := rfl
@[simp] theorem State.drawn_runs : (s.drawn).runs = s.runs := rfl
@[simp] theorem State.drawn_portA : (s.drawn).portA = s.portA := rfl
@[simp] theorem State.drawn_portB : (s.drawn).portB = s.portB := rfl
@[simp] theorem State.drawn_tick : (s.drawn).tick = s.tick := rfl
@[simp] theorem State.drawn_grants : (s.drawn).grants = s.grants := rfl
@[simp] theorem State.drawn_sys : (s.drawn).sys = s.sys := rfl
@[simp] theorem State.drawn_pwr : (s.drawn).pwr = s.pwr := rfl
@[simp] theorem State.drawn_seq : (s.drawn).seq = s.seq := rfl
@[simp] theorem State.drawn_disp : (s.drawn).disp = s.disp := rfl
@[simp] theorem State.drawn_lamps : (s.drawn).lamps = s.lamps := rfl
@[simp] theorem State.drawn_engines : (s.drawn).engines = s.engines := rfl
@[simp] theorem State.drawn_keys : (s.drawn).keys = s.keys := rfl
@[simp] theorem State.drawn_adc : (s.drawn).adc = s.adc := rfl
@[simp] theorem State.drawn_therm : (s.drawn).therm = s.therm := rfl
@[simp] theorem State.drawn_prot : (s.drawn).prot = s.prot := rfl
@[simp] theorem State.drawn_flash : (s.drawn).flash = s.flash := rfl
@[simp] theorem State.drawn_link : (s.drawn).link = s.link := rfl
@[simp] theorem State.drawn_tests : (s.drawn).tests = s.tests := rfl
@[simp] theorem State.drawn_dbg : (s.drawn).dbg = s.dbg := rfl
@[simp] theorem State.drawn_held : (s.drawn).held = s.held := rfl
@[simp] theorem State.drawn_after : (s.drawn).after = s.after := rfl
@[simp] theorem State.drawn_keyStage : (s.drawn).keyStage = s.keyStage := rfl
@[simp] theorem State.drawn_secTen : (s.drawn).secTen = s.secTen := rfl
@[simp] theorem State.drawn_nextRun : (s.drawn).nextRun = s.nextRun := rfl
@[simp] theorem State.drawn_waiting : (s.drawn).waiting = s.waiting := rfl
@[simp] theorem State.drawn_part : (s.drawn).part = s.part := rfl
@[simp] theorem State.drawn_regs : (s.drawn).regs = s.regs := rfl
@[simp] theorem State.drawn_mem : (s.drawn).mem = s.mem := rfl
@[simp] theorem State.drawn_ecc : (s.drawn).ecc = s.ecc := rfl
@[simp] theorem State.drawn_chk : (s.drawn).chk = s.chk := rfl
@[simp] theorem State.drawn_ksnap : (s.drawn).ksnap = s.ksnap := rfl
@[simp] theorem State.drawn_sealed : (s.drawn).sealed = s.sealed := rfl
@[simp] theorem State.drawn_rdata : (s.drawn).rdata = s.rdata := rfl
@[simp] theorem State.drawn_free : (s.drawn).free = s.free + 1 := rfl

/-! ## wrByte -/

@[simp] theorem State.wrByte_pending (a : Nat) (b : Byte) : (s.wrByte a b).pending = s.pending := rfl
@[simp] theorem State.wrByte_doors (a : Nat) (b : Byte) : (s.wrByte a b).doors = s.doors := rfl
@[simp] theorem State.wrByte_tens (a : Nat) (b : Byte) : (s.wrByte a b).tens = s.tens := rfl
@[simp] theorem State.wrByte_runs (a : Nat) (b : Byte) : (s.wrByte a b).runs = s.runs := rfl
@[simp] theorem State.wrByte_portA (a : Nat) (b : Byte) : (s.wrByte a b).portA = s.portA := rfl
@[simp] theorem State.wrByte_portB (a : Nat) (b : Byte) : (s.wrByte a b).portB = s.portB := rfl
@[simp] theorem State.wrByte_tick (a : Nat) (b : Byte) : (s.wrByte a b).tick = s.tick := rfl
@[simp] theorem State.wrByte_grants (a : Nat) (b : Byte) : (s.wrByte a b).grants = s.grants := rfl
@[simp] theorem State.wrByte_sys (a : Nat) (b : Byte) : (s.wrByte a b).sys = s.sys := rfl
@[simp] theorem State.wrByte_pwr (a : Nat) (b : Byte) : (s.wrByte a b).pwr = s.pwr := rfl
@[simp] theorem State.wrByte_seq (a : Nat) (b : Byte) : (s.wrByte a b).seq = s.seq := rfl
@[simp] theorem State.wrByte_disp (a : Nat) (b : Byte) : (s.wrByte a b).disp = s.disp := rfl
@[simp] theorem State.wrByte_lamps (a : Nat) (b : Byte) : (s.wrByte a b).lamps = s.lamps := rfl
@[simp] theorem State.wrByte_engines (a : Nat) (b : Byte) : (s.wrByte a b).engines = s.engines := rfl
@[simp] theorem State.wrByte_keys (a : Nat) (b : Byte) : (s.wrByte a b).keys = s.keys := rfl
@[simp] theorem State.wrByte_adc (a : Nat) (b : Byte) : (s.wrByte a b).adc = s.adc := rfl
@[simp] theorem State.wrByte_therm (a : Nat) (b : Byte) : (s.wrByte a b).therm = s.therm := rfl
@[simp] theorem State.wrByte_prot (a : Nat) (b : Byte) : (s.wrByte a b).prot = s.prot := rfl
@[simp] theorem State.wrByte_flash (a : Nat) (b : Byte) : (s.wrByte a b).flash = s.flash := rfl
@[simp] theorem State.wrByte_link (a : Nat) (b : Byte) : (s.wrByte a b).link = s.link := rfl
@[simp] theorem State.wrByte_tests (a : Nat) (b : Byte) : (s.wrByte a b).tests = s.tests := rfl
@[simp] theorem State.wrByte_dbg (a : Nat) (b : Byte) : (s.wrByte a b).dbg = s.dbg := rfl
@[simp] theorem State.wrByte_held (a : Nat) (b : Byte) : (s.wrByte a b).held = s.held := rfl
@[simp] theorem State.wrByte_after (a : Nat) (b : Byte) : (s.wrByte a b).after = s.after := rfl
@[simp] theorem State.wrByte_keyStage (a : Nat) (b : Byte) : (s.wrByte a b).keyStage = s.keyStage := rfl
@[simp] theorem State.wrByte_secTen (a : Nat) (b : Byte) : (s.wrByte a b).secTen = s.secTen := rfl
@[simp] theorem State.wrByte_nextRun (a : Nat) (b : Byte) : (s.wrByte a b).nextRun = s.nextRun := rfl
@[simp] theorem State.wrByte_waiting (a : Nat) (b : Byte) : (s.wrByte a b).waiting = s.waiting := rfl
@[simp] theorem State.wrByte_part (a : Nat) (b : Byte) : (s.wrByte a b).part = s.part := rfl
@[simp] theorem State.wrByte_regs (a : Nat) (b : Byte) : (s.wrByte a b).regs = s.regs := rfl
@[simp] theorem State.wrByte_mem (a : Nat) (b : Byte) : (s.wrByte a b).mem = SMap.set memDefault s.mem a b := rfl
@[simp] theorem State.wrByte_ecc (a : Nat) (b : Byte) : (s.wrByte a b).ecc = s.ecc := rfl
@[simp] theorem State.wrByte_chk (a : Nat) (b : Byte) : (s.wrByte a b).chk = s.chk := rfl
@[simp] theorem State.wrByte_ksnap (a : Nat) (b : Byte) : (s.wrByte a b).ksnap = s.ksnap := rfl
@[simp] theorem State.wrByte_sealed (a : Nat) (b : Byte) : (s.wrByte a b).sealed = s.sealed := rfl
@[simp] theorem State.wrByte_rdata (a : Nat) (b : Byte) : (s.wrByte a b).rdata = s.rdata := rfl
@[simp] theorem State.wrByte_free (a : Nat) (b : Byte) : (s.wrByte a b).free = s.free := rfl

/-! ## setEcc -/

@[simp] theorem State.setEcc_pending (k : Nat) (e : EccSt) : (s.setEcc k e).pending = s.pending := rfl
@[simp] theorem State.setEcc_doors (k : Nat) (e : EccSt) : (s.setEcc k e).doors = s.doors := rfl
@[simp] theorem State.setEcc_tens (k : Nat) (e : EccSt) : (s.setEcc k e).tens = s.tens := rfl
@[simp] theorem State.setEcc_runs (k : Nat) (e : EccSt) : (s.setEcc k e).runs = s.runs := rfl
@[simp] theorem State.setEcc_portA (k : Nat) (e : EccSt) : (s.setEcc k e).portA = s.portA := rfl
@[simp] theorem State.setEcc_portB (k : Nat) (e : EccSt) : (s.setEcc k e).portB = s.portB := rfl
@[simp] theorem State.setEcc_tick (k : Nat) (e : EccSt) : (s.setEcc k e).tick = s.tick := rfl
@[simp] theorem State.setEcc_grants (k : Nat) (e : EccSt) : (s.setEcc k e).grants = s.grants := rfl
@[simp] theorem State.setEcc_sys (k : Nat) (e : EccSt) : (s.setEcc k e).sys = s.sys := rfl
@[simp] theorem State.setEcc_pwr (k : Nat) (e : EccSt) : (s.setEcc k e).pwr = s.pwr := rfl
@[simp] theorem State.setEcc_seq (k : Nat) (e : EccSt) : (s.setEcc k e).seq = s.seq := rfl
@[simp] theorem State.setEcc_disp (k : Nat) (e : EccSt) : (s.setEcc k e).disp = s.disp := rfl
@[simp] theorem State.setEcc_lamps (k : Nat) (e : EccSt) : (s.setEcc k e).lamps = s.lamps := rfl
@[simp] theorem State.setEcc_engines (k : Nat) (e : EccSt) : (s.setEcc k e).engines = s.engines := rfl
@[simp] theorem State.setEcc_keys (k : Nat) (e : EccSt) : (s.setEcc k e).keys = s.keys := rfl
@[simp] theorem State.setEcc_adc (k : Nat) (e : EccSt) : (s.setEcc k e).adc = s.adc := rfl
@[simp] theorem State.setEcc_therm (k : Nat) (e : EccSt) : (s.setEcc k e).therm = s.therm := rfl
@[simp] theorem State.setEcc_prot (k : Nat) (e : EccSt) : (s.setEcc k e).prot = s.prot := rfl
@[simp] theorem State.setEcc_flash (k : Nat) (e : EccSt) : (s.setEcc k e).flash = s.flash := rfl
@[simp] theorem State.setEcc_link (k : Nat) (e : EccSt) : (s.setEcc k e).link = s.link := rfl
@[simp] theorem State.setEcc_tests (k : Nat) (e : EccSt) : (s.setEcc k e).tests = s.tests := rfl
@[simp] theorem State.setEcc_dbg (k : Nat) (e : EccSt) : (s.setEcc k e).dbg = s.dbg := rfl
@[simp] theorem State.setEcc_held (k : Nat) (e : EccSt) : (s.setEcc k e).held = s.held := rfl
@[simp] theorem State.setEcc_after (k : Nat) (e : EccSt) : (s.setEcc k e).after = s.after := rfl
@[simp] theorem State.setEcc_keyStage (k : Nat) (e : EccSt) : (s.setEcc k e).keyStage = s.keyStage := rfl
@[simp] theorem State.setEcc_secTen (k : Nat) (e : EccSt) : (s.setEcc k e).secTen = s.secTen := rfl
@[simp] theorem State.setEcc_nextRun (k : Nat) (e : EccSt) : (s.setEcc k e).nextRun = s.nextRun := rfl
@[simp] theorem State.setEcc_waiting (k : Nat) (e : EccSt) : (s.setEcc k e).waiting = s.waiting := rfl
@[simp] theorem State.setEcc_part (k : Nat) (e : EccSt) : (s.setEcc k e).part = s.part := rfl
@[simp] theorem State.setEcc_regs (k : Nat) (e : EccSt) : (s.setEcc k e).regs = s.regs := rfl
@[simp] theorem State.setEcc_mem (k : Nat) (e : EccSt) : (s.setEcc k e).mem = s.mem := rfl
@[simp] theorem State.setEcc_chk (k : Nat) (e : EccSt) : (s.setEcc k e).chk = s.chk := rfl
@[simp] theorem State.setEcc_ksnap (k : Nat) (e : EccSt) : (s.setEcc k e).ksnap = s.ksnap := rfl
@[simp] theorem State.setEcc_sealed (k : Nat) (e : EccSt) : (s.setEcc k e).sealed = s.sealed := rfl
@[simp] theorem State.setEcc_rdata (k : Nat) (e : EccSt) : (s.setEcc k e).rdata = s.rdata := rfl
@[simp] theorem State.setEcc_free (k : Nat) (e : EccSt) : (s.setEcc k e).free = s.free := rfl

/-! ## setChk -/

@[simp] theorem State.setChk_pending (bank c : Nat) (v : Word) : (s.setChk bank c v).pending = s.pending := rfl
@[simp] theorem State.setChk_doors (bank c : Nat) (v : Word) : (s.setChk bank c v).doors = s.doors := rfl
@[simp] theorem State.setChk_tens (bank c : Nat) (v : Word) : (s.setChk bank c v).tens = s.tens := rfl
@[simp] theorem State.setChk_runs (bank c : Nat) (v : Word) : (s.setChk bank c v).runs = s.runs := rfl
@[simp] theorem State.setChk_portA (bank c : Nat) (v : Word) : (s.setChk bank c v).portA = s.portA := rfl
@[simp] theorem State.setChk_portB (bank c : Nat) (v : Word) : (s.setChk bank c v).portB = s.portB := rfl
@[simp] theorem State.setChk_tick (bank c : Nat) (v : Word) : (s.setChk bank c v).tick = s.tick := rfl
@[simp] theorem State.setChk_grants (bank c : Nat) (v : Word) : (s.setChk bank c v).grants = s.grants := rfl
@[simp] theorem State.setChk_sys (bank c : Nat) (v : Word) : (s.setChk bank c v).sys = s.sys := rfl
@[simp] theorem State.setChk_pwr (bank c : Nat) (v : Word) : (s.setChk bank c v).pwr = s.pwr := rfl
@[simp] theorem State.setChk_seq (bank c : Nat) (v : Word) : (s.setChk bank c v).seq = s.seq := rfl
@[simp] theorem State.setChk_disp (bank c : Nat) (v : Word) : (s.setChk bank c v).disp = s.disp := rfl
@[simp] theorem State.setChk_lamps (bank c : Nat) (v : Word) : (s.setChk bank c v).lamps = s.lamps := rfl
@[simp] theorem State.setChk_engines (bank c : Nat) (v : Word) : (s.setChk bank c v).engines = s.engines := rfl
@[simp] theorem State.setChk_keys (bank c : Nat) (v : Word) : (s.setChk bank c v).keys = s.keys := rfl
@[simp] theorem State.setChk_adc (bank c : Nat) (v : Word) : (s.setChk bank c v).adc = s.adc := rfl
@[simp] theorem State.setChk_therm (bank c : Nat) (v : Word) : (s.setChk bank c v).therm = s.therm := rfl
@[simp] theorem State.setChk_prot (bank c : Nat) (v : Word) : (s.setChk bank c v).prot = s.prot := rfl
@[simp] theorem State.setChk_flash (bank c : Nat) (v : Word) : (s.setChk bank c v).flash = s.flash := rfl
@[simp] theorem State.setChk_link (bank c : Nat) (v : Word) : (s.setChk bank c v).link = s.link := rfl
@[simp] theorem State.setChk_tests (bank c : Nat) (v : Word) : (s.setChk bank c v).tests = s.tests := rfl
@[simp] theorem State.setChk_dbg (bank c : Nat) (v : Word) : (s.setChk bank c v).dbg = s.dbg := rfl
@[simp] theorem State.setChk_held (bank c : Nat) (v : Word) : (s.setChk bank c v).held = s.held := rfl
@[simp] theorem State.setChk_after (bank c : Nat) (v : Word) : (s.setChk bank c v).after = s.after := rfl
@[simp] theorem State.setChk_keyStage (bank c : Nat) (v : Word) : (s.setChk bank c v).keyStage = s.keyStage := rfl
@[simp] theorem State.setChk_secTen (bank c : Nat) (v : Word) : (s.setChk bank c v).secTen = s.secTen := rfl
@[simp] theorem State.setChk_nextRun (bank c : Nat) (v : Word) : (s.setChk bank c v).nextRun = s.nextRun := rfl
@[simp] theorem State.setChk_waiting (bank c : Nat) (v : Word) : (s.setChk bank c v).waiting = s.waiting := rfl
@[simp] theorem State.setChk_part (bank c : Nat) (v : Word) : (s.setChk bank c v).part = s.part := rfl
@[simp] theorem State.setChk_regs (bank c : Nat) (v : Word) : (s.setChk bank c v).regs = s.regs := rfl
@[simp] theorem State.setChk_mem (bank c : Nat) (v : Word) : (s.setChk bank c v).mem = s.mem := rfl
@[simp] theorem State.setChk_ksnap (bank c : Nat) (v : Word) : (s.setChk bank c v).ksnap = s.ksnap := rfl
@[simp] theorem State.setChk_sealed (bank c : Nat) (v : Word) : (s.setChk bank c v).sealed = s.sealed := rfl
@[simp] theorem State.setChk_rdata (bank c : Nat) (v : Word) : (s.setChk bank c v).rdata = s.rdata := rfl
@[simp] theorem State.setChk_free (bank c : Nat) (v : Word) : (s.setChk bank c v).free = s.free := rfl

/-! ## zeroMem -/

@[simp] theorem State.zeroMem_pending (lo hi : Nat) : (s.zeroMem lo hi).pending = s.pending := rfl
@[simp] theorem State.zeroMem_doors (lo hi : Nat) : (s.zeroMem lo hi).doors = s.doors := rfl
@[simp] theorem State.zeroMem_tens (lo hi : Nat) : (s.zeroMem lo hi).tens = s.tens := rfl
@[simp] theorem State.zeroMem_runs (lo hi : Nat) : (s.zeroMem lo hi).runs = s.runs := rfl
@[simp] theorem State.zeroMem_portA (lo hi : Nat) : (s.zeroMem lo hi).portA = s.portA := rfl
@[simp] theorem State.zeroMem_portB (lo hi : Nat) : (s.zeroMem lo hi).portB = s.portB := rfl
@[simp] theorem State.zeroMem_tick (lo hi : Nat) : (s.zeroMem lo hi).tick = s.tick := rfl
@[simp] theorem State.zeroMem_grants (lo hi : Nat) : (s.zeroMem lo hi).grants = s.grants := rfl
@[simp] theorem State.zeroMem_sys (lo hi : Nat) : (s.zeroMem lo hi).sys = s.sys := rfl
@[simp] theorem State.zeroMem_pwr (lo hi : Nat) : (s.zeroMem lo hi).pwr = s.pwr := rfl
@[simp] theorem State.zeroMem_seq (lo hi : Nat) : (s.zeroMem lo hi).seq = s.seq := rfl
@[simp] theorem State.zeroMem_disp (lo hi : Nat) : (s.zeroMem lo hi).disp = s.disp := rfl
@[simp] theorem State.zeroMem_lamps (lo hi : Nat) : (s.zeroMem lo hi).lamps = s.lamps := rfl
@[simp] theorem State.zeroMem_engines (lo hi : Nat) : (s.zeroMem lo hi).engines = s.engines := rfl
@[simp] theorem State.zeroMem_keys (lo hi : Nat) : (s.zeroMem lo hi).keys = s.keys := rfl
@[simp] theorem State.zeroMem_adc (lo hi : Nat) : (s.zeroMem lo hi).adc = s.adc := rfl
@[simp] theorem State.zeroMem_therm (lo hi : Nat) : (s.zeroMem lo hi).therm = s.therm := rfl
@[simp] theorem State.zeroMem_prot (lo hi : Nat) : (s.zeroMem lo hi).prot = s.prot := rfl
@[simp] theorem State.zeroMem_flash (lo hi : Nat) : (s.zeroMem lo hi).flash = s.flash := rfl
@[simp] theorem State.zeroMem_link (lo hi : Nat) : (s.zeroMem lo hi).link = s.link := rfl
@[simp] theorem State.zeroMem_tests (lo hi : Nat) : (s.zeroMem lo hi).tests = s.tests := rfl
@[simp] theorem State.zeroMem_dbg (lo hi : Nat) : (s.zeroMem lo hi).dbg = s.dbg := rfl
@[simp] theorem State.zeroMem_held (lo hi : Nat) : (s.zeroMem lo hi).held = s.held := rfl
@[simp] theorem State.zeroMem_after (lo hi : Nat) : (s.zeroMem lo hi).after = s.after := rfl
@[simp] theorem State.zeroMem_keyStage (lo hi : Nat) : (s.zeroMem lo hi).keyStage = s.keyStage := rfl
@[simp] theorem State.zeroMem_secTen (lo hi : Nat) : (s.zeroMem lo hi).secTen = s.secTen := rfl
@[simp] theorem State.zeroMem_nextRun (lo hi : Nat) : (s.zeroMem lo hi).nextRun = s.nextRun := rfl
@[simp] theorem State.zeroMem_waiting (lo hi : Nat) : (s.zeroMem lo hi).waiting = s.waiting := rfl
@[simp] theorem State.zeroMem_part (lo hi : Nat) : (s.zeroMem lo hi).part = s.part := rfl
@[simp] theorem State.zeroMem_regs (lo hi : Nat) : (s.zeroMem lo hi).regs = s.regs := rfl
@[simp] theorem State.zeroMem_mem (lo hi : Nat) : (s.zeroMem lo hi).mem = SMap.clear s.mem lo hi := rfl
@[simp] theorem State.zeroMem_chk (lo hi : Nat) : (s.zeroMem lo hi).chk = s.chk := rfl
@[simp] theorem State.zeroMem_ksnap (lo hi : Nat) : (s.zeroMem lo hi).ksnap = s.ksnap := rfl
@[simp] theorem State.zeroMem_sealed (lo hi : Nat) : (s.zeroMem lo hi).sealed = s.sealed := rfl
@[simp] theorem State.zeroMem_rdata (lo hi : Nat) : (s.zeroMem lo hi).rdata = s.rdata := rfl
@[simp] theorem State.zeroMem_free (lo hi : Nat) : (s.zeroMem lo hi).free = s.free := rfl

/-! ## setReg -/

@[simp] theorem State.setReg_pending (a : Nat) (v : Word) : (s.setReg a v).pending = s.pending := rfl
@[simp] theorem State.setReg_doors (a : Nat) (v : Word) : (s.setReg a v).doors = s.doors := rfl
@[simp] theorem State.setReg_tens (a : Nat) (v : Word) : (s.setReg a v).tens = s.tens := rfl
@[simp] theorem State.setReg_runs (a : Nat) (v : Word) : (s.setReg a v).runs = s.runs := rfl
@[simp] theorem State.setReg_portA (a : Nat) (v : Word) : (s.setReg a v).portA = s.portA := rfl
@[simp] theorem State.setReg_portB (a : Nat) (v : Word) : (s.setReg a v).portB = s.portB := rfl
@[simp] theorem State.setReg_tick (a : Nat) (v : Word) : (s.setReg a v).tick = s.tick := rfl
@[simp] theorem State.setReg_grants (a : Nat) (v : Word) : (s.setReg a v).grants = s.grants := rfl
@[simp] theorem State.setReg_sys (a : Nat) (v : Word) : (s.setReg a v).sys = s.sys := rfl
@[simp] theorem State.setReg_pwr (a : Nat) (v : Word) : (s.setReg a v).pwr = s.pwr := rfl
@[simp] theorem State.setReg_seq (a : Nat) (v : Word) : (s.setReg a v).seq = s.seq := rfl
@[simp] theorem State.setReg_disp (a : Nat) (v : Word) : (s.setReg a v).disp = s.disp := rfl
@[simp] theorem State.setReg_lamps (a : Nat) (v : Word) : (s.setReg a v).lamps = s.lamps := rfl
@[simp] theorem State.setReg_engines (a : Nat) (v : Word) : (s.setReg a v).engines = s.engines := rfl
@[simp] theorem State.setReg_keys (a : Nat) (v : Word) : (s.setReg a v).keys = s.keys := rfl
@[simp] theorem State.setReg_adc (a : Nat) (v : Word) : (s.setReg a v).adc = s.adc := rfl
@[simp] theorem State.setReg_therm (a : Nat) (v : Word) : (s.setReg a v).therm = s.therm := rfl
@[simp] theorem State.setReg_prot (a : Nat) (v : Word) : (s.setReg a v).prot = s.prot := rfl
@[simp] theorem State.setReg_flash (a : Nat) (v : Word) : (s.setReg a v).flash = s.flash := rfl
@[simp] theorem State.setReg_link (a : Nat) (v : Word) : (s.setReg a v).link = s.link := rfl
@[simp] theorem State.setReg_tests (a : Nat) (v : Word) : (s.setReg a v).tests = s.tests := rfl
@[simp] theorem State.setReg_dbg (a : Nat) (v : Word) : (s.setReg a v).dbg = s.dbg := rfl
@[simp] theorem State.setReg_held (a : Nat) (v : Word) : (s.setReg a v).held = s.held := rfl
@[simp] theorem State.setReg_after (a : Nat) (v : Word) : (s.setReg a v).after = s.after := rfl
@[simp] theorem State.setReg_keyStage (a : Nat) (v : Word) : (s.setReg a v).keyStage = s.keyStage := rfl
@[simp] theorem State.setReg_secTen (a : Nat) (v : Word) : (s.setReg a v).secTen = s.secTen := rfl
@[simp] theorem State.setReg_nextRun (a : Nat) (v : Word) : (s.setReg a v).nextRun = s.nextRun := rfl
@[simp] theorem State.setReg_waiting (a : Nat) (v : Word) : (s.setReg a v).waiting = s.waiting := rfl
@[simp] theorem State.setReg_part (a : Nat) (v : Word) : (s.setReg a v).part = s.part := rfl
@[simp] theorem State.setReg_mem (a : Nat) (v : Word) : (s.setReg a v).mem = s.mem := rfl
@[simp] theorem State.setReg_ecc (a : Nat) (v : Word) : (s.setReg a v).ecc = s.ecc := rfl
@[simp] theorem State.setReg_chk (a : Nat) (v : Word) : (s.setReg a v).chk = s.chk := rfl
@[simp] theorem State.setReg_ksnap (a : Nat) (v : Word) : (s.setReg a v).ksnap = s.ksnap := rfl
@[simp] theorem State.setReg_sealed (a : Nat) (v : Word) : (s.setReg a v).sealed = s.sealed := rfl
@[simp] theorem State.setReg_rdata (a : Nat) (v : Word) : (s.setReg a v).rdata = s.rdata := rfl
@[simp] theorem State.setReg_free (a : Nat) (v : Word) : (s.setReg a v).free = s.free := rfl

/-! ## updTick -/

@[simp] theorem State.updTick_pending (f : Tick → Tick) : (s.updTick f).pending = s.pending := rfl
@[simp] theorem State.updTick_doors (f : Tick → Tick) : (s.updTick f).doors = s.doors := rfl
@[simp] theorem State.updTick_tens (f : Tick → Tick) : (s.updTick f).tens = s.tens := rfl
@[simp] theorem State.updTick_runs (f : Tick → Tick) : (s.updTick f).runs = s.runs := rfl
@[simp] theorem State.updTick_portA (f : Tick → Tick) : (s.updTick f).portA = s.portA := rfl
@[simp] theorem State.updTick_portB (f : Tick → Tick) : (s.updTick f).portB = s.portB := rfl
@[simp] theorem State.updTick_tick (f : Tick → Tick) : (s.updTick f).tick = f s.tick := rfl
@[simp] theorem State.updTick_grants (f : Tick → Tick) : (s.updTick f).grants = s.grants := rfl
@[simp] theorem State.updTick_sys (f : Tick → Tick) : (s.updTick f).sys = s.sys := rfl
@[simp] theorem State.updTick_pwr (f : Tick → Tick) : (s.updTick f).pwr = s.pwr := rfl
@[simp] theorem State.updTick_seq (f : Tick → Tick) : (s.updTick f).seq = s.seq := rfl
@[simp] theorem State.updTick_disp (f : Tick → Tick) : (s.updTick f).disp = s.disp := rfl
@[simp] theorem State.updTick_lamps (f : Tick → Tick) : (s.updTick f).lamps = s.lamps := rfl
@[simp] theorem State.updTick_engines (f : Tick → Tick) : (s.updTick f).engines = s.engines := rfl
@[simp] theorem State.updTick_keys (f : Tick → Tick) : (s.updTick f).keys = s.keys := rfl
@[simp] theorem State.updTick_adc (f : Tick → Tick) : (s.updTick f).adc = s.adc := rfl
@[simp] theorem State.updTick_therm (f : Tick → Tick) : (s.updTick f).therm = s.therm := rfl
@[simp] theorem State.updTick_prot (f : Tick → Tick) : (s.updTick f).prot = s.prot := rfl
@[simp] theorem State.updTick_flash (f : Tick → Tick) : (s.updTick f).flash = s.flash := rfl
@[simp] theorem State.updTick_link (f : Tick → Tick) : (s.updTick f).link = s.link := rfl
@[simp] theorem State.updTick_tests (f : Tick → Tick) : (s.updTick f).tests = s.tests := rfl
@[simp] theorem State.updTick_dbg (f : Tick → Tick) : (s.updTick f).dbg = s.dbg := rfl
@[simp] theorem State.updTick_held (f : Tick → Tick) : (s.updTick f).held = s.held := rfl
@[simp] theorem State.updTick_after (f : Tick → Tick) : (s.updTick f).after = s.after := rfl
@[simp] theorem State.updTick_keyStage (f : Tick → Tick) : (s.updTick f).keyStage = s.keyStage := rfl
@[simp] theorem State.updTick_secTen (f : Tick → Tick) : (s.updTick f).secTen = s.secTen := rfl
@[simp] theorem State.updTick_nextRun (f : Tick → Tick) : (s.updTick f).nextRun = s.nextRun := rfl
@[simp] theorem State.updTick_waiting (f : Tick → Tick) : (s.updTick f).waiting = s.waiting := rfl
@[simp] theorem State.updTick_part (f : Tick → Tick) : (s.updTick f).part = s.part := rfl
@[simp] theorem State.updTick_regs (f : Tick → Tick) : (s.updTick f).regs = s.regs := rfl
@[simp] theorem State.updTick_mem (f : Tick → Tick) : (s.updTick f).mem = s.mem := rfl
@[simp] theorem State.updTick_ecc (f : Tick → Tick) : (s.updTick f).ecc = s.ecc := rfl
@[simp] theorem State.updTick_chk (f : Tick → Tick) : (s.updTick f).chk = s.chk := rfl
@[simp] theorem State.updTick_ksnap (f : Tick → Tick) : (s.updTick f).ksnap = s.ksnap := rfl
@[simp] theorem State.updTick_sealed (f : Tick → Tick) : (s.updTick f).sealed = s.sealed := rfl
@[simp] theorem State.updTick_rdata (f : Tick → Tick) : (s.updTick f).rdata = s.rdata := rfl
@[simp] theorem State.updTick_free (f : Tick → Tick) : (s.updTick f).free = s.free := rfl

/-! ## updLink -/

@[simp] theorem State.updLink_pending (f : Link → Link) : (s.updLink f).pending = s.pending := rfl
@[simp] theorem State.updLink_doors (f : Link → Link) : (s.updLink f).doors = s.doors := rfl
@[simp] theorem State.updLink_tens (f : Link → Link) : (s.updLink f).tens = s.tens := rfl
@[simp] theorem State.updLink_runs (f : Link → Link) : (s.updLink f).runs = s.runs := rfl
@[simp] theorem State.updLink_portA (f : Link → Link) : (s.updLink f).portA = s.portA := rfl
@[simp] theorem State.updLink_portB (f : Link → Link) : (s.updLink f).portB = s.portB := rfl
@[simp] theorem State.updLink_tick (f : Link → Link) : (s.updLink f).tick = s.tick := rfl
@[simp] theorem State.updLink_grants (f : Link → Link) : (s.updLink f).grants = s.grants := rfl
@[simp] theorem State.updLink_sys (f : Link → Link) : (s.updLink f).sys = s.sys := rfl
@[simp] theorem State.updLink_pwr (f : Link → Link) : (s.updLink f).pwr = s.pwr := rfl
@[simp] theorem State.updLink_seq (f : Link → Link) : (s.updLink f).seq = s.seq := rfl
@[simp] theorem State.updLink_disp (f : Link → Link) : (s.updLink f).disp = s.disp := rfl
@[simp] theorem State.updLink_lamps (f : Link → Link) : (s.updLink f).lamps = s.lamps := rfl
@[simp] theorem State.updLink_engines (f : Link → Link) : (s.updLink f).engines = s.engines := rfl
@[simp] theorem State.updLink_keys (f : Link → Link) : (s.updLink f).keys = s.keys := rfl
@[simp] theorem State.updLink_adc (f : Link → Link) : (s.updLink f).adc = s.adc := rfl
@[simp] theorem State.updLink_therm (f : Link → Link) : (s.updLink f).therm = s.therm := rfl
@[simp] theorem State.updLink_prot (f : Link → Link) : (s.updLink f).prot = s.prot := rfl
@[simp] theorem State.updLink_flash (f : Link → Link) : (s.updLink f).flash = s.flash := rfl
@[simp] theorem State.updLink_link (f : Link → Link) : (s.updLink f).link = f s.link := rfl
@[simp] theorem State.updLink_tests (f : Link → Link) : (s.updLink f).tests = s.tests := rfl
@[simp] theorem State.updLink_dbg (f : Link → Link) : (s.updLink f).dbg = s.dbg := rfl
@[simp] theorem State.updLink_held (f : Link → Link) : (s.updLink f).held = s.held := rfl
@[simp] theorem State.updLink_after (f : Link → Link) : (s.updLink f).after = s.after := rfl
@[simp] theorem State.updLink_keyStage (f : Link → Link) : (s.updLink f).keyStage = s.keyStage := rfl
@[simp] theorem State.updLink_secTen (f : Link → Link) : (s.updLink f).secTen = s.secTen := rfl
@[simp] theorem State.updLink_nextRun (f : Link → Link) : (s.updLink f).nextRun = s.nextRun := rfl
@[simp] theorem State.updLink_waiting (f : Link → Link) : (s.updLink f).waiting = s.waiting := rfl
@[simp] theorem State.updLink_part (f : Link → Link) : (s.updLink f).part = s.part := rfl
@[simp] theorem State.updLink_regs (f : Link → Link) : (s.updLink f).regs = s.regs := rfl
@[simp] theorem State.updLink_mem (f : Link → Link) : (s.updLink f).mem = s.mem := rfl
@[simp] theorem State.updLink_ecc (f : Link → Link) : (s.updLink f).ecc = s.ecc := rfl
@[simp] theorem State.updLink_chk (f : Link → Link) : (s.updLink f).chk = s.chk := rfl
@[simp] theorem State.updLink_ksnap (f : Link → Link) : (s.updLink f).ksnap = s.ksnap := rfl
@[simp] theorem State.updLink_sealed (f : Link → Link) : (s.updLink f).sealed = s.sealed := rfl
@[simp] theorem State.updLink_rdata (f : Link → Link) : (s.updLink f).rdata = s.rdata := rfl
@[simp] theorem State.updLink_free (f : Link → Link) : (s.updLink f).free = s.free := rfl

/-! ## updLport -/

@[simp] theorem State.updLport_pending (dn : Bool) (f : LinkPort → LinkPort) : (s.updLport dn f).pending = s.pending := rfl
@[simp] theorem State.updLport_doors (dn : Bool) (f : LinkPort → LinkPort) : (s.updLport dn f).doors = s.doors := rfl
@[simp] theorem State.updLport_tens (dn : Bool) (f : LinkPort → LinkPort) : (s.updLport dn f).tens = s.tens := rfl
@[simp] theorem State.updLport_runs (dn : Bool) (f : LinkPort → LinkPort) : (s.updLport dn f).runs = s.runs := rfl
@[simp] theorem State.updLport_portA (dn : Bool) (f : LinkPort → LinkPort) : (s.updLport dn f).portA = s.portA := rfl
@[simp] theorem State.updLport_portB (dn : Bool) (f : LinkPort → LinkPort) : (s.updLport dn f).portB = s.portB := rfl
@[simp] theorem State.updLport_tick (dn : Bool) (f : LinkPort → LinkPort) : (s.updLport dn f).tick = s.tick := rfl
@[simp] theorem State.updLport_grants (dn : Bool) (f : LinkPort → LinkPort) : (s.updLport dn f).grants = s.grants := rfl
@[simp] theorem State.updLport_sys (dn : Bool) (f : LinkPort → LinkPort) : (s.updLport dn f).sys = s.sys := rfl
@[simp] theorem State.updLport_pwr (dn : Bool) (f : LinkPort → LinkPort) : (s.updLport dn f).pwr = s.pwr := rfl
@[simp] theorem State.updLport_seq (dn : Bool) (f : LinkPort → LinkPort) : (s.updLport dn f).seq = s.seq := rfl
@[simp] theorem State.updLport_disp (dn : Bool) (f : LinkPort → LinkPort) : (s.updLport dn f).disp = s.disp := rfl
@[simp] theorem State.updLport_lamps (dn : Bool) (f : LinkPort → LinkPort) : (s.updLport dn f).lamps = s.lamps := rfl
@[simp] theorem State.updLport_engines (dn : Bool) (f : LinkPort → LinkPort) : (s.updLport dn f).engines = s.engines := rfl
@[simp] theorem State.updLport_keys (dn : Bool) (f : LinkPort → LinkPort) : (s.updLport dn f).keys = s.keys := rfl
@[simp] theorem State.updLport_adc (dn : Bool) (f : LinkPort → LinkPort) : (s.updLport dn f).adc = s.adc := rfl
@[simp] theorem State.updLport_therm (dn : Bool) (f : LinkPort → LinkPort) : (s.updLport dn f).therm = s.therm := rfl
@[simp] theorem State.updLport_prot (dn : Bool) (f : LinkPort → LinkPort) : (s.updLport dn f).prot = s.prot := rfl
@[simp] theorem State.updLport_flash (dn : Bool) (f : LinkPort → LinkPort) : (s.updLport dn f).flash = s.flash := rfl
@[simp] theorem State.updLport_tests (dn : Bool) (f : LinkPort → LinkPort) : (s.updLport dn f).tests = s.tests := rfl
@[simp] theorem State.updLport_dbg (dn : Bool) (f : LinkPort → LinkPort) : (s.updLport dn f).dbg = s.dbg := rfl
@[simp] theorem State.updLport_held (dn : Bool) (f : LinkPort → LinkPort) : (s.updLport dn f).held = s.held := rfl
@[simp] theorem State.updLport_after (dn : Bool) (f : LinkPort → LinkPort) : (s.updLport dn f).after = s.after := rfl
@[simp] theorem State.updLport_keyStage (dn : Bool) (f : LinkPort → LinkPort) : (s.updLport dn f).keyStage = s.keyStage := rfl
@[simp] theorem State.updLport_secTen (dn : Bool) (f : LinkPort → LinkPort) : (s.updLport dn f).secTen = s.secTen := rfl
@[simp] theorem State.updLport_nextRun (dn : Bool) (f : LinkPort → LinkPort) : (s.updLport dn f).nextRun = s.nextRun := rfl
@[simp] theorem State.updLport_waiting (dn : Bool) (f : LinkPort → LinkPort) : (s.updLport dn f).waiting = s.waiting := rfl
@[simp] theorem State.updLport_part (dn : Bool) (f : LinkPort → LinkPort) : (s.updLport dn f).part = s.part := rfl
@[simp] theorem State.updLport_regs (dn : Bool) (f : LinkPort → LinkPort) : (s.updLport dn f).regs = s.regs := rfl
@[simp] theorem State.updLport_mem (dn : Bool) (f : LinkPort → LinkPort) : (s.updLport dn f).mem = s.mem := rfl
@[simp] theorem State.updLport_ecc (dn : Bool) (f : LinkPort → LinkPort) : (s.updLport dn f).ecc = s.ecc := rfl
@[simp] theorem State.updLport_chk (dn : Bool) (f : LinkPort → LinkPort) : (s.updLport dn f).chk = s.chk := rfl
@[simp] theorem State.updLport_ksnap (dn : Bool) (f : LinkPort → LinkPort) : (s.updLport dn f).ksnap = s.ksnap := rfl
@[simp] theorem State.updLport_sealed (dn : Bool) (f : LinkPort → LinkPort) : (s.updLport dn f).sealed = s.sealed := rfl
@[simp] theorem State.updLport_rdata (dn : Bool) (f : LinkPort → LinkPort) : (s.updLport dn f).rdata = s.rdata := rfl
@[simp] theorem State.updLport_free (dn : Bool) (f : LinkPort → LinkPort) : (s.updLport dn f).free = s.free := rfl

/-! ## updCls -/

@[simp] theorem State.updCls_pending (dn rsp : Bool) (f : LinkCls → LinkCls) : (s.updCls dn rsp f).pending = s.pending := rfl
@[simp] theorem State.updCls_doors (dn rsp : Bool) (f : LinkCls → LinkCls) : (s.updCls dn rsp f).doors = s.doors := rfl
@[simp] theorem State.updCls_tens (dn rsp : Bool) (f : LinkCls → LinkCls) : (s.updCls dn rsp f).tens = s.tens := rfl
@[simp] theorem State.updCls_runs (dn rsp : Bool) (f : LinkCls → LinkCls) : (s.updCls dn rsp f).runs = s.runs := rfl
@[simp] theorem State.updCls_portA (dn rsp : Bool) (f : LinkCls → LinkCls) : (s.updCls dn rsp f).portA = s.portA := rfl
@[simp] theorem State.updCls_portB (dn rsp : Bool) (f : LinkCls → LinkCls) : (s.updCls dn rsp f).portB = s.portB := rfl
@[simp] theorem State.updCls_tick (dn rsp : Bool) (f : LinkCls → LinkCls) : (s.updCls dn rsp f).tick = s.tick := rfl
@[simp] theorem State.updCls_grants (dn rsp : Bool) (f : LinkCls → LinkCls) : (s.updCls dn rsp f).grants = s.grants := rfl
@[simp] theorem State.updCls_sys (dn rsp : Bool) (f : LinkCls → LinkCls) : (s.updCls dn rsp f).sys = s.sys := rfl
@[simp] theorem State.updCls_pwr (dn rsp : Bool) (f : LinkCls → LinkCls) : (s.updCls dn rsp f).pwr = s.pwr := rfl
@[simp] theorem State.updCls_seq (dn rsp : Bool) (f : LinkCls → LinkCls) : (s.updCls dn rsp f).seq = s.seq := rfl
@[simp] theorem State.updCls_disp (dn rsp : Bool) (f : LinkCls → LinkCls) : (s.updCls dn rsp f).disp = s.disp := rfl
@[simp] theorem State.updCls_lamps (dn rsp : Bool) (f : LinkCls → LinkCls) : (s.updCls dn rsp f).lamps = s.lamps := rfl
@[simp] theorem State.updCls_engines (dn rsp : Bool) (f : LinkCls → LinkCls) : (s.updCls dn rsp f).engines = s.engines := rfl
@[simp] theorem State.updCls_keys (dn rsp : Bool) (f : LinkCls → LinkCls) : (s.updCls dn rsp f).keys = s.keys := rfl
@[simp] theorem State.updCls_adc (dn rsp : Bool) (f : LinkCls → LinkCls) : (s.updCls dn rsp f).adc = s.adc := rfl
@[simp] theorem State.updCls_therm (dn rsp : Bool) (f : LinkCls → LinkCls) : (s.updCls dn rsp f).therm = s.therm := rfl
@[simp] theorem State.updCls_prot (dn rsp : Bool) (f : LinkCls → LinkCls) : (s.updCls dn rsp f).prot = s.prot := rfl
@[simp] theorem State.updCls_flash (dn rsp : Bool) (f : LinkCls → LinkCls) : (s.updCls dn rsp f).flash = s.flash := rfl
@[simp] theorem State.updCls_tests (dn rsp : Bool) (f : LinkCls → LinkCls) : (s.updCls dn rsp f).tests = s.tests := rfl
@[simp] theorem State.updCls_dbg (dn rsp : Bool) (f : LinkCls → LinkCls) : (s.updCls dn rsp f).dbg = s.dbg := rfl
@[simp] theorem State.updCls_held (dn rsp : Bool) (f : LinkCls → LinkCls) : (s.updCls dn rsp f).held = s.held := rfl
@[simp] theorem State.updCls_after (dn rsp : Bool) (f : LinkCls → LinkCls) : (s.updCls dn rsp f).after = s.after := rfl
@[simp] theorem State.updCls_keyStage (dn rsp : Bool) (f : LinkCls → LinkCls) : (s.updCls dn rsp f).keyStage = s.keyStage := rfl
@[simp] theorem State.updCls_secTen (dn rsp : Bool) (f : LinkCls → LinkCls) : (s.updCls dn rsp f).secTen = s.secTen := rfl
@[simp] theorem State.updCls_nextRun (dn rsp : Bool) (f : LinkCls → LinkCls) : (s.updCls dn rsp f).nextRun = s.nextRun := rfl
@[simp] theorem State.updCls_waiting (dn rsp : Bool) (f : LinkCls → LinkCls) : (s.updCls dn rsp f).waiting = s.waiting := rfl
@[simp] theorem State.updCls_part (dn rsp : Bool) (f : LinkCls → LinkCls) : (s.updCls dn rsp f).part = s.part := rfl
@[simp] theorem State.updCls_regs (dn rsp : Bool) (f : LinkCls → LinkCls) : (s.updCls dn rsp f).regs = s.regs := rfl
@[simp] theorem State.updCls_mem (dn rsp : Bool) (f : LinkCls → LinkCls) : (s.updCls dn rsp f).mem = s.mem := rfl
@[simp] theorem State.updCls_ecc (dn rsp : Bool) (f : LinkCls → LinkCls) : (s.updCls dn rsp f).ecc = s.ecc := rfl
@[simp] theorem State.updCls_chk (dn rsp : Bool) (f : LinkCls → LinkCls) : (s.updCls dn rsp f).chk = s.chk := rfl
@[simp] theorem State.updCls_ksnap (dn rsp : Bool) (f : LinkCls → LinkCls) : (s.updCls dn rsp f).ksnap = s.ksnap := rfl
@[simp] theorem State.updCls_sealed (dn rsp : Bool) (f : LinkCls → LinkCls) : (s.updCls dn rsp f).sealed = s.sealed := rfl
@[simp] theorem State.updCls_rdata (dn rsp : Bool) (f : LinkCls → LinkCls) : (s.updCls dn rsp f).rdata = s.rdata := rfl
@[simp] theorem State.updCls_free (dn rsp : Bool) (f : LinkCls → LinkCls) : (s.updCls dn rsp f).free = s.free := rfl

/-! ## updSending -/

@[simp] theorem State.updSending_pending (dn : Bool) (f : LinkCls → LinkCls) : (s.updSending dn f).pending = s.pending := rfl
@[simp] theorem State.updSending_doors (dn : Bool) (f : LinkCls → LinkCls) : (s.updSending dn f).doors = s.doors := rfl
@[simp] theorem State.updSending_tens (dn : Bool) (f : LinkCls → LinkCls) : (s.updSending dn f).tens = s.tens := rfl
@[simp] theorem State.updSending_runs (dn : Bool) (f : LinkCls → LinkCls) : (s.updSending dn f).runs = s.runs := rfl
@[simp] theorem State.updSending_portA (dn : Bool) (f : LinkCls → LinkCls) : (s.updSending dn f).portA = s.portA := rfl
@[simp] theorem State.updSending_portB (dn : Bool) (f : LinkCls → LinkCls) : (s.updSending dn f).portB = s.portB := rfl
@[simp] theorem State.updSending_tick (dn : Bool) (f : LinkCls → LinkCls) : (s.updSending dn f).tick = s.tick := rfl
@[simp] theorem State.updSending_grants (dn : Bool) (f : LinkCls → LinkCls) : (s.updSending dn f).grants = s.grants := rfl
@[simp] theorem State.updSending_sys (dn : Bool) (f : LinkCls → LinkCls) : (s.updSending dn f).sys = s.sys := rfl
@[simp] theorem State.updSending_pwr (dn : Bool) (f : LinkCls → LinkCls) : (s.updSending dn f).pwr = s.pwr := rfl
@[simp] theorem State.updSending_seq (dn : Bool) (f : LinkCls → LinkCls) : (s.updSending dn f).seq = s.seq := rfl
@[simp] theorem State.updSending_disp (dn : Bool) (f : LinkCls → LinkCls) : (s.updSending dn f).disp = s.disp := rfl
@[simp] theorem State.updSending_lamps (dn : Bool) (f : LinkCls → LinkCls) : (s.updSending dn f).lamps = s.lamps := rfl
@[simp] theorem State.updSending_engines (dn : Bool) (f : LinkCls → LinkCls) : (s.updSending dn f).engines = s.engines := rfl
@[simp] theorem State.updSending_keys (dn : Bool) (f : LinkCls → LinkCls) : (s.updSending dn f).keys = s.keys := rfl
@[simp] theorem State.updSending_adc (dn : Bool) (f : LinkCls → LinkCls) : (s.updSending dn f).adc = s.adc := rfl
@[simp] theorem State.updSending_therm (dn : Bool) (f : LinkCls → LinkCls) : (s.updSending dn f).therm = s.therm := rfl
@[simp] theorem State.updSending_prot (dn : Bool) (f : LinkCls → LinkCls) : (s.updSending dn f).prot = s.prot := rfl
@[simp] theorem State.updSending_flash (dn : Bool) (f : LinkCls → LinkCls) : (s.updSending dn f).flash = s.flash := rfl
@[simp] theorem State.updSending_tests (dn : Bool) (f : LinkCls → LinkCls) : (s.updSending dn f).tests = s.tests := rfl
@[simp] theorem State.updSending_dbg (dn : Bool) (f : LinkCls → LinkCls) : (s.updSending dn f).dbg = s.dbg := rfl
@[simp] theorem State.updSending_held (dn : Bool) (f : LinkCls → LinkCls) : (s.updSending dn f).held = s.held := rfl
@[simp] theorem State.updSending_after (dn : Bool) (f : LinkCls → LinkCls) : (s.updSending dn f).after = s.after := rfl
@[simp] theorem State.updSending_keyStage (dn : Bool) (f : LinkCls → LinkCls) : (s.updSending dn f).keyStage = s.keyStage := rfl
@[simp] theorem State.updSending_secTen (dn : Bool) (f : LinkCls → LinkCls) : (s.updSending dn f).secTen = s.secTen := rfl
@[simp] theorem State.updSending_nextRun (dn : Bool) (f : LinkCls → LinkCls) : (s.updSending dn f).nextRun = s.nextRun := rfl
@[simp] theorem State.updSending_waiting (dn : Bool) (f : LinkCls → LinkCls) : (s.updSending dn f).waiting = s.waiting := rfl
@[simp] theorem State.updSending_part (dn : Bool) (f : LinkCls → LinkCls) : (s.updSending dn f).part = s.part := rfl
@[simp] theorem State.updSending_regs (dn : Bool) (f : LinkCls → LinkCls) : (s.updSending dn f).regs = s.regs := rfl
@[simp] theorem State.updSending_mem (dn : Bool) (f : LinkCls → LinkCls) : (s.updSending dn f).mem = s.mem := rfl
@[simp] theorem State.updSending_ecc (dn : Bool) (f : LinkCls → LinkCls) : (s.updSending dn f).ecc = s.ecc := rfl
@[simp] theorem State.updSending_chk (dn : Bool) (f : LinkCls → LinkCls) : (s.updSending dn f).chk = s.chk := rfl
@[simp] theorem State.updSending_ksnap (dn : Bool) (f : LinkCls → LinkCls) : (s.updSending dn f).ksnap = s.ksnap := rfl
@[simp] theorem State.updSending_sealed (dn : Bool) (f : LinkCls → LinkCls) : (s.updSending dn f).sealed = s.sealed := rfl
@[simp] theorem State.updSending_rdata (dn : Bool) (f : LinkCls → LinkCls) : (s.updSending dn f).rdata = s.rdata := rfl
@[simp] theorem State.updSending_free (dn : Bool) (f : LinkCls → LinkCls) : (s.updSending dn f).free = s.free := rfl

/-! ## updPwr -/

@[simp] theorem State.updPwr_pending (f : Pwr → Pwr) : (s.updPwr f).pending = s.pending := rfl
@[simp] theorem State.updPwr_doors (f : Pwr → Pwr) : (s.updPwr f).doors = s.doors := rfl
@[simp] theorem State.updPwr_tens (f : Pwr → Pwr) : (s.updPwr f).tens = s.tens := rfl
@[simp] theorem State.updPwr_runs (f : Pwr → Pwr) : (s.updPwr f).runs = s.runs := rfl
@[simp] theorem State.updPwr_portA (f : Pwr → Pwr) : (s.updPwr f).portA = s.portA := rfl
@[simp] theorem State.updPwr_portB (f : Pwr → Pwr) : (s.updPwr f).portB = s.portB := rfl
@[simp] theorem State.updPwr_tick (f : Pwr → Pwr) : (s.updPwr f).tick = s.tick := rfl
@[simp] theorem State.updPwr_grants (f : Pwr → Pwr) : (s.updPwr f).grants = s.grants := rfl
@[simp] theorem State.updPwr_sys (f : Pwr → Pwr) : (s.updPwr f).sys = s.sys := rfl
@[simp] theorem State.updPwr_pwr (f : Pwr → Pwr) : (s.updPwr f).pwr = f s.pwr := rfl
@[simp] theorem State.updPwr_seq (f : Pwr → Pwr) : (s.updPwr f).seq = s.seq := rfl
@[simp] theorem State.updPwr_disp (f : Pwr → Pwr) : (s.updPwr f).disp = s.disp := rfl
@[simp] theorem State.updPwr_lamps (f : Pwr → Pwr) : (s.updPwr f).lamps = s.lamps := rfl
@[simp] theorem State.updPwr_engines (f : Pwr → Pwr) : (s.updPwr f).engines = s.engines := rfl
@[simp] theorem State.updPwr_keys (f : Pwr → Pwr) : (s.updPwr f).keys = s.keys := rfl
@[simp] theorem State.updPwr_adc (f : Pwr → Pwr) : (s.updPwr f).adc = s.adc := rfl
@[simp] theorem State.updPwr_therm (f : Pwr → Pwr) : (s.updPwr f).therm = s.therm := rfl
@[simp] theorem State.updPwr_prot (f : Pwr → Pwr) : (s.updPwr f).prot = s.prot := rfl
@[simp] theorem State.updPwr_flash (f : Pwr → Pwr) : (s.updPwr f).flash = s.flash := rfl
@[simp] theorem State.updPwr_link (f : Pwr → Pwr) : (s.updPwr f).link = s.link := rfl
@[simp] theorem State.updPwr_tests (f : Pwr → Pwr) : (s.updPwr f).tests = s.tests := rfl
@[simp] theorem State.updPwr_dbg (f : Pwr → Pwr) : (s.updPwr f).dbg = s.dbg := rfl
@[simp] theorem State.updPwr_held (f : Pwr → Pwr) : (s.updPwr f).held = s.held := rfl
@[simp] theorem State.updPwr_after (f : Pwr → Pwr) : (s.updPwr f).after = s.after := rfl
@[simp] theorem State.updPwr_keyStage (f : Pwr → Pwr) : (s.updPwr f).keyStage = s.keyStage := rfl
@[simp] theorem State.updPwr_secTen (f : Pwr → Pwr) : (s.updPwr f).secTen = s.secTen := rfl
@[simp] theorem State.updPwr_nextRun (f : Pwr → Pwr) : (s.updPwr f).nextRun = s.nextRun := rfl
@[simp] theorem State.updPwr_waiting (f : Pwr → Pwr) : (s.updPwr f).waiting = s.waiting := rfl
@[simp] theorem State.updPwr_part (f : Pwr → Pwr) : (s.updPwr f).part = s.part := rfl
@[simp] theorem State.updPwr_regs (f : Pwr → Pwr) : (s.updPwr f).regs = s.regs := rfl
@[simp] theorem State.updPwr_mem (f : Pwr → Pwr) : (s.updPwr f).mem = s.mem := rfl
@[simp] theorem State.updPwr_ecc (f : Pwr → Pwr) : (s.updPwr f).ecc = s.ecc := rfl
@[simp] theorem State.updPwr_chk (f : Pwr → Pwr) : (s.updPwr f).chk = s.chk := rfl
@[simp] theorem State.updPwr_ksnap (f : Pwr → Pwr) : (s.updPwr f).ksnap = s.ksnap := rfl
@[simp] theorem State.updPwr_sealed (f : Pwr → Pwr) : (s.updPwr f).sealed = s.sealed := rfl
@[simp] theorem State.updPwr_rdata (f : Pwr → Pwr) : (s.updPwr f).rdata = s.rdata := rfl
@[simp] theorem State.updPwr_free (f : Pwr → Pwr) : (s.updPwr f).free = s.free := rfl

/-! ## updSys -/

@[simp] theorem State.updSys_pending (f : Sys → Sys) : (s.updSys f).pending = s.pending := rfl
@[simp] theorem State.updSys_doors (f : Sys → Sys) : (s.updSys f).doors = s.doors := rfl
@[simp] theorem State.updSys_tens (f : Sys → Sys) : (s.updSys f).tens = s.tens := rfl
@[simp] theorem State.updSys_runs (f : Sys → Sys) : (s.updSys f).runs = s.runs := rfl
@[simp] theorem State.updSys_portA (f : Sys → Sys) : (s.updSys f).portA = s.portA := rfl
@[simp] theorem State.updSys_portB (f : Sys → Sys) : (s.updSys f).portB = s.portB := rfl
@[simp] theorem State.updSys_tick (f : Sys → Sys) : (s.updSys f).tick = s.tick := rfl
@[simp] theorem State.updSys_grants (f : Sys → Sys) : (s.updSys f).grants = s.grants := rfl
@[simp] theorem State.updSys_sys (f : Sys → Sys) : (s.updSys f).sys = f s.sys := rfl
@[simp] theorem State.updSys_pwr (f : Sys → Sys) : (s.updSys f).pwr = s.pwr := rfl
@[simp] theorem State.updSys_seq (f : Sys → Sys) : (s.updSys f).seq = s.seq := rfl
@[simp] theorem State.updSys_disp (f : Sys → Sys) : (s.updSys f).disp = s.disp := rfl
@[simp] theorem State.updSys_lamps (f : Sys → Sys) : (s.updSys f).lamps = s.lamps := rfl
@[simp] theorem State.updSys_engines (f : Sys → Sys) : (s.updSys f).engines = s.engines := rfl
@[simp] theorem State.updSys_keys (f : Sys → Sys) : (s.updSys f).keys = s.keys := rfl
@[simp] theorem State.updSys_adc (f : Sys → Sys) : (s.updSys f).adc = s.adc := rfl
@[simp] theorem State.updSys_therm (f : Sys → Sys) : (s.updSys f).therm = s.therm := rfl
@[simp] theorem State.updSys_prot (f : Sys → Sys) : (s.updSys f).prot = s.prot := rfl
@[simp] theorem State.updSys_flash (f : Sys → Sys) : (s.updSys f).flash = s.flash := rfl
@[simp] theorem State.updSys_link (f : Sys → Sys) : (s.updSys f).link = s.link := rfl
@[simp] theorem State.updSys_tests (f : Sys → Sys) : (s.updSys f).tests = s.tests := rfl
@[simp] theorem State.updSys_dbg (f : Sys → Sys) : (s.updSys f).dbg = s.dbg := rfl
@[simp] theorem State.updSys_held (f : Sys → Sys) : (s.updSys f).held = s.held := rfl
@[simp] theorem State.updSys_after (f : Sys → Sys) : (s.updSys f).after = s.after := rfl
@[simp] theorem State.updSys_keyStage (f : Sys → Sys) : (s.updSys f).keyStage = s.keyStage := rfl
@[simp] theorem State.updSys_secTen (f : Sys → Sys) : (s.updSys f).secTen = s.secTen := rfl
@[simp] theorem State.updSys_nextRun (f : Sys → Sys) : (s.updSys f).nextRun = s.nextRun := rfl
@[simp] theorem State.updSys_waiting (f : Sys → Sys) : (s.updSys f).waiting = s.waiting := rfl
@[simp] theorem State.updSys_part (f : Sys → Sys) : (s.updSys f).part = s.part := rfl
@[simp] theorem State.updSys_regs (f : Sys → Sys) : (s.updSys f).regs = s.regs := rfl
@[simp] theorem State.updSys_mem (f : Sys → Sys) : (s.updSys f).mem = s.mem := rfl
@[simp] theorem State.updSys_ecc (f : Sys → Sys) : (s.updSys f).ecc = s.ecc := rfl
@[simp] theorem State.updSys_chk (f : Sys → Sys) : (s.updSys f).chk = s.chk := rfl
@[simp] theorem State.updSys_ksnap (f : Sys → Sys) : (s.updSys f).ksnap = s.ksnap := rfl
@[simp] theorem State.updSys_sealed (f : Sys → Sys) : (s.updSys f).sealed = s.sealed := rfl
@[simp] theorem State.updSys_rdata (f : Sys → Sys) : (s.updSys f).rdata = s.rdata := rfl
@[simp] theorem State.updSys_free (f : Sys → Sys) : (s.updSys f).free = s.free := rfl

/-! ## updSeqr -/

@[simp] theorem State.updSeqr_pending (f : Seq → Seq) : (s.updSeqr f).pending = s.pending := rfl
@[simp] theorem State.updSeqr_doors (f : Seq → Seq) : (s.updSeqr f).doors = s.doors := rfl
@[simp] theorem State.updSeqr_tens (f : Seq → Seq) : (s.updSeqr f).tens = s.tens := rfl
@[simp] theorem State.updSeqr_runs (f : Seq → Seq) : (s.updSeqr f).runs = s.runs := rfl
@[simp] theorem State.updSeqr_portA (f : Seq → Seq) : (s.updSeqr f).portA = s.portA := rfl
@[simp] theorem State.updSeqr_portB (f : Seq → Seq) : (s.updSeqr f).portB = s.portB := rfl
@[simp] theorem State.updSeqr_tick (f : Seq → Seq) : (s.updSeqr f).tick = s.tick := rfl
@[simp] theorem State.updSeqr_grants (f : Seq → Seq) : (s.updSeqr f).grants = s.grants := rfl
@[simp] theorem State.updSeqr_sys (f : Seq → Seq) : (s.updSeqr f).sys = s.sys := rfl
@[simp] theorem State.updSeqr_pwr (f : Seq → Seq) : (s.updSeqr f).pwr = s.pwr := rfl
@[simp] theorem State.updSeqr_seq (f : Seq → Seq) : (s.updSeqr f).seq = f s.seq := rfl
@[simp] theorem State.updSeqr_disp (f : Seq → Seq) : (s.updSeqr f).disp = s.disp := rfl
@[simp] theorem State.updSeqr_lamps (f : Seq → Seq) : (s.updSeqr f).lamps = s.lamps := rfl
@[simp] theorem State.updSeqr_engines (f : Seq → Seq) : (s.updSeqr f).engines = s.engines := rfl
@[simp] theorem State.updSeqr_keys (f : Seq → Seq) : (s.updSeqr f).keys = s.keys := rfl
@[simp] theorem State.updSeqr_adc (f : Seq → Seq) : (s.updSeqr f).adc = s.adc := rfl
@[simp] theorem State.updSeqr_therm (f : Seq → Seq) : (s.updSeqr f).therm = s.therm := rfl
@[simp] theorem State.updSeqr_prot (f : Seq → Seq) : (s.updSeqr f).prot = s.prot := rfl
@[simp] theorem State.updSeqr_flash (f : Seq → Seq) : (s.updSeqr f).flash = s.flash := rfl
@[simp] theorem State.updSeqr_link (f : Seq → Seq) : (s.updSeqr f).link = s.link := rfl
@[simp] theorem State.updSeqr_tests (f : Seq → Seq) : (s.updSeqr f).tests = s.tests := rfl
@[simp] theorem State.updSeqr_dbg (f : Seq → Seq) : (s.updSeqr f).dbg = s.dbg := rfl
@[simp] theorem State.updSeqr_held (f : Seq → Seq) : (s.updSeqr f).held = s.held := rfl
@[simp] theorem State.updSeqr_after (f : Seq → Seq) : (s.updSeqr f).after = s.after := rfl
@[simp] theorem State.updSeqr_keyStage (f : Seq → Seq) : (s.updSeqr f).keyStage = s.keyStage := rfl
@[simp] theorem State.updSeqr_secTen (f : Seq → Seq) : (s.updSeqr f).secTen = s.secTen := rfl
@[simp] theorem State.updSeqr_nextRun (f : Seq → Seq) : (s.updSeqr f).nextRun = s.nextRun := rfl
@[simp] theorem State.updSeqr_waiting (f : Seq → Seq) : (s.updSeqr f).waiting = s.waiting := rfl
@[simp] theorem State.updSeqr_part (f : Seq → Seq) : (s.updSeqr f).part = s.part := rfl
@[simp] theorem State.updSeqr_regs (f : Seq → Seq) : (s.updSeqr f).regs = s.regs := rfl
@[simp] theorem State.updSeqr_mem (f : Seq → Seq) : (s.updSeqr f).mem = s.mem := rfl
@[simp] theorem State.updSeqr_ecc (f : Seq → Seq) : (s.updSeqr f).ecc = s.ecc := rfl
@[simp] theorem State.updSeqr_chk (f : Seq → Seq) : (s.updSeqr f).chk = s.chk := rfl
@[simp] theorem State.updSeqr_ksnap (f : Seq → Seq) : (s.updSeqr f).ksnap = s.ksnap := rfl
@[simp] theorem State.updSeqr_sealed (f : Seq → Seq) : (s.updSeqr f).sealed = s.sealed := rfl
@[simp] theorem State.updSeqr_rdata (f : Seq → Seq) : (s.updSeqr f).rdata = s.rdata := rfl
@[simp] theorem State.updSeqr_free (f : Seq → Seq) : (s.updSeqr f).free = s.free := rfl

/-! ## updProt -/

@[simp] theorem State.updProt_pending (f : Prot → Prot) : (s.updProt f).pending = s.pending := rfl
@[simp] theorem State.updProt_doors (f : Prot → Prot) : (s.updProt f).doors = s.doors := rfl
@[simp] theorem State.updProt_tens (f : Prot → Prot) : (s.updProt f).tens = s.tens := rfl
@[simp] theorem State.updProt_runs (f : Prot → Prot) : (s.updProt f).runs = s.runs := rfl
@[simp] theorem State.updProt_portA (f : Prot → Prot) : (s.updProt f).portA = s.portA := rfl
@[simp] theorem State.updProt_portB (f : Prot → Prot) : (s.updProt f).portB = s.portB := rfl
@[simp] theorem State.updProt_tick (f : Prot → Prot) : (s.updProt f).tick = s.tick := rfl
@[simp] theorem State.updProt_grants (f : Prot → Prot) : (s.updProt f).grants = s.grants := rfl
@[simp] theorem State.updProt_sys (f : Prot → Prot) : (s.updProt f).sys = s.sys := rfl
@[simp] theorem State.updProt_pwr (f : Prot → Prot) : (s.updProt f).pwr = s.pwr := rfl
@[simp] theorem State.updProt_seq (f : Prot → Prot) : (s.updProt f).seq = s.seq := rfl
@[simp] theorem State.updProt_disp (f : Prot → Prot) : (s.updProt f).disp = s.disp := rfl
@[simp] theorem State.updProt_lamps (f : Prot → Prot) : (s.updProt f).lamps = s.lamps := rfl
@[simp] theorem State.updProt_engines (f : Prot → Prot) : (s.updProt f).engines = s.engines := rfl
@[simp] theorem State.updProt_keys (f : Prot → Prot) : (s.updProt f).keys = s.keys := rfl
@[simp] theorem State.updProt_adc (f : Prot → Prot) : (s.updProt f).adc = s.adc := rfl
@[simp] theorem State.updProt_therm (f : Prot → Prot) : (s.updProt f).therm = s.therm := rfl
@[simp] theorem State.updProt_prot (f : Prot → Prot) : (s.updProt f).prot = f s.prot := rfl
@[simp] theorem State.updProt_flash (f : Prot → Prot) : (s.updProt f).flash = s.flash := rfl
@[simp] theorem State.updProt_link (f : Prot → Prot) : (s.updProt f).link = s.link := rfl
@[simp] theorem State.updProt_tests (f : Prot → Prot) : (s.updProt f).tests = s.tests := rfl
@[simp] theorem State.updProt_dbg (f : Prot → Prot) : (s.updProt f).dbg = s.dbg := rfl
@[simp] theorem State.updProt_held (f : Prot → Prot) : (s.updProt f).held = s.held := rfl
@[simp] theorem State.updProt_after (f : Prot → Prot) : (s.updProt f).after = s.after := rfl
@[simp] theorem State.updProt_keyStage (f : Prot → Prot) : (s.updProt f).keyStage = s.keyStage := rfl
@[simp] theorem State.updProt_secTen (f : Prot → Prot) : (s.updProt f).secTen = s.secTen := rfl
@[simp] theorem State.updProt_nextRun (f : Prot → Prot) : (s.updProt f).nextRun = s.nextRun := rfl
@[simp] theorem State.updProt_waiting (f : Prot → Prot) : (s.updProt f).waiting = s.waiting := rfl
@[simp] theorem State.updProt_part (f : Prot → Prot) : (s.updProt f).part = s.part := rfl
@[simp] theorem State.updProt_regs (f : Prot → Prot) : (s.updProt f).regs = s.regs := rfl
@[simp] theorem State.updProt_mem (f : Prot → Prot) : (s.updProt f).mem = s.mem := rfl
@[simp] theorem State.updProt_ecc (f : Prot → Prot) : (s.updProt f).ecc = s.ecc := rfl
@[simp] theorem State.updProt_chk (f : Prot → Prot) : (s.updProt f).chk = s.chk := rfl
@[simp] theorem State.updProt_ksnap (f : Prot → Prot) : (s.updProt f).ksnap = s.ksnap := rfl
@[simp] theorem State.updProt_sealed (f : Prot → Prot) : (s.updProt f).sealed = s.sealed := rfl
@[simp] theorem State.updProt_rdata (f : Prot → Prot) : (s.updProt f).rdata = s.rdata := rfl
@[simp] theorem State.updProt_free (f : Prot → Prot) : (s.updProt f).free = s.free := rfl

/-! ## updDbg -/

@[simp] theorem State.updDbg_pending (f : Dbg → Dbg) : (s.updDbg f).pending = s.pending := rfl
@[simp] theorem State.updDbg_doors (f : Dbg → Dbg) : (s.updDbg f).doors = s.doors := rfl
@[simp] theorem State.updDbg_tens (f : Dbg → Dbg) : (s.updDbg f).tens = s.tens := rfl
@[simp] theorem State.updDbg_runs (f : Dbg → Dbg) : (s.updDbg f).runs = s.runs := rfl
@[simp] theorem State.updDbg_portA (f : Dbg → Dbg) : (s.updDbg f).portA = s.portA := rfl
@[simp] theorem State.updDbg_portB (f : Dbg → Dbg) : (s.updDbg f).portB = s.portB := rfl
@[simp] theorem State.updDbg_tick (f : Dbg → Dbg) : (s.updDbg f).tick = s.tick := rfl
@[simp] theorem State.updDbg_grants (f : Dbg → Dbg) : (s.updDbg f).grants = s.grants := rfl
@[simp] theorem State.updDbg_sys (f : Dbg → Dbg) : (s.updDbg f).sys = s.sys := rfl
@[simp] theorem State.updDbg_pwr (f : Dbg → Dbg) : (s.updDbg f).pwr = s.pwr := rfl
@[simp] theorem State.updDbg_seq (f : Dbg → Dbg) : (s.updDbg f).seq = s.seq := rfl
@[simp] theorem State.updDbg_disp (f : Dbg → Dbg) : (s.updDbg f).disp = s.disp := rfl
@[simp] theorem State.updDbg_lamps (f : Dbg → Dbg) : (s.updDbg f).lamps = s.lamps := rfl
@[simp] theorem State.updDbg_engines (f : Dbg → Dbg) : (s.updDbg f).engines = s.engines := rfl
@[simp] theorem State.updDbg_keys (f : Dbg → Dbg) : (s.updDbg f).keys = s.keys := rfl
@[simp] theorem State.updDbg_adc (f : Dbg → Dbg) : (s.updDbg f).adc = s.adc := rfl
@[simp] theorem State.updDbg_therm (f : Dbg → Dbg) : (s.updDbg f).therm = s.therm := rfl
@[simp] theorem State.updDbg_prot (f : Dbg → Dbg) : (s.updDbg f).prot = s.prot := rfl
@[simp] theorem State.updDbg_flash (f : Dbg → Dbg) : (s.updDbg f).flash = s.flash := rfl
@[simp] theorem State.updDbg_link (f : Dbg → Dbg) : (s.updDbg f).link = s.link := rfl
@[simp] theorem State.updDbg_tests (f : Dbg → Dbg) : (s.updDbg f).tests = s.tests := rfl
@[simp] theorem State.updDbg_dbg (f : Dbg → Dbg) : (s.updDbg f).dbg = f s.dbg := rfl
@[simp] theorem State.updDbg_held (f : Dbg → Dbg) : (s.updDbg f).held = s.held := rfl
@[simp] theorem State.updDbg_after (f : Dbg → Dbg) : (s.updDbg f).after = s.after := rfl
@[simp] theorem State.updDbg_keyStage (f : Dbg → Dbg) : (s.updDbg f).keyStage = s.keyStage := rfl
@[simp] theorem State.updDbg_secTen (f : Dbg → Dbg) : (s.updDbg f).secTen = s.secTen := rfl
@[simp] theorem State.updDbg_nextRun (f : Dbg → Dbg) : (s.updDbg f).nextRun = s.nextRun := rfl
@[simp] theorem State.updDbg_waiting (f : Dbg → Dbg) : (s.updDbg f).waiting = s.waiting := rfl
@[simp] theorem State.updDbg_part (f : Dbg → Dbg) : (s.updDbg f).part = s.part := rfl
@[simp] theorem State.updDbg_regs (f : Dbg → Dbg) : (s.updDbg f).regs = s.regs := rfl
@[simp] theorem State.updDbg_mem (f : Dbg → Dbg) : (s.updDbg f).mem = s.mem := rfl
@[simp] theorem State.updDbg_ecc (f : Dbg → Dbg) : (s.updDbg f).ecc = s.ecc := rfl
@[simp] theorem State.updDbg_chk (f : Dbg → Dbg) : (s.updDbg f).chk = s.chk := rfl
@[simp] theorem State.updDbg_ksnap (f : Dbg → Dbg) : (s.updDbg f).ksnap = s.ksnap := rfl
@[simp] theorem State.updDbg_sealed (f : Dbg → Dbg) : (s.updDbg f).sealed = s.sealed := rfl
@[simp] theorem State.updDbg_rdata (f : Dbg → Dbg) : (s.updDbg f).rdata = s.rdata := rfl
@[simp] theorem State.updDbg_free (f : Dbg → Dbg) : (s.updDbg f).free = s.free := rfl

/-! ## setTest -/

@[simp] theorem State.setTest_pending (block : Nat) (t : Option Test) : (s.setTest block t).pending = s.pending := rfl
@[simp] theorem State.setTest_doors (block : Nat) (t : Option Test) : (s.setTest block t).doors = s.doors := rfl
@[simp] theorem State.setTest_tens (block : Nat) (t : Option Test) : (s.setTest block t).tens = s.tens := rfl
@[simp] theorem State.setTest_runs (block : Nat) (t : Option Test) : (s.setTest block t).runs = s.runs := rfl
@[simp] theorem State.setTest_portA (block : Nat) (t : Option Test) : (s.setTest block t).portA = s.portA := rfl
@[simp] theorem State.setTest_portB (block : Nat) (t : Option Test) : (s.setTest block t).portB = s.portB := rfl
@[simp] theorem State.setTest_tick (block : Nat) (t : Option Test) : (s.setTest block t).tick = s.tick := rfl
@[simp] theorem State.setTest_grants (block : Nat) (t : Option Test) : (s.setTest block t).grants = s.grants := rfl
@[simp] theorem State.setTest_sys (block : Nat) (t : Option Test) : (s.setTest block t).sys = s.sys := rfl
@[simp] theorem State.setTest_pwr (block : Nat) (t : Option Test) : (s.setTest block t).pwr = s.pwr := rfl
@[simp] theorem State.setTest_seq (block : Nat) (t : Option Test) : (s.setTest block t).seq = s.seq := rfl
@[simp] theorem State.setTest_disp (block : Nat) (t : Option Test) : (s.setTest block t).disp = s.disp := rfl
@[simp] theorem State.setTest_lamps (block : Nat) (t : Option Test) : (s.setTest block t).lamps = s.lamps := rfl
@[simp] theorem State.setTest_engines (block : Nat) (t : Option Test) : (s.setTest block t).engines = s.engines := rfl
@[simp] theorem State.setTest_keys (block : Nat) (t : Option Test) : (s.setTest block t).keys = s.keys := rfl
@[simp] theorem State.setTest_adc (block : Nat) (t : Option Test) : (s.setTest block t).adc = s.adc := rfl
@[simp] theorem State.setTest_therm (block : Nat) (t : Option Test) : (s.setTest block t).therm = s.therm := rfl
@[simp] theorem State.setTest_prot (block : Nat) (t : Option Test) : (s.setTest block t).prot = s.prot := rfl
@[simp] theorem State.setTest_flash (block : Nat) (t : Option Test) : (s.setTest block t).flash = s.flash := rfl
@[simp] theorem State.setTest_link (block : Nat) (t : Option Test) : (s.setTest block t).link = s.link := rfl
@[simp] theorem State.setTest_dbg (block : Nat) (t : Option Test) : (s.setTest block t).dbg = s.dbg := rfl
@[simp] theorem State.setTest_held (block : Nat) (t : Option Test) : (s.setTest block t).held = s.held := rfl
@[simp] theorem State.setTest_after (block : Nat) (t : Option Test) : (s.setTest block t).after = s.after := rfl
@[simp] theorem State.setTest_keyStage (block : Nat) (t : Option Test) : (s.setTest block t).keyStage = s.keyStage := rfl
@[simp] theorem State.setTest_secTen (block : Nat) (t : Option Test) : (s.setTest block t).secTen = s.secTen := rfl
@[simp] theorem State.setTest_nextRun (block : Nat) (t : Option Test) : (s.setTest block t).nextRun = s.nextRun := rfl
@[simp] theorem State.setTest_waiting (block : Nat) (t : Option Test) : (s.setTest block t).waiting = s.waiting := rfl
@[simp] theorem State.setTest_part (block : Nat) (t : Option Test) : (s.setTest block t).part = s.part := rfl
@[simp] theorem State.setTest_regs (block : Nat) (t : Option Test) : (s.setTest block t).regs = s.regs := rfl
@[simp] theorem State.setTest_mem (block : Nat) (t : Option Test) : (s.setTest block t).mem = s.mem := rfl
@[simp] theorem State.setTest_ecc (block : Nat) (t : Option Test) : (s.setTest block t).ecc = s.ecc := rfl
@[simp] theorem State.setTest_chk (block : Nat) (t : Option Test) : (s.setTest block t).chk = s.chk := rfl
@[simp] theorem State.setTest_ksnap (block : Nat) (t : Option Test) : (s.setTest block t).ksnap = s.ksnap := rfl
@[simp] theorem State.setTest_sealed (block : Nat) (t : Option Test) : (s.setTest block t).sealed = s.sealed := rfl
@[simp] theorem State.setTest_rdata (block : Nat) (t : Option Test) : (s.setTest block t).rdata = s.rdata := rfl
@[simp] theorem State.setTest_free (block : Nat) (t : Option Test) : (s.setTest block t).free = s.free := rfl

/-! ## setRemap -/

@[simp] theorem State.setRemap_pending (i : Nat) (r : Remap) : (s.setRemap i r).pending = s.pending := rfl
@[simp] theorem State.setRemap_doors (i : Nat) (r : Remap) : (s.setRemap i r).doors = s.doors := rfl
@[simp] theorem State.setRemap_tens (i : Nat) (r : Remap) : (s.setRemap i r).tens = s.tens := rfl
@[simp] theorem State.setRemap_runs (i : Nat) (r : Remap) : (s.setRemap i r).runs = s.runs := rfl
@[simp] theorem State.setRemap_portA (i : Nat) (r : Remap) : (s.setRemap i r).portA = s.portA := rfl
@[simp] theorem State.setRemap_portB (i : Nat) (r : Remap) : (s.setRemap i r).portB = s.portB := rfl
@[simp] theorem State.setRemap_tick (i : Nat) (r : Remap) : (s.setRemap i r).tick = s.tick := rfl
@[simp] theorem State.setRemap_grants (i : Nat) (r : Remap) : (s.setRemap i r).grants = s.grants := rfl
@[simp] theorem State.setRemap_sys (i : Nat) (r : Remap) : (s.setRemap i r).sys = s.sys := rfl
@[simp] theorem State.setRemap_pwr (i : Nat) (r : Remap) : (s.setRemap i r).pwr = s.pwr := rfl
@[simp] theorem State.setRemap_seq (i : Nat) (r : Remap) : (s.setRemap i r).seq = s.seq := rfl
@[simp] theorem State.setRemap_disp (i : Nat) (r : Remap) : (s.setRemap i r).disp = s.disp := rfl
@[simp] theorem State.setRemap_lamps (i : Nat) (r : Remap) : (s.setRemap i r).lamps = s.lamps := rfl
@[simp] theorem State.setRemap_engines (i : Nat) (r : Remap) : (s.setRemap i r).engines = s.engines := rfl
@[simp] theorem State.setRemap_keys (i : Nat) (r : Remap) : (s.setRemap i r).keys = s.keys := rfl
@[simp] theorem State.setRemap_adc (i : Nat) (r : Remap) : (s.setRemap i r).adc = s.adc := rfl
@[simp] theorem State.setRemap_therm (i : Nat) (r : Remap) : (s.setRemap i r).therm = s.therm := rfl
@[simp] theorem State.setRemap_prot (i : Nat) (r : Remap) : (s.setRemap i r).prot = s.prot := rfl
@[simp] theorem State.setRemap_link (i : Nat) (r : Remap) : (s.setRemap i r).link = s.link := rfl
@[simp] theorem State.setRemap_tests (i : Nat) (r : Remap) : (s.setRemap i r).tests = s.tests := rfl
@[simp] theorem State.setRemap_dbg (i : Nat) (r : Remap) : (s.setRemap i r).dbg = s.dbg := rfl
@[simp] theorem State.setRemap_held (i : Nat) (r : Remap) : (s.setRemap i r).held = s.held := rfl
@[simp] theorem State.setRemap_after (i : Nat) (r : Remap) : (s.setRemap i r).after = s.after := rfl
@[simp] theorem State.setRemap_keyStage (i : Nat) (r : Remap) : (s.setRemap i r).keyStage = s.keyStage := rfl
@[simp] theorem State.setRemap_secTen (i : Nat) (r : Remap) : (s.setRemap i r).secTen = s.secTen := rfl
@[simp] theorem State.setRemap_nextRun (i : Nat) (r : Remap) : (s.setRemap i r).nextRun = s.nextRun := rfl
@[simp] theorem State.setRemap_waiting (i : Nat) (r : Remap) : (s.setRemap i r).waiting = s.waiting := rfl
@[simp] theorem State.setRemap_part (i : Nat) (r : Remap) : (s.setRemap i r).part = s.part := rfl
@[simp] theorem State.setRemap_regs (i : Nat) (r : Remap) : (s.setRemap i r).regs = s.regs := rfl
@[simp] theorem State.setRemap_mem (i : Nat) (r : Remap) : (s.setRemap i r).mem = s.mem := rfl
@[simp] theorem State.setRemap_ecc (i : Nat) (r : Remap) : (s.setRemap i r).ecc = s.ecc := rfl
@[simp] theorem State.setRemap_chk (i : Nat) (r : Remap) : (s.setRemap i r).chk = s.chk := rfl
@[simp] theorem State.setRemap_ksnap (i : Nat) (r : Remap) : (s.setRemap i r).ksnap = s.ksnap := rfl
@[simp] theorem State.setRemap_sealed (i : Nat) (r : Remap) : (s.setRemap i r).sealed = s.sealed := rfl
@[simp] theorem State.setRemap_rdata (i : Nat) (r : Remap) : (s.setRemap i r).rdata = s.rdata := rfl
@[simp] theorem State.setRemap_free (i : Nat) (r : Remap) : (s.setRemap i r).free = s.free := rfl

/-! ## setSuspect -/

@[simp] theorem State.setSuspect_pending (p : Nat) (b : Bool) : (s.setSuspect p b).pending = s.pending := rfl
@[simp] theorem State.setSuspect_doors (p : Nat) (b : Bool) : (s.setSuspect p b).doors = s.doors := rfl
@[simp] theorem State.setSuspect_tens (p : Nat) (b : Bool) : (s.setSuspect p b).tens = s.tens := rfl
@[simp] theorem State.setSuspect_runs (p : Nat) (b : Bool) : (s.setSuspect p b).runs = s.runs := rfl
@[simp] theorem State.setSuspect_portA (p : Nat) (b : Bool) : (s.setSuspect p b).portA = s.portA := rfl
@[simp] theorem State.setSuspect_portB (p : Nat) (b : Bool) : (s.setSuspect p b).portB = s.portB := rfl
@[simp] theorem State.setSuspect_tick (p : Nat) (b : Bool) : (s.setSuspect p b).tick = s.tick := rfl
@[simp] theorem State.setSuspect_grants (p : Nat) (b : Bool) : (s.setSuspect p b).grants = s.grants := rfl
@[simp] theorem State.setSuspect_sys (p : Nat) (b : Bool) : (s.setSuspect p b).sys = s.sys := rfl
@[simp] theorem State.setSuspect_pwr (p : Nat) (b : Bool) : (s.setSuspect p b).pwr = s.pwr := rfl
@[simp] theorem State.setSuspect_seq (p : Nat) (b : Bool) : (s.setSuspect p b).seq = s.seq := rfl
@[simp] theorem State.setSuspect_disp (p : Nat) (b : Bool) : (s.setSuspect p b).disp = s.disp := rfl
@[simp] theorem State.setSuspect_lamps (p : Nat) (b : Bool) : (s.setSuspect p b).lamps = s.lamps := rfl
@[simp] theorem State.setSuspect_engines (p : Nat) (b : Bool) : (s.setSuspect p b).engines = s.engines := rfl
@[simp] theorem State.setSuspect_keys (p : Nat) (b : Bool) : (s.setSuspect p b).keys = s.keys := rfl
@[simp] theorem State.setSuspect_adc (p : Nat) (b : Bool) : (s.setSuspect p b).adc = s.adc := rfl
@[simp] theorem State.setSuspect_therm (p : Nat) (b : Bool) : (s.setSuspect p b).therm = s.therm := rfl
@[simp] theorem State.setSuspect_prot (p : Nat) (b : Bool) : (s.setSuspect p b).prot = s.prot := rfl
@[simp] theorem State.setSuspect_link (p : Nat) (b : Bool) : (s.setSuspect p b).link = s.link := rfl
@[simp] theorem State.setSuspect_tests (p : Nat) (b : Bool) : (s.setSuspect p b).tests = s.tests := rfl
@[simp] theorem State.setSuspect_dbg (p : Nat) (b : Bool) : (s.setSuspect p b).dbg = s.dbg := rfl
@[simp] theorem State.setSuspect_held (p : Nat) (b : Bool) : (s.setSuspect p b).held = s.held := rfl
@[simp] theorem State.setSuspect_after (p : Nat) (b : Bool) : (s.setSuspect p b).after = s.after := rfl
@[simp] theorem State.setSuspect_keyStage (p : Nat) (b : Bool) : (s.setSuspect p b).keyStage = s.keyStage := rfl
@[simp] theorem State.setSuspect_secTen (p : Nat) (b : Bool) : (s.setSuspect p b).secTen = s.secTen := rfl
@[simp] theorem State.setSuspect_nextRun (p : Nat) (b : Bool) : (s.setSuspect p b).nextRun = s.nextRun := rfl
@[simp] theorem State.setSuspect_waiting (p : Nat) (b : Bool) : (s.setSuspect p b).waiting = s.waiting := rfl
@[simp] theorem State.setSuspect_part (p : Nat) (b : Bool) : (s.setSuspect p b).part = s.part := rfl
@[simp] theorem State.setSuspect_regs (p : Nat) (b : Bool) : (s.setSuspect p b).regs = s.regs := rfl
@[simp] theorem State.setSuspect_mem (p : Nat) (b : Bool) : (s.setSuspect p b).mem = s.mem := rfl
@[simp] theorem State.setSuspect_ecc (p : Nat) (b : Bool) : (s.setSuspect p b).ecc = s.ecc := rfl
@[simp] theorem State.setSuspect_chk (p : Nat) (b : Bool) : (s.setSuspect p b).chk = s.chk := rfl
@[simp] theorem State.setSuspect_ksnap (p : Nat) (b : Bool) : (s.setSuspect p b).ksnap = s.ksnap := rfl
@[simp] theorem State.setSuspect_sealed (p : Nat) (b : Bool) : (s.setSuspect p b).sealed = s.sealed := rfl
@[simp] theorem State.setSuspect_rdata (p : Nat) (b : Bool) : (s.setSuspect p b).rdata = s.rdata := rfl
@[simp] theorem State.setSuspect_free (p : Nat) (b : Bool) : (s.setSuspect p b).free = s.free := rfl

/-! ## setLaneOf -/

@[simp] theorem State.setLaneOf_pending (l v : Nat) : (s.setLaneOf l v).pending = s.pending := rfl
@[simp] theorem State.setLaneOf_doors (l v : Nat) : (s.setLaneOf l v).doors = s.doors := rfl
@[simp] theorem State.setLaneOf_tens (l v : Nat) : (s.setLaneOf l v).tens = s.tens := rfl
@[simp] theorem State.setLaneOf_runs (l v : Nat) : (s.setLaneOf l v).runs = s.runs := rfl
@[simp] theorem State.setLaneOf_portA (l v : Nat) : (s.setLaneOf l v).portA = s.portA := rfl
@[simp] theorem State.setLaneOf_portB (l v : Nat) : (s.setLaneOf l v).portB = s.portB := rfl
@[simp] theorem State.setLaneOf_tick (l v : Nat) : (s.setLaneOf l v).tick = s.tick := rfl
@[simp] theorem State.setLaneOf_grants (l v : Nat) : (s.setLaneOf l v).grants = s.grants := rfl
@[simp] theorem State.setLaneOf_sys (l v : Nat) : (s.setLaneOf l v).sys = s.sys := rfl
@[simp] theorem State.setLaneOf_pwr (l v : Nat) : (s.setLaneOf l v).pwr = s.pwr := rfl
@[simp] theorem State.setLaneOf_seq (l v : Nat) : (s.setLaneOf l v).seq = s.seq := rfl
@[simp] theorem State.setLaneOf_disp (l v : Nat) : (s.setLaneOf l v).disp = s.disp := rfl
@[simp] theorem State.setLaneOf_lamps (l v : Nat) : (s.setLaneOf l v).lamps = s.lamps := rfl
@[simp] theorem State.setLaneOf_engines (l v : Nat) : (s.setLaneOf l v).engines = s.engines := rfl
@[simp] theorem State.setLaneOf_keys (l v : Nat) : (s.setLaneOf l v).keys = s.keys := rfl
@[simp] theorem State.setLaneOf_therm (l v : Nat) : (s.setLaneOf l v).therm = s.therm := rfl
@[simp] theorem State.setLaneOf_prot (l v : Nat) : (s.setLaneOf l v).prot = s.prot := rfl
@[simp] theorem State.setLaneOf_flash (l v : Nat) : (s.setLaneOf l v).flash = s.flash := rfl
@[simp] theorem State.setLaneOf_link (l v : Nat) : (s.setLaneOf l v).link = s.link := rfl
@[simp] theorem State.setLaneOf_tests (l v : Nat) : (s.setLaneOf l v).tests = s.tests := rfl
@[simp] theorem State.setLaneOf_dbg (l v : Nat) : (s.setLaneOf l v).dbg = s.dbg := rfl
@[simp] theorem State.setLaneOf_held (l v : Nat) : (s.setLaneOf l v).held = s.held := rfl
@[simp] theorem State.setLaneOf_after (l v : Nat) : (s.setLaneOf l v).after = s.after := rfl
@[simp] theorem State.setLaneOf_keyStage (l v : Nat) : (s.setLaneOf l v).keyStage = s.keyStage := rfl
@[simp] theorem State.setLaneOf_secTen (l v : Nat) : (s.setLaneOf l v).secTen = s.secTen := rfl
@[simp] theorem State.setLaneOf_nextRun (l v : Nat) : (s.setLaneOf l v).nextRun = s.nextRun := rfl
@[simp] theorem State.setLaneOf_waiting (l v : Nat) : (s.setLaneOf l v).waiting = s.waiting := rfl
@[simp] theorem State.setLaneOf_part (l v : Nat) : (s.setLaneOf l v).part = s.part := rfl
@[simp] theorem State.setLaneOf_regs (l v : Nat) : (s.setLaneOf l v).regs = s.regs := rfl
@[simp] theorem State.setLaneOf_mem (l v : Nat) : (s.setLaneOf l v).mem = s.mem := rfl
@[simp] theorem State.setLaneOf_ecc (l v : Nat) : (s.setLaneOf l v).ecc = s.ecc := rfl
@[simp] theorem State.setLaneOf_chk (l v : Nat) : (s.setLaneOf l v).chk = s.chk := rfl
@[simp] theorem State.setLaneOf_ksnap (l v : Nat) : (s.setLaneOf l v).ksnap = s.ksnap := rfl
@[simp] theorem State.setLaneOf_sealed (l v : Nat) : (s.setLaneOf l v).sealed = s.sealed := rfl
@[simp] theorem State.setLaneOf_rdata (l v : Nat) : (s.setLaneOf l v).rdata = s.rdata := rfl
@[simp] theorem State.setLaneOf_free (l v : Nat) : (s.setLaneOf l v).free = s.free := rfl

/-! ## updSeq -/

@[simp] theorem State.updSeq_pending (b : Bool) (f : SeqRun → SeqRun) : (s.updSeq b f).pending = s.pending := by unfold State.updSeq; split <;> rfl
@[simp] theorem State.updSeq_doors (b : Bool) (f : SeqRun → SeqRun) : (s.updSeq b f).doors = s.doors := by unfold State.updSeq; split <;> rfl
@[simp] theorem State.updSeq_tens (b : Bool) (f : SeqRun → SeqRun) : (s.updSeq b f).tens = s.tens := by unfold State.updSeq; split <;> rfl
@[simp] theorem State.updSeq_runs (b : Bool) (f : SeqRun → SeqRun) : (s.updSeq b f).runs = s.runs := by unfold State.updSeq; split <;> rfl
@[simp] theorem State.updSeq_portA (b : Bool) (f : SeqRun → SeqRun) : (s.updSeq b f).portA = s.portA := by unfold State.updSeq; split <;> rfl
@[simp] theorem State.updSeq_portB (b : Bool) (f : SeqRun → SeqRun) : (s.updSeq b f).portB = s.portB := by unfold State.updSeq; split <;> rfl
@[simp] theorem State.updSeq_tick (b : Bool) (f : SeqRun → SeqRun) : (s.updSeq b f).tick = s.tick := by unfold State.updSeq; split <;> rfl
@[simp] theorem State.updSeq_grants (b : Bool) (f : SeqRun → SeqRun) : (s.updSeq b f).grants = s.grants := by unfold State.updSeq; split <;> rfl
@[simp] theorem State.updSeq_sys (b : Bool) (f : SeqRun → SeqRun) : (s.updSeq b f).sys = s.sys := by unfold State.updSeq; split <;> rfl
@[simp] theorem State.updSeq_pwr (b : Bool) (f : SeqRun → SeqRun) : (s.updSeq b f).pwr = s.pwr := by unfold State.updSeq; split <;> rfl
@[simp] theorem State.updSeq_seq (b : Bool) (f : SeqRun → SeqRun) : (s.updSeq b f).seq = s.seq := by unfold State.updSeq; split <;> rfl
@[simp] theorem State.updSeq_disp (b : Bool) (f : SeqRun → SeqRun) : (s.updSeq b f).disp = s.disp := by unfold State.updSeq; split <;> rfl
@[simp] theorem State.updSeq_lamps (b : Bool) (f : SeqRun → SeqRun) : (s.updSeq b f).lamps = s.lamps := by unfold State.updSeq; split <;> rfl
@[simp] theorem State.updSeq_engines (b : Bool) (f : SeqRun → SeqRun) : (s.updSeq b f).engines = s.engines := by unfold State.updSeq; split <;> rfl
@[simp] theorem State.updSeq_keys (b : Bool) (f : SeqRun → SeqRun) : (s.updSeq b f).keys = s.keys := by unfold State.updSeq; split <;> rfl
@[simp] theorem State.updSeq_therm (b : Bool) (f : SeqRun → SeqRun) : (s.updSeq b f).therm = s.therm := by unfold State.updSeq; split <;> rfl
@[simp] theorem State.updSeq_prot (b : Bool) (f : SeqRun → SeqRun) : (s.updSeq b f).prot = s.prot := by unfold State.updSeq; split <;> rfl
@[simp] theorem State.updSeq_flash (b : Bool) (f : SeqRun → SeqRun) : (s.updSeq b f).flash = s.flash := by unfold State.updSeq; split <;> rfl
@[simp] theorem State.updSeq_link (b : Bool) (f : SeqRun → SeqRun) : (s.updSeq b f).link = s.link := by unfold State.updSeq; split <;> rfl
@[simp] theorem State.updSeq_tests (b : Bool) (f : SeqRun → SeqRun) : (s.updSeq b f).tests = s.tests := by unfold State.updSeq; split <;> rfl
@[simp] theorem State.updSeq_dbg (b : Bool) (f : SeqRun → SeqRun) : (s.updSeq b f).dbg = s.dbg := by unfold State.updSeq; split <;> rfl
@[simp] theorem State.updSeq_held (b : Bool) (f : SeqRun → SeqRun) : (s.updSeq b f).held = s.held := by unfold State.updSeq; split <;> rfl
@[simp] theorem State.updSeq_after (b : Bool) (f : SeqRun → SeqRun) : (s.updSeq b f).after = s.after := by unfold State.updSeq; split <;> rfl
@[simp] theorem State.updSeq_keyStage (b : Bool) (f : SeqRun → SeqRun) : (s.updSeq b f).keyStage = s.keyStage := by unfold State.updSeq; split <;> rfl
@[simp] theorem State.updSeq_secTen (b : Bool) (f : SeqRun → SeqRun) : (s.updSeq b f).secTen = s.secTen := by unfold State.updSeq; split <;> rfl
@[simp] theorem State.updSeq_nextRun (b : Bool) (f : SeqRun → SeqRun) : (s.updSeq b f).nextRun = s.nextRun := by unfold State.updSeq; split <;> rfl
@[simp] theorem State.updSeq_waiting (b : Bool) (f : SeqRun → SeqRun) : (s.updSeq b f).waiting = s.waiting := by unfold State.updSeq; split <;> rfl
@[simp] theorem State.updSeq_part (b : Bool) (f : SeqRun → SeqRun) : (s.updSeq b f).part = s.part := by unfold State.updSeq; split <;> rfl
@[simp] theorem State.updSeq_regs (b : Bool) (f : SeqRun → SeqRun) : (s.updSeq b f).regs = s.regs := by unfold State.updSeq; split <;> rfl
@[simp] theorem State.updSeq_mem (b : Bool) (f : SeqRun → SeqRun) : (s.updSeq b f).mem = s.mem := by unfold State.updSeq; split <;> rfl
@[simp] theorem State.updSeq_ecc (b : Bool) (f : SeqRun → SeqRun) : (s.updSeq b f).ecc = s.ecc := by unfold State.updSeq; split <;> rfl
@[simp] theorem State.updSeq_chk (b : Bool) (f : SeqRun → SeqRun) : (s.updSeq b f).chk = s.chk := by unfold State.updSeq; split <;> rfl
@[simp] theorem State.updSeq_ksnap (b : Bool) (f : SeqRun → SeqRun) : (s.updSeq b f).ksnap = s.ksnap := by unfold State.updSeq; split <;> rfl
@[simp] theorem State.updSeq_sealed (b : Bool) (f : SeqRun → SeqRun) : (s.updSeq b f).sealed = s.sealed := by unfold State.updSeq; split <;> rfl
@[simp] theorem State.updSeq_rdata (b : Bool) (f : SeqRun → SeqRun) : (s.updSeq b f).rdata = s.rdata := by unfold State.updSeq; split <;> rfl
@[simp] theorem State.updSeq_free (b : Bool) (f : SeqRun → SeqRun) : (s.updSeq b f).free = s.free := by unfold State.updSeq; split <;> rfl

/-! ## setInj -/

@[simp] theorem State.setInj_pending (b : Bool) (i : Option Inj) : (s.setInj b i).pending = s.pending := by unfold State.setInj; split <;> rfl
@[simp] theorem State.setInj_doors (b : Bool) (i : Option Inj) : (s.setInj b i).doors = s.doors := by unfold State.setInj; split <;> rfl
@[simp] theorem State.setInj_tens (b : Bool) (i : Option Inj) : (s.setInj b i).tens = s.tens := by unfold State.setInj; split <;> rfl
@[simp] theorem State.setInj_runs (b : Bool) (i : Option Inj) : (s.setInj b i).runs = s.runs := by unfold State.setInj; split <;> rfl
@[simp] theorem State.setInj_portA (b : Bool) (i : Option Inj) : (s.setInj b i).portA = s.portA := by unfold State.setInj; split <;> rfl
@[simp] theorem State.setInj_portB (b : Bool) (i : Option Inj) : (s.setInj b i).portB = s.portB := by unfold State.setInj; split <;> rfl
@[simp] theorem State.setInj_tick (b : Bool) (i : Option Inj) : (s.setInj b i).tick = s.tick := by unfold State.setInj; split <;> rfl
@[simp] theorem State.setInj_grants (b : Bool) (i : Option Inj) : (s.setInj b i).grants = s.grants := by unfold State.setInj; split <;> rfl
@[simp] theorem State.setInj_sys (b : Bool) (i : Option Inj) : (s.setInj b i).sys = s.sys := by unfold State.setInj; split <;> rfl
@[simp] theorem State.setInj_pwr (b : Bool) (i : Option Inj) : (s.setInj b i).pwr = s.pwr := by unfold State.setInj; split <;> rfl
@[simp] theorem State.setInj_seq (b : Bool) (i : Option Inj) : (s.setInj b i).seq = s.seq := by unfold State.setInj; split <;> rfl
@[simp] theorem State.setInj_disp (b : Bool) (i : Option Inj) : (s.setInj b i).disp = s.disp := by unfold State.setInj; split <;> rfl
@[simp] theorem State.setInj_lamps (b : Bool) (i : Option Inj) : (s.setInj b i).lamps = s.lamps := by unfold State.setInj; split <;> rfl
@[simp] theorem State.setInj_engines (b : Bool) (i : Option Inj) : (s.setInj b i).engines = s.engines := by unfold State.setInj; split <;> rfl
@[simp] theorem State.setInj_keys (b : Bool) (i : Option Inj) : (s.setInj b i).keys = s.keys := by unfold State.setInj; split <;> rfl
@[simp] theorem State.setInj_therm (b : Bool) (i : Option Inj) : (s.setInj b i).therm = s.therm := by unfold State.setInj; split <;> rfl
@[simp] theorem State.setInj_prot (b : Bool) (i : Option Inj) : (s.setInj b i).prot = s.prot := by unfold State.setInj; split <;> rfl
@[simp] theorem State.setInj_flash (b : Bool) (i : Option Inj) : (s.setInj b i).flash = s.flash := by unfold State.setInj; split <;> rfl
@[simp] theorem State.setInj_link (b : Bool) (i : Option Inj) : (s.setInj b i).link = s.link := by unfold State.setInj; split <;> rfl
@[simp] theorem State.setInj_tests (b : Bool) (i : Option Inj) : (s.setInj b i).tests = s.tests := by unfold State.setInj; split <;> rfl
@[simp] theorem State.setInj_dbg (b : Bool) (i : Option Inj) : (s.setInj b i).dbg = s.dbg := by unfold State.setInj; split <;> rfl
@[simp] theorem State.setInj_held (b : Bool) (i : Option Inj) : (s.setInj b i).held = s.held := by unfold State.setInj; split <;> rfl
@[simp] theorem State.setInj_after (b : Bool) (i : Option Inj) : (s.setInj b i).after = s.after := by unfold State.setInj; split <;> rfl
@[simp] theorem State.setInj_keyStage (b : Bool) (i : Option Inj) : (s.setInj b i).keyStage = s.keyStage := by unfold State.setInj; split <;> rfl
@[simp] theorem State.setInj_secTen (b : Bool) (i : Option Inj) : (s.setInj b i).secTen = s.secTen := by unfold State.setInj; split <;> rfl
@[simp] theorem State.setInj_nextRun (b : Bool) (i : Option Inj) : (s.setInj b i).nextRun = s.nextRun := by unfold State.setInj; split <;> rfl
@[simp] theorem State.setInj_waiting (b : Bool) (i : Option Inj) : (s.setInj b i).waiting = s.waiting := by unfold State.setInj; split <;> rfl
@[simp] theorem State.setInj_part (b : Bool) (i : Option Inj) : (s.setInj b i).part = s.part := by unfold State.setInj; split <;> rfl
@[simp] theorem State.setInj_regs (b : Bool) (i : Option Inj) : (s.setInj b i).regs = s.regs := by unfold State.setInj; split <;> rfl
@[simp] theorem State.setInj_mem (b : Bool) (i : Option Inj) : (s.setInj b i).mem = s.mem := by unfold State.setInj; split <;> rfl
@[simp] theorem State.setInj_ecc (b : Bool) (i : Option Inj) : (s.setInj b i).ecc = s.ecc := by unfold State.setInj; split <;> rfl
@[simp] theorem State.setInj_chk (b : Bool) (i : Option Inj) : (s.setInj b i).chk = s.chk := by unfold State.setInj; split <;> rfl
@[simp] theorem State.setInj_ksnap (b : Bool) (i : Option Inj) : (s.setInj b i).ksnap = s.ksnap := by unfold State.setInj; split <;> rfl
@[simp] theorem State.setInj_sealed (b : Bool) (i : Option Inj) : (s.setInj b i).sealed = s.sealed := by unfold State.setInj; split <;> rfl
@[simp] theorem State.setInj_rdata (b : Bool) (i : Option Inj) : (s.setInj b i).rdata = s.rdata := by unfold State.setInj; split <;> rfl
@[simp] theorem State.setInj_free (b : Bool) (i : Option Inj) : (s.setInj b i).free = s.free := by unfold State.setInj; split <;> rfl

/-! ## setBuf -/

@[simp] theorem State.setBuf_pending (b : Nat) (v : Option RspBuf) : (s.setBuf b v).pending = s.pending := rfl
@[simp] theorem State.setBuf_doors (b : Nat) (v : Option RspBuf) : (s.setBuf b v).doors = s.doors := rfl
@[simp] theorem State.setBuf_tens (b : Nat) (v : Option RspBuf) : (s.setBuf b v).tens = s.tens := rfl
@[simp] theorem State.setBuf_runs (b : Nat) (v : Option RspBuf) : (s.setBuf b v).runs = s.runs := rfl
@[simp] theorem State.setBuf_portA (b : Nat) (v : Option RspBuf) : (s.setBuf b v).portA = s.portA := rfl
@[simp] theorem State.setBuf_portB (b : Nat) (v : Option RspBuf) : (s.setBuf b v).portB = s.portB := rfl
@[simp] theorem State.setBuf_tick (b : Nat) (v : Option RspBuf) : (s.setBuf b v).tick = s.tick := rfl
@[simp] theorem State.setBuf_grants (b : Nat) (v : Option RspBuf) : (s.setBuf b v).grants = s.grants := rfl
@[simp] theorem State.setBuf_sys (b : Nat) (v : Option RspBuf) : (s.setBuf b v).sys = s.sys := rfl
@[simp] theorem State.setBuf_pwr (b : Nat) (v : Option RspBuf) : (s.setBuf b v).pwr = s.pwr := rfl
@[simp] theorem State.setBuf_seq (b : Nat) (v : Option RspBuf) : (s.setBuf b v).seq = s.seq := rfl
@[simp] theorem State.setBuf_disp (b : Nat) (v : Option RspBuf) : (s.setBuf b v).disp = s.disp := rfl
@[simp] theorem State.setBuf_lamps (b : Nat) (v : Option RspBuf) : (s.setBuf b v).lamps = s.lamps := rfl
@[simp] theorem State.setBuf_engines (b : Nat) (v : Option RspBuf) : (s.setBuf b v).engines = s.engines := rfl
@[simp] theorem State.setBuf_keys (b : Nat) (v : Option RspBuf) : (s.setBuf b v).keys = s.keys := rfl
@[simp] theorem State.setBuf_adc (b : Nat) (v : Option RspBuf) : (s.setBuf b v).adc = s.adc := rfl
@[simp] theorem State.setBuf_therm (b : Nat) (v : Option RspBuf) : (s.setBuf b v).therm = s.therm := rfl
@[simp] theorem State.setBuf_prot (b : Nat) (v : Option RspBuf) : (s.setBuf b v).prot = s.prot := rfl
@[simp] theorem State.setBuf_flash (b : Nat) (v : Option RspBuf) : (s.setBuf b v).flash = s.flash := rfl
@[simp] theorem State.setBuf_tests (b : Nat) (v : Option RspBuf) : (s.setBuf b v).tests = s.tests := rfl
@[simp] theorem State.setBuf_dbg (b : Nat) (v : Option RspBuf) : (s.setBuf b v).dbg = s.dbg := rfl
@[simp] theorem State.setBuf_held (b : Nat) (v : Option RspBuf) : (s.setBuf b v).held = s.held := rfl
@[simp] theorem State.setBuf_after (b : Nat) (v : Option RspBuf) : (s.setBuf b v).after = s.after := rfl
@[simp] theorem State.setBuf_keyStage (b : Nat) (v : Option RspBuf) : (s.setBuf b v).keyStage = s.keyStage := rfl
@[simp] theorem State.setBuf_secTen (b : Nat) (v : Option RspBuf) : (s.setBuf b v).secTen = s.secTen := rfl
@[simp] theorem State.setBuf_nextRun (b : Nat) (v : Option RspBuf) : (s.setBuf b v).nextRun = s.nextRun := rfl
@[simp] theorem State.setBuf_waiting (b : Nat) (v : Option RspBuf) : (s.setBuf b v).waiting = s.waiting := rfl
@[simp] theorem State.setBuf_part (b : Nat) (v : Option RspBuf) : (s.setBuf b v).part = s.part := rfl
@[simp] theorem State.setBuf_regs (b : Nat) (v : Option RspBuf) : (s.setBuf b v).regs = s.regs := rfl
@[simp] theorem State.setBuf_mem (b : Nat) (v : Option RspBuf) : (s.setBuf b v).mem = s.mem := rfl
@[simp] theorem State.setBuf_ecc (b : Nat) (v : Option RspBuf) : (s.setBuf b v).ecc = s.ecc := rfl
@[simp] theorem State.setBuf_chk (b : Nat) (v : Option RspBuf) : (s.setBuf b v).chk = s.chk := rfl
@[simp] theorem State.setBuf_ksnap (b : Nat) (v : Option RspBuf) : (s.setBuf b v).ksnap = s.ksnap := rfl
@[simp] theorem State.setBuf_sealed (b : Nat) (v : Option RspBuf) : (s.setBuf b v).sealed = s.sealed := rfl
@[simp] theorem State.setBuf_rdata (b : Nat) (v : Option RspBuf) : (s.setBuf b v).rdata = s.rdata := rfl
@[simp] theorem State.setBuf_free (b : Nat) (v : Option RspBuf) : (s.setBuf b v).free = s.free := rfl

/-! ## setSnap -/

@[simp] theorem State.setSnap_pending (k : Nat) (v : KSnap) : (s.setSnap k v).pending = s.pending := rfl
@[simp] theorem State.setSnap_doors (k : Nat) (v : KSnap) : (s.setSnap k v).doors = s.doors := rfl
@[simp] theorem State.setSnap_tens (k : Nat) (v : KSnap) : (s.setSnap k v).tens = s.tens := rfl
@[simp] theorem State.setSnap_runs (k : Nat) (v : KSnap) : (s.setSnap k v).runs = s.runs := rfl
@[simp] theorem State.setSnap_portA (k : Nat) (v : KSnap) : (s.setSnap k v).portA = s.portA := rfl
@[simp] theorem State.setSnap_portB (k : Nat) (v : KSnap) : (s.setSnap k v).portB = s.portB := rfl
@[simp] theorem State.setSnap_tick (k : Nat) (v : KSnap) : (s.setSnap k v).tick = s.tick := rfl
@[simp] theorem State.setSnap_grants (k : Nat) (v : KSnap) : (s.setSnap k v).grants = s.grants := rfl
@[simp] theorem State.setSnap_sys (k : Nat) (v : KSnap) : (s.setSnap k v).sys = s.sys := rfl
@[simp] theorem State.setSnap_pwr (k : Nat) (v : KSnap) : (s.setSnap k v).pwr = s.pwr := rfl
@[simp] theorem State.setSnap_seq (k : Nat) (v : KSnap) : (s.setSnap k v).seq = s.seq := rfl
@[simp] theorem State.setSnap_disp (k : Nat) (v : KSnap) : (s.setSnap k v).disp = s.disp := rfl
@[simp] theorem State.setSnap_lamps (k : Nat) (v : KSnap) : (s.setSnap k v).lamps = s.lamps := rfl
@[simp] theorem State.setSnap_engines (k : Nat) (v : KSnap) : (s.setSnap k v).engines = s.engines := rfl
@[simp] theorem State.setSnap_keys (k : Nat) (v : KSnap) : (s.setSnap k v).keys = s.keys := rfl
@[simp] theorem State.setSnap_adc (k : Nat) (v : KSnap) : (s.setSnap k v).adc = s.adc := rfl
@[simp] theorem State.setSnap_therm (k : Nat) (v : KSnap) : (s.setSnap k v).therm = s.therm := rfl
@[simp] theorem State.setSnap_prot (k : Nat) (v : KSnap) : (s.setSnap k v).prot = s.prot := rfl
@[simp] theorem State.setSnap_flash (k : Nat) (v : KSnap) : (s.setSnap k v).flash = s.flash := rfl
@[simp] theorem State.setSnap_link (k : Nat) (v : KSnap) : (s.setSnap k v).link = s.link := rfl
@[simp] theorem State.setSnap_tests (k : Nat) (v : KSnap) : (s.setSnap k v).tests = s.tests := rfl
@[simp] theorem State.setSnap_dbg (k : Nat) (v : KSnap) : (s.setSnap k v).dbg = s.dbg := rfl
@[simp] theorem State.setSnap_held (k : Nat) (v : KSnap) : (s.setSnap k v).held = s.held := rfl
@[simp] theorem State.setSnap_after (k : Nat) (v : KSnap) : (s.setSnap k v).after = s.after := rfl
@[simp] theorem State.setSnap_keyStage (k : Nat) (v : KSnap) : (s.setSnap k v).keyStage = s.keyStage := rfl
@[simp] theorem State.setSnap_secTen (k : Nat) (v : KSnap) : (s.setSnap k v).secTen = s.secTen := rfl
@[simp] theorem State.setSnap_nextRun (k : Nat) (v : KSnap) : (s.setSnap k v).nextRun = s.nextRun := rfl
@[simp] theorem State.setSnap_waiting (k : Nat) (v : KSnap) : (s.setSnap k v).waiting = s.waiting := rfl
@[simp] theorem State.setSnap_part (k : Nat) (v : KSnap) : (s.setSnap k v).part = s.part := rfl
@[simp] theorem State.setSnap_regs (k : Nat) (v : KSnap) : (s.setSnap k v).regs = s.regs := rfl
@[simp] theorem State.setSnap_mem (k : Nat) (v : KSnap) : (s.setSnap k v).mem = s.mem := rfl
@[simp] theorem State.setSnap_ecc (k : Nat) (v : KSnap) : (s.setSnap k v).ecc = s.ecc := rfl
@[simp] theorem State.setSnap_chk (k : Nat) (v : KSnap) : (s.setSnap k v).chk = s.chk := rfl
@[simp] theorem State.setSnap_sealed (k : Nat) (v : KSnap) : (s.setSnap k v).sealed = s.sealed := rfl
@[simp] theorem State.setSnap_rdata (k : Nat) (v : KSnap) : (s.setSnap k v).rdata = s.rdata := rfl
@[simp] theorem State.setSnap_free (k : Nat) (v : KSnap) : (s.setSnap k v).free = s.free := rfl

/-! ## setRun -/

@[simp] theorem State.setRun_pending (id : Nat) (st : RunSt) : (s.setRun id st).pending = s.pending := rfl
@[simp] theorem State.setRun_doors (id : Nat) (st : RunSt) : (s.setRun id st).doors = s.doors := rfl
@[simp] theorem State.setRun_tens (id : Nat) (st : RunSt) : (s.setRun id st).tens = s.tens := rfl
@[simp] theorem State.setRun_portA (id : Nat) (st : RunSt) : (s.setRun id st).portA = s.portA := rfl
@[simp] theorem State.setRun_portB (id : Nat) (st : RunSt) : (s.setRun id st).portB = s.portB := rfl
@[simp] theorem State.setRun_tick (id : Nat) (st : RunSt) : (s.setRun id st).tick = s.tick := rfl
@[simp] theorem State.setRun_grants (id : Nat) (st : RunSt) : (s.setRun id st).grants = s.grants := rfl
@[simp] theorem State.setRun_sys (id : Nat) (st : RunSt) : (s.setRun id st).sys = s.sys := rfl
@[simp] theorem State.setRun_pwr (id : Nat) (st : RunSt) : (s.setRun id st).pwr = s.pwr := rfl
@[simp] theorem State.setRun_seq (id : Nat) (st : RunSt) : (s.setRun id st).seq = s.seq := rfl
@[simp] theorem State.setRun_disp (id : Nat) (st : RunSt) : (s.setRun id st).disp = s.disp := rfl
@[simp] theorem State.setRun_lamps (id : Nat) (st : RunSt) : (s.setRun id st).lamps = s.lamps := rfl
@[simp] theorem State.setRun_engines (id : Nat) (st : RunSt) : (s.setRun id st).engines = s.engines := rfl
@[simp] theorem State.setRun_keys (id : Nat) (st : RunSt) : (s.setRun id st).keys = s.keys := rfl
@[simp] theorem State.setRun_adc (id : Nat) (st : RunSt) : (s.setRun id st).adc = s.adc := rfl
@[simp] theorem State.setRun_therm (id : Nat) (st : RunSt) : (s.setRun id st).therm = s.therm := rfl
@[simp] theorem State.setRun_prot (id : Nat) (st : RunSt) : (s.setRun id st).prot = s.prot := rfl
@[simp] theorem State.setRun_flash (id : Nat) (st : RunSt) : (s.setRun id st).flash = s.flash := rfl
@[simp] theorem State.setRun_link (id : Nat) (st : RunSt) : (s.setRun id st).link = s.link := rfl
@[simp] theorem State.setRun_tests (id : Nat) (st : RunSt) : (s.setRun id st).tests = s.tests := rfl
@[simp] theorem State.setRun_dbg (id : Nat) (st : RunSt) : (s.setRun id st).dbg = s.dbg := rfl
@[simp] theorem State.setRun_held (id : Nat) (st : RunSt) : (s.setRun id st).held = s.held := rfl
@[simp] theorem State.setRun_after (id : Nat) (st : RunSt) : (s.setRun id st).after = s.after := rfl
@[simp] theorem State.setRun_keyStage (id : Nat) (st : RunSt) : (s.setRun id st).keyStage = s.keyStage := rfl
@[simp] theorem State.setRun_secTen (id : Nat) (st : RunSt) : (s.setRun id st).secTen = s.secTen := rfl
@[simp] theorem State.setRun_nextRun (id : Nat) (st : RunSt) : (s.setRun id st).nextRun = s.nextRun := rfl
@[simp] theorem State.setRun_waiting (id : Nat) (st : RunSt) : (s.setRun id st).waiting = s.waiting := rfl
@[simp] theorem State.setRun_part (id : Nat) (st : RunSt) : (s.setRun id st).part = s.part := rfl
@[simp] theorem State.setRun_regs (id : Nat) (st : RunSt) : (s.setRun id st).regs = s.regs := rfl
@[simp] theorem State.setRun_mem (id : Nat) (st : RunSt) : (s.setRun id st).mem = s.mem := rfl
@[simp] theorem State.setRun_ecc (id : Nat) (st : RunSt) : (s.setRun id st).ecc = s.ecc := rfl
@[simp] theorem State.setRun_chk (id : Nat) (st : RunSt) : (s.setRun id st).chk = s.chk := rfl
@[simp] theorem State.setRun_ksnap (id : Nat) (st : RunSt) : (s.setRun id st).ksnap = s.ksnap := rfl
@[simp] theorem State.setRun_sealed (id : Nat) (st : RunSt) : (s.setRun id st).sealed = s.sealed := rfl
@[simp] theorem State.setRun_rdata (id : Nat) (st : RunSt) : (s.setRun id st).rdata = s.rdata := rfl
@[simp] theorem State.setRun_free (id : Nat) (st : RunSt) : (s.setRun id st).free = s.free := rfl

end Sys2Proof.Machine
end

