-- ==== Sys2Proof/Laws/Access.lean ====
section
/-! SUPPORT. What each reader of a member of a numbered family gives after each updater, and a register row that is
served, written out. -/

namespace Sys2Proof.Machine

variable (s : State)

/-! ## setDoor -/

@[simp] theorem State.ten_setDoor (t : Nat) (d : DoorSt) (u : Nat) : (s.setDoor t d).ten u = s.ten u := by unfold State.setDoor; split <;> rfl
@[simp] theorem State.up_setDoor (t : Nat) (d : DoorSt) (e : Nat) : (s.setDoor t d).up e = s.up e := by unfold State.setDoor; split <;> rfl
@[simp] theorem State.shut_setDoor (t : Nat) (d : DoorSt) (bank : Nat) : (s.setDoor t d).shut bank = s.shut bank := by unfold State.setDoor; split <;> rfl
@[simp] theorem State.rdByte_setDoor (t : Nat) (d : DoorSt) (x : Nat) : (s.setDoor t d).rdByte x = s.rdByte x := by unfold State.setDoor; split <;> rfl
@[simp] theorem State.grant_setDoor (t : Nat) (d : DoorSt) (cls i : Nat) : (s.setDoor t d).grant cls i = s.grant cls i := by unfold State.setDoor; split <;> rfl
@[simp] theorem State.owner_setDoor (t : Nat) (d : DoorSt) (cls i : Nat) : (s.setDoor t d).owner cls i = s.owner cls i := by unfold State.setDoor; split <;> rfl
@[simp] theorem State.reg_setDoor (t : Nat) (d : DoorSt) (x : Nat) : (s.setDoor t d).reg x = s.reg x := by unfold State.setDoor; split <;> rfl
@[simp] theorem State.port_setDoor (t : Nat) (d : DoorSt) (x : Nat) : (s.setDoor t d).port x = s.port x := by unfold State.setDoor; split <;> rfl
@[simp] theorem State.cell_setDoor (t : Nat) (d : DoorSt) (x : Nat) : (s.setDoor t d).cell x = s.cell x := by unfold State.setDoor; split <;> rfl
@[simp] theorem State.lamp_setDoor (t : Nat) (d : DoorSt) (x : Nat) : (s.setDoor t d).lamp x = s.lamp x := by unfold State.setDoor; split <;> rfl
@[simp] theorem State.engine_setDoor (t : Nat) (d : DoorSt) (x : Nat) : (s.setDoor t d).engine x = s.engine x := by unfold State.setDoor; split <;> rfl
@[simp] theorem State.key_setDoor (t : Nat) (d : DoorSt) (x : Nat) : (s.setDoor t d).key x = s.key x := by unfold State.setDoor; split <;> rfl
@[simp] theorem State.chan_setDoor (t : Nat) (d : DoorSt) (x : Nat) : (s.setDoor t d).chan x = s.chan x := by unfold State.setDoor; split <;> rfl
@[simp] theorem State.fword_setDoor (t : Nat) (d : DoorSt) (x : Nat) : (s.setDoor t d).fword x = s.fword x := by unfold State.setDoor; split <;> rfl

/-! ## updTen -/

@[simp] theorem State.door_updTen (t : Nat) (f : Tenant → Tenant) (u : Nat) : (s.updTen t f).door u = s.door u := rfl
@[simp] theorem State.up_updTen (t : Nat) (f : Tenant → Tenant) (d : Nat) : (s.updTen t f).up d = s.up d := rfl
@[simp] theorem State.shut_updTen (t : Nat) (f : Tenant → Tenant) (bank : Nat) : (s.updTen t f).shut bank = s.shut bank := rfl
@[simp] theorem State.rdByte_updTen (t : Nat) (f : Tenant → Tenant) (x : Nat) : (s.updTen t f).rdByte x = s.rdByte x := rfl
@[simp] theorem State.grant_updTen (t : Nat) (f : Tenant → Tenant) (cls i : Nat) : (s.updTen t f).grant cls i = s.grant cls i := rfl
@[simp] theorem State.owner_updTen (t : Nat) (f : Tenant → Tenant) (cls i : Nat) : (s.updTen t f).owner cls i = s.owner cls i := rfl
@[simp] theorem State.reg_updTen (t : Nat) (f : Tenant → Tenant) (x : Nat) : (s.updTen t f).reg x = s.reg x := rfl
@[simp] theorem State.port_updTen (t : Nat) (f : Tenant → Tenant) (x : Nat) : (s.updTen t f).port x = s.port x := rfl
@[simp] theorem State.cell_updTen (t : Nat) (f : Tenant → Tenant) (x : Nat) : (s.updTen t f).cell x = s.cell x := rfl
@[simp] theorem State.lamp_updTen (t : Nat) (f : Tenant → Tenant) (x : Nat) : (s.updTen t f).lamp x = s.lamp x := rfl
@[simp] theorem State.engine_updTen (t : Nat) (f : Tenant → Tenant) (x : Nat) : (s.updTen t f).engine x = s.engine x := rfl
@[simp] theorem State.key_updTen (t : Nat) (f : Tenant → Tenant) (x : Nat) : (s.updTen t f).key x = s.key x := rfl
@[simp] theorem State.chan_updTen (t : Nat) (f : Tenant → Tenant) (x : Nat) : (s.updTen t f).chan x = s.chan x := rfl
@[simp] theorem State.fword_updTen (t : Nat) (f : Tenant → Tenant) (x : Nat) : (s.updTen t f).fword x = s.fword x := rfl

/-! ## updPort -/

@[simp] theorem State.door_updPort (p : Nat) (f : HPort → HPort) (u : Nat) : (s.updPort p f).door u = s.door u := by unfold State.updPort; split <;> rfl
@[simp] theorem State.ten_updPort (p : Nat) (f : HPort → HPort) (u : Nat) : (s.updPort p f).ten u = s.ten u := by unfold State.updPort; split <;> rfl
@[simp] theorem State.up_updPort (p : Nat) (f : HPort → HPort) (d : Nat) : (s.updPort p f).up d = s.up d := by unfold State.updPort; split <;> rfl
@[simp] theorem State.shut_updPort (p : Nat) (f : HPort → HPort) (bank : Nat) : (s.updPort p f).shut bank = s.shut bank := by unfold State.updPort; split <;> rfl
@[simp] theorem State.rdByte_updPort (p : Nat) (f : HPort → HPort) (x : Nat) : (s.updPort p f).rdByte x = s.rdByte x := by unfold State.updPort; split <;> rfl
@[simp] theorem State.grant_updPort (p : Nat) (f : HPort → HPort) (cls i : Nat) : (s.updPort p f).grant cls i = s.grant cls i := by unfold State.updPort; split <;> rfl
@[simp] theorem State.owner_updPort (p : Nat) (f : HPort → HPort) (cls i : Nat) : (s.updPort p f).owner cls i = s.owner cls i := by unfold State.updPort; split <;> rfl
@[simp] theorem State.reg_updPort (p : Nat) (f : HPort → HPort) (x : Nat) : (s.updPort p f).reg x = s.reg x := by unfold State.updPort; split <;> rfl
@[simp] theorem State.cell_updPort (p : Nat) (f : HPort → HPort) (x : Nat) : (s.updPort p f).cell x = s.cell x := by unfold State.updPort; split <;> rfl
@[simp] theorem State.lamp_updPort (p : Nat) (f : HPort → HPort) (x : Nat) : (s.updPort p f).lamp x = s.lamp x := by unfold State.updPort; split <;> rfl
@[simp] theorem State.engine_updPort (p : Nat) (f : HPort → HPort) (x : Nat) : (s.updPort p f).engine x = s.engine x := by unfold State.updPort; split <;> rfl
@[simp] theorem State.key_updPort (p : Nat) (f : HPort → HPort) (x : Nat) : (s.updPort p f).key x = s.key x := by unfold State.updPort; split <;> rfl
@[simp] theorem State.chan_updPort (p : Nat) (f : HPort → HPort) (x : Nat) : (s.updPort p f).chan x = s.chan x := by unfold State.updPort; split <;> rfl
@[simp] theorem State.fword_updPort (p : Nat) (f : HPort → HPort) (x : Nat) : (s.updPort p f).fword x = s.fword x := by unfold State.updPort; split <;> rfl

/-! ## updCell -/

@[simp] theorem State.door_updCell (c : Nat) (f : Cell → Cell) (u : Nat) : (s.updCell c f).door u = s.door u := rfl
@[simp] theorem State.ten_updCell (c : Nat) (f : Cell → Cell) (u : Nat) : (s.updCell c f).ten u = s.ten u := rfl
@[simp] theorem State.up_updCell (c : Nat) (f : Cell → Cell) (d : Nat) : (s.updCell c f).up d = s.up d := rfl
@[simp] theorem State.shut_updCell (c : Nat) (f : Cell → Cell) (bank : Nat) : (s.updCell c f).shut bank = s.shut bank := rfl
@[simp] theorem State.rdByte_updCell (c : Nat) (f : Cell → Cell) (x : Nat) : (s.updCell c f).rdByte x = s.rdByte x := rfl
@[simp] theorem State.grant_updCell (c : Nat) (f : Cell → Cell) (cls i : Nat) : (s.updCell c f).grant cls i = s.grant cls i := rfl
@[simp] theorem State.owner_updCell (c : Nat) (f : Cell → Cell) (cls i : Nat) : (s.updCell c f).owner cls i = s.owner cls i := rfl
@[simp] theorem State.reg_updCell (c : Nat) (f : Cell → Cell) (x : Nat) : (s.updCell c f).reg x = s.reg x := rfl
@[simp] theorem State.port_updCell (c : Nat) (f : Cell → Cell) (x : Nat) : (s.updCell c f).port x = s.port x := rfl
@[simp] theorem State.lamp_updCell (c : Nat) (f : Cell → Cell) (x : Nat) : (s.updCell c f).lamp x = s.lamp x := rfl
@[simp] theorem State.engine_updCell (c : Nat) (f : Cell → Cell) (x : Nat) : (s.updCell c f).engine x = s.engine x := rfl
@[simp] theorem State.key_updCell (c : Nat) (f : Cell → Cell) (x : Nat) : (s.updCell c f).key x = s.key x := rfl
@[simp] theorem State.chan_updCell (c : Nat) (f : Cell → Cell) (x : Nat) : (s.updCell c f).chan x = s.chan x := rfl
@[simp] theorem State.fword_updCell (c : Nat) (f : Cell → Cell) (x : Nat) : (s.updCell c f).fword x = s.fword x := rfl

/-! ## updDport -/

@[simp] theorem State.door_updDport (p : Nat) (f : DPort → DPort) (u : Nat) : (s.updDport p f).door u = s.door u := rfl
@[simp] theorem State.ten_updDport (p : Nat) (f : DPort → DPort) (u : Nat) : (s.updDport p f).ten u = s.ten u := rfl
@[simp] theorem State.up_updDport (p : Nat) (f : DPort → DPort) (d : Nat) : (s.updDport p f).up d = s.up d := rfl
@[simp] theorem State.shut_updDport (p : Nat) (f : DPort → DPort) (bank : Nat) : (s.updDport p f).shut bank = s.shut bank := rfl
@[simp] theorem State.rdByte_updDport (p : Nat) (f : DPort → DPort) (x : Nat) : (s.updDport p f).rdByte x = s.rdByte x := rfl
@[simp] theorem State.grant_updDport (p : Nat) (f : DPort → DPort) (cls i : Nat) : (s.updDport p f).grant cls i = s.grant cls i := rfl
@[simp] theorem State.owner_updDport (p : Nat) (f : DPort → DPort) (cls i : Nat) : (s.updDport p f).owner cls i = s.owner cls i := rfl
@[simp] theorem State.reg_updDport (p : Nat) (f : DPort → DPort) (x : Nat) : (s.updDport p f).reg x = s.reg x := rfl
@[simp] theorem State.port_updDport (p : Nat) (f : DPort → DPort) (x : Nat) : (s.updDport p f).port x = s.port x := rfl
@[simp] theorem State.lamp_updDport (p : Nat) (f : DPort → DPort) (x : Nat) : (s.updDport p f).lamp x = s.lamp x := rfl
@[simp] theorem State.engine_updDport (p : Nat) (f : DPort → DPort) (x : Nat) : (s.updDport p f).engine x = s.engine x := rfl
@[simp] theorem State.key_updDport (p : Nat) (f : DPort → DPort) (x : Nat) : (s.updDport p f).key x = s.key x := rfl
@[simp] theorem State.chan_updDport (p : Nat) (f : DPort → DPort) (x : Nat) : (s.updDport p f).chan x = s.chan x := rfl
@[simp] theorem State.fword_updDport (p : Nat) (f : DPort → DPort) (x : Nat) : (s.updDport p f).fword x = s.fword x := rfl

/-! ## updLamp -/

@[simp] theorem State.door_updLamp (n : Nat) (f : Lamp → Lamp) (u : Nat) : (s.updLamp n f).door u = s.door u := rfl
@[simp] theorem State.ten_updLamp (n : Nat) (f : Lamp → Lamp) (u : Nat) : (s.updLamp n f).ten u = s.ten u := rfl
@[simp] theorem State.up_updLamp (n : Nat) (f : Lamp → Lamp) (d : Nat) : (s.updLamp n f).up d = s.up d := rfl
@[simp] theorem State.shut_updLamp (n : Nat) (f : Lamp → Lamp) (bank : Nat) : (s.updLamp n f).shut bank = s.shut bank := rfl
@[simp] theorem State.rdByte_updLamp (n : Nat) (f : Lamp → Lamp) (x : Nat) : (s.updLamp n f).rdByte x = s.rdByte x := rfl
@[simp] theorem State.grant_updLamp (n : Nat) (f : Lamp → Lamp) (cls i : Nat) : (s.updLamp n f).grant cls i = s.grant cls i := rfl
@[simp] theorem State.owner_updLamp (n : Nat) (f : Lamp → Lamp) (cls i : Nat) : (s.updLamp n f).owner cls i = s.owner cls i := rfl
@[simp] theorem State.reg_updLamp (n : Nat) (f : Lamp → Lamp) (x : Nat) : (s.updLamp n f).reg x = s.reg x := rfl
@[simp] theorem State.port_updLamp (n : Nat) (f : Lamp → Lamp) (x : Nat) : (s.updLamp n f).port x = s.port x := rfl
@[simp] theorem State.cell_updLamp (n : Nat) (f : Lamp → Lamp) (x : Nat) : (s.updLamp n f).cell x = s.cell x := rfl
@[simp] theorem State.engine_updLamp (n : Nat) (f : Lamp → Lamp) (x : Nat) : (s.updLamp n f).engine x = s.engine x := rfl
@[simp] theorem State.key_updLamp (n : Nat) (f : Lamp → Lamp) (x : Nat) : (s.updLamp n f).key x = s.key x := rfl
@[simp] theorem State.chan_updLamp (n : Nat) (f : Lamp → Lamp) (x : Nat) : (s.updLamp n f).chan x = s.chan x := rfl
@[simp] theorem State.fword_updLamp (n : Nat) (f : Lamp → Lamp) (x : Nat) : (s.updLamp n f).fword x = s.fword x := rfl

/-! ## updEngine -/

@[simp] theorem State.door_updEngine (k : Nat) (f : Engine → Engine) (u : Nat) : (s.updEngine k f).door u = s.door u := rfl
@[simp] theorem State.ten_updEngine (k : Nat) (f : Engine → Engine) (u : Nat) : (s.updEngine k f).ten u = s.ten u := rfl
@[simp] theorem State.up_updEngine (k : Nat) (f : Engine → Engine) (d : Nat) : (s.updEngine k f).up d = s.up d := rfl
@[simp] theorem State.shut_updEngine (k : Nat) (f : Engine → Engine) (bank : Nat) : (s.updEngine k f).shut bank = s.shut bank := rfl
@[simp] theorem State.rdByte_updEngine (k : Nat) (f : Engine → Engine) (x : Nat) : (s.updEngine k f).rdByte x = s.rdByte x := rfl
@[simp] theorem State.grant_updEngine (k : Nat) (f : Engine → Engine) (cls i : Nat) : (s.updEngine k f).grant cls i = s.grant cls i := rfl
@[simp] theorem State.owner_updEngine (k : Nat) (f : Engine → Engine) (cls i : Nat) : (s.updEngine k f).owner cls i = s.owner cls i := rfl
@[simp] theorem State.reg_updEngine (k : Nat) (f : Engine → Engine) (x : Nat) : (s.updEngine k f).reg x = s.reg x := rfl
@[simp] theorem State.port_updEngine (k : Nat) (f : Engine → Engine) (x : Nat) : (s.updEngine k f).port x = s.port x := rfl
@[simp] theorem State.cell_updEngine (k : Nat) (f : Engine → Engine) (x : Nat) : (s.updEngine k f).cell x = s.cell x := rfl
@[simp] theorem State.lamp_updEngine (k : Nat) (f : Engine → Engine) (x : Nat) : (s.updEngine k f).lamp x = s.lamp x := rfl
@[simp] theorem State.key_updEngine (k : Nat) (f : Engine → Engine) (x : Nat) : (s.updEngine k f).key x = s.key x := rfl
@[simp] theorem State.chan_updEngine (k : Nat) (f : Engine → Engine) (x : Nat) : (s.updEngine k f).chan x = s.chan x := rfl
@[simp] theorem State.fword_updEngine (k : Nat) (f : Engine → Engine) (x : Nat) : (s.updEngine k f).fword x = s.fword x := rfl

/-! ## updKey -/

@[simp] theorem State.door_updKey (k : Nat) (f : Key → Key) (u : Nat) : (s.updKey k f).door u = s.door u := rfl
@[simp] theorem State.ten_updKey (k : Nat) (f : Key → Key) (u : Nat) : (s.updKey k f).ten u = s.ten u := rfl
@[simp] theorem State.up_updKey (k : Nat) (f : Key → Key) (d : Nat) : (s.updKey k f).up d = s.up d := rfl
@[simp] theorem State.shut_updKey (k : Nat) (f : Key → Key) (bank : Nat) : (s.updKey k f).shut bank = s.shut bank := rfl
@[simp] theorem State.rdByte_updKey (k : Nat) (f : Key → Key) (x : Nat) : (s.updKey k f).rdByte x = s.rdByte x := rfl
@[simp] theorem State.grant_updKey (k : Nat) (f : Key → Key) (cls i : Nat) : (s.updKey k f).grant cls i = s.grant cls i := rfl
@[simp] theorem State.owner_updKey (k : Nat) (f : Key → Key) (cls i : Nat) : (s.updKey k f).owner cls i = s.owner cls i := rfl
@[simp] theorem State.reg_updKey (k : Nat) (f : Key → Key) (x : Nat) : (s.updKey k f).reg x = s.reg x := rfl
@[simp] theorem State.port_updKey (k : Nat) (f : Key → Key) (x : Nat) : (s.updKey k f).port x = s.port x := rfl
@[simp] theorem State.cell_updKey (k : Nat) (f : Key → Key) (x : Nat) : (s.updKey k f).cell x = s.cell x := rfl
@[simp] theorem State.lamp_updKey (k : Nat) (f : Key → Key) (x : Nat) : (s.updKey k f).lamp x = s.lamp x := rfl
@[simp] theorem State.engine_updKey (k : Nat) (f : Key → Key) (x : Nat) : (s.updKey k f).engine x = s.engine x := rfl
@[simp] theorem State.chan_updKey (k : Nat) (f : Key → Key) (x : Nat) : (s.updKey k f).chan x = s.chan x := rfl
@[simp] theorem State.fword_updKey (k : Nat) (f : Key → Key) (x : Nat) : (s.updKey k f).fword x = s.fword x := rfl

/-! ## updChan -/

@[simp] theorem State.door_updChan (n : Nat) (f : Chan → Chan) (u : Nat) : (s.updChan n f).door u = s.door u := rfl
@[simp] theorem State.ten_updChan (n : Nat) (f : Chan → Chan) (u : Nat) : (s.updChan n f).ten u = s.ten u := rfl
@[simp] theorem State.up_updChan (n : Nat) (f : Chan → Chan) (d : Nat) : (s.updChan n f).up d = s.up d := rfl
@[simp] theorem State.shut_updChan (n : Nat) (f : Chan → Chan) (bank : Nat) : (s.updChan n f).shut bank = s.shut bank := rfl
@[simp] theorem State.rdByte_updChan (n : Nat) (f : Chan → Chan) (x : Nat) : (s.updChan n f).rdByte x = s.rdByte x := rfl
@[simp] theorem State.grant_updChan (n : Nat) (f : Chan → Chan) (cls i : Nat) : (s.updChan n f).grant cls i = s.grant cls i := rfl
@[simp] theorem State.owner_updChan (n : Nat) (f : Chan → Chan) (cls i : Nat) : (s.updChan n f).owner cls i = s.owner cls i := rfl
@[simp] theorem State.reg_updChan (n : Nat) (f : Chan → Chan) (x : Nat) : (s.updChan n f).reg x = s.reg x := rfl
@[simp] theorem State.port_updChan (n : Nat) (f : Chan → Chan) (x : Nat) : (s.updChan n f).port x = s.port x := rfl
@[simp] theorem State.cell_updChan (n : Nat) (f : Chan → Chan) (x : Nat) : (s.updChan n f).cell x = s.cell x := rfl
@[simp] theorem State.lamp_updChan (n : Nat) (f : Chan → Chan) (x : Nat) : (s.updChan n f).lamp x = s.lamp x := rfl
@[simp] theorem State.engine_updChan (n : Nat) (f : Chan → Chan) (x : Nat) : (s.updChan n f).engine x = s.engine x := rfl
@[simp] theorem State.key_updChan (n : Nat) (f : Chan → Chan) (x : Nat) : (s.updChan n f).key x = s.key x := rfl
@[simp] theorem State.fword_updChan (n : Nat) (f : Chan → Chan) (x : Nat) : (s.updChan n f).fword x = s.fword x := rfl

/-! ## updSensor -/

@[simp] theorem State.door_updSensor (i : Nat) (f : Sensor → Sensor) (u : Nat) : (s.updSensor i f).door u = s.door u := rfl
@[simp] theorem State.ten_updSensor (i : Nat) (f : Sensor → Sensor) (u : Nat) : (s.updSensor i f).ten u = s.ten u := rfl
@[simp] theorem State.up_updSensor (i : Nat) (f : Sensor → Sensor) (d : Nat) : (s.updSensor i f).up d = s.up d := rfl
@[simp] theorem State.shut_updSensor (i : Nat) (f : Sensor → Sensor) (bank : Nat) : (s.updSensor i f).shut bank = s.shut bank := rfl
@[simp] theorem State.rdByte_updSensor (i : Nat) (f : Sensor → Sensor) (x : Nat) : (s.updSensor i f).rdByte x = s.rdByte x := rfl
@[simp] theorem State.grant_updSensor (i : Nat) (f : Sensor → Sensor) (cls j : Nat) : (s.updSensor i f).grant cls j = s.grant cls j := rfl
@[simp] theorem State.owner_updSensor (i : Nat) (f : Sensor → Sensor) (cls j : Nat) : (s.updSensor i f).owner cls j = s.owner cls j := rfl
@[simp] theorem State.reg_updSensor (i : Nat) (f : Sensor → Sensor) (x : Nat) : (s.updSensor i f).reg x = s.reg x := rfl
@[simp] theorem State.port_updSensor (i : Nat) (f : Sensor → Sensor) (x : Nat) : (s.updSensor i f).port x = s.port x := rfl
@[simp] theorem State.cell_updSensor (i : Nat) (f : Sensor → Sensor) (x : Nat) : (s.updSensor i f).cell x = s.cell x := rfl
@[simp] theorem State.lamp_updSensor (i : Nat) (f : Sensor → Sensor) (x : Nat) : (s.updSensor i f).lamp x = s.lamp x := rfl
@[simp] theorem State.engine_updSensor (i : Nat) (f : Sensor → Sensor) (x : Nat) : (s.updSensor i f).engine x = s.engine x := rfl
@[simp] theorem State.key_updSensor (i : Nat) (f : Sensor → Sensor) (x : Nat) : (s.updSensor i f).key x = s.key x := rfl
@[simp] theorem State.chan_updSensor (i : Nat) (f : Sensor → Sensor) (x : Nat) : (s.updSensor i f).chan x = s.chan x := rfl
@[simp] theorem State.fword_updSensor (i : Nat) (f : Sensor → Sensor) (x : Nat) : (s.updSensor i f).fword x = s.fword x := rfl

/-! ## updZone -/

@[simp] theorem State.door_updZone (k : Nat) (f : Zone → Zone) (u : Nat) : (s.updZone k f).door u = s.door u := rfl
@[simp] theorem State.ten_updZone (k : Nat) (f : Zone → Zone) (u : Nat) : (s.updZone k f).ten u = s.ten u := rfl
@[simp] theorem State.up_updZone (k : Nat) (f : Zone → Zone) (d : Nat) : (s.updZone k f).up d = s.up d := rfl
@[simp] theorem State.shut_updZone (k : Nat) (f : Zone → Zone) (bank : Nat) : (s.updZone k f).shut bank = s.shut bank := rfl
@[simp] theorem State.rdByte_updZone (k : Nat) (f : Zone → Zone) (x : Nat) : (s.updZone k f).rdByte x = s.rdByte x := rfl
@[simp] theorem State.grant_updZone (k : Nat) (f : Zone → Zone) (cls i : Nat) : (s.updZone k f).grant cls i = s.grant cls i := rfl
@[simp] theorem State.owner_updZone (k : Nat) (f : Zone → Zone) (cls i : Nat) : (s.updZone k f).owner cls i = s.owner cls i := rfl
@[simp] theorem State.reg_updZone (k : Nat) (f : Zone → Zone) (x : Nat) : (s.updZone k f).reg x = s.reg x := rfl
@[simp] theorem State.port_updZone (k : Nat) (f : Zone → Zone) (x : Nat) : (s.updZone k f).port x = s.port x := rfl
@[simp] theorem State.cell_updZone (k : Nat) (f : Zone → Zone) (x : Nat) : (s.updZone k f).cell x = s.cell x := rfl
@[simp] theorem State.lamp_updZone (k : Nat) (f : Zone → Zone) (x : Nat) : (s.updZone k f).lamp x = s.lamp x := rfl
@[simp] theorem State.engine_updZone (k : Nat) (f : Zone → Zone) (x : Nat) : (s.updZone k f).engine x = s.engine x := rfl
@[simp] theorem State.key_updZone (k : Nat) (f : Zone → Zone) (x : Nat) : (s.updZone k f).key x = s.key x := rfl
@[simp] theorem State.chan_updZone (k : Nat) (f : Zone → Zone) (x : Nat) : (s.updZone k f).chan x = s.chan x := rfl
@[simp] theorem State.fword_updZone (k : Nat) (f : Zone → Zone) (x : Nat) : (s.updZone k f).fword x = s.fword x := rfl

/-! ## updFan -/

@[simp] theorem State.door_updFan (n : Nat) (f : Fan → Fan) (u : Nat) : (s.updFan n f).door u = s.door u := rfl
@[simp] theorem State.ten_updFan (n : Nat) (f : Fan → Fan) (u : Nat) : (s.updFan n f).ten u = s.ten u := rfl
@[simp] theorem State.up_updFan (n : Nat) (f : Fan → Fan) (d : Nat) : (s.updFan n f).up d = s.up d := rfl
@[simp] theorem State.shut_updFan (n : Nat) (f : Fan → Fan) (bank : Nat) : (s.updFan n f).shut bank = s.shut bank := rfl
@[simp] theorem State.rdByte_updFan (n : Nat) (f : Fan → Fan) (x : Nat) : (s.updFan n f).rdByte x = s.rdByte x := rfl
@[simp] theorem State.grant_updFan (n : Nat) (f : Fan → Fan) (cls i : Nat) : (s.updFan n f).grant cls i = s.grant cls i := rfl
@[simp] theorem State.owner_updFan (n : Nat) (f : Fan → Fan) (cls i : Nat) : (s.updFan n f).owner cls i = s.owner cls i := rfl
@[simp] theorem State.reg_updFan (n : Nat) (f : Fan → Fan) (x : Nat) : (s.updFan n f).reg x = s.reg x := rfl
@[simp] theorem State.port_updFan (n : Nat) (f : Fan → Fan) (x : Nat) : (s.updFan n f).port x = s.port x := rfl
@[simp] theorem State.cell_updFan (n : Nat) (f : Fan → Fan) (x : Nat) : (s.updFan n f).cell x = s.cell x := rfl
@[simp] theorem State.lamp_updFan (n : Nat) (f : Fan → Fan) (x : Nat) : (s.updFan n f).lamp x = s.lamp x := rfl
@[simp] theorem State.engine_updFan (n : Nat) (f : Fan → Fan) (x : Nat) : (s.updFan n f).engine x = s.engine x := rfl
@[simp] theorem State.key_updFan (n : Nat) (f : Fan → Fan) (x : Nat) : (s.updFan n f).key x = s.key x := rfl
@[simp] theorem State.chan_updFan (n : Nat) (f : Fan → Fan) (x : Nat) : (s.updFan n f).chan x = s.chan x := rfl
@[simp] theorem State.fword_updFan (n : Nat) (f : Fan → Fan) (x : Nat) : (s.updFan n f).fword x = s.fword x := rfl

/-! ## setFword -/

@[simp] theorem State.door_setFword (w : Nat) (v : FWord) (u : Nat) : (s.setFword w v).door u = s.door u := rfl
@[simp] theorem State.ten_setFword (w : Nat) (v : FWord) (u : Nat) : (s.setFword w v).ten u = s.ten u := rfl
@[simp] theorem State.up_setFword (w : Nat) (v : FWord) (d : Nat) : (s.setFword w v).up d = s.up d := rfl
@[simp] theorem State.shut_setFword (w : Nat) (v : FWord) (bank : Nat) : (s.setFword w v).shut bank = s.shut bank := rfl
@[simp] theorem State.rdByte_setFword (w : Nat) (v : FWord) (x : Nat) : (s.setFword w v).rdByte x = s.rdByte x := rfl
@[simp] theorem State.grant_setFword (w : Nat) (v : FWord) (cls i : Nat) : (s.setFword w v).grant cls i = s.grant cls i := rfl
@[simp] theorem State.owner_setFword (w : Nat) (v : FWord) (cls i : Nat) : (s.setFword w v).owner cls i = s.owner cls i := rfl
@[simp] theorem State.reg_setFword (w : Nat) (v : FWord) (x : Nat) : (s.setFword w v).reg x = s.reg x := rfl
@[simp] theorem State.port_setFword (w : Nat) (v : FWord) (x : Nat) : (s.setFword w v).port x = s.port x := rfl
@[simp] theorem State.cell_setFword (w : Nat) (v : FWord) (x : Nat) : (s.setFword w v).cell x = s.cell x := rfl
@[simp] theorem State.lamp_setFword (w : Nat) (v : FWord) (x : Nat) : (s.setFword w v).lamp x = s.lamp x := rfl
@[simp] theorem State.engine_setFword (w : Nat) (v : FWord) (x : Nat) : (s.setFword w v).engine x = s.engine x := rfl
@[simp] theorem State.key_setFword (w : Nat) (v : FWord) (x : Nat) : (s.setFword w v).key x = s.key x := rfl
@[simp] theorem State.chan_setFword (w : Nat) (v : FWord) (x : Nat) : (s.setFword w v).chan x = s.chan x := rfl

/-! ## drawn -/

@[simp] theorem State.door_drawn (u : Nat) : (s.drawn).door u = s.door u := rfl
@[simp] theorem State.ten_drawn (u : Nat) : (s.drawn).ten u = s.ten u := rfl
@[simp] theorem State.up_drawn (d : Nat) : (s.drawn).up d = s.up d := rfl
@[simp] theorem State.shut_drawn (bank : Nat) : (s.drawn).shut bank = s.shut bank := rfl
@[simp] theorem State.rdByte_drawn (x : Nat) : (s.drawn).rdByte x = s.rdByte x := rfl
@[simp] theorem State.grant_drawn (cls i : Nat) : (s.drawn).grant cls i = s.grant cls i := rfl
@[simp] theorem State.owner_drawn (cls i : Nat) : (s.drawn).owner cls i = s.owner cls i := rfl
@[simp] theorem State.reg_drawn (x : Nat) : (s.drawn).reg x = s.reg x := rfl
@[simp] theorem State.port_drawn (x : Nat) : (s.drawn).port x = s.port x := rfl
@[simp] theorem State.cell_drawn (x : Nat) : (s.drawn).cell x = s.cell x := rfl
@[simp] theorem State.lamp_drawn (x : Nat) : (s.drawn).lamp x = s.lamp x := rfl
@[simp] theorem State.engine_drawn (x : Nat) : (s.drawn).engine x = s.engine x := rfl
@[simp] theorem State.key_drawn (x : Nat) : (s.drawn).key x = s.key x := rfl
@[simp] theorem State.chan_drawn (x : Nat) : (s.drawn).chan x = s.chan x := rfl
@[simp] theorem State.fword_drawn (x : Nat) : (s.drawn).fword x = s.fword x := rfl

/-! ## wrByte -/

@[simp] theorem State.door_wrByte (a : Nat) (b : Byte) (u : Nat) : (s.wrByte a b).door u = s.door u := rfl
@[simp] theorem State.ten_wrByte (a : Nat) (b : Byte) (u : Nat) : (s.wrByte a b).ten u = s.ten u := rfl
@[simp] theorem State.up_wrByte (a : Nat) (b : Byte) (d : Nat) : (s.wrByte a b).up d = s.up d := rfl
@[simp] theorem State.shut_wrByte (a : Nat) (b : Byte) (bank : Nat) : (s.wrByte a b).shut bank = s.shut bank := rfl
@[simp] theorem State.grant_wrByte (a : Nat) (b : Byte) (cls i : Nat) : (s.wrByte a b).grant cls i = s.grant cls i := rfl
@[simp] theorem State.owner_wrByte (a : Nat) (b : Byte) (cls i : Nat) : (s.wrByte a b).owner cls i = s.owner cls i := rfl
@[simp] theorem State.reg_wrByte (a : Nat) (b : Byte) (x : Nat) : (s.wrByte a b).reg x = s.reg x := rfl
@[simp] theorem State.port_wrByte (a : Nat) (b : Byte) (x : Nat) : (s.wrByte a b).port x = s.port x := rfl
@[simp] theorem State.cell_wrByte (a : Nat) (b : Byte) (x : Nat) : (s.wrByte a b).cell x = s.cell x := rfl
@[simp] theorem State.lamp_wrByte (a : Nat) (b : Byte) (x : Nat) : (s.wrByte a b).lamp x = s.lamp x := rfl
@[simp] theorem State.engine_wrByte (a : Nat) (b : Byte) (x : Nat) : (s.wrByte a b).engine x = s.engine x := rfl
@[simp] theorem State.key_wrByte (a : Nat) (b : Byte) (x : Nat) : (s.wrByte a b).key x = s.key x := rfl
@[simp] theorem State.chan_wrByte (a : Nat) (b : Byte) (x : Nat) : (s.wrByte a b).chan x = s.chan x := rfl
@[simp] theorem State.fword_wrByte (a : Nat) (b : Byte) (x : Nat) : (s.wrByte a b).fword x = s.fword x := rfl

/-! ## setEcc -/

@[simp] theorem State.door_setEcc (k : Nat) (e : EccSt) (u : Nat) : (s.setEcc k e).door u = s.door u := rfl
@[simp] theorem State.ten_setEcc (k : Nat) (e : EccSt) (u : Nat) : (s.setEcc k e).ten u = s.ten u := rfl
@[simp] theorem State.up_setEcc (k : Nat) (e : EccSt) (d : Nat) : (s.setEcc k e).up d = s.up d := rfl
@[simp] theorem State.shut_setEcc (k : Nat) (e : EccSt) (bank : Nat) : (s.setEcc k e).shut bank = s.shut bank := rfl
@[simp] theorem State.rdByte_setEcc (k : Nat) (e : EccSt) (x : Nat) : (s.setEcc k e).rdByte x = s.rdByte x := rfl
@[simp] theorem State.grant_setEcc (k : Nat) (e : EccSt) (cls i : Nat) : (s.setEcc k e).grant cls i = s.grant cls i := rfl
@[simp] theorem State.owner_setEcc (k : Nat) (e : EccSt) (cls i : Nat) : (s.setEcc k e).owner cls i = s.owner cls i := rfl
@[simp] theorem State.reg_setEcc (k : Nat) (e : EccSt) (x : Nat) : (s.setEcc k e).reg x = s.reg x := rfl
@[simp] theorem State.port_setEcc (k : Nat) (e : EccSt) (x : Nat) : (s.setEcc k e).port x = s.port x := rfl
@[simp] theorem State.cell_setEcc (k : Nat) (e : EccSt) (x : Nat) : (s.setEcc k e).cell x = s.cell x := rfl
@[simp] theorem State.lamp_setEcc (k : Nat) (e : EccSt) (x : Nat) : (s.setEcc k e).lamp x = s.lamp x := rfl
@[simp] theorem State.engine_setEcc (k : Nat) (e : EccSt) (x : Nat) : (s.setEcc k e).engine x = s.engine x := rfl
@[simp] theorem State.key_setEcc (k : Nat) (e : EccSt) (x : Nat) : (s.setEcc k e).key x = s.key x := rfl
@[simp] theorem State.chan_setEcc (k : Nat) (e : EccSt) (x : Nat) : (s.setEcc k e).chan x = s.chan x := rfl
@[simp] theorem State.fword_setEcc (k : Nat) (e : EccSt) (x : Nat) : (s.setEcc k e).fword x = s.fword x := rfl

/-! ## setChk -/

@[simp] theorem State.door_setChk (bank c : Nat) (v : Word) (u : Nat) : (s.setChk bank c v).door u = s.door u := rfl
@[simp] theorem State.ten_setChk (bank c : Nat) (v : Word) (u : Nat) : (s.setChk bank c v).ten u = s.ten u := rfl
@[simp] theorem State.up_setChk (bank c : Nat) (v : Word) (d : Nat) : (s.setChk bank c v).up d = s.up d := rfl
@[simp] theorem State.shut_setChk (bank c : Nat) (v : Word) (bk : Nat) : (s.setChk bank c v).shut bk = s.shut bk := rfl
@[simp] theorem State.rdByte_setChk (bank c : Nat) (v : Word) (x : Nat) : (s.setChk bank c v).rdByte x = s.rdByte x := rfl
@[simp] theorem State.grant_setChk (bank c : Nat) (v : Word) (cls i : Nat) : (s.setChk bank c v).grant cls i = s.grant cls i := rfl
@[simp] theorem State.owner_setChk (bank c : Nat) (v : Word) (cls i : Nat) : (s.setChk bank c v).owner cls i = s.owner cls i := rfl
@[simp] theorem State.reg_setChk (bank c : Nat) (v : Word) (x : Nat) : (s.setChk bank c v).reg x = s.reg x := rfl
@[simp] theorem State.port_setChk (bank c : Nat) (v : Word) (x : Nat) : (s.setChk bank c v).port x = s.port x := rfl
@[simp] theorem State.cell_setChk (bank c : Nat) (v : Word) (x : Nat) : (s.setChk bank c v).cell x = s.cell x := rfl
@[simp] theorem State.lamp_setChk (bank c : Nat) (v : Word) (x : Nat) : (s.setChk bank c v).lamp x = s.lamp x := rfl
@[simp] theorem State.engine_setChk (bank c : Nat) (v : Word) (x : Nat) : (s.setChk bank c v).engine x = s.engine x := rfl
@[simp] theorem State.key_setChk (bank c : Nat) (v : Word) (x : Nat) : (s.setChk bank c v).key x = s.key x := rfl
@[simp] theorem State.chan_setChk (bank c : Nat) (v : Word) (x : Nat) : (s.setChk bank c v).chan x = s.chan x := rfl
@[simp] theorem State.fword_setChk (bank c : Nat) (v : Word) (x : Nat) : (s.setChk bank c v).fword x = s.fword x := rfl

/-! ## zeroMem -/

@[simp] theorem State.door_zeroMem (lo hi : Nat) (u : Nat) : (s.zeroMem lo hi).door u = s.door u := rfl
@[simp] theorem State.ten_zeroMem (lo hi : Nat) (u : Nat) : (s.zeroMem lo hi).ten u = s.ten u := rfl
@[simp] theorem State.up_zeroMem (lo hi : Nat) (d : Nat) : (s.zeroMem lo hi).up d = s.up d := rfl
@[simp] theorem State.shut_zeroMem (lo hi : Nat) (bank : Nat) : (s.zeroMem lo hi).shut bank = s.shut bank := rfl
@[simp] theorem State.grant_zeroMem (lo hi : Nat) (cls i : Nat) : (s.zeroMem lo hi).grant cls i = s.grant cls i := rfl
@[simp] theorem State.owner_zeroMem (lo hi : Nat) (cls i : Nat) : (s.zeroMem lo hi).owner cls i = s.owner cls i := rfl
@[simp] theorem State.reg_zeroMem (lo hi : Nat) (x : Nat) : (s.zeroMem lo hi).reg x = s.reg x := rfl
@[simp] theorem State.port_zeroMem (lo hi : Nat) (x : Nat) : (s.zeroMem lo hi).port x = s.port x := rfl
@[simp] theorem State.cell_zeroMem (lo hi : Nat) (x : Nat) : (s.zeroMem lo hi).cell x = s.cell x := rfl
@[simp] theorem State.lamp_zeroMem (lo hi : Nat) (x : Nat) : (s.zeroMem lo hi).lamp x = s.lamp x := rfl
@[simp] theorem State.engine_zeroMem (lo hi : Nat) (x : Nat) : (s.zeroMem lo hi).engine x = s.engine x := rfl
@[simp] theorem State.key_zeroMem (lo hi : Nat) (x : Nat) : (s.zeroMem lo hi).key x = s.key x := rfl
@[simp] theorem State.chan_zeroMem (lo hi : Nat) (x : Nat) : (s.zeroMem lo hi).chan x = s.chan x := rfl
@[simp] theorem State.fword_zeroMem (lo hi : Nat) (x : Nat) : (s.zeroMem lo hi).fword x = s.fword x := rfl

/-! ## setReg -/

@[simp] theorem State.door_setReg (a : Nat) (v : Word) (u : Nat) : (s.setReg a v).door u = s.door u := rfl
@[simp] theorem State.ten_setReg (a : Nat) (v : Word) (u : Nat) : (s.setReg a v).ten u = s.ten u := rfl
@[simp] theorem State.up_setReg (a : Nat) (v : Word) (d : Nat) : (s.setReg a v).up d = s.up d := rfl
@[simp] theorem State.shut_setReg (a : Nat) (v : Word) (bank : Nat) : (s.setReg a v).shut bank = s.shut bank := rfl
@[simp] theorem State.rdByte_setReg (a : Nat) (v : Word) (x : Nat) : (s.setReg a v).rdByte x = s.rdByte x := rfl
@[simp] theorem State.grant_setReg (a : Nat) (v : Word) (cls i : Nat) : (s.setReg a v).grant cls i = s.grant cls i := rfl
@[simp] theorem State.owner_setReg (a : Nat) (v : Word) (cls i : Nat) : (s.setReg a v).owner cls i = s.owner cls i := rfl
@[simp] theorem State.port_setReg (a : Nat) (v : Word) (x : Nat) : (s.setReg a v).port x = s.port x := rfl
@[simp] theorem State.cell_setReg (a : Nat) (v : Word) (x : Nat) : (s.setReg a v).cell x = s.cell x := rfl
@[simp] theorem State.lamp_setReg (a : Nat) (v : Word) (x : Nat) : (s.setReg a v).lamp x = s.lamp x := rfl
@[simp] theorem State.engine_setReg (a : Nat) (v : Word) (x : Nat) : (s.setReg a v).engine x = s.engine x := rfl
@[simp] theorem State.key_setReg (a : Nat) (v : Word) (x : Nat) : (s.setReg a v).key x = s.key x := rfl
@[simp] theorem State.chan_setReg (a : Nat) (v : Word) (x : Nat) : (s.setReg a v).chan x = s.chan x := rfl
@[simp] theorem State.fword_setReg (a : Nat) (v : Word) (x : Nat) : (s.setReg a v).fword x = s.fword x := rfl

/-! ## updTick -/

@[simp] theorem State.door_updTick (f : Tick → Tick) (u : Nat) : (s.updTick f).door u = s.door u := rfl
@[simp] theorem State.ten_updTick (f : Tick → Tick) (u : Nat) : (s.updTick f).ten u = s.ten u := rfl
@[simp] theorem State.up_updTick (f : Tick → Tick) (d : Nat) : (s.updTick f).up d = s.up d := rfl
@[simp] theorem State.shut_updTick (f : Tick → Tick) (bank : Nat) : (s.updTick f).shut bank = s.shut bank := rfl
@[simp] theorem State.rdByte_updTick (f : Tick → Tick) (x : Nat) : (s.updTick f).rdByte x = s.rdByte x := rfl
@[simp] theorem State.grant_updTick (f : Tick → Tick) (cls i : Nat) : (s.updTick f).grant cls i = s.grant cls i := rfl
@[simp] theorem State.owner_updTick (f : Tick → Tick) (cls i : Nat) : (s.updTick f).owner cls i = s.owner cls i := rfl
@[simp] theorem State.reg_updTick (f : Tick → Tick) (x : Nat) : (s.updTick f).reg x = s.reg x := rfl
@[simp] theorem State.port_updTick (f : Tick → Tick) (x : Nat) : (s.updTick f).port x = s.port x := rfl
@[simp] theorem State.cell_updTick (f : Tick → Tick) (x : Nat) : (s.updTick f).cell x = s.cell x := rfl
@[simp] theorem State.lamp_updTick (f : Tick → Tick) (x : Nat) : (s.updTick f).lamp x = s.lamp x := rfl
@[simp] theorem State.engine_updTick (f : Tick → Tick) (x : Nat) : (s.updTick f).engine x = s.engine x := rfl
@[simp] theorem State.key_updTick (f : Tick → Tick) (x : Nat) : (s.updTick f).key x = s.key x := rfl
@[simp] theorem State.chan_updTick (f : Tick → Tick) (x : Nat) : (s.updTick f).chan x = s.chan x := rfl
@[simp] theorem State.fword_updTick (f : Tick → Tick) (x : Nat) : (s.updTick f).fword x = s.fword x := rfl

/-! ## updLink -/

@[simp] theorem State.door_updLink (f : Link → Link) (u : Nat) : (s.updLink f).door u = s.door u := rfl
@[simp] theorem State.ten_updLink (f : Link → Link) (u : Nat) : (s.updLink f).ten u = s.ten u := rfl
@[simp] theorem State.up_updLink (f : Link → Link) (d : Nat) : (s.updLink f).up d = s.up d := rfl
@[simp] theorem State.shut_updLink (f : Link → Link) (bank : Nat) : (s.updLink f).shut bank = s.shut bank := rfl
@[simp] theorem State.rdByte_updLink (f : Link → Link) (x : Nat) : (s.updLink f).rdByte x = s.rdByte x := rfl
@[simp] theorem State.grant_updLink (f : Link → Link) (cls i : Nat) : (s.updLink f).grant cls i = s.grant cls i := rfl
@[simp] theorem State.owner_updLink (f : Link → Link) (cls i : Nat) : (s.updLink f).owner cls i = s.owner cls i := rfl
@[simp] theorem State.reg_updLink (f : Link → Link) (x : Nat) : (s.updLink f).reg x = s.reg x := rfl
@[simp] theorem State.port_updLink (f : Link → Link) (x : Nat) : (s.updLink f).port x = s.port x := rfl
@[simp] theorem State.cell_updLink (f : Link → Link) (x : Nat) : (s.updLink f).cell x = s.cell x := rfl
@[simp] theorem State.lamp_updLink (f : Link → Link) (x : Nat) : (s.updLink f).lamp x = s.lamp x := rfl
@[simp] theorem State.engine_updLink (f : Link → Link) (x : Nat) : (s.updLink f).engine x = s.engine x := rfl
@[simp] theorem State.key_updLink (f : Link → Link) (x : Nat) : (s.updLink f).key x = s.key x := rfl
@[simp] theorem State.chan_updLink (f : Link → Link) (x : Nat) : (s.updLink f).chan x = s.chan x := rfl
@[simp] theorem State.fword_updLink (f : Link → Link) (x : Nat) : (s.updLink f).fword x = s.fword x := rfl

/-! ## updLport -/

@[simp] theorem State.door_updLport (dn : Bool) (f : LinkPort → LinkPort) (u : Nat) : (s.updLport dn f).door u = s.door u := rfl
@[simp] theorem State.ten_updLport (dn : Bool) (f : LinkPort → LinkPort) (u : Nat) : (s.updLport dn f).ten u = s.ten u := rfl
@[simp] theorem State.up_updLport (dn : Bool) (f : LinkPort → LinkPort) (d : Nat) : (s.updLport dn f).up d = s.up d := rfl
@[simp] theorem State.shut_updLport (dn : Bool) (f : LinkPort → LinkPort) (bank : Nat) : (s.updLport dn f).shut bank = s.shut bank := rfl
@[simp] theorem State.rdByte_updLport (dn : Bool) (f : LinkPort → LinkPort) (x : Nat) : (s.updLport dn f).rdByte x = s.rdByte x := rfl
@[simp] theorem State.grant_updLport (dn : Bool) (f : LinkPort → LinkPort) (cls i : Nat) : (s.updLport dn f).grant cls i = s.grant cls i := rfl
@[simp] theorem State.owner_updLport (dn : Bool) (f : LinkPort → LinkPort) (cls i : Nat) : (s.updLport dn f).owner cls i = s.owner cls i := rfl
@[simp] theorem State.reg_updLport (dn : Bool) (f : LinkPort → LinkPort) (x : Nat) : (s.updLport dn f).reg x = s.reg x := rfl
@[simp] theorem State.port_updLport (dn : Bool) (f : LinkPort → LinkPort) (x : Nat) : (s.updLport dn f).port x = s.port x := rfl
@[simp] theorem State.cell_updLport (dn : Bool) (f : LinkPort → LinkPort) (x : Nat) : (s.updLport dn f).cell x = s.cell x := rfl
@[simp] theorem State.lamp_updLport (dn : Bool) (f : LinkPort → LinkPort) (x : Nat) : (s.updLport dn f).lamp x = s.lamp x := rfl
@[simp] theorem State.engine_updLport (dn : Bool) (f : LinkPort → LinkPort) (x : Nat) : (s.updLport dn f).engine x = s.engine x := rfl
@[simp] theorem State.key_updLport (dn : Bool) (f : LinkPort → LinkPort) (x : Nat) : (s.updLport dn f).key x = s.key x := rfl
@[simp] theorem State.chan_updLport (dn : Bool) (f : LinkPort → LinkPort) (x : Nat) : (s.updLport dn f).chan x = s.chan x := rfl
@[simp] theorem State.fword_updLport (dn : Bool) (f : LinkPort → LinkPort) (x : Nat) : (s.updLport dn f).fword x = s.fword x := rfl

/-! ## updCls -/

@[simp] theorem State.door_updCls (dn rsp : Bool) (f : LinkCls → LinkCls) (u : Nat) : (s.updCls dn rsp f).door u = s.door u := rfl
@[simp] theorem State.ten_updCls (dn rsp : Bool) (f : LinkCls → LinkCls) (u : Nat) : (s.updCls dn rsp f).ten u = s.ten u := rfl
@[simp] theorem State.up_updCls (dn rsp : Bool) (f : LinkCls → LinkCls) (d : Nat) : (s.updCls dn rsp f).up d = s.up d := rfl
@[simp] theorem State.shut_updCls (dn rsp : Bool) (f : LinkCls → LinkCls) (bank : Nat) : (s.updCls dn rsp f).shut bank = s.shut bank := rfl
@[simp] theorem State.rdByte_updCls (dn rsp : Bool) (f : LinkCls → LinkCls) (x : Nat) : (s.updCls dn rsp f).rdByte x = s.rdByte x := rfl
@[simp] theorem State.grant_updCls (dn rsp : Bool) (f : LinkCls → LinkCls) (cls i : Nat) : (s.updCls dn rsp f).grant cls i = s.grant cls i := rfl
@[simp] theorem State.owner_updCls (dn rsp : Bool) (f : LinkCls → LinkCls) (cls i : Nat) : (s.updCls dn rsp f).owner cls i = s.owner cls i := rfl
@[simp] theorem State.reg_updCls (dn rsp : Bool) (f : LinkCls → LinkCls) (x : Nat) : (s.updCls dn rsp f).reg x = s.reg x := rfl
@[simp] theorem State.port_updCls (dn rsp : Bool) (f : LinkCls → LinkCls) (x : Nat) : (s.updCls dn rsp f).port x = s.port x := rfl
@[simp] theorem State.cell_updCls (dn rsp : Bool) (f : LinkCls → LinkCls) (x : Nat) : (s.updCls dn rsp f).cell x = s.cell x := rfl
@[simp] theorem State.lamp_updCls (dn rsp : Bool) (f : LinkCls → LinkCls) (x : Nat) : (s.updCls dn rsp f).lamp x = s.lamp x := rfl
@[simp] theorem State.engine_updCls (dn rsp : Bool) (f : LinkCls → LinkCls) (x : Nat) : (s.updCls dn rsp f).engine x = s.engine x := rfl
@[simp] theorem State.key_updCls (dn rsp : Bool) (f : LinkCls → LinkCls) (x : Nat) : (s.updCls dn rsp f).key x = s.key x := rfl
@[simp] theorem State.chan_updCls (dn rsp : Bool) (f : LinkCls → LinkCls) (x : Nat) : (s.updCls dn rsp f).chan x = s.chan x := rfl
@[simp] theorem State.fword_updCls (dn rsp : Bool) (f : LinkCls → LinkCls) (x : Nat) : (s.updCls dn rsp f).fword x = s.fword x := rfl

/-! ## updSending -/

@[simp] theorem State.door_updSending (dn : Bool) (f : LinkCls → LinkCls) (u : Nat) : (s.updSending dn f).door u = s.door u := rfl
@[simp] theorem State.ten_updSending (dn : Bool) (f : LinkCls → LinkCls) (u : Nat) : (s.updSending dn f).ten u = s.ten u := rfl
@[simp] theorem State.up_updSending (dn : Bool) (f : LinkCls → LinkCls) (d : Nat) : (s.updSending dn f).up d = s.up d := rfl
@[simp] theorem State.shut_updSending (dn : Bool) (f : LinkCls → LinkCls) (bank : Nat) : (s.updSending dn f).shut bank = s.shut bank := rfl
@[simp] theorem State.rdByte_updSending (dn : Bool) (f : LinkCls → LinkCls) (x : Nat) : (s.updSending dn f).rdByte x = s.rdByte x := rfl
@[simp] theorem State.grant_updSending (dn : Bool) (f : LinkCls → LinkCls) (cls i : Nat) : (s.updSending dn f).grant cls i = s.grant cls i := rfl
@[simp] theorem State.owner_updSending (dn : Bool) (f : LinkCls → LinkCls) (cls i : Nat) : (s.updSending dn f).owner cls i = s.owner cls i := rfl
@[simp] theorem State.reg_updSending (dn : Bool) (f : LinkCls → LinkCls) (x : Nat) : (s.updSending dn f).reg x = s.reg x := rfl
@[simp] theorem State.port_updSending (dn : Bool) (f : LinkCls → LinkCls) (x : Nat) : (s.updSending dn f).port x = s.port x := rfl
@[simp] theorem State.cell_updSending (dn : Bool) (f : LinkCls → LinkCls) (x : Nat) : (s.updSending dn f).cell x = s.cell x := rfl
@[simp] theorem State.lamp_updSending (dn : Bool) (f : LinkCls → LinkCls) (x : Nat) : (s.updSending dn f).lamp x = s.lamp x := rfl
@[simp] theorem State.engine_updSending (dn : Bool) (f : LinkCls → LinkCls) (x : Nat) : (s.updSending dn f).engine x = s.engine x := rfl
@[simp] theorem State.key_updSending (dn : Bool) (f : LinkCls → LinkCls) (x : Nat) : (s.updSending dn f).key x = s.key x := rfl
@[simp] theorem State.chan_updSending (dn : Bool) (f : LinkCls → LinkCls) (x : Nat) : (s.updSending dn f).chan x = s.chan x := rfl
@[simp] theorem State.fword_updSending (dn : Bool) (f : LinkCls → LinkCls) (x : Nat) : (s.updSending dn f).fword x = s.fword x := rfl

/-! ## updPwr -/

@[simp] theorem State.door_updPwr (f : Pwr → Pwr) (u : Nat) : (s.updPwr f).door u = s.door u := rfl
@[simp] theorem State.ten_updPwr (f : Pwr → Pwr) (u : Nat) : (s.updPwr f).ten u = s.ten u := rfl
@[simp] theorem State.rdByte_updPwr (f : Pwr → Pwr) (x : Nat) : (s.updPwr f).rdByte x = s.rdByte x := rfl
@[simp] theorem State.grant_updPwr (f : Pwr → Pwr) (cls i : Nat) : (s.updPwr f).grant cls i = s.grant cls i := rfl
@[simp] theorem State.owner_updPwr (f : Pwr → Pwr) (cls i : Nat) : (s.updPwr f).owner cls i = s.owner cls i := rfl
@[simp] theorem State.reg_updPwr (f : Pwr → Pwr) (x : Nat) : (s.updPwr f).reg x = s.reg x := rfl
@[simp] theorem State.port_updPwr (f : Pwr → Pwr) (x : Nat) : (s.updPwr f).port x = s.port x := rfl
@[simp] theorem State.cell_updPwr (f : Pwr → Pwr) (x : Nat) : (s.updPwr f).cell x = s.cell x := rfl
@[simp] theorem State.lamp_updPwr (f : Pwr → Pwr) (x : Nat) : (s.updPwr f).lamp x = s.lamp x := rfl
@[simp] theorem State.engine_updPwr (f : Pwr → Pwr) (x : Nat) : (s.updPwr f).engine x = s.engine x := rfl
@[simp] theorem State.key_updPwr (f : Pwr → Pwr) (x : Nat) : (s.updPwr f).key x = s.key x := rfl
@[simp] theorem State.chan_updPwr (f : Pwr → Pwr) (x : Nat) : (s.updPwr f).chan x = s.chan x := rfl
@[simp] theorem State.fword_updPwr (f : Pwr → Pwr) (x : Nat) : (s.updPwr f).fword x = s.fword x := rfl

/-! ## updSys -/

@[simp] theorem State.door_updSys (f : Sys → Sys) (u : Nat) : (s.updSys f).door u = s.door u := rfl
@[simp] theorem State.ten_updSys (f : Sys → Sys) (u : Nat) : (s.updSys f).ten u = s.ten u := rfl
@[simp] theorem State.up_updSys (f : Sys → Sys) (d : Nat) : (s.updSys f).up d = s.up d := rfl
@[simp] theorem State.shut_updSys (f : Sys → Sys) (bank : Nat) : (s.updSys f).shut bank = s.shut bank := rfl
@[simp] theorem State.rdByte_updSys (f : Sys → Sys) (x : Nat) : (s.updSys f).rdByte x = s.rdByte x := rfl
@[simp] theorem State.grant_updSys (f : Sys → Sys) (cls i : Nat) : (s.updSys f).grant cls i = s.grant cls i := rfl
@[simp] theorem State.owner_updSys (f : Sys → Sys) (cls i : Nat) : (s.updSys f).owner cls i = s.owner cls i := rfl
@[simp] theorem State.reg_updSys (f : Sys → Sys) (x : Nat) : (s.updSys f).reg x = s.reg x := rfl
@[simp] theorem State.port_updSys (f : Sys → Sys) (x : Nat) : (s.updSys f).port x = s.port x := rfl
@[simp] theorem State.cell_updSys (f : Sys → Sys) (x : Nat) : (s.updSys f).cell x = s.cell x := rfl
@[simp] theorem State.lamp_updSys (f : Sys → Sys) (x : Nat) : (s.updSys f).lamp x = s.lamp x := rfl
@[simp] theorem State.engine_updSys (f : Sys → Sys) (x : Nat) : (s.updSys f).engine x = s.engine x := rfl
@[simp] theorem State.key_updSys (f : Sys → Sys) (x : Nat) : (s.updSys f).key x = s.key x := rfl
@[simp] theorem State.chan_updSys (f : Sys → Sys) (x : Nat) : (s.updSys f).chan x = s.chan x := rfl
@[simp] theorem State.fword_updSys (f : Sys → Sys) (x : Nat) : (s.updSys f).fword x = s.fword x := rfl

/-! ## updSeqr -/

@[simp] theorem State.door_updSeqr (f : Seq → Seq) (u : Nat) : (s.updSeqr f).door u = s.door u := rfl
@[simp] theorem State.ten_updSeqr (f : Seq → Seq) (u : Nat) : (s.updSeqr f).ten u = s.ten u := rfl
@[simp] theorem State.up_updSeqr (f : Seq → Seq) (d : Nat) : (s.updSeqr f).up d = s.up d := rfl
@[simp] theorem State.shut_updSeqr (f : Seq → Seq) (bank : Nat) : (s.updSeqr f).shut bank = s.shut bank := rfl
@[simp] theorem State.rdByte_updSeqr (f : Seq → Seq) (x : Nat) : (s.updSeqr f).rdByte x = s.rdByte x := rfl
@[simp] theorem State.grant_updSeqr (f : Seq → Seq) (cls i : Nat) : (s.updSeqr f).grant cls i = s.grant cls i := rfl
@[simp] theorem State.owner_updSeqr (f : Seq → Seq) (cls i : Nat) : (s.updSeqr f).owner cls i = s.owner cls i := rfl
@[simp] theorem State.reg_updSeqr (f : Seq → Seq) (x : Nat) : (s.updSeqr f).reg x = s.reg x := rfl
@[simp] theorem State.port_updSeqr (f : Seq → Seq) (x : Nat) : (s.updSeqr f).port x = s.port x := rfl
@[simp] theorem State.cell_updSeqr (f : Seq → Seq) (x : Nat) : (s.updSeqr f).cell x = s.cell x := rfl
@[simp] theorem State.lamp_updSeqr (f : Seq → Seq) (x : Nat) : (s.updSeqr f).lamp x = s.lamp x := rfl
@[simp] theorem State.engine_updSeqr (f : Seq → Seq) (x : Nat) : (s.updSeqr f).engine x = s.engine x := rfl
@[simp] theorem State.key_updSeqr (f : Seq → Seq) (x : Nat) : (s.updSeqr f).key x = s.key x := rfl
@[simp] theorem State.chan_updSeqr (f : Seq → Seq) (x : Nat) : (s.updSeqr f).chan x = s.chan x := rfl
@[simp] theorem State.fword_updSeqr (f : Seq → Seq) (x : Nat) : (s.updSeqr f).fword x = s.fword x := rfl

/-! ## updProt -/

@[simp] theorem State.door_updProt (f : Prot → Prot) (u : Nat) : (s.updProt f).door u = s.door u := rfl
@[simp] theorem State.ten_updProt (f : Prot → Prot) (u : Nat) : (s.updProt f).ten u = s.ten u := rfl
@[simp] theorem State.up_updProt (f : Prot → Prot) (d : Nat) : (s.updProt f).up d = s.up d := rfl
@[simp] theorem State.shut_updProt (f : Prot → Prot) (bank : Nat) : (s.updProt f).shut bank = s.shut bank := rfl
@[simp] theorem State.rdByte_updProt (f : Prot → Prot) (x : Nat) : (s.updProt f).rdByte x = s.rdByte x := rfl
@[simp] theorem State.grant_updProt (f : Prot → Prot) (cls i : Nat) : (s.updProt f).grant cls i = s.grant cls i := rfl
@[simp] theorem State.owner_updProt (f : Prot → Prot) (cls i : Nat) : (s.updProt f).owner cls i = s.owner cls i := rfl
@[simp] theorem State.reg_updProt (f : Prot → Prot) (x : Nat) : (s.updProt f).reg x = s.reg x := rfl
@[simp] theorem State.port_updProt (f : Prot → Prot) (x : Nat) : (s.updProt f).port x = s.port x := rfl
@[simp] theorem State.cell_updProt (f : Prot → Prot) (x : Nat) : (s.updProt f).cell x = s.cell x := rfl
@[simp] theorem State.lamp_updProt (f : Prot → Prot) (x : Nat) : (s.updProt f).lamp x = s.lamp x := rfl
@[simp] theorem State.engine_updProt (f : Prot → Prot) (x : Nat) : (s.updProt f).engine x = s.engine x := rfl
@[simp] theorem State.key_updProt (f : Prot → Prot) (x : Nat) : (s.updProt f).key x = s.key x := rfl
@[simp] theorem State.chan_updProt (f : Prot → Prot) (x : Nat) : (s.updProt f).chan x = s.chan x := rfl
@[simp] theorem State.fword_updProt (f : Prot → Prot) (x : Nat) : (s.updProt f).fword x = s.fword x := rfl

/-! ## updDbg -/

@[simp] theorem State.door_updDbg (f : Dbg → Dbg) (u : Nat) : (s.updDbg f).door u = s.door u := rfl
@[simp] theorem State.ten_updDbg (f : Dbg → Dbg) (u : Nat) : (s.updDbg f).ten u = s.ten u := rfl
@[simp] theorem State.up_updDbg (f : Dbg → Dbg) (d : Nat) : (s.updDbg f).up d = s.up d := rfl
@[simp] theorem State.shut_updDbg (f : Dbg → Dbg) (bank : Nat) : (s.updDbg f).shut bank = s.shut bank := rfl
@[simp] theorem State.rdByte_updDbg (f : Dbg → Dbg) (x : Nat) : (s.updDbg f).rdByte x = s.rdByte x := rfl
@[simp] theorem State.grant_updDbg (f : Dbg → Dbg) (cls i : Nat) : (s.updDbg f).grant cls i = s.grant cls i := rfl
@[simp] theorem State.owner_updDbg (f : Dbg → Dbg) (cls i : Nat) : (s.updDbg f).owner cls i = s.owner cls i := rfl
@[simp] theorem State.reg_updDbg (f : Dbg → Dbg) (x : Nat) : (s.updDbg f).reg x = s.reg x := rfl
@[simp] theorem State.port_updDbg (f : Dbg → Dbg) (x : Nat) : (s.updDbg f).port x = s.port x := rfl
@[simp] theorem State.cell_updDbg (f : Dbg → Dbg) (x : Nat) : (s.updDbg f).cell x = s.cell x := rfl
@[simp] theorem State.lamp_updDbg (f : Dbg → Dbg) (x : Nat) : (s.updDbg f).lamp x = s.lamp x := rfl
@[simp] theorem State.engine_updDbg (f : Dbg → Dbg) (x : Nat) : (s.updDbg f).engine x = s.engine x := rfl
@[simp] theorem State.key_updDbg (f : Dbg → Dbg) (x : Nat) : (s.updDbg f).key x = s.key x := rfl
@[simp] theorem State.chan_updDbg (f : Dbg → Dbg) (x : Nat) : (s.updDbg f).chan x = s.chan x := rfl
@[simp] theorem State.fword_updDbg (f : Dbg → Dbg) (x : Nat) : (s.updDbg f).fword x = s.fword x := rfl

/-! ## setTest -/

@[simp] theorem State.door_setTest (block : Nat) (t : Option Test) (u : Nat) : (s.setTest block t).door u = s.door u := rfl
@[simp] theorem State.ten_setTest (block : Nat) (t : Option Test) (u : Nat) : (s.setTest block t).ten u = s.ten u := rfl
@[simp] theorem State.up_setTest (block : Nat) (t : Option Test) (d : Nat) : (s.setTest block t).up d = s.up d := rfl
@[simp] theorem State.shut_setTest (block : Nat) (t : Option Test) (bank : Nat) : (s.setTest block t).shut bank = s.shut bank := rfl
@[simp] theorem State.rdByte_setTest (block : Nat) (t : Option Test) (x : Nat) : (s.setTest block t).rdByte x = s.rdByte x := rfl
@[simp] theorem State.grant_setTest (block : Nat) (t : Option Test) (cls i : Nat) : (s.setTest block t).grant cls i = s.grant cls i := rfl
@[simp] theorem State.owner_setTest (block : Nat) (t : Option Test) (cls i : Nat) : (s.setTest block t).owner cls i = s.owner cls i := rfl
@[simp] theorem State.reg_setTest (block : Nat) (t : Option Test) (x : Nat) : (s.setTest block t).reg x = s.reg x := rfl
@[simp] theorem State.port_setTest (block : Nat) (t : Option Test) (x : Nat) : (s.setTest block t).port x = s.port x := rfl
@[simp] theorem State.cell_setTest (block : Nat) (t : Option Test) (x : Nat) : (s.setTest block t).cell x = s.cell x := rfl
@[simp] theorem State.lamp_setTest (block : Nat) (t : Option Test) (x : Nat) : (s.setTest block t).lamp x = s.lamp x := rfl
@[simp] theorem State.engine_setTest (block : Nat) (t : Option Test) (x : Nat) : (s.setTest block t).engine x = s.engine x := rfl
@[simp] theorem State.key_setTest (block : Nat) (t : Option Test) (x : Nat) : (s.setTest block t).key x = s.key x := rfl
@[simp] theorem State.chan_setTest (block : Nat) (t : Option Test) (x : Nat) : (s.setTest block t).chan x = s.chan x := rfl
@[simp] theorem State.fword_setTest (block : Nat) (t : Option Test) (x : Nat) : (s.setTest block t).fword x = s.fword x := rfl

/-! ## setRemap -/

@[simp] theorem State.door_setRemap (i : Nat) (r : Remap) (u : Nat) : (s.setRemap i r).door u = s.door u := rfl
@[simp] theorem State.ten_setRemap (i : Nat) (r : Remap) (u : Nat) : (s.setRemap i r).ten u = s.ten u := rfl
@[simp] theorem State.up_setRemap (i : Nat) (r : Remap) (d : Nat) : (s.setRemap i r).up d = s.up d := rfl
@[simp] theorem State.shut_setRemap (i : Nat) (r : Remap) (bank : Nat) : (s.setRemap i r).shut bank = s.shut bank := rfl
@[simp] theorem State.rdByte_setRemap (i : Nat) (r : Remap) (x : Nat) : (s.setRemap i r).rdByte x = s.rdByte x := rfl
@[simp] theorem State.grant_setRemap (i : Nat) (r : Remap) (cls j : Nat) : (s.setRemap i r).grant cls j = s.grant cls j := rfl
@[simp] theorem State.owner_setRemap (i : Nat) (r : Remap) (cls j : Nat) : (s.setRemap i r).owner cls j = s.owner cls j := rfl
@[simp] theorem State.reg_setRemap (i : Nat) (r : Remap) (x : Nat) : (s.setRemap i r).reg x = s.reg x := rfl
@[simp] theorem State.port_setRemap (i : Nat) (r : Remap) (x : Nat) : (s.setRemap i r).port x = s.port x := rfl
@[simp] theorem State.cell_setRemap (i : Nat) (r : Remap) (x : Nat) : (s.setRemap i r).cell x = s.cell x := rfl
@[simp] theorem State.lamp_setRemap (i : Nat) (r : Remap) (x : Nat) : (s.setRemap i r).lamp x = s.lamp x := rfl
@[simp] theorem State.engine_setRemap (i : Nat) (r : Remap) (x : Nat) : (s.setRemap i r).engine x = s.engine x := rfl
@[simp] theorem State.key_setRemap (i : Nat) (r : Remap) (x : Nat) : (s.setRemap i r).key x = s.key x := rfl
@[simp] theorem State.chan_setRemap (i : Nat) (r : Remap) (x : Nat) : (s.setRemap i r).chan x = s.chan x := rfl

/-! ## setSuspect -/

@[simp] theorem State.door_setSuspect (p : Nat) (b : Bool) (u : Nat) : (s.setSuspect p b).door u = s.door u := rfl
@[simp] theorem State.ten_setSuspect (p : Nat) (b : Bool) (u : Nat) : (s.setSuspect p b).ten u = s.ten u := rfl
@[simp] theorem State.up_setSuspect (p : Nat) (b : Bool) (d : Nat) : (s.setSuspect p b).up d = s.up d := rfl
@[simp] theorem State.shut_setSuspect (p : Nat) (b : Bool) (bank : Nat) : (s.setSuspect p b).shut bank = s.shut bank := rfl
@[simp] theorem State.rdByte_setSuspect (p : Nat) (b : Bool) (x : Nat) : (s.setSuspect p b).rdByte x = s.rdByte x := rfl
@[simp] theorem State.grant_setSuspect (p : Nat) (b : Bool) (cls i : Nat) : (s.setSuspect p b).grant cls i = s.grant cls i := rfl
@[simp] theorem State.owner_setSuspect (p : Nat) (b : Bool) (cls i : Nat) : (s.setSuspect p b).owner cls i = s.owner cls i := rfl
@[simp] theorem State.reg_setSuspect (p : Nat) (b : Bool) (x : Nat) : (s.setSuspect p b).reg x = s.reg x := rfl
@[simp] theorem State.port_setSuspect (p : Nat) (b : Bool) (x : Nat) : (s.setSuspect p b).port x = s.port x := rfl
@[simp] theorem State.cell_setSuspect (p : Nat) (b : Bool) (x : Nat) : (s.setSuspect p b).cell x = s.cell x := rfl
@[simp] theorem State.lamp_setSuspect (p : Nat) (b : Bool) (x : Nat) : (s.setSuspect p b).lamp x = s.lamp x := rfl
@[simp] theorem State.engine_setSuspect (p : Nat) (b : Bool) (x : Nat) : (s.setSuspect p b).engine x = s.engine x := rfl
@[simp] theorem State.key_setSuspect (p : Nat) (b : Bool) (x : Nat) : (s.setSuspect p b).key x = s.key x := rfl
@[simp] theorem State.chan_setSuspect (p : Nat) (b : Bool) (x : Nat) : (s.setSuspect p b).chan x = s.chan x := rfl

/-! ## setLaneOf -/

@[simp] theorem State.door_setLaneOf (l v : Nat) (u : Nat) : (s.setLaneOf l v).door u = s.door u := rfl
@[simp] theorem State.ten_setLaneOf (l v : Nat) (u : Nat) : (s.setLaneOf l v).ten u = s.ten u := rfl
@[simp] theorem State.up_setLaneOf (l v : Nat) (d : Nat) : (s.setLaneOf l v).up d = s.up d := rfl
@[simp] theorem State.shut_setLaneOf (l v : Nat) (bank : Nat) : (s.setLaneOf l v).shut bank = s.shut bank := rfl
@[simp] theorem State.rdByte_setLaneOf (l v : Nat) (x : Nat) : (s.setLaneOf l v).rdByte x = s.rdByte x := rfl
@[simp] theorem State.grant_setLaneOf (l v : Nat) (cls i : Nat) : (s.setLaneOf l v).grant cls i = s.grant cls i := rfl
@[simp] theorem State.owner_setLaneOf (l v : Nat) (cls i : Nat) : (s.setLaneOf l v).owner cls i = s.owner cls i := rfl
@[simp] theorem State.reg_setLaneOf (l v : Nat) (x : Nat) : (s.setLaneOf l v).reg x = s.reg x := rfl
@[simp] theorem State.port_setLaneOf (l v : Nat) (x : Nat) : (s.setLaneOf l v).port x = s.port x := rfl
@[simp] theorem State.cell_setLaneOf (l v : Nat) (x : Nat) : (s.setLaneOf l v).cell x = s.cell x := rfl
@[simp] theorem State.lamp_setLaneOf (l v : Nat) (x : Nat) : (s.setLaneOf l v).lamp x = s.lamp x := rfl
@[simp] theorem State.engine_setLaneOf (l v : Nat) (x : Nat) : (s.setLaneOf l v).engine x = s.engine x := rfl
@[simp] theorem State.key_setLaneOf (l v : Nat) (x : Nat) : (s.setLaneOf l v).key x = s.key x := rfl
@[simp] theorem State.fword_setLaneOf (l v : Nat) (x : Nat) : (s.setLaneOf l v).fword x = s.fword x := rfl

/-! ## updSeq -/

@[simp] theorem State.door_updSeq (b : Bool) (f : SeqRun → SeqRun) (u : Nat) : (s.updSeq b f).door u = s.door u := by unfold State.updSeq; split <;> rfl
@[simp] theorem State.ten_updSeq (b : Bool) (f : SeqRun → SeqRun) (u : Nat) : (s.updSeq b f).ten u = s.ten u := by unfold State.updSeq; split <;> rfl
@[simp] theorem State.up_updSeq (b : Bool) (f : SeqRun → SeqRun) (d : Nat) : (s.updSeq b f).up d = s.up d := by unfold State.updSeq; split <;> rfl
@[simp] theorem State.shut_updSeq (b : Bool) (f : SeqRun → SeqRun) (bank : Nat) : (s.updSeq b f).shut bank = s.shut bank := by unfold State.updSeq; split <;> rfl
@[simp] theorem State.rdByte_updSeq (b : Bool) (f : SeqRun → SeqRun) (x : Nat) : (s.updSeq b f).rdByte x = s.rdByte x := by unfold State.updSeq; split <;> rfl
@[simp] theorem State.grant_updSeq (b : Bool) (f : SeqRun → SeqRun) (cls i : Nat) : (s.updSeq b f).grant cls i = s.grant cls i := by unfold State.updSeq; split <;> rfl
@[simp] theorem State.owner_updSeq (b : Bool) (f : SeqRun → SeqRun) (cls i : Nat) : (s.updSeq b f).owner cls i = s.owner cls i := by unfold State.updSeq; split <;> rfl
@[simp] theorem State.reg_updSeq (b : Bool) (f : SeqRun → SeqRun) (x : Nat) : (s.updSeq b f).reg x = s.reg x := by unfold State.updSeq; split <;> rfl
@[simp] theorem State.port_updSeq (b : Bool) (f : SeqRun → SeqRun) (x : Nat) : (s.updSeq b f).port x = s.port x := by unfold State.updSeq; split <;> rfl
@[simp] theorem State.cell_updSeq (b : Bool) (f : SeqRun → SeqRun) (x : Nat) : (s.updSeq b f).cell x = s.cell x := by unfold State.updSeq; split <;> rfl
@[simp] theorem State.lamp_updSeq (b : Bool) (f : SeqRun → SeqRun) (x : Nat) : (s.updSeq b f).lamp x = s.lamp x := by unfold State.updSeq; split <;> rfl
@[simp] theorem State.engine_updSeq (b : Bool) (f : SeqRun → SeqRun) (x : Nat) : (s.updSeq b f).engine x = s.engine x := by unfold State.updSeq; split <;> rfl
@[simp] theorem State.key_updSeq (b : Bool) (f : SeqRun → SeqRun) (x : Nat) : (s.updSeq b f).key x = s.key x := by unfold State.updSeq; split <;> rfl
@[simp] theorem State.fword_updSeq (b : Bool) (f : SeqRun → SeqRun) (x : Nat) : (s.updSeq b f).fword x = s.fword x := by unfold State.updSeq; split <;> rfl

/-! ## setInj -/

@[simp] theorem State.door_setInj (b : Bool) (i : Option Inj) (u : Nat) : (s.setInj b i).door u = s.door u := by unfold State.setInj; split <;> rfl
@[simp] theorem State.ten_setInj (b : Bool) (i : Option Inj) (u : Nat) : (s.setInj b i).ten u = s.ten u := by unfold State.setInj; split <;> rfl
@[simp] theorem State.up_setInj (b : Bool) (i : Option Inj) (d : Nat) : (s.setInj b i).up d = s.up d := by unfold State.setInj; split <;> rfl
@[simp] theorem State.shut_setInj (b : Bool) (i : Option Inj) (bank : Nat) : (s.setInj b i).shut bank = s.shut bank := by unfold State.setInj; split <;> rfl
@[simp] theorem State.rdByte_setInj (b : Bool) (i : Option Inj) (x : Nat) : (s.setInj b i).rdByte x = s.rdByte x := by unfold State.setInj; split <;> rfl
@[simp] theorem State.grant_setInj (b : Bool) (i : Option Inj) (cls j : Nat) : (s.setInj b i).grant cls j = s.grant cls j := by unfold State.setInj; split <;> rfl
@[simp] theorem State.owner_setInj (b : Bool) (i : Option Inj) (cls j : Nat) : (s.setInj b i).owner cls j = s.owner cls j := by unfold State.setInj; split <;> rfl
@[simp] theorem State.reg_setInj (b : Bool) (i : Option Inj) (x : Nat) : (s.setInj b i).reg x = s.reg x := by unfold State.setInj; split <;> rfl
@[simp] theorem State.port_setInj (b : Bool) (i : Option Inj) (x : Nat) : (s.setInj b i).port x = s.port x := by unfold State.setInj; split <;> rfl
@[simp] theorem State.cell_setInj (b : Bool) (i : Option Inj) (x : Nat) : (s.setInj b i).cell x = s.cell x := by unfold State.setInj; split <;> rfl
@[simp] theorem State.lamp_setInj (b : Bool) (i : Option Inj) (x : Nat) : (s.setInj b i).lamp x = s.lamp x := by unfold State.setInj; split <;> rfl
@[simp] theorem State.engine_setInj (b : Bool) (i : Option Inj) (x : Nat) : (s.setInj b i).engine x = s.engine x := by unfold State.setInj; split <;> rfl
@[simp] theorem State.key_setInj (b : Bool) (i : Option Inj) (x : Nat) : (s.setInj b i).key x = s.key x := by unfold State.setInj; split <;> rfl
@[simp] theorem State.fword_setInj (b : Bool) (i : Option Inj) (x : Nat) : (s.setInj b i).fword x = s.fword x := by unfold State.setInj; split <;> rfl

/-! ## setBuf -/

@[simp] theorem State.door_setBuf (b : Nat) (v : Option RspBuf) (u : Nat) : (s.setBuf b v).door u = s.door u := rfl
@[simp] theorem State.ten_setBuf (b : Nat) (v : Option RspBuf) (u : Nat) : (s.setBuf b v).ten u = s.ten u := rfl
@[simp] theorem State.up_setBuf (b : Nat) (v : Option RspBuf) (d : Nat) : (s.setBuf b v).up d = s.up d := rfl
@[simp] theorem State.shut_setBuf (b : Nat) (v : Option RspBuf) (bank : Nat) : (s.setBuf b v).shut bank = s.shut bank := rfl
@[simp] theorem State.rdByte_setBuf (b : Nat) (v : Option RspBuf) (x : Nat) : (s.setBuf b v).rdByte x = s.rdByte x := rfl
@[simp] theorem State.grant_setBuf (b : Nat) (v : Option RspBuf) (cls i : Nat) : (s.setBuf b v).grant cls i = s.grant cls i := rfl
@[simp] theorem State.owner_setBuf (b : Nat) (v : Option RspBuf) (cls i : Nat) : (s.setBuf b v).owner cls i = s.owner cls i := rfl
@[simp] theorem State.reg_setBuf (b : Nat) (v : Option RspBuf) (x : Nat) : (s.setBuf b v).reg x = s.reg x := rfl
@[simp] theorem State.port_setBuf (b : Nat) (v : Option RspBuf) (x : Nat) : (s.setBuf b v).port x = s.port x := rfl
@[simp] theorem State.cell_setBuf (b : Nat) (v : Option RspBuf) (x : Nat) : (s.setBuf b v).cell x = s.cell x := rfl
@[simp] theorem State.lamp_setBuf (b : Nat) (v : Option RspBuf) (x : Nat) : (s.setBuf b v).lamp x = s.lamp x := rfl
@[simp] theorem State.engine_setBuf (b : Nat) (v : Option RspBuf) (x : Nat) : (s.setBuf b v).engine x = s.engine x := rfl
@[simp] theorem State.key_setBuf (b : Nat) (v : Option RspBuf) (x : Nat) : (s.setBuf b v).key x = s.key x := rfl
@[simp] theorem State.chan_setBuf (b : Nat) (v : Option RspBuf) (x : Nat) : (s.setBuf b v).chan x = s.chan x := rfl
@[simp] theorem State.fword_setBuf (b : Nat) (v : Option RspBuf) (x : Nat) : (s.setBuf b v).fword x = s.fword x := rfl

/-! ## setSnap -/

@[simp] theorem State.door_setSnap (k : Nat) (v : KSnap) (u : Nat) : (s.setSnap k v).door u = s.door u := rfl
@[simp] theorem State.ten_setSnap (k : Nat) (v : KSnap) (u : Nat) : (s.setSnap k v).ten u = s.ten u := rfl
@[simp] theorem State.up_setSnap (k : Nat) (v : KSnap) (d : Nat) : (s.setSnap k v).up d = s.up d := rfl
@[simp] theorem State.shut_setSnap (k : Nat) (v : KSnap) (bank : Nat) : (s.setSnap k v).shut bank = s.shut bank := rfl
@[simp] theorem State.rdByte_setSnap (k : Nat) (v : KSnap) (x : Nat) : (s.setSnap k v).rdByte x = s.rdByte x := rfl
@[simp] theorem State.grant_setSnap (k : Nat) (v : KSnap) (cls i : Nat) : (s.setSnap k v).grant cls i = s.grant cls i := rfl
@[simp] theorem State.owner_setSnap (k : Nat) (v : KSnap) (cls i : Nat) : (s.setSnap k v).owner cls i = s.owner cls i := rfl
@[simp] theorem State.reg_setSnap (k : Nat) (v : KSnap) (x : Nat) : (s.setSnap k v).reg x = s.reg x := rfl
@[simp] theorem State.port_setSnap (k : Nat) (v : KSnap) (x : Nat) : (s.setSnap k v).port x = s.port x := rfl
@[simp] theorem State.cell_setSnap (k : Nat) (v : KSnap) (x : Nat) : (s.setSnap k v).cell x = s.cell x := rfl
@[simp] theorem State.lamp_setSnap (k : Nat) (v : KSnap) (x : Nat) : (s.setSnap k v).lamp x = s.lamp x := rfl
@[simp] theorem State.engine_setSnap (k : Nat) (v : KSnap) (x : Nat) : (s.setSnap k v).engine x = s.engine x := rfl
@[simp] theorem State.key_setSnap (k : Nat) (v : KSnap) (x : Nat) : (s.setSnap k v).key x = s.key x := rfl
@[simp] theorem State.chan_setSnap (k : Nat) (v : KSnap) (x : Nat) : (s.setSnap k v).chan x = s.chan x := rfl
@[simp] theorem State.fword_setSnap (k : Nat) (v : KSnap) (x : Nat) : (s.setSnap k v).fword x = s.fword x := rfl

/-! ## setRun -/

@[simp] theorem State.door_setRun (id : Nat) (st : RunSt) (u : Nat) : (s.setRun id st).door u = s.door u := rfl
@[simp] theorem State.ten_setRun (id : Nat) (st : RunSt) (u : Nat) : (s.setRun id st).ten u = s.ten u := rfl
@[simp] theorem State.up_setRun (id : Nat) (st : RunSt) (d : Nat) : (s.setRun id st).up d = s.up d := rfl
@[simp] theorem State.shut_setRun (id : Nat) (st : RunSt) (bank : Nat) : (s.setRun id st).shut bank = s.shut bank := rfl
@[simp] theorem State.rdByte_setRun (id : Nat) (st : RunSt) (x : Nat) : (s.setRun id st).rdByte x = s.rdByte x := rfl
@[simp] theorem State.grant_setRun (id : Nat) (st : RunSt) (cls i : Nat) : (s.setRun id st).grant cls i = s.grant cls i := rfl
@[simp] theorem State.owner_setRun (id : Nat) (st : RunSt) (cls i : Nat) : (s.setRun id st).owner cls i = s.owner cls i := rfl
@[simp] theorem State.reg_setRun (id : Nat) (st : RunSt) (x : Nat) : (s.setRun id st).reg x = s.reg x := rfl
@[simp] theorem State.port_setRun (id : Nat) (st : RunSt) (x : Nat) : (s.setRun id st).port x = s.port x := rfl
@[simp] theorem State.cell_setRun (id : Nat) (st : RunSt) (x : Nat) : (s.setRun id st).cell x = s.cell x := rfl
@[simp] theorem State.lamp_setRun (id : Nat) (st : RunSt) (x : Nat) : (s.setRun id st).lamp x = s.lamp x := rfl
@[simp] theorem State.engine_setRun (id : Nat) (st : RunSt) (x : Nat) : (s.setRun id st).engine x = s.engine x := rfl
@[simp] theorem State.key_setRun (id : Nat) (st : RunSt) (x : Nat) : (s.setRun id st).key x = s.key x := rfl
@[simp] theorem State.chan_setRun (id : Nat) (st : RunSt) (x : Nat) : (s.setRun id st).chan x = s.chan x := rfl
@[simp] theorem State.fword_setRun (id : Nat) (st : RunSt) (x : Nat) : (s.setRun id st).fword x = s.fword x := rfl

/-! ## The member that an updater changes -/

theorem State.ten_updTen (t : Nat) (f : Tenant → Tenant) (u : Nat) :
    (s.updTen t f).ten u = if u = t then f (s.ten t) else s.ten u := SMap.get_upd _ _ _ _ _

@[simp] theorem State.ten_updTen_self (t : Nat) (f : Tenant → Tenant) : (s.updTen t f).ten t = f (s.ten t) :=
  SMap.get_upd_self _ _ _ _

theorem State.ten_updTen_ne {t u : Nat} (f : Tenant → Tenant) (h : u ≠ t) : (s.updTen t f).ten u = s.ten u :=
  SMap.get_upd_ne _ _ _ h

theorem State.door_setDoor (t : Nat) (d : DoorSt) (u : Nat) :
    (s.setDoor t d).door u = if u = t ∧ t ≠ 0 then d else s.door u := by
  unfold State.setDoor
  by_cases h : t = 0
  · simp [h]
  · simp only [h, if_false, ne_eq, not_false_eq_true, and_true]
    exact SMap.get_set _ _ _ _ _

theorem State.port_updPort (p : Nat) (f : HPort → HPort) (q : Nat) :
    (s.updPort p f).port q = if (q = 0 ↔ p = 0) then f (s.port q) else s.port q := by
  unfold State.updPort State.port
  by_cases hp : p = 0 <;> by_cases hq : q = 0 <;> simp [hp, hq]

theorem State.lamp_updLamp (n : Nat) (f : Lamp → Lamp) (m : Nat) :
    (s.updLamp n f).lamp m = if m = n then f (s.lamp n) else s.lamp m := SMap.get_upd _ _ _ _ _

theorem State.engine_updEngine (n : Nat) (f : Engine → Engine) (m : Nat) :
    (s.updEngine n f).engine m = if m = n then f (s.engine n) else s.engine m := SMap.get_upd _ _ _ _ _

theorem State.cell_updCell (n : Nat) (f : Cell → Cell) (m : Nat) :
    (s.updCell n f).cell m = if m = n then f (s.cell n) else s.cell m := SMap.get_upd _ _ _ _ _

theorem State.key_updKey (n : Nat) (f : Key → Key) (m : Nat) :
    (s.updKey n f).key m = if m = n then f (s.key n) else s.key m := SMap.get_upd _ _ _ _ _

theorem State.chan_updChan (n : Nat) (f : Chan → Chan) (m : Nat) :
    (s.updChan n f).chan m = if m = n then f (s.chan n) else s.chan m := SMap.get_upd _ _ _ _ _

theorem State.fan_updFan (n : Nat) (f : Fan → Fan) (m : Nat) :
    (s.updFan n f).fan m = if m = n then f (s.fan n) else s.fan m := SMap.get_upd _ _ _ _ _

theorem State.reg_setReg (a : Nat) (v : Word) (b : Nat) : (s.setReg a v).reg b = if b = a then v else s.reg b :=
  SMap.get_set _ _ _ _ _

theorem State.rdByte_wrByte (a : Nat) (v : Byte) (b : Nat) :
    (s.wrByte a v).rdByte b = if b = a then v else s.rdByte b := SMap.get_set _ _ _ _ _

theorem State.rdByte_zeroMem (lo hi b : Nat) :
    (s.zeroMem lo hi).rdByte b = if lo ≤ b ∧ b < hi then 0 else s.rdByte b := SMap.get_clear _ _ _ _ _

theorem State.fword_setFword (w : Nat) (v : FWord) (x : Nat) :
    (s.setFword w v).fword x = if x = w then v else s.fword x := SMap.get_set _ _ _ _ _

/-! ## A word under byte enables -/

theorem byte_of_nat (n : Nat) : (BitVec.ofNat 8 (fieldOf n 0 8)).toNat = n % 256 := by
  simp [fieldOf]

/-- With every byte enabled the new word is written. -/
@[simp] theorem mergeBytes_all (old new : Word) : mergeBytes old new 0xF#4 = new := by
  apply BitVec.eq_of_toNat_eq
  have h := new.isLt
  have e : (List.range 4) = [0, 1, 2, 3] := rfl
  simp only [mergeBytes, e, List.map, leNat, wordOf, fieldOf, BitVec.toNat_ofNat]
  have b0 : (0xF#4).getLsbD 0 = true := rfl
  have b1 : (0xF#4).getLsbD 1 = true := rfl
  have b2 : (0xF#4).getLsbD 2 = true := rfl
  have b3 : (0xF#4).getLsbD 3 = true := rfl
  simp only [b0, b1, b2, b3, if_true]
  omega

@[simp] theorem woBytes_all (v : Word) : woBytes v 0xF#4 = v := mergeBytes_all 0 v

/-! ## Clamps -/

@[simp] theorem State.clamps_zero (t : Nat) (p : Path) : s.clamps t p 0 = s := rfl

/-! ## Rows that are served -/

theorem State.pageReach_of_serves {s : State} {t off : Nat} {w : Bool} (h : s.Serves t)
    (ho : (isPageReg off || (t == 0 && isSysReg off)) = true) : s.pageReach t off w = true := by
  obtain ⟨h1, h2, h3⟩ := h
  simp [State.pageReach, State.rowServed, State.doorServes, h1, h2, h3, ho]

/-- A register row that reaches its register and clamps nothing has the register's effect. -/
theorem State.pageRow_of {s n : State} {t off : Nat} {v : Word} {be : BitVec 4} (h : s.pageReach t (off / 4 * 4) true = true)
    (e : s.regPut none t (off / 4 * 4) v be = (n, 0)) : s.pageRow t off v be = n := by
  simp [State.pageRow, h, e]

theorem State.pageRowRead_of {s : State} {t off : Nat} (h : s.pageReach t (off / 4 * 4) false = true) :
    s.pageRowRead t off = State.regSide { s with rdata := s.regGet t 0 (off / 4 * 4) } t (off / 4 * 4) := by
  simp [State.pageRowRead, h]

/-- The same of a config register that no self-test holds. -/
theorem State.cfgRow_of {s n : State} {t a : Nat} {v : Word} {be : BitVec 4} (h : s.cfgReach t (a / 4 * 4) true = true)
    (hh : s.cfgHeld (a / 4 * 4) = false) (e : s.cfgPut none (a / 4 * 4) v be = (n, 0)) : s.cfgRow t a v be = n := by
  simp [State.cfgRow, State.cfgWriteNow, h, hh, e]

theorem State.cfgRowRead_of {s : State} {t a : Nat} (h : s.cfgReach t (a / 4 * 4) false = true)
    (hh : s.cfgHeld (a / 4 * 4) = false) :
    s.cfgRowRead t a = State.cfgSide { s with rdata := s.cfgGet t (a / 4 * 4) } (a / 4 * 4) := by
  simp [State.cfgRowRead, State.cfgReadNow, h, hh]

/-- A register row that a self-test holds waits behind those before it (R17, R18). -/
theorem State.cfgRow_held {s : State} {t a : Nat} {v : Word} {be : BitVec 4} (h : s.cfgReach t (a / 4 * 4) true = true)
    (hh : s.cfgHeld (a / 4 * 4) = true) : s.cfgRow t a v be = s.holdRow (.regWrite t (a / 4 * 4) v be) := by
  simp [State.cfgRow, h, hh]

end Sys2Proof.Machine
end

