-- ==== Sys2Proof/Laws/Kept.lean ====
section
/-! SUPPORT. What keeps a state safe and leaves its queue as it is: an update that leaves the doors and memory alone, a
door set, a byte written, SRAM zeroed, and such effects one after the other. -/

namespace Sys2Proof.Machine

/-- The state is safe and its queue is `pq`. -/
def State.Kept (pq : List Instr) (s : State) : Prop := s.Safe ∧ s.pending = pq

/-- The three fields that this reads. -/
def KeptParts (pq p : List Instr) (d : SMap DoorSt) (m : List Host.Cell) : Prop :=
  (SMap.get doorReset d 0 = .opened ∧ Memory.wf m = true) ∧ p = pq

theorem State.Kept.congr {pq : List Instr} {s t : State} (h : s.Kept pq) (hp : t.pending = s.pending)
    (hd : t.doors = s.doors) (hm : t.mem = s.mem) : t.Kept pq := by
  unfold State.Kept State.Safe State.door at *
  rw [hp, hd, hm]; exact h

/-- The same of a state written out field by field. -/
theorem kept_mk {pq pe do_ te ru nr pa pb ti gr sy pw se di la en ke ad th pr fl li ts wa db he af ks st re me ec ch kn sl
    rd fr pt} :
    State.Kept pq ⟨pe, do_, te, ru, nr, pa, pb, ti, gr, sy, pw, se, di, la, en, ke, ad, th, pr, fl, li, ts, wa, db, he, af, ks,
      st, re, me, ec, ch, kn, sl, rd, fr, pt⟩ ↔ KeptParts pq pe do_ me := Iff.rfl

theorem kept_parts {pq : List Instr} {x : State} (h : x.Kept pq) : KeptParts pq x.pending x.doors x.mem := h

theorem kept_zeroed {pq : List Instr} {x : State} (h : x.Kept pq) : KeptParts pq x.pending x.doors [] :=
  ⟨⟨h.1.1, rfl⟩, h.2⟩

/-- Doors and memory as reset leaves them. -/
theorem kept_fresh {pq : List Instr} {x : State} (h : x.Kept pq) :
    KeptParts pq x.pending State.reset.doors State.reset.mem := ⟨⟨rfl, rfl⟩, h.2⟩

theorem State.setDoor_kept {pq : List Instr} {s : State} (h : s.Kept pq) (t : Nat) (d : DoorSt) :
    (s.setDoor t d).Kept pq := by
  unfold State.setDoor
  split
  · exact h
  · rename_i ht
    refine ⟨⟨?_, h.1.2⟩, h.2⟩
    exact (SMap.get_set_ne doorReset s.doors d (Ne.symm ht)).trans h.1.1

theorem State.wrByte_kept {pq : List Instr} {s : State} (h : s.Kept pq) (a : Nat) (b : Byte) : (s.wrByte a b).Kept pq :=
  ⟨⟨h.1.1, SMap.wf_set memDefault h.1.2 a b⟩, h.2⟩

theorem State.zeroMem_kept {pq : List Instr} {s : State} (h : s.Kept pq) (lo hi : Nat) : (s.zeroMem lo hi).Kept pq :=
  ⟨⟨h.1.1, SMap.wf_clear memDefault h.1.2 lo hi⟩, h.2⟩

theorem foldl_kept {pq : List Instr} {α : Type} {f : State → α → State} (hf : ∀ s a, s.Kept pq → (f s a).Kept pq)
    {s : State} (h : s.Kept pq) (l : List α) : (l.foldl f s).Kept pq := by
  induction l generalizing s with
  | nil => exact h
  | cons a l ih => exact ih (hf s a h)

theorem State.each_kept {pq : List Instr} {s : State} (h : s.Kept pq) (ns : List Nat) {f : State → Nat → State}
    (hf : ∀ s n, s.Kept pq → (f s n).Kept pq) : (s.each ns f).Kept pq := foldl_kept hf h ns

theorem State.wrBytes_kept {pq : List Instr} {s : State} (h : s.Kept pq) (a : Nat) (bs : List Byte) :
    (s.wrBytes a bs).Kept pq := by
  induction bs generalizing s a with
  | nil => exact h
  | cons b bs ih => exact ih (State.wrByte_kept h a b) (a + 1)

end Sys2Proof.Machine
end

