-- ==== Sys2Proof/Laws/KeptOps.lean ====
section
/-! SUPPORT. Every operation of Machine/Ops.lean keeps a state safe and its queue as it is. -/

namespace Sys2Proof.Machine

set_option linter.unreachableTactic false
set_option linter.unusedTactic false
set_option linter.unusedVariables false
set_option linter.unusedSimpArgs false

theorem State.updTen_kept {pq : List Instr} {s : State} (h : s.Kept pq) (t : Nat) (f : Tenant → Tenant) : (s.updTen t f).Kept pq := by
  unfold State.updTen
  repeat' (first | with_reducible assumption | simp only [kept_mk] | with_reducible apply kept_parts | with_reducible intro _ | dsimp only | split)

theorem State.updPort_kept {pq : List Instr} {s : State} (h : s.Kept pq) (p : Nat) (f : HPort → HPort) : (s.updPort p f).Kept pq := by
  unfold State.updPort
  repeat' (first | with_reducible assumption | simp only [kept_mk] | with_reducible apply kept_parts | with_reducible intro _ | dsimp only | split)

theorem State.updCell_kept {pq : List Instr} {s : State} (h : s.Kept pq) (c : Nat) (f : Cell → Cell) : (s.updCell c f).Kept pq := by
  unfold State.updCell
  repeat' (first | with_reducible assumption | simp only [kept_mk] | with_reducible apply kept_parts | with_reducible intro _ | dsimp only | split)

theorem State.updDport_kept {pq : List Instr} {s : State} (h : s.Kept pq) (p : Nat) (f : DPort → DPort) : (s.updDport p f).Kept pq := by
  unfold State.updDport
  repeat' (first | with_reducible assumption | simp only [kept_mk] | with_reducible apply kept_parts | with_reducible intro _ | dsimp only | split)

theorem State.updLamp_kept {pq : List Instr} {s : State} (h : s.Kept pq) (n : Nat) (f : Lamp → Lamp) : (s.updLamp n f).Kept pq := by
  unfold State.updLamp
  repeat' (first | with_reducible assumption | simp only [kept_mk] | with_reducible apply kept_parts | with_reducible intro _ | dsimp only | split)

theorem State.updEngine_kept {pq : List Instr} {s : State} (h : s.Kept pq) (k : Nat) (f : Engine → Engine) : (s.updEngine k f).Kept pq := by
  unfold State.updEngine
  repeat' (first | with_reducible assumption | simp only [kept_mk] | with_reducible apply kept_parts | with_reducible intro _ | dsimp only | split)

theorem State.updKey_kept {pq : List Instr} {s : State} (h : s.Kept pq) (k : Nat) (f : Key → Key) : (s.updKey k f).Kept pq := by
  unfold State.updKey
  repeat' (first | with_reducible assumption | simp only [kept_mk] | with_reducible apply kept_parts | with_reducible intro _ | dsimp only | split)

theorem State.updChan_kept {pq : List Instr} {s : State} (h : s.Kept pq) (n : Nat) (f : Chan → Chan) : (s.updChan n f).Kept pq := by
  unfold State.updChan
  repeat' (first | with_reducible assumption | simp only [kept_mk] | with_reducible apply kept_parts | with_reducible intro _ | dsimp only | split)

theorem State.updSensor_kept {pq : List Instr} {s : State} (h : s.Kept pq) (i : Nat) (f : Sensor → Sensor) : (s.updSensor i f).Kept pq := by
  unfold State.updSensor
  repeat' (first | with_reducible assumption | simp only [kept_mk] | with_reducible apply kept_parts | with_reducible intro _ | dsimp only | split)

theorem State.updZone_kept {pq : List Instr} {s : State} (h : s.Kept pq) (k : Nat) (f : Zone → Zone) : (s.updZone k f).Kept pq := by
  unfold State.updZone
  repeat' (first | with_reducible assumption | simp only [kept_mk] | with_reducible apply kept_parts | with_reducible intro _ | dsimp only | split)

theorem State.updFan_kept {pq : List Instr} {s : State} (h : s.Kept pq) (n : Nat) (f : Fan → Fan) : (s.updFan n f).Kept pq := by
  unfold State.updFan
  repeat' (first | with_reducible assumption | simp only [kept_mk] | with_reducible apply kept_parts | with_reducible intro _ | dsimp only | split)

theorem State.setFword_kept {pq : List Instr} {s : State} (h : s.Kept pq) (w : Nat) (v : FWord) : (s.setFword w v).Kept pq := by
  unfold State.setFword
  repeat' (first | with_reducible assumption | simp only [kept_mk] | with_reducible apply kept_parts | with_reducible intro _ | dsimp only | split)

theorem State.drawn_kept {pq : List Instr} {s : State} (h : s.Kept pq) : s.drawn.Kept pq := by
  unfold State.drawn
  repeat' (first | with_reducible assumption | simp only [kept_mk] | with_reducible apply kept_parts | with_reducible intro _ | dsimp only | split)

theorem State.wr32_kept {pq : List Instr} {s : State} (h : s.Kept pq) (a : Nat) (v : Word) (be : BitVec 4) : (s.wr32 a v be).Kept pq := by
  unfold State.wr32
  repeat' (first | with_reducible assumption | with_reducible apply State.each_kept | with_reducible apply State.wrByte_kept | simp only [kept_mk] | with_reducible apply kept_parts | with_reducible intro _ | dsimp only | split)

theorem State.setEcc_kept {pq : List Instr} {s : State} (h : s.Kept pq) (k : Nat) (e : EccSt) : (s.setEcc k e).Kept pq := by
  unfold State.setEcc
  repeat' (first | with_reducible assumption | simp only [kept_mk] | with_reducible apply kept_parts | with_reducible intro _ | dsimp only | split)

theorem State.wrWhole_kept {pq : List Instr} {s : State} (h : s.Kept pq) (a : Nat) (bs : List Byte) : (s.wrWhole a bs).Kept pq := by
  unfold State.wrWhole
  repeat' (first | with_reducible assumption | with_reducible apply State.wrBytes_kept | with_reducible apply State.each_kept | with_reducible apply State.setEcc_kept | simp only [kept_mk] | with_reducible apply kept_parts | with_reducible intro _ | dsimp only | split)

theorem State.setChk_kept {pq : List Instr} {s : State} (h : s.Kept pq) (bank : Nat) (c : Nat) (v : Word) : (s.setChk bank c v).Kept pq := by
  unfold State.setChk
  repeat' (first | with_reducible assumption | with_reducible apply State.setEcc_kept | simp only [kept_mk] | with_reducible apply kept_parts | with_reducible intro _ | dsimp only | split)

end Sys2Proof.Machine
end

