-- ==== Sys2Proof/Laws/KeptRegs.lean ====
section
/-! SUPPORT. Every operation of Machine/Regs.lean keeps a state safe and its queue as it is. -/

namespace Sys2Proof.Machine

set_option linter.unreachableTactic false
set_option linter.unusedTactic false
set_option linter.unusedVariables false
set_option linter.unusedSimpArgs false

theorem State.setReg_kept {pq : List Instr} {s : State} (h : s.Kept pq) (a : Nat) (v : Word) : (s.setReg a v).Kept pq := by
  unfold State.setReg
  repeat' (first | with_reducible assumption | simp only [kept_mk] | with_reducible apply kept_parts | with_reducible intro _ | dsimp only | split)

theorem State.writeReg_kept {pq : List Instr} {s : State} (h : s.Kept pq) (a : Nat) (v : Word) (be : BitVec 4) : (s.writeReg a v be).1.Kept pq := by
  unfold State.writeReg
  repeat' (first | with_reducible assumption | with_reducible apply State.setReg_kept | simp only [kept_mk] | with_reducible apply kept_parts | with_reducible intro _ | dsimp only | split)

theorem State.resetRegs_kept {pq : List Instr} {s : State} (h : s.Kept pq) (lo : Nat) (hi : Nat) : (s.resetRegs lo hi).Kept pq := by
  unfold State.resetRegs
  repeat' (first | with_reducible assumption | simp only [kept_mk] | with_reducible apply kept_parts | with_reducible intro _ | dsimp only | split)

end Sys2Proof.Machine
end

