-- ==== Sys2Proof/Laws/KeptFlags.lean ====
section
/-! SUPPORT. Every operation of Machine/Flags.lean keeps a state safe and its queue as it is. -/

namespace Sys2Proof.Machine

set_option linter.unreachableTactic false
set_option linter.unusedTactic false
set_option linter.unusedVariables false
set_option linter.unusedSimpArgs false

theorem State.eqPut_kept {pq : List Instr} {s : State} (h : s.Kept pq) (t : Nat) (e : Nat) (flags : Nat) (tick : Nat) (data : Word) : (s.eqPut t e flags tick data).Kept pq := by
  unfold State.eqPut
  repeat' (first | with_reducible assumption | with_reducible apply State.wrWhole_kept | with_reducible apply State.updTen_kept | simp only [kept_mk] | with_reducible apply kept_parts | with_reducible intro _ | dsimp only | split)

theorem State.pendAdd_kept {pq : List Instr} {s : State} (h : s.Kept pq) (t : Nat) (e : Nat) (count : Nat) (tick : Nat) (data : Word) : (s.pendAdd t e count tick data).Kept pq := by
  unfold State.pendAdd
  repeat' (first | with_reducible assumption | with_reducible apply State.updTen_kept | simp only [kept_mk] | with_reducible apply kept_parts | with_reducible intro _ | dsimp only | split)

theorem State.place_kept {pq : List Instr} {s : State} (h : s.Kept pq) (t : Nat) (e : Nat) (tick : Nat) (data : Word) : (s.place t e tick data).Kept pq := by
  unfold State.place
  repeat' (first | with_reducible assumption | with_reducible apply State.eqPut_kept | with_reducible apply State.pendAdd_kept | simp only [kept_mk] | with_reducible apply kept_parts | with_reducible intro _ | dsimp only | split)

theorem State.deliver_kept {pq : List Instr} {s : State} (h : s.Kept pq) (t : Nat) (e : Nat) (data : Word) : (s.deliver t e data).Kept pq := by
  unfold State.deliver
  repeat' (first | with_reducible assumption | with_reducible apply State.place_kept | simp only [kept_mk] | with_reducible apply kept_parts | with_reducible intro _ | dsimp only | split)

theorem State.raise_kept {pq : List Instr} {s : State} (h : s.Kept pq) (e : Nat) (d : Dest) (data : Word) : (s.raise e d data).Kept pq := by
  unfold State.raise
  repeat' (first | with_reducible assumption | with_reducible apply State.deliver_kept | simp only [kept_mk] | with_reducible apply kept_parts | with_reducible intro _ | dsimp only | split)

theorem State.releaseOne_kept {pq : List Instr} {s : State} (h : s.Kept pq) (h' : Held) : (s.releaseOne h').Kept pq := by
  unfold State.releaseOne
  repeat' (first | with_reducible assumption | with_reducible apply State.pendAdd_kept | simp only [kept_mk] | with_reducible apply kept_parts | with_reducible intro _ | dsimp only | split)

theorem State.releaseHeld_kept {pq : List Instr} {s : State} (h : s.Kept pq) : s.releaseHeld.Kept pq := by
  unfold State.releaseHeld
  repeat' (first | with_reducible assumption | with_reducible apply State.releaseOne_kept | with_reducible apply foldl_kept | simp only [kept_mk] | with_reducible apply kept_parts | with_reducible intro _ | dsimp only | split)

theorem State.sweepOne_kept {pq : List Instr} {s : State} (h : s.Kept pq) (t : Nat) (q : Nat × PendEv) : (s.sweepOne t q).Kept pq := by
  unfold State.sweepOne
  repeat' (first | with_reducible assumption | with_reducible apply State.eqPut_kept | with_reducible apply State.updTen_kept | simp only [kept_mk] | with_reducible apply kept_parts | with_reducible intro _ | dsimp only | split)

theorem State.sweepTen_kept {pq : List Instr} {s : State} (h : s.Kept pq) (t : Nat) : (s.sweepTen t).Kept pq := by
  unfold State.sweepTen
  repeat' (first | with_reducible assumption | with_reducible apply State.sweepOne_kept | with_reducible apply foldl_kept | simp only [kept_mk] | with_reducible apply kept_parts | with_reducible intro _ | dsimp only | split)

theorem State.clamps_kept {pq : List Instr} {s : State} (h : s.Kept pq) (t : Nat) (p : Path) (k : Nat) : (s.clamps t p k).Kept pq := by
  unfold State.clamps
  repeat' (first | with_reducible assumption | with_reducible apply State.updTen_kept | with_reducible apply State.raise_kept | simp only [kept_mk] | with_reducible apply kept_parts | with_reducible intro _ | dsimp only | split)

theorem State.berrRecord_kept {pq : List Instr} {s : State} (h : s.Kept pq) (page : Nat) (port : Nat) (addr : Nat) (write : Bool) (posted : Bool) (e : Err) : (s.berrRecord page port addr write posted e).Kept pq := by
  unfold State.berrRecord
  repeat' (first | with_reducible assumption | with_reducible apply State.updTen_kept | simp only [kept_mk] | with_reducible apply kept_parts | with_reducible intro _ | dsimp only | split)

end Sys2Proof.Machine
end

