-- ==== Sys2Proof/Laws/KeptProtect.lean ====
section
/-! SUPPORT. Every operation of Machine/Protect.lean keeps a state safe and its queue as it is. -/

namespace Sys2Proof.Machine

set_option linter.unreachableTactic false
set_option linter.unusedTactic false
set_option linter.unusedVariables false
set_option linter.unusedSimpArgs false

theorem State.ceReached_kept {pq : List Instr} {s : State} (h : s.Kept pq) (i : Nat) (n : Nat) : (s.ceReached i n).Kept pq := by
  unfold State.ceReached
  repeat' (first | with_reducible assumption | with_reducible apply State.raise_kept | simp only [kept_mk] | with_reducible apply kept_parts | with_reducible intro _ | dsimp only | split)

theorem State.countCe_kept {pq : List Instr} {s : State} (h : s.Kept pq) : s.countCe.Kept pq := by
  unfold State.countCe
  repeat' (first | with_reducible assumption | with_reducible apply State.ceReached_kept | simp only [kept_mk] | with_reducible apply kept_parts | with_reducible intro _ | dsimp only | split)

theorem State.countUe_kept {pq : List Instr} {s : State} (h : s.Kept pq) (region : Nat) (a : Nat) : (s.countUe region a).Kept pq := by
  unfold State.countUe
  repeat' (first | with_reducible assumption | simp only [kept_mk] | with_reducible apply kept_parts | with_reducible intro _ | dsimp only | split)

theorem State.poison_kept {pq : List Instr} {s : State} (h : s.Kept pq) (k : Nat) : (s.poison k).Kept pq := by
  unfold State.poison
  repeat' (first | with_reducible assumption | with_reducible apply State.setEcc_kept | with_reducible apply State.countUe_kept | with_reducible apply State.raise_kept | simp only [kept_mk] | with_reducible apply kept_parts | with_reducible intro _ | dsimp only | split)

theorem State.wrongData_kept {pq : List Instr} {s : State} (h : s.Kept pq) (k : Nat) (v : DWord) : (s.wrongData k v).Kept pq := by
  unfold State.wrongData
  repeat' (first | with_reducible assumption | with_reducible apply State.wrBytes_kept | with_reducible apply State.setEcc_kept | with_reducible apply State.setChk_kept | simp only [kept_mk] | with_reducible apply kept_parts | with_reducible intro _ | dsimp only | split)

theorem State.eccRead_kept {pq : List Instr} {s : State} (h : s.Kept pq) (k : Nat) : (s.eccRead k).1.Kept pq := by
  unfold State.eccRead
  repeat' (first | with_reducible assumption | with_reducible apply State.setEcc_kept | with_reducible apply State.countCe_kept | with_reducible apply State.poison_kept | with_reducible apply State.drawn_kept | with_reducible apply State.wrongData_kept | simp only [kept_mk] | with_reducible apply kept_parts | with_reducible intro _ | dsimp only | split)

theorem State.eccReadAll_kept {pq : List Instr} {s : State} (h : s.Kept pq) (x0 : List Nat) : (s.eccReadAll x0).1.Kept pq := by
  induction x0 generalizing s with
  | nil => exact h
  | cons a l ih =>
    unfold State.eccReadAll
    repeat' (first | with_reducible assumption | with_reducible apply ih | with_reducible apply State.eccRead_kept | simp only [kept_mk] | with_reducible apply kept_parts | with_reducible intro _ | dsimp only | split)

theorem State.sramRead_kept {pq : List Instr} {s : State} (h : s.Kept pq) (a : Nat) (n : Nat) : (s.sramRead a n).1.Kept pq := by
  unfold State.sramRead
  repeat' (first | with_reducible assumption | with_reducible apply State.eccReadAll_kept | simp only [kept_mk] | with_reducible apply kept_parts | with_reducible intro _ | dsimp only | split)

theorem State.sramWrite32_kept {pq : List Instr} {s : State} (h : s.Kept pq) (a : Nat) (v : Word) (be : BitVec 4) : (s.sramWrite32 a v be).1.Kept pq := by
  unfold State.sramWrite32
  repeat' (first | with_reducible assumption | with_reducible apply State.sramRead_kept | with_reducible apply State.wr32_kept | simp only [kept_mk] | with_reducible apply kept_parts | with_reducible intro _ | dsimp only | split)

end Sys2Proof.Machine
end

