-- ==== Sys2Proof/Laws/KeptRuns.lean ====
section
/-! SUPPORT. Every operation of Machine/Runs.lean keeps a state safe and its queue as it is. -/

namespace Sys2Proof.Machine

set_option linter.unreachableTactic false
set_option linter.unusedTactic false
set_option linter.unusedVariables false
set_option linter.unusedSimpArgs false

theorem State.updRun_kept {pq : List Instr} {s : State} (h : s.Kept pq) (id : Nat) (f : Run → Run) : (s.updRun id f).Kept pq := by
  unfold State.updRun
  repeat' (first | with_reducible assumption | simp only [kept_mk] | with_reducible apply kept_parts | with_reducible intro _ | dsimp only | split)

theorem State.setRun_kept {pq : List Instr} {s : State} (h : s.Kept pq) (id : Nat) (st : RunSt) : (s.setRun id st).Kept pq := by
  unfold State.setRun
  repeat' (first | with_reducible assumption | with_reducible apply State.updRun_kept | simp only [kept_mk] | with_reducible apply kept_parts | with_reducible intro _ | dsimp only | split)

theorem State.finishId_kept {pq : List Instr} {s : State} (h : s.Kept pq) (id : Nat) (status : Nat) (results : List Byte) : (s.finishId id status results).Kept pq := by
  unfold State.finishId
  repeat' (first | with_reducible assumption | simp only [kept_mk] | with_reducible apply kept_parts | with_reducible intro _ | dsimp only | split)

theorem State.finish_kept {pq : List Instr} {s : State} (h : s.Kept pq) (r : Run) (status : Nat) (results : List Byte) : (s.finish r status results).Kept pq := by
  unfold State.finish
  repeat' (first | with_reducible assumption | with_reducible apply State.finishId_kept | simp only [kept_mk] | with_reducible apply kept_parts | with_reducible intro _ | dsimp only | split)

theorem State.under_kept {pq : List Instr} {s : State} (h : s.Kept pq) (r : Run) : (s.under r).Kept pq := by
  unfold State.under
  repeat' (first | with_reducible assumption | simp only [kept_mk] | with_reducible apply kept_parts | with_reducible intro _ | dsimp only | split)

theorem State.ok_kept {pq : List Instr} {s : State} (h : s.Kept pq) (r : Run) (results : List Byte) : (s.ok r results).Kept pq := by
  unfold State.ok
  repeat' (first | with_reducible assumption | with_reducible apply State.finish_kept | simp only [kept_mk] | with_reducible apply kept_parts | with_reducible intro _ | dsimp only | split)

theorem State.failed_kept {pq : List Instr} {s : State} (h : s.Kept pq) (r : Run) (e : Err) : (s.failed r e).Kept pq := by
  unfold State.failed
  repeat' (first | with_reducible assumption | with_reducible apply State.finish_kept | simp only [kept_mk] | with_reducible apply kept_parts | with_reducible intro _ | dsimp only | split)

theorem State.withRun_kept {pq : List Instr} {s : State} (h : s.Kept pq) (t : Nat) (op : Nat) {f : State → Run → State} (hff : ∀ s a0, s.Kept pq → (f s a0).Kept pq) : (s.withRun t op f).Kept pq := by
  unfold State.withRun
  repeat' (first | with_reducible apply hff | with_reducible assumption | simp only [kept_mk] | with_reducible apply kept_parts | with_reducible intro _ | dsimp only | split)

theorem State.hold_kept {pq : List Instr} {s : State} (h : s.Kept pq) (q : Request) : (s.hold q).Kept pq := by
  unfold State.hold
  repeat' (first | with_reducible assumption | simp only [kept_mk] | with_reducible apply kept_parts | with_reducible intro _ | dsimp only | split)

theorem State.holdRow_kept {pq : List Instr} {s : State} (h : s.Kept pq) (q : Request) : (s.holdRow q).Kept pq := by
  unfold State.holdRow
  repeat' (first | with_reducible assumption | simp only [kept_mk] | with_reducible apply kept_parts | with_reducible intro _ | dsimp only | split)

end Sys2Proof.Machine
end

