-- ==== Sys2Proof/Laws/KeptFlash.lean ====
section
/-! SUPPORT. Every operation of Machine/Flash.lean keeps a state safe and its queue as it is. -/

namespace Sys2Proof.Machine

set_option linter.unreachableTactic false
set_option linter.unusedTactic false
set_option linter.unusedVariables false
set_option linter.unusedSimpArgs false

theorem State.setRemap_kept {pq : List Instr} {s : State} (h : s.Kept pq) (i : Nat) (r : Remap) : (s.setRemap i r).Kept pq := by
  unfold State.setRemap
  repeat' (first | with_reducible assumption | simp only [kept_mk] | with_reducible apply kept_parts | with_reducible intro _ | dsimp only | split)

theorem State.setSuspect_kept {pq : List Instr} {s : State} (h : s.Kept pq) (p : Nat) (b : Bool) : (s.setSuspect p b).Kept pq := by
  unfold State.setSuspect
  repeat' (first | with_reducible assumption | simp only [kept_mk] | with_reducible apply kept_parts | with_reducible intro _ | dsimp only | split)

theorem State.ledgerFail_kept {pq : List Instr} {s : State} (h : s.Kept pq) (p : Nat) : (s.ledgerFail p).Kept pq := by
  unfold State.ledgerFail
  repeat' (first | with_reducible assumption | with_reducible apply State.raise_kept | simp only [kept_mk] | with_reducible apply kept_parts | with_reducible intro _ | dsimp only | split)

theorem State.putRecordIn_kept {pq : List Instr} {s : State} (h : s.Kept pq) (type : Nat) (sector : Nat) (aux : Nat) (x0 : List Nat) : (s.putRecordIn type sector aux x0).1.Kept pq := by
  induction x0 generalizing s with
  | nil => exact h
  | cons a l ih =>
    unfold State.putRecordIn
    repeat' (first | with_reducible assumption | with_reducible apply ih | with_reducible apply State.drawn_kept | with_reducible apply State.setFword_kept | with_reducible apply State.ledgerFail_kept | simp only [kept_mk] | with_reducible apply kept_parts | with_reducible intro _ | dsimp only | split)

theorem State.putJournal_kept {pq : List Instr} {s : State} (h : s.Kept pq) (type : Nat) (sector : Nat) (aux : Nat) : (s.putJournal type sector aux).Kept pq := by
  unfold State.putJournal
  repeat' (first | with_reducible assumption | with_reducible apply State.putRecordIn_kept | simp only [kept_mk] | with_reducible apply kept_parts | with_reducible intro _ | dsimp only | split)

theorem State.enqueue_kept {pq : List Instr} {s : State} (h : s.Kept pq) (ops : List FlashOp) : (s.enqueue ops).Kept pq := by
  unfold State.enqueue
  repeat' (first | with_reducible assumption | simp only [kept_mk] | with_reducible apply kept_parts | with_reducible intro _ | dsimp only | split)

theorem State.enqueueNew_kept {pq : List Instr} {s : State} (h : s.Kept pq) (ops : List FlashOp) : (s.enqueueNew ops).Kept pq := by
  unfold State.enqueueNew
  repeat' (first | with_reducible assumption | with_reducible apply State.enqueue_kept | simp only [kept_mk] | with_reducible apply kept_parts | with_reducible intro _ | dsimp only | split)

theorem State.enqueueWaiting_kept {pq : List Instr} {s : State} (h : s.Kept pq) : s.enqueueWaiting.Kept pq := by
  unfold State.enqueueWaiting
  repeat' (first | with_reducible assumption | simp only [kept_mk] | with_reducible apply kept_parts | with_reducible intro _ | dsimp only | split)

theorem State.enqueueFront_kept {pq : List Instr} {s : State} (h : s.Kept pq) (ops : List FlashOp) : (s.enqueueFront ops).Kept pq := by
  unfold State.enqueueFront
  repeat' (first | with_reducible assumption | simp only [kept_mk] | with_reducible apply kept_parts | with_reducible intro _ | dsimp only | split)

theorem State.grownWait_kept {pq : List Instr} {s : State} (h : s.Kept pq) (type : Nat) (sector : Nat) (aux : Nat) : (s.grownWait type sector aux).Kept pq := by
  unfold State.grownWait
  repeat' (first | with_reducible assumption | with_reducible apply State.enqueueFront_kept | simp only [kept_mk] | with_reducible apply kept_parts | with_reducible intro _ | dsimp only | split)

theorem State.putGrown_kept {pq : List Instr} {s : State} (h : s.Kept pq) (type : Nat) (sector : Nat) (aux : Nat) : (s.putGrown type sector aux).Kept pq := by
  unfold State.putGrown
  repeat' (first | with_reducible assumption | with_reducible apply State.putRecordIn_kept | with_reducible apply State.grownWait_kept | simp only [kept_mk] | with_reducible apply kept_parts | with_reducible intro _ | dsimp only | split)

theorem State.flashUe_kept {pq : List Instr} {s : State} (h : s.Kept pq) (w : Nat) : (s.flashUe w).Kept pq := by
  unfold State.flashUe
  repeat' (first | with_reducible assumption | with_reducible apply State.countUe_kept | with_reducible apply State.setSuspect_kept | with_reducible apply State.putGrown_kept | with_reducible apply State.raise_kept | simp only [kept_mk] | with_reducible apply kept_parts | with_reducible intro _ | dsimp only | split)

theorem State.flashCe_kept {pq : List Instr} {s : State} (h : s.Kept pq) (w : Nat) (two : Bool) : (s.flashCe w two).Kept pq := by
  unfold State.flashCe
  repeat' (first | with_reducible assumption | with_reducible apply State.ceReached_kept | with_reducible apply State.raise_kept | simp only [kept_mk] | with_reducible apply kept_parts | with_reducible intro _ | dsimp only | split)

theorem State.flashDecode_kept {pq : List Instr} {s : State} (h : s.Kept pq) (w : Nat) : (s.flashDecode w).1.Kept pq := by
  unfold State.flashDecode
  repeat' (first | with_reducible assumption | with_reducible apply State.flashCe_kept | with_reducible apply State.flashUe_kept | with_reducible apply State.drawn_kept | simp only [kept_mk] | with_reducible apply kept_parts | with_reducible intro _ | dsimp only | split)

theorem State.flashRead_kept {pq : List Instr} {s : State} (h : s.Kept pq) (w : Nat) : (s.flashRead w).1.Kept pq := by
  unfold State.flashRead
  repeat' (first | with_reducible assumption | with_reducible apply State.flashDecode_kept | simp only [kept_mk] | with_reducible apply kept_parts | with_reducible intro _ | dsimp only | split)

theorem State.flashReads_kept {pq : List Instr} {s : State} (h : s.Kept pq) (x0 : List Nat) : (s.flashReads x0).1.Kept pq := by
  induction x0 generalizing s with
  | nil => exact h
  | cons a l ih =>
    unfold State.flashReads
    repeat' (first | with_reducible assumption | with_reducible apply ih | with_reducible apply State.flashRead_kept | simp only [kept_mk] | with_reducible apply kept_parts | with_reducible intro _ | dsimp only | split)

theorem State.flashBytes_kept {pq : List Instr} {s : State} (h : s.Kept pq) (off : Nat) (n : Nat) : (s.flashBytes off n).1.Kept pq := by
  unfold State.flashBytes
  repeat' (first | with_reducible assumption | with_reducible apply State.flashReads_kept | simp only [kept_mk] | with_reducible apply kept_parts | with_reducible intro _ | dsimp only | split)

theorem State.readRecord_kept {pq : List Instr} {s : State} (h : s.Kept pq) (first : Nat) (kind : Nat) (ten : Nat) (cap : Nat) : (s.readRecord first kind ten cap).1.Kept pq := by
  unfold State.readRecord
  repeat' (first | with_reducible assumption | with_reducible apply State.flashReads_kept | with_reducible apply State.flashBytes_kept | simp only [kept_mk] | with_reducible apply kept_parts | with_reducible intro _ | dsimp only | split)

theorem State.inForce_kept {pq : List Instr} {s : State} (h : s.Kept pq) (keeper : Bool) (t : Nat) : (s.inForce keeper t).1.Kept pq := by
  unfold State.inForce
  repeat' (first | with_reducible assumption | with_reducible apply State.readRecord_kept | simp only [kept_mk] | with_reducible apply kept_parts | with_reducible intro _ | dsimp only | split)

theorem State.flashFail_kept {pq : List Instr} {s : State} (h : s.Kept pq) (cause : Nat) : (s.flashFail cause).Kept pq := by
  unfold State.flashFail
  repeat' (first | with_reducible assumption | simp only [kept_mk] | with_reducible apply kept_parts | with_reducible intro _ | dsimp only | split)

theorem State.wiped_kept {pq : List Instr} {s : State} (h : s.Kept pq) (sect : Nat) (entry : Nat) : (s.wiped sect entry).Kept pq := by
  unfold State.wiped
  repeat' (first | with_reducible assumption | with_reducible apply State.raise_kept | simp only [kept_mk] | with_reducible apply kept_parts | with_reducible intro _ | dsimp only | split)

theorem State.failJob_kept {pq : List Instr} {s : State} (h : s.Kept pq) (j : Job) (status : Nat) : (s.failJob j status).Kept pq := by
  unfold State.failJob
  repeat' (first | with_reducible assumption | with_reducible apply State.finishId_kept | simp only [kept_mk] | with_reducible apply kept_parts | with_reducible intro _ | dsimp only | split)

theorem State.compact_kept {pq : List Instr} {s : State} (h : s.Kept pq) : s.compact.Kept pq := by
  unfold State.compact
  repeat' (first | with_reducible assumption | with_reducible apply State.putRecordIn_kept | with_reducible apply foldl_kept | simp only [kept_mk] | with_reducible apply kept_parts | with_reducible intro _ | dsimp only | split)

theorem State.poolWarn_kept {pq : List Instr} {s : State} (h : s.Kept pq) : s.poolWarn.Kept pq := by
  unfold State.poolWarn
  repeat' (first | with_reducible assumption | with_reducible apply State.raise_kept | simp only [kept_mk] | with_reducible apply kept_parts | with_reducible intro _ | dsimp only | split)

theorem State.spareDone_kept {pq : List Instr} {s : State} (h : s.Kept pq) (idx : Nat) (logical : Nat) (lost : Bool) : (s.spareDone idx logical lost).Kept pq := by
  unfold State.spareDone
  repeat' (first | with_reducible assumption | with_reducible apply State.putGrown_kept | with_reducible apply State.setRemap_kept | with_reducible apply State.raise_kept | with_reducible apply State.setSuspect_kept | with_reducible apply State.poolWarn_kept | simp only [kept_mk] | with_reducible apply kept_parts | with_reducible intro _ | dsimp only | split)

theorem State.startSpare_kept {pq : List Instr} {s : State} (h : s.Kept pq) (logical : Nat) (word : Option (Nat × DWord)) (of : Job) : (s.startSpare logical word of).Kept pq := by
  unfold State.startSpare
  repeat' (first | with_reducible assumption | with_reducible apply State.enqueueFront_kept | with_reducible apply State.flashFail_kept | with_reducible apply State.setSuspect_kept | with_reducible apply State.putGrown_kept | with_reducible apply State.raise_kept | with_reducible apply State.wiped_kept | with_reducible apply State.failJob_kept | simp only [kept_mk] | with_reducible apply kept_parts | with_reducible intro _ | dsimp only | split)

theorem State.copyReads_kept {pq : List Instr} {s : State} (h : s.Kept pq) (dead : Bool) (x0 : List Nat) : (s.copyReads dead x0).1.Kept pq := by
  induction x0 generalizing s with
  | nil => exact h
  | cons a l ih =>
    unfold State.copyReads
    repeat' (first | with_reducible assumption | with_reducible apply ih | with_reducible apply State.flashDecode_kept | simp only [kept_mk] | with_reducible apply kept_parts | with_reducible intro _ | dsimp only | split)

theorem State.startCopy_kept {pq : List Instr} {s : State} (h : s.Kept pq) (j : Job) : (s.startCopy j).Kept pq := by
  unfold State.startCopy
  repeat' (first | with_reducible assumption | with_reducible apply State.copyReads_kept | simp only [kept_mk] | with_reducible apply kept_parts | with_reducible intro _ | dsimp only | split)

theorem State.readBack_kept {pq : List Instr} {s : State} (h : s.Kept pq) (keeper : Bool) (t : Nat) (slot : Nat) (gen : Nat) : (s.readBack keeper t slot gen).1.Kept pq := by
  unfold State.readBack
  repeat' (first | with_reducible assumption | with_reducible apply State.readRecord_kept | simp only [kept_mk] | with_reducible apply kept_parts | with_reducible intro _ | dsimp only | split)

theorem State.cmdDone_kept {pq : List Instr} {s : State} (h : s.Kept pq) (id : Nat) (slot : Nat) (gen : Nat) : (s.cmdDone id slot gen).Kept pq := by
  unfold State.cmdDone
  repeat' (first | with_reducible assumption | with_reducible apply State.readBack_kept | with_reducible apply State.finish_kept | simp only [kept_mk] | with_reducible apply kept_parts | with_reducible intro _ | dsimp only | split)

theorem State.sealDone_kept {pq : List Instr} {s : State} (h : s.Kept pq) (t : Nat) (slot : Nat) (key : Option (BitVec 256)) : (s.sealDone t slot key).Kept pq := by
  unfold State.sealDone
  repeat' (first | with_reducible assumption | simp only [kept_mk] | with_reducible apply kept_parts | with_reducible intro _ | dsimp only | split)

theorem State.jobDone_kept {pq : List Instr} {s : State} (h : s.Kept pq) (slot : Nat) (gen : Nat) (j : Job) : (s.jobDone slot gen j).Kept pq := by
  unfold State.jobDone
  repeat' (first | with_reducible assumption | with_reducible apply State.cmdDone_kept | with_reducible apply State.compact_kept | with_reducible apply State.sealDone_kept | with_reducible apply State.spareDone_kept | with_reducible apply State.wiped_kept | simp only [kept_mk] | with_reducible apply kept_parts | with_reducible intro _ | dsimp only | split)

theorem State.pump_kept {pq : List Instr} {s : State} (h : s.Kept pq) (x0 : Nat) : (State.pump x0 s).Kept pq := by
  induction x0 generalizing s with
  | zero => exact h
  | succ n ih =>
    unfold State.pump
    repeat' (first | with_reducible assumption | with_reducible apply ih | with_reducible apply State.jobDone_kept | with_reducible apply State.startCopy_kept | simp only [kept_mk] | with_reducible apply kept_parts | with_reducible intro _ | dsimp only | split)

theorem State.progStart_kept {pq : List Instr} {s : State} (h : s.Kept pq) (o : FlashOp) : (s.progStart o).Kept pq := by
  unfold State.progStart
  repeat' (first | with_reducible assumption | with_reducible apply State.drawn_kept | simp only [kept_mk] | with_reducible apply kept_parts | with_reducible intro _ | dsimp only | split)

theorem State.suspTime_kept {pq : List Instr} {s : State} (h : s.Kept pq) (most : Nat) : (s.suspTime most).Kept pq := by
  unfold State.suspTime
  repeat' (first | with_reducible assumption | with_reducible apply State.drawn_kept | simp only [kept_mk] | with_reducible apply kept_parts | with_reducible intro _ | dsimp only | split)

theorem State.pulseOff_kept {pq : List Instr} {s : State} (h : s.Kept pq) : s.pulseOff.Kept pq := by
  unfold State.pulseOff
  repeat' (first | with_reducible assumption | simp only [kept_mk] | with_reducible apply kept_parts | with_reducible intro _ | dsimp only | split)

theorem State.progRest_kept {pq : List Instr} {s : State} (h : s.Kept pq) : s.progRest.Kept pq := by
  unfold State.progRest
  repeat' (first | with_reducible assumption | with_reducible apply State.suspTime_kept | simp only [kept_mk] | with_reducible apply kept_parts | with_reducible intro _ | dsimp only | split)

theorem State.retireSpare_kept {pq : List Instr} {s : State} (h : s.Kept pq) (k : Nat) (logical : Nat) (word : Option (Nat × DWord)) (of : Job) (j : Job) : (s.retireSpare k logical word of j).Kept pq := by
  unfold State.retireSpare
  repeat' (first | with_reducible assumption | with_reducible apply State.putGrown_kept | with_reducible apply State.setRemap_kept | with_reducible apply State.poolWarn_kept | with_reducible apply State.startSpare_kept | simp only [kept_mk] | with_reducible apply kept_parts | with_reducible intro _ | dsimp only | split)

theorem State.progLimit_kept {pq : List Instr} {s : State} (h : s.Kept pq) (w : Nat) (d : DWord) (j : Job) : (s.progLimit w d j).Kept pq := by
  unfold State.progLimit
  repeat' (first | with_reducible assumption | with_reducible apply State.ledgerFail_kept | with_reducible apply State.failJob_kept | with_reducible apply State.flashFail_kept | with_reducible apply State.retireSpare_kept | with_reducible apply State.startSpare_kept | simp only [kept_mk] | with_reducible apply kept_parts | with_reducible intro _ | dsimp only | split)

theorem State.progOver_kept {pq : List Instr} {s : State} (h : s.Kept pq) (w : Nat) (d : DWord) (j : Job) : (s.progOver w d j).Kept pq := by
  unfold State.progOver
  repeat' (first | with_reducible assumption | with_reducible apply State.drawn_kept | with_reducible apply State.setFword_kept | with_reducible apply State.flashFail_kept | with_reducible apply State.raise_kept | with_reducible apply State.failJob_kept | simp only [kept_mk] | with_reducible apply kept_parts | with_reducible intro _ | dsimp only | split)

theorem State.progEnd_kept {pq : List Instr} {s : State} (h : s.Kept pq) (pulses : Nat) (pass : Bool) : (s.progEnd pulses pass).Kept pq := by
  unfold State.progEnd
  repeat' (first | with_reducible assumption | with_reducible apply State.progRest_kept | with_reducible apply State.progOver_kept | with_reducible apply State.setFword_kept | with_reducible apply State.progLimit_kept | with_reducible apply State.pump_kept | simp only [kept_mk] | with_reducible apply kept_parts | with_reducible intro _ | dsimp only | split)

theorem State.flashAdmitNext_kept {pq : List Instr} {s : State} (h : s.Kept pq) : s.flashAdmitNext.Kept pq := by
  unfold State.flashAdmitNext
  repeat' (first | with_reducible assumption | with_reducible apply foldl_kept | simp only [kept_mk] | with_reducible apply kept_parts | with_reducible intro _ | dsimp only | split)

theorem State.flashSlot_kept {pq : List Instr} {s : State} (h : s.Kept pq) : s.flashSlot.Kept pq := by
  unfold State.flashSlot
  repeat' (first | with_reducible assumption | with_reducible apply State.flashAdmitNext_kept | with_reducible apply State.putJournal_kept | simp only [kept_mk] | with_reducible apply kept_parts | with_reducible intro _ | dsimp only | split)

theorem State.eraseSector_kept {pq : List Instr} {s : State} (h : s.Kept pq) (p : Nat) : (s.eraseSector p).Kept pq := by
  unfold State.eraseSector
  repeat' (first | with_reducible assumption | simp only [kept_mk] | with_reducible apply kept_parts | with_reducible intro _ | dsimp only | split)

theorem State.ringAdvance_kept {pq : List Instr} {s : State} (h : s.Kept pq) : s.ringAdvance.Kept pq := by
  unfold State.ringAdvance
  repeat' (first | with_reducible assumption | with_reducible apply State.enqueueFront_kept | simp only [kept_mk] | with_reducible apply kept_parts | with_reducible intro _ | dsimp only | split)

theorem State.sealedErased_kept {pq : List Instr} {s : State} (h : s.Kept pq) (sect : Nat) (j : Job) : (s.sealedErased sect j).Kept pq := by
  unfold State.sealedErased
  repeat' (first | with_reducible assumption | simp only [kept_mk] | with_reducible apply kept_parts | with_reducible intro _ | dsimp only | split)

theorem State.eraseDone_kept {pq : List Instr} {s : State} (h : s.Kept pq) (e : EraseRun) : (s.eraseDone e).Kept pq := by
  unfold State.eraseDone
  repeat' (first | with_reducible assumption | with_reducible apply State.eraseSector_kept | with_reducible apply State.sealedErased_kept | with_reducible apply State.putJournal_kept | with_reducible apply State.setSuspect_kept | with_reducible apply State.putGrown_kept | with_reducible apply State.wiped_kept | with_reducible apply State.ringAdvance_kept | with_reducible apply State.pump_kept | simp only [kept_mk] | with_reducible apply kept_parts | with_reducible intro _ | dsimp only | split)

theorem State.eraseLimit_kept {pq : List Instr} {s : State} (h : s.Kept pq) (e : EraseRun) : (s.eraseLimit e).Kept pq := by
  unfold State.eraseLimit
  repeat' (first | with_reducible assumption | with_reducible apply State.flashFail_kept | with_reducible apply State.putJournal_kept | with_reducible apply State.ledgerFail_kept | with_reducible apply State.failJob_kept | with_reducible apply State.ringAdvance_kept | with_reducible apply State.retireSpare_kept | with_reducible apply State.startSpare_kept | simp only [kept_mk] | with_reducible apply kept_parts | with_reducible intro _ | dsimp only | split)

theorem State.pulseEnd_kept {pq : List Instr} {s : State} (h : s.Kept pq) (pass : Bool) : (s.pulseEnd pass).Kept pq := by
  unfold State.pulseEnd
  repeat' (first | with_reducible assumption | with_reducible apply State.eraseDone_kept | with_reducible apply State.eraseLimit_kept | with_reducible apply State.pump_kept | with_reducible apply State.pulseOff_kept | simp only [kept_mk] | with_reducible apply kept_parts | with_reducible intro _ | dsimp only | split)

theorem State.pulseOn_kept {pq : List Instr} {s : State} (h : s.Kept pq) : s.pulseOn.Kept pq := by
  unfold State.pulseOn
  repeat' (first | with_reducible assumption | with_reducible apply State.pulseEnd_kept | simp only [kept_mk] | with_reducible apply kept_parts | with_reducible intro _ | dsimp only | split)

theorem State.suspend_kept {pq : List Instr} {s : State} (h : s.Kept pq) : s.suspend.Kept pq := by
  unfold State.suspend
  repeat' (first | with_reducible assumption | simp only [kept_mk] | with_reducible apply kept_parts | with_reducible intro _ | dsimp only | split)

theorem State.resumePulse_kept {pq : List Instr} {s : State} (h : s.Kept pq) : s.resumePulse.Kept pq := by
  unfold State.resumePulse
  repeat' (first | with_reducible assumption | with_reducible apply State.suspTime_kept | with_reducible apply State.pulseOn_kept | simp only [kept_mk] | with_reducible apply kept_parts | with_reducible intro _ | dsimp only | split)

theorem State.seqCommand_kept {pq : List Instr} {s : State} (h : s.Kept pq) (j : Job) (c : Nat × Nat × DWord) : (s.seqCommand j c).Kept pq := by
  unfold State.seqCommand
  repeat' (first | with_reducible assumption | with_reducible apply State.enqueueNew_kept | with_reducible apply State.suspend_kept | with_reducible apply State.resumePulse_kept | simp only [kept_mk] | with_reducible apply kept_parts | with_reducible intro _ | dsimp only | split)

end Sys2Proof.Machine
end

