-- ==== Sys2Proof/Laws/KeptAdc.lean ====
section
/-! SUPPORT. Every operation of Machine/Adc.lean keeps a state safe and its queue as it is. -/

namespace Sys2Proof.Machine

set_option linter.unreachableTactic false
set_option linter.unusedTactic false
set_option linter.unusedVariables false
set_option linter.unusedSimpArgs false

theorem State.setLaneOf_kept {pq : List Instr} {s : State} (h : s.Kept pq) (l : Nat) (v : Nat) : (s.setLaneOf l v).Kept pq := by
  unfold State.setLaneOf
  repeat' (first | with_reducible assumption | simp only [kept_mk] | with_reducible apply kept_parts | with_reducible intro _ | dsimp only | split)

theorem State.refill_kept {pq : List Instr} {s : State} (h : s.Kept pq) : s.refill.Kept pq := by
  unfold State.refill
  repeat' (first | with_reducible assumption | with_reducible apply State.each_kept | with_reducible apply State.setLaneOf_kept | simp only [kept_mk] | with_reducible apply kept_parts | with_reducible intro _ | dsimp only | split)

theorem State.retire_kept {pq : List Instr} {s : State} (h : s.Kept pq) (slice : Nat) (kind : Nat) : (s.retire slice kind).Kept pq := by
  unfold State.retire
  repeat' (first | with_reducible assumption | with_reducible apply State.refill_kept | with_reducible apply State.raise_kept | simp only [kept_mk] | with_reducible apply kept_parts | with_reducible intro _ | dsimp only | split)

theorem State.updSeq_kept {pq : List Instr} {s : State} (h : s.Kept pq) (b : Bool) (f : SeqRun → SeqRun) : (s.updSeq b f).Kept pq := by
  unfold State.updSeq
  repeat' (first | with_reducible assumption | simp only [kept_mk] | with_reducible apply kept_parts | with_reducible intro _ | dsimp only | split)

theorem State.setInj_kept {pq : List Instr} {s : State} (h : s.Kept pq) (b : Bool) (i : Option Inj) : (s.setInj b i).Kept pq := by
  unfold State.setInj
  repeat' (first | with_reducible assumption | simp only [kept_mk] | with_reducible apply kept_parts | with_reducible intro _ | dsimp only | split)

theorem State.ev237_kept {pq : List Instr} {s : State} (h : s.Kept pq) (b : Bool) (kind : Nat) : (s.ev237 b kind).Kept pq := by
  unfold State.ev237
  repeat' (first | with_reducible assumption | with_reducible apply State.raise_kept | simp only [kept_mk] | with_reducible apply kept_parts | with_reducible intro _ | dsimp only | split)

theorem State.seqSkip_kept {pq : List Instr} {s : State} (h : s.Kept pq) (b : Bool) (kind : Nat) : (s.seqSkip b kind).Kept pq := by
  unfold State.seqSkip
  repeat' (first | with_reducible assumption | with_reducible apply State.ev237_kept | simp only [kept_mk] | with_reducible apply kept_parts | with_reducible intro _ | dsimp only | split)

theorem State.seqEnd_kept {pq : List Instr} {s : State} (h : s.Kept pq) (b : Bool) : (s.seqEnd b).Kept pq := by
  unfold State.seqEnd
  repeat' (first | with_reducible assumption | with_reducible apply State.raise_kept | simp only [kept_mk] | with_reducible apply kept_parts | with_reducible intro _ | dsimp only | split)

theorem State.fits_kept {pq : List Instr} {s : State} (h : s.Kept pq) (t : Instant) (cycles : Nat) : (s.fits t cycles).1.Kept pq := by
  unfold State.fits
  repeat' (first | with_reducible assumption | with_reducible apply State.drawn_kept | simp only [kept_mk] | with_reducible apply kept_parts | with_reducible intro _ | dsimp only | split)

theorem State.injStart_kept {pq : List Instr} {s : State} (h : s.Kept pq) (b : Bool) (t : Instant) (i : Inj) : (s.injStart b t i).Kept pq := by
  unfold State.injStart
  repeat' (first | with_reducible assumption | with_reducible apply State.setInj_kept | with_reducible apply State.updSeq_kept | simp only [kept_mk] | with_reducible apply kept_parts | with_reducible intro _ | dsimp only | split)

theorem State.injGo_kept {pq : List Instr} {s : State} (h : s.Kept pq) (b : Bool) (t : Instant) : (s.injGo b t).Kept pq := by
  unfold State.injGo
  repeat' (first | with_reducible assumption | with_reducible apply State.fits_kept | with_reducible apply State.injStart_kept | simp only [kept_mk] | with_reducible apply kept_parts | with_reducible intro _ | dsimp only | split)

theorem State.seqGo_kept {pq : List Instr} {s : State} (h : s.Kept pq) (b : Bool) (t : Instant) : (s.seqGo b t).Kept pq := by
  unfold State.seqGo
  repeat' (first | with_reducible assumption | with_reducible apply State.updSeq_kept | with_reducible apply State.seqEnd_kept | with_reducible apply State.fits_kept | simp only [kept_mk] | with_reducible apply kept_parts | with_reducible intro _ | dsimp only | split)

theorem State.pairGo_kept {pq : List Instr} {s : State} (h : s.Kept pq) (b : Bool) (t : Instant) : (s.pairGo b t).Kept pq := by
  unfold State.pairGo
  repeat' (first | with_reducible assumption | with_reducible apply State.injGo_kept | with_reducible apply State.seqGo_kept | simp only [kept_mk] | with_reducible apply kept_parts | with_reducible intro _ | dsimp only | split)

theorem State.pairsGo_kept {pq : List Instr} {s : State} (h : s.Kept pq) : s.pairsGo.Kept pq := by
  unfold State.pairsGo
  repeat' (first | with_reducible assumption | with_reducible apply State.pairGo_kept | simp only [kept_mk] | with_reducible apply kept_parts | with_reducible intro _ | dsimp only | split)

theorem State.seqStart_kept {pq : List Instr} {s : State} (h : s.Kept pq) (b : Bool) (t : Instant) : (s.seqStart b t).Kept pq := by
  unfold State.seqStart
  repeat' (first | with_reducible assumption | with_reducible apply State.updSeq_kept | with_reducible apply State.seqEnd_kept | with_reducible apply State.pairGo_kept | simp only [kept_mk] | with_reducible apply kept_parts | with_reducible intro _ | dsimp only | split)

theorem State.seqDue_kept {pq : List Instr} {s : State} (h : s.Kept pq) (b : Bool) (t : Instant) : (s.seqDue b t).Kept pq := by
  unfold State.seqDue
  repeat' (first | with_reducible assumption | with_reducible apply State.seqSkip_kept | with_reducible apply State.seqStart_kept | simp only [kept_mk] | with_reducible apply kept_parts | with_reducible intro _ | dsimp only | split)

theorem State.adcSlotSeq_kept {pq : List Instr} {s : State} (h : s.Kept pq) (b : Bool) : (s.adcSlotSeq b).Kept pq := by
  unfold State.adcSlotSeq
  repeat' (first | with_reducible assumption | with_reducible apply State.updSeq_kept | with_reducible apply State.pairGo_kept | with_reducible apply State.hold_kept | with_reducible apply State.seqDue_kept | simp only [kept_mk] | with_reducible apply kept_parts | with_reducible intro _ | dsimp only | split)

theorem State.adcSlot_kept {pq : List Instr} {s : State} (h : s.Kept pq) : s.adcSlot.Kept pq := by
  unfold State.adcSlot
  repeat' (first | with_reducible assumption | with_reducible apply State.adcSlotSeq_kept | simp only [kept_mk] | with_reducible apply kept_parts | with_reducible intro _ | dsimp only | split)

theorem State.adcGuardSeq_kept {pq : List Instr} {s : State} (h : s.Kept pq) (b : Bool) : (s.adcGuardSeq b).Kept pq := by
  unfold State.adcGuardSeq
  repeat' (first | with_reducible assumption | with_reducible apply State.updSeq_kept | with_reducible apply State.ev237_kept | simp only [kept_mk] | with_reducible apply kept_parts | with_reducible intro _ | dsimp only | split)

theorem State.adcGuard_kept {pq : List Instr} {s : State} (h : s.Kept pq) : s.adcGuard.Kept pq := by
  unfold State.adcGuard
  repeat' (first | with_reducible assumption | with_reducible apply State.adcGuardSeq_kept | simp only [kept_mk] | with_reducible apply kept_parts | with_reducible intro _ | dsimp only | split)

theorem State.adcSlot0_kept {pq : List Instr} {s : State} (h : s.Kept pq) : s.adcSlot0.Kept pq := by
  unfold State.adcSlot0
  repeat' (first | with_reducible assumption | with_reducible apply State.pairGo_kept | simp only [kept_mk] | with_reducible apply kept_parts | with_reducible intro _ | dsimp only | split)

theorem State.injAbort_kept {pq : List Instr} {s : State} (h : s.Kept pq) (b : Bool) (i : Inj) : (s.injAbort b i).Kept pq := by
  unfold State.injAbort
  repeat' (first | with_reducible assumption | with_reducible apply State.injGo_kept | with_reducible apply State.updSeq_kept | simp only [kept_mk] | with_reducible apply kept_parts | with_reducible intro _ | dsimp only | split)

theorem State.injectGo_kept {pq : List Instr} {s : State} (h : s.Kept pq) (n : Nat) (v : Word) : (s.injectGo n v).1.Kept pq := by
  unfold State.injectGo
  repeat' (first | with_reducible assumption | with_reducible apply State.updChan_kept | with_reducible apply State.injAbort_kept | with_reducible apply State.pairGo_kept | simp only [kept_mk] | with_reducible apply kept_parts | with_reducible intro _ | dsimp only | split)

theorem State.compare_kept {pq : List Instr} {s : State} (h : s.Kept pq) (n : Nat) (w : Word) : (s.compare n w).Kept pq := by
  unfold State.compare
  repeat' (first | with_reducible assumption | with_reducible apply State.updChan_kept | with_reducible apply State.raise_kept | simp only [kept_mk] | with_reducible apply kept_parts | with_reducible intro _ | dsimp only | split)

theorem State.result_kept {pq : List Instr} {s : State} (h : s.Kept pq) (n : Nat) (w : Word) : (s.result n w).Kept pq := by
  unfold State.result
  repeat' (first | with_reducible assumption | with_reducible apply State.updChan_kept | with_reducible apply State.compare_kept | with_reducible apply State.raise_kept | simp only [kept_mk] | with_reducible apply kept_parts | with_reducible intro _ | dsimp only | split)

theorem State.seqConvEnd_kept {pq : List Instr} {s : State} (h : s.Kept pq) (b : Bool) (c : Conv) (samples : List PairSample) : (s.seqConvEnd b c samples).Kept pq := by
  unfold State.seqConvEnd
  repeat' (first | with_reducible assumption | with_reducible apply State.updSeq_kept | with_reducible apply State.result_kept | with_reducible apply State.seqEnd_kept | with_reducible apply State.pairGo_kept | simp only [kept_mk] | with_reducible apply kept_parts | with_reducible intro _ | dsimp only | split)

theorem State.injConvEnd_kept {pq : List Instr} {s : State} (h : s.Kept pq) (b : Bool) (i : Inj) (samples : List PairSample) : (s.injConvEnd b i samples).Kept pq := by
  unfold State.injConvEnd
  repeat' (first | with_reducible assumption | with_reducible apply State.setInj_kept | with_reducible apply State.updChan_kept | with_reducible apply State.result_kept | with_reducible apply State.raise_kept | with_reducible apply State.pairGo_kept | simp only [kept_mk] | with_reducible apply kept_parts | with_reducible intro _ | dsimp only | split)

theorem State.refWaited_kept {pq : List Instr} {s : State} (h : s.Kept pq) : s.refWaited.Kept pq := by
  unfold State.refWaited
  repeat' (first | with_reducible assumption | simp only [kept_mk] | with_reducible apply kept_parts | with_reducible intro _ | dsimp only | split)

theorem State.convEnd_kept {pq : List Instr} {s : State} (h : s.Kept pq) (b : Bool) (samples : List PairSample) : (s.convEnd b samples).Kept pq := by
  unfold State.convEnd
  repeat' (first | with_reducible assumption | with_reducible apply State.injConvEnd_kept | with_reducible apply State.refWaited_kept | with_reducible apply State.seqConvEnd_kept | simp only [kept_mk] | with_reducible apply kept_parts | with_reducible intro _ | dsimp only | split)

theorem State.loosen_kept {pq : List Instr} {s : State} (h : s.Kept pq) : s.loosen.Kept pq := by
  unfold State.loosen
  repeat' (first | with_reducible assumption | simp only [kept_mk] | with_reducible apply kept_parts | with_reducible intro _ | dsimp only | split)

theorem State.refSelect_kept {pq : List Instr} {s : State} (h : s.Kept pq) (v : Word) : (s.refSelect v).1.Kept pq := by
  unfold State.refSelect
  repeat' (first | with_reducible assumption | with_reducible apply State.loosen_kept | simp only [kept_mk] | with_reducible apply kept_parts | with_reducible intro _ | dsimp only | split)

theorem State.refReady_kept {pq : List Instr} {s : State} (h : s.Kept pq) : s.refReady.Kept pq := by
  unfold State.refReady
  repeat' (first | with_reducible assumption | with_reducible apply State.raise_kept | with_reducible apply State.pairsGo_kept | simp only [kept_mk] | with_reducible apply kept_parts | with_reducible intro _ | dsimp only | split)

theorem State.calPassGo_kept {pq : List Instr} {s : State} (h : s.Kept pq) (from_ : Nat) : (s.calPassGo from_).Kept pq := by
  unfold State.calPassGo
  repeat' (first | with_reducible assumption | with_reducible apply State.refReady_kept | simp only [kept_mk] | with_reducible apply kept_parts | with_reducible intro _ | dsimp only | split)

theorem State.refSettled_kept {pq : List Instr} {s : State} (h : s.Kept pq) (mv : Nat) : (s.refSettled mv).Kept pq := by
  unfold State.refSettled
  repeat' (first | with_reducible assumption | with_reducible apply State.raise_kept | with_reducible apply State.calPassGo_kept | with_reducible apply State.refReady_kept | simp only [kept_mk] | with_reducible apply kept_parts | with_reducible intro _ | dsimp only | split)

theorem State.calibrate_kept {pq : List Instr} {s : State} (h : s.Kept pq) : s.calibrate.Kept pq := by
  unfold State.calibrate
  repeat' (first | with_reducible assumption | with_reducible apply foldl_kept | simp only [kept_mk] | with_reducible apply kept_parts | with_reducible intro _ | dsimp only | split)

theorem State.calibrated_kept {pq : List Instr} {s : State} (h : s.Kept pq) (i : Nat) (offset : Int) (gainErr : Int) : (s.calibrated i offset gainErr).Kept pq := by
  unfold State.calibrated
  repeat' (first | with_reducible assumption | with_reducible apply State.retire_kept | simp only [kept_mk] | with_reducible apply kept_parts | with_reducible intro _ | dsimp only | split)

theorem State.spareSwap_kept {pq : List Instr} {s : State} (h : s.Kept pq) (offset : Int) (gainErr : Int) : (s.spareSwap offset gainErr).Kept pq := by
  unfold State.spareSwap
  repeat' (first | with_reducible assumption | with_reducible apply State.calibrated_kept | with_reducible apply State.setLaneOf_kept | simp only [kept_mk] | with_reducible apply kept_parts | with_reducible intro _ | dsimp only | split)

theorem State.sliceSwap_kept {pq : List Instr} {s : State} (h : s.Kept pq) (offset : Int) (gainErr : Int) : (s.sliceSwap offset gainErr).Kept pq := by
  unfold State.sliceSwap
  repeat' (first | with_reducible assumption | with_reducible apply State.calibrated_kept | with_reducible apply State.calPassGo_kept | with_reducible apply State.spareSwap_kept | simp only [kept_mk] | with_reducible apply kept_parts | with_reducible intro _ | dsimp only | split)

theorem State.adcRestore_kept {pq : List Instr} {s : State} (h : s.Kept pq) : s.adcRestore.Kept pq := by
  unfold State.adcRestore
  repeat' (first | with_reducible assumption | simp only [kept_mk] | with_reducible apply kept_parts | with_reducible intro _ | dsimp only | split)

theorem State.chanOwner_kept {pq : List Instr} {s : State} (h : s.Kept pq) (n : Nat) : (s.chanOwner n).Kept pq := by
  unfold State.chanOwner
  repeat' (first | with_reducible assumption | with_reducible apply State.setReg_kept | with_reducible apply State.each_kept | with_reducible apply State.resetRegs_kept | with_reducible apply State.updChan_kept | simp only [kept_mk] | with_reducible apply kept_parts | with_reducible intro _ | dsimp only | split)

end Sys2Proof.Machine
end

