-- ==== Sys2Proof/Laws/KeptKeys.lean ====
section
/-! SUPPORT. Every operation of Machine/Keys.lean keeps a state safe and its queue as it is. -/

namespace Sys2Proof.Machine

set_option linter.unreachableTactic false
set_option linter.unusedTactic false
set_option linter.unusedVariables false
set_option linter.unusedSimpArgs false

theorem State.keyRaise_kept {pq : List Instr} {s : State} (h : s.Kept pq) (e : KeyEv) : (s.keyRaise e).Kept pq := by
  unfold State.keyRaise
  repeat' (first | with_reducible assumption | with_reducible apply State.raise_kept | simp only [kept_mk] | with_reducible apply kept_parts | with_reducible intro _ | dsimp only | split)

theorem State.keyEvals_kept {pq : List Instr} {s : State} (h : s.Kept pq) (kp : Bool) : (s.keyEvals kp).Kept pq := by
  unfold State.keyEvals
  repeat' (first | with_reducible assumption | with_reducible apply State.updKey_kept | with_reducible apply State.keyRaise_kept | with_reducible apply foldl_kept | simp only [kept_mk] | with_reducible apply kept_parts | with_reducible intro _ | dsimp only | split)

theorem State.keyMatrix_kept {pq : List Instr} {s : State} (h : s.Kept pq) (kp : Bool) : (s.keyMatrix kp).Kept pq := by
  unfold State.keyMatrix
  repeat' (first | with_reducible assumption | with_reducible apply State.keyEvals_kept | simp only [kept_mk] | with_reducible apply kept_parts | with_reducible intro _ | dsimp only | split)

theorem State.keyColumn_kept {pq : List Instr} {s : State} (h : s.Kept pq) (kp : Bool) (c : Nat) (rows : BitVec 16) : (s.keyColumn kp c rows).Kept pq := by
  unfold State.keyColumn
  repeat' (first | with_reducible assumption | with_reducible apply State.keyMatrix_kept | simp only [kept_mk] | with_reducible apply kept_parts | with_reducible intro _ | dsimp only | split)

theorem State.shelfRow_kept {pq : List Instr} {s : State} (h : s.Kept pq) : s.shelfRow.Kept pq := by
  unfold State.shelfRow
  repeat' (first | with_reducible assumption | simp only [kept_mk] | with_reducible apply kept_parts | with_reducible intro _ | dsimp only | split)

theorem State.keyStuck_kept {pq : List Instr} {s : State} (h : s.Kept pq) (k : Nat) (more : Nat) : (s.keyStuck k more).Kept pq := by
  unfold State.keyStuck
  repeat' (first | with_reducible assumption | with_reducible apply State.updKey_kept | with_reducible apply State.keyRaise_kept | with_reducible apply State.raise_kept | simp only [kept_mk] | with_reducible apply kept_parts | with_reducible intro _ | dsimp only | split)

theorem State.keyCfgWrite_kept {pq : List Instr} {s : State} (h : s.Kept pq) (k : Nat) (v : Word) (be : BitVec 4) : (s.keyCfgWrite k v be).1.Kept pq := by
  unfold State.keyCfgWrite
  repeat' (first | with_reducible assumption | with_reducible apply State.writeReg_kept | with_reducible apply State.keyRaise_kept | with_reducible apply State.updKey_kept | with_reducible apply foldl_kept | simp only [kept_mk] | with_reducible apply kept_parts | with_reducible intro _ | dsimp only | split)

theorem State.keyOwner_kept {pq : List Instr} {s : State} (h : s.Kept pq) (k : Nat) (keep : Bool) : (s.keyOwner k keep).Kept pq := by
  unfold State.keyOwner
  repeat' (first | with_reducible assumption | with_reducible apply State.resetRegs_kept | with_reducible apply State.updKey_kept | simp only [kept_mk] | with_reducible apply kept_parts | with_reducible intro _ | dsimp only | split)

end Sys2Proof.Machine
end

