-- ==== Sys2Proof/Laws/KeptDisplay.lean ====
section
/-! SUPPORT. Every operation of Machine/Display.lean keeps a state safe and its queue as it is. -/

namespace Sys2Proof.Machine

set_option linter.unreachableTactic false
set_option linter.unusedTactic false
set_option linter.unusedVariables false
set_option linter.unusedSimpArgs false

theorem State.unarm_kept {pq : List Instr} {s : State} (h : s.Kept pq) (c : Nat) : (s.unarm c).Kept pq := by
  unfold State.unarm
  repeat' (first | with_reducible assumption | with_reducible apply State.updCell_kept | simp only [kept_mk] | with_reducible apply kept_parts | with_reducible intro _ | dsimp only | split)

theorem State.ev97_kept {pq : List Instr} {s : State} (h : s.Kept pq) (c : Nat) (kind : Nat) : (s.ev97 c kind).Kept pq := by
  unfold State.ev97
  repeat' (first | with_reducible assumption | with_reducible apply State.raise_kept | simp only [kept_mk] | with_reducible apply kept_parts | with_reducible intro _ | dsimp only | split)

theorem State.endArms_kept {pq : List Instr} {s : State} (h : s.Kept pq) (kind : Nat) (cells : List Nat) : (s.endArms kind cells).Kept pq := by
  unfold State.endArms
  repeat' (first | with_reducible assumption | with_reducible apply State.each_kept | with_reducible apply State.unarm_kept | with_reducible apply State.ev97_kept | simp only [kept_mk] | with_reducible apply kept_parts | with_reducible intro _ | dsimp only | split)

theorem State.skipArms_kept {pq : List Instr} {s : State} (h : s.Kept pq) (old : Nat) (new : Nat) : (s.skipArms old new).Kept pq := by
  unfold State.skipArms
  repeat' (first | with_reducible assumption | with_reducible apply State.endArms_kept | simp only [kept_mk] | with_reducible apply kept_parts | with_reducible intro _ | dsimp only | split)

theorem State.cellWritten_kept {pq : List Instr} {s : State} (h : s.Kept pq) (a : Nat) : (s.cellWritten a).Kept pq := by
  unfold State.cellWritten
  repeat' (first | with_reducible assumption | with_reducible apply State.updCell_kept | simp only [kept_mk] | with_reducible apply kept_parts | with_reducible intro _ | dsimp only | split)

theorem State.verifyCell_kept {pq : List Instr} {s : State} (h : s.Kept pq) (c : Nat) : (s.verifyCell c).1.Kept pq := by
  unfold State.verifyCell
  repeat' (first | with_reducible assumption | with_reducible apply State.sramRead_kept | with_reducible apply State.eccRead_kept | simp only [kept_mk] | with_reducible apply kept_parts | with_reducible intro _ | dsimp only | split)

theorem State.verifyArmed_kept {pq : List Instr} {s : State} (h : s.Kept pq) : s.verifyArmed.Kept pq := by
  unfold State.verifyArmed
  repeat' (first | with_reducible assumption | with_reducible apply State.each_kept | with_reducible apply State.verifyCell_kept | with_reducible apply State.updCell_kept | simp only [kept_mk] | with_reducible apply kept_parts | with_reducible intro _ | dsimp only | split)

theorem State.flipCell_kept {pq : List Instr} {s : State} (h : s.Kept pq) (c : Nat) : (s.flipCell c).Kept pq := by
  unfold State.flipCell
  repeat' (first | with_reducible assumption | with_reducible apply State.verifyCell_kept | with_reducible apply State.updCell_kept | simp only [kept_mk] | with_reducible apply kept_parts | with_reducible intro _ | dsimp only | split)

theorem State.frontBad_kept {pq : List Instr} {s : State} (h : s.Kept pq) (c : Nat) : (s.frontBad c).Kept pq := by
  unfold State.frontBad
  repeat' (first | with_reducible assumption | with_reducible apply State.updCell_kept | with_reducible apply State.ev97_kept | simp only [kept_mk] | with_reducible apply kept_parts | with_reducible intro _ | dsimp only | split)

theorem State.copyWord_kept {pq : List Instr} {s : State} (h : s.Kept pq) (c : Nat) (i : Nat) : (s.copyWord c i).Kept pq := by
  unfold State.copyWord
  repeat' (first | with_reducible assumption | with_reducible apply State.eccRead_kept | with_reducible apply State.setEcc_kept | with_reducible apply State.frontBad_kept | with_reducible apply State.wrWhole_kept | simp only [kept_mk] | with_reducible apply kept_parts | with_reducible intro _ | dsimp only | split)

theorem State.copyForward_kept {pq : List Instr} {s : State} (h : s.Kept pq) (c : Nat) : (s.copyForward c).Kept pq := by
  unfold State.copyForward
  repeat' (first | with_reducible assumption | with_reducible apply State.each_kept | with_reducible apply State.copyWord_kept | with_reducible apply State.eccRead_kept | with_reducible apply State.setChk_kept | with_reducible apply State.setEcc_kept | simp only [kept_mk] | with_reducible apply kept_parts | with_reducible intro _ | dsimp only | split)

theorem State.ev96_kept {pq : List Instr} {s : State} (h : s.Kept pq) (p : Nat) (flipped : List Nat) (dark : List Nat) (o : Nat) : (s.ev96 p flipped dark o).Kept pq := by
  unfold State.ev96
  repeat' (first | with_reducible assumption | with_reducible apply State.raise_kept | simp only [kept_mk] | with_reducible apply kept_parts | with_reducible intro _ | dsimp only | split)

theorem State.flip_kept {pq : List Instr} {s : State} (h : s.Kept pq) : s.flip.1.Kept pq := by
  unfold State.flip
  repeat' (first | with_reducible assumption | with_reducible apply State.each_kept | with_reducible apply State.flipCell_kept | with_reducible apply State.endArms_kept | with_reducible apply State.raise_kept | with_reducible apply State.ev96_kept | simp only [kept_mk] | with_reducible apply kept_parts | with_reducible intro _ | dsimp only | split)

theorem State.scanFront_kept {pq : List Instr} {s : State} (h : s.Kept pq) : s.scanFront.Kept pq := by
  unfold State.scanFront
  repeat' (first | with_reducible assumption | with_reducible apply State.each_kept | with_reducible apply State.eccRead_kept | with_reducible apply State.frontBad_kept | simp only [kept_mk] | with_reducible apply kept_parts | with_reducible intro _ | dsimp only | split)

theorem State.padFault_kept {pq : List Instr} {s : State} (h : s.Kept pq) (p : Nat) (bad : BitVec 12) : (s.padFault p bad).Kept pq := by
  unfold State.padFault
  repeat' (first | with_reducible assumption | with_reducible apply State.updDport_kept | with_reducible apply State.raise_kept | simp only [kept_mk] | with_reducible apply kept_parts | with_reducible intro _ | dsimp only | split)

theorem State.portMismatch_kept {pq : List Instr} {s : State} (h : s.Kept pq) (m : BitVec 12) (p : Nat) : (s.portMismatch m p).Kept pq := by
  unfold State.portMismatch
  repeat' (first | with_reducible assumption | with_reducible apply State.padFault_kept | with_reducible apply State.updDport_kept | simp only [kept_mk] | with_reducible apply kept_parts | with_reducible intro _ | dsimp only | split)

theorem State.padReadback_kept {pq : List Instr} {s : State} (h : s.Kept pq) (mis : List (BitVec 12)) : (s.padReadback mis).Kept pq := by
  unfold State.padReadback
  repeat' (first | with_reducible assumption | with_reducible apply State.each_kept | with_reducible apply State.portMismatch_kept | simp only [kept_mk] | with_reducible apply kept_parts | with_reducible intro _ | dsimp only | split)

theorem State.cellFrame_kept {pq : List Instr} {s : State} (h : s.Kept pq) (c : Nat) : (s.cellFrame c).Kept pq := by
  unfold State.cellFrame
  repeat' (first | with_reducible assumption | with_reducible apply State.updCell_kept | simp only [kept_mk] | with_reducible apply kept_parts | with_reducible intro _ | dsimp only | split)

theorem State.portResume_kept {pq : List Instr} {s : State} (h : s.Kept pq) (p : Nat) : (s.portResume p).Kept pq := by
  unfold State.portResume
  repeat' (first | with_reducible assumption | with_reducible apply State.updDport_kept | with_reducible apply State.raise_kept | simp only [kept_mk] | with_reducible apply kept_parts | with_reducible intro _ | dsimp only | split)

theorem State.portFrame_kept {pq : List Instr} {s : State} (h : s.Kept pq) (p : Nat) : (s.portFrame p).Kept pq := by
  unfold State.portFrame
  repeat' (first | with_reducible assumption | with_reducible apply State.updDport_kept | with_reducible apply State.each_kept | with_reducible apply State.cellFrame_kept | with_reducible apply State.portResume_kept | simp only [kept_mk] | with_reducible apply kept_parts | with_reducible intro _ | dsimp only | split)

theorem State.dispTest_kept {pq : List Instr} {s : State} (h : s.Kept pq) : s.dispTest.Kept pq := by
  unfold State.dispTest
  repeat' (first | with_reducible assumption | with_reducible apply State.updDport_kept | simp only [kept_mk] | with_reducible apply kept_parts | with_reducible intro _ | dsimp only | split)

theorem State.scanOff_kept {pq : List Instr} {s : State} (h : s.Kept pq) : s.scanOff.Kept pq := by
  unfold State.scanOff
  repeat' (first | with_reducible assumption | with_reducible apply State.each_kept | with_reducible apply State.updDport_kept | simp only [kept_mk] | with_reducible apply kept_parts | with_reducible intro _ | dsimp only | split)

theorem State.frameStart_kept {pq : List Instr} {s : State} (h : s.Kept pq) : s.frameStart.Kept pq := by
  unfold State.frameStart
  repeat' (first | with_reducible assumption | with_reducible apply State.each_kept | with_reducible apply State.portFrame_kept | with_reducible apply State.dispTest_kept | simp only [kept_mk] | with_reducible apply kept_parts | with_reducible intro _ | dsimp only | split)

theorem State.frameSteps_kept {pq : List Instr} {s : State} (h : s.Kept pq) : s.frameSteps.Kept pq := by
  unfold State.frameSteps
  repeat' (first | with_reducible assumption | with_reducible apply State.flip_kept | with_reducible apply State.frameStart_kept | with_reducible apply State.each_kept | with_reducible apply State.copyForward_kept | simp only [kept_mk] | with_reducible apply kept_parts | with_reducible intro _ | dsimp only | split)

theorem State.cellOwnerChange_kept {pq : List Instr} {s : State} (h : s.Kept pq) (c : Nat) (keep : Bool) : (s.cellOwnerChange c keep).Kept pq := by
  unfold State.cellOwnerChange
  repeat' (first | with_reducible assumption | with_reducible apply State.unarm_kept | with_reducible apply State.zeroMem_kept | with_reducible apply State.setChk_kept | simp only [kept_mk] | with_reducible apply kept_parts | with_reducible intro _ | dsimp only | split)

end Sys2Proof.Machine
end

