-- ==== Sys2Proof/Laws/KeptLamp.lean ====
section
/-! SUPPORT. Every operation of Machine/Lamp.lean keeps a state safe and its queue as it is. -/

namespace Sys2Proof.Machine

set_option linter.unreachableTactic false
set_option linter.unusedTactic false
set_option linter.unusedVariables false
set_option linter.unusedSimpArgs false

theorem State.ev180_kept {pq : List Instr} {s : State} (h : s.Kept pq) (n : Nat) : (s.ev180 n).Kept pq := by
  unfold State.ev180
  repeat' (first | with_reducible assumption | with_reducible apply State.raise_kept | simp only [kept_mk] | with_reducible apply kept_parts | with_reducible intro _ | dsimp only | split)

theorem State.fadeDone_kept {pq : List Instr} {s : State} (h : s.Kept pq) (n : Nat) : (s.fadeDone n).Kept pq := by
  unfold State.fadeDone
  repeat' (first | with_reducible assumption | with_reducible apply State.updLamp_kept | with_reducible apply State.ev180_kept | simp only [kept_mk] | with_reducible apply kept_parts | with_reducible intro _ | dsimp only | split)

theorem State.fadeTo_kept {pq : List Instr} {s : State} (h : s.Kept pq) (n : Nat) (v : Nat) (ms : Nat) (cie : Bool) : (s.fadeTo n v ms cie).Kept pq := by
  unfold State.fadeTo
  repeat' (first | with_reducible assumption | with_reducible apply State.updLamp_kept | with_reducible apply State.fadeDone_kept | simp only [kept_mk] | with_reducible apply kept_parts | with_reducible intro _ | dsimp only | split)

theorem State.retarget_kept {pq : List Instr} {s : State} (h : s.Kept pq) (n : Nat) : (s.retarget n).Kept pq := by
  unfold State.retarget
  repeat' (first | with_reducible assumption | with_reducible apply State.fadeTo_kept | simp only [kept_mk] | with_reducible apply kept_parts | with_reducible intro _ | dsimp only | split)

theorem State.setTarget_kept {pq : List Instr} {s : State} (h : s.Kept pq) (n : Nat) (v : Nat) : (s.setTarget n v).Kept pq := by
  unfold State.setTarget
  repeat' (first | with_reducible assumption | with_reducible apply State.updLamp_kept | with_reducible apply State.retarget_kept | simp only [kept_mk] | with_reducible apply kept_parts | with_reducible intro _ | dsimp only | split)

theorem State.pfTo_kept {pq : List Instr} {s : State} (h : s.Kept pq) (n : Nat) (v : Nat) : (s.pfTo n v).Kept pq := by
  unfold State.pfTo
  repeat' (first | with_reducible assumption | with_reducible apply State.updLamp_kept | simp only [kept_mk] | with_reducible apply kept_parts | with_reducible intro _ | dsimp only | split)

theorem State.advOut_kept {pq : List Instr} {s : State} (h : s.Kept pq) (n : Nat) (dt : Nat) : (s.advOut n dt).Kept pq := by
  unfold State.advOut
  repeat' (first | with_reducible assumption | with_reducible apply State.fadeDone_kept | with_reducible apply State.updLamp_kept | with_reducible apply State.drawn_kept | simp only [kept_mk] | with_reducible apply kept_parts | with_reducible intro _ | dsimp only | split)

theorem State.advPf_kept {pq : List Instr} {s : State} (h : s.Kept pq) (n : Nat) (dt : Nat) : (s.advPf n dt).Kept pq := by
  unfold State.advPf
  repeat' (first | with_reducible assumption | with_reducible apply State.updLamp_kept | with_reducible apply State.drawn_kept | simp only [kept_mk] | with_reducible apply kept_parts | with_reducible intro _ | dsimp only | split)

theorem State.endFade_kept {pq : List Instr} {s : State} (h : s.Kept pq) (n : Nat) : (s.endFade n).Kept pq := by
  unfold State.endFade
  repeat' (first | with_reducible assumption | with_reducible apply State.fadeDone_kept | with_reducible apply State.advPf_kept | simp only [kept_mk] | with_reducible apply kept_parts | with_reducible intro _ | dsimp only | split)

theorem State.lampFault_kept {pq : List Instr} {s : State} (h : s.Kept pq) (n : Nat) (bit : BitVec 5) (pins : BitVec 3) : (s.lampFault n bit pins).Kept pq := by
  unfold State.lampFault
  repeat' (first | with_reducible assumption | with_reducible apply State.updLamp_kept | with_reducible apply State.raise_kept | simp only [kept_mk] | with_reducible apply kept_parts | with_reducible intro _ | dsimp only | split)

theorem State.lampPeriod_kept {pq : List Instr} {s : State} (h : s.Kept pq) (n : Nat) (iCode : Nat) (oc : Bool) (pinBad : BitVec 2) (vstr : Nat) (ledk : Nat) : (s.lampPeriod n iCode oc pinBad vstr ledk).Kept pq := by
  unfold State.lampPeriod
  repeat' (first | with_reducible assumption | with_reducible apply State.drawn_kept | with_reducible apply State.updLamp_kept | with_reducible apply State.lampFault_kept | simp only [kept_mk] | with_reducible apply kept_parts | with_reducible intro _ | dsimp only | split)

theorem State.switchPeriod_kept {pq : List Instr} {s : State} (h : s.Kept pq) (n : Nat) (iCode : Nat) (oc : Bool) (pinBad : BitVec 2) (vstr : Nat) (ledk : Nat) : (s.switchPeriod n iCode oc pinBad vstr ledk).Kept pq := by
  unfold State.switchPeriod
  repeat' (first | with_reducible assumption | with_reducible apply State.lampPeriod_kept | with_reducible apply State.updLamp_kept | with_reducible apply State.advOut_kept | with_reducible apply State.advPf_kept | simp only [kept_mk] | with_reducible apply kept_parts | with_reducible intro _ | dsimp only | split)

theorem State.dimPeriod_kept {pq : List Instr} {s : State} (h : s.Kept pq) (n : Nat) : (s.dimPeriod n).Kept pq := by
  unfold State.dimPeriod
  repeat' (first | with_reducible assumption | with_reducible apply State.updLamp_kept | simp only [kept_mk] | with_reducible apply kept_parts | with_reducible intro _ | dsimp only | split)

theorem State.lampCurrent_kept {pq : List Instr} {s : State} (h : s.Kept pq) (n : Nat) : (s.lampCurrent n).Kept pq := by
  unfold State.lampCurrent
  repeat' (first | with_reducible assumption | with_reducible apply State.updLamp_kept | with_reducible apply State.raise_kept | simp only [kept_mk] | with_reducible apply kept_parts | with_reducible intro _ | dsimp only | split)

theorem State.lampChecks_kept {pq : List Instr} {s : State} (h : s.Kept pq) (n : Nat) : (s.lampChecks n).Kept pq := by
  unfold State.lampChecks
  repeat' (first | with_reducible assumption | with_reducible apply State.updLamp_kept | with_reducible apply State.lampFault_kept | simp only [kept_mk] | with_reducible apply kept_parts | with_reducible intro _ | dsimp only | split)

theorem State.lampUpdate_kept {pq : List Instr} {s : State} (h : s.Kept pq) : s.lampUpdate.Kept pq := by
  unfold State.lampUpdate
  repeat' (first | with_reducible assumption | with_reducible apply State.each_kept | with_reducible apply State.lampCurrent_kept | with_reducible apply State.lampChecks_kept | simp only [kept_mk] | with_reducible apply kept_parts | with_reducible intro _ | dsimp only | split)

theorem State.lampStart_kept {pq : List Instr} {s : State} (h : s.Kept pq) (n : Nat) : (s.lampStart n).Kept pq := by
  unfold State.lampStart
  repeat' (first | with_reducible assumption | with_reducible apply State.updLamp_kept | simp only [kept_mk] | with_reducible apply kept_parts | with_reducible intro _ | dsimp only | split)

theorem State.lampClear_kept {pq : List Instr} {s : State} (h : s.Kept pq) (n : Nat) (v : Word) : (s.lampClear n v).Kept pq := by
  unfold State.lampClear
  repeat' (first | with_reducible assumption | with_reducible apply State.updLamp_kept | with_reducible apply State.lampStart_kept | with_reducible apply State.pfTo_kept | simp only [kept_mk] | with_reducible apply kept_parts | with_reducible intro _ | dsimp only | split)

theorem State.lampAsk_kept {pq : List Instr} {s : State} (h : s.Kept pq) : s.lampAsk.Kept pq := by
  unfold State.lampAsk
  repeat' (first | with_reducible assumption | with_reducible apply State.each_kept | with_reducible apply State.pfTo_kept | with_reducible apply State.updEngine_kept | simp only [kept_mk] | with_reducible apply kept_parts | with_reducible intro _ | dsimp only | split)

theorem State.lampResume_kept {pq : List Instr} {s : State} (h : s.Kept pq) : s.lampResume.Kept pq := by
  unfold State.lampResume
  repeat' (first | with_reducible assumption | with_reducible apply State.each_kept | with_reducible apply State.pfTo_kept | with_reducible apply State.updEngine_kept | simp only [kept_mk] | with_reducible apply kept_parts | with_reducible intro _ | dsimp only | split)

theorem State.lampClose_kept {pq : List Instr} {s : State} (h : s.Kept pq) : s.lampClose.Kept pq := by
  unfold State.lampClose
  repeat' (first | with_reducible assumption | with_reducible apply State.each_kept | with_reducible apply State.updLamp_kept | simp only [kept_mk] | with_reducible apply kept_parts | with_reducible intro _ | dsimp only | split)

theorem State.engineEv_kept {pq : List Instr} {s : State} (h : s.Kept pq) (k : Nat) (kind : Nat) (arg : Nat) : (s.engineEv k kind arg).Kept pq := by
  unfold State.engineEv
  repeat' (first | with_reducible assumption | with_reducible apply State.raise_kept | simp only [kept_mk] | with_reducible apply kept_parts | with_reducible intro _ | dsimp only | split)

theorem State.engineErr_kept {pq : List Instr} {s : State} (h : s.Kept pq) (k : Nat) : (s.engineErr k).Kept pq := by
  unfold State.engineErr
  repeat' (first | with_reducible assumption | with_reducible apply State.updEngine_kept | with_reducible apply State.engineEv_kept | simp only [kept_mk] | with_reducible apply kept_parts | with_reducible intro _ | dsimp only | split)

theorem State.engineNext_kept {pq : List Instr} {s : State} (h : s.Kept pq) (k : Nat) (pc : Nat) (ms : Nat) (timed : Bool) : (s.engineNext k pc ms timed).Kept pq := by
  unfold State.engineNext
  repeat' (first | with_reducible assumption | with_reducible apply State.engineErr_kept | with_reducible apply State.updEngine_kept | simp only [kept_mk] | with_reducible apply kept_parts | with_reducible intro _ | dsimp only | split)

theorem State.setLane_kept {pq : List Instr} {s : State} (h : s.Kept pq) (k : Nat) (j : Nat) (v : Nat) (ms : Nat) (cie : Bool) : (s.setLane k j v ms cie).Kept pq := by
  unfold State.setLane
  repeat' (first | with_reducible assumption | with_reducible apply State.updEngine_kept | with_reducible apply State.each_kept | with_reducible apply State.retarget_kept | simp only [kept_mk] | with_reducible apply kept_parts | with_reducible intro _ | dsimp only | split)

theorem State.laneStep_kept {pq : List Instr} {s : State} (h : s.Kept pq) (k : Nat) (w : Word) (lv : List (Nat × Nat)) : (s.laneStep k w lv).Kept pq := by
  unfold State.laneStep
  repeat' (first | with_reducible assumption | with_reducible apply State.setLane_kept | with_reducible apply State.engineNext_kept | with_reducible apply foldl_kept | simp only [kept_mk] | with_reducible apply kept_parts | with_reducible intro _ | dsimp only | split)

theorem State.engineRamp_kept {pq : List Instr} {s : State} (h : s.Kept pq) (k : Nat) : (s.engineRamp k).Kept pq := by
  unfold State.engineRamp
  repeat' (first | with_reducible assumption | with_reducible apply State.laneStep_kept | simp only [kept_mk] | with_reducible apply kept_parts | with_reducible intro _ | dsimp only | split)

theorem State.engineRotate_kept {pq : List Instr} {s : State} (h : s.Kept pq) (k : Nat) : (s.engineRotate k).Kept pq := by
  unfold State.engineRotate
  repeat' (first | with_reducible assumption | with_reducible apply State.laneStep_kept | simp only [kept_mk] | with_reducible apply kept_parts | with_reducible intro _ | dsimp only | split)

theorem State.engineHold_kept {pq : List Instr} {s : State} (h : s.Kept pq) (k : Nat) : (s.engineHold k).Kept pq := by
  unfold State.engineHold
  repeat' (first | with_reducible assumption | with_reducible apply State.engineNext_kept | simp only [kept_mk] | with_reducible apply kept_parts | with_reducible intro _ | dsimp only | split)

theorem State.engineLoop_kept {pq : List Instr} {s : State} (h : s.Kept pq) (k : Nat) : (s.engineLoop k).Kept pq := by
  unfold State.engineLoop
  repeat' (first | with_reducible assumption | with_reducible apply State.engineNext_kept | with_reducible apply State.updEngine_kept | simp only [kept_mk] | with_reducible apply kept_parts | with_reducible intro _ | dsimp only | split)

theorem State.engineEvent_kept {pq : List Instr} {s : State} (h : s.Kept pq) (k : Nat) : (s.engineEvent k).Kept pq := by
  unfold State.engineEvent
  repeat' (first | with_reducible assumption | with_reducible apply State.engineEv_kept | with_reducible apply State.engineNext_kept | simp only [kept_mk] | with_reducible apply kept_parts | with_reducible intro _ | dsimp only | split)

theorem State.engineEnd_kept {pq : List Instr} {s : State} (h : s.Kept pq) (k : Nat) : (s.engineEnd k).Kept pq := by
  unfold State.engineEnd
  repeat' (first | with_reducible assumption | with_reducible apply State.updEngine_kept | with_reducible apply State.engineEv_kept | simp only [kept_mk] | with_reducible apply kept_parts | with_reducible intro _ | dsimp only | split)

theorem State.engineGo_kept {pq : List Instr} {s : State} (h : s.Kept pq) (k : Nat) (start : Nat) : (s.engineGo k start).Kept pq := by
  unfold State.engineGo
  repeat' (first | with_reducible assumption | with_reducible apply State.updEngine_kept | simp only [kept_mk] | with_reducible apply kept_parts | with_reducible intro _ | dsimp only | split)

theorem State.engineHalt_kept {pq : List Instr} {s : State} (h : s.Kept pq) (k : Nat) : (s.engineHalt k).Kept pq := by
  unfold State.engineHalt
  repeat' (first | with_reducible assumption | with_reducible apply State.updEngine_kept | simp only [kept_mk] | with_reducible apply kept_parts | with_reducible intro _ | dsimp only | split)

theorem State.lampOwner_kept {pq : List Instr} {s : State} (h : s.Kept pq) (n : Nat) : (s.lampOwner n).Kept pq := by
  unfold State.lampOwner
  repeat' (first | with_reducible assumption | with_reducible apply State.resetRegs_kept | with_reducible apply State.updLamp_kept | simp only [kept_mk] | with_reducible apply kept_parts | with_reducible intro _ | dsimp only | split)

theorem State.engineOwner_kept {pq : List Instr} {s : State} (h : s.Kept pq) (k : Nat) : (s.engineOwner k).Kept pq := by
  unfold State.engineOwner
  repeat' (first | with_reducible assumption | with_reducible apply State.resetRegs_kept | with_reducible apply State.updEngine_kept | simp only [kept_mk] | with_reducible apply kept_parts | with_reducible intro _ | dsimp only | split)

theorem State.lampRefollow_kept {pq : List Instr} {s : State} (h : s.Kept pq) (was : List Nat) : (s.lampRefollow was).Kept pq := by
  unfold State.lampRefollow
  repeat' (first | with_reducible assumption | with_reducible apply State.each_kept | with_reducible apply State.updLamp_kept | with_reducible apply State.retarget_kept | simp only [kept_mk] | with_reducible apply kept_parts | with_reducible intro _ | dsimp only | split)

end Sys2Proof.Machine
end

