-- ==== Sys2Proof/Laws/KeptShutter.lean ====
section
/-! SUPPORT. Every operation of Machine/Shutter.lean keeps a state safe and its queue as it is. -/

namespace Sys2Proof.Machine

set_option linter.unreachableTactic false
set_option linter.unusedTactic false
set_option linter.unusedVariables false
set_option linter.unusedSimpArgs false

theorem State.closeGen_kept {pq : List Instr} {s : State} (h : s.Kept pq) (kept : BitVec 16) : (s.closeGen kept).Kept pq := by
  unfold State.closeGen
  repeat' (first | with_reducible assumption | simp only [kept_mk] | with_reducible apply kept_parts | with_reducible intro _ | dsimp only | split)

theorem State.closeBanks_kept {pq : List Instr} {s : State} (h : s.Kept pq) (m : BitVec 6) : (s.closeBanks m).Kept pq := by
  unfold State.closeBanks
  repeat' (first | with_reducible assumption | with_reducible apply State.updPort_kept | with_reducible apply State.hold_kept | with_reducible apply State.lampClose_kept | simp only [kept_mk] | with_reducible apply kept_parts | with_reducible intro _ | dsimp only | split)

theorem State.openBanks_kept {pq : List Instr} {s : State} (h : s.Kept pq) (m : BitVec 6) : (s.openBanks m).Kept pq := by
  unfold State.openBanks
  repeat' (first | with_reducible assumption | with_reducible apply State.lampResume_kept | simp only [kept_mk] | with_reducible apply kept_parts | with_reducible intro _ | dsimp only | split)

end Sys2Proof.Machine
end

