-- ==== Sys2Proof/Laws/KeptSeq.lean ====
section
/-! SUPPORT. Every operation of Machine/Seq.lean keeps a state safe and its queue as it is. -/

namespace Sys2Proof.Machine

set_option linter.unreachableTactic false
set_option linter.unusedTactic false
set_option linter.unusedVariables false
set_option linter.unusedSimpArgs false

theorem State.updSeqr_kept {pq : List Instr} {s : State} (h : s.Kept pq) (f : Seq → Seq) : (s.updSeqr f).Kept pq := by
  unfold State.updSeqr
  repeat' (first | with_reducible assumption | simp only [kept_mk] | with_reducible apply kept_parts | with_reducible intro _ | dsimp only | split)

theorem State.dropUpDone_kept {pq : List Instr} {s : State} (h : s.Kept pq) : s.dropUpDone.Kept pq := by
  unfold State.dropUpDone
  repeat' (first | with_reducible assumption | with_reducible apply State.closeBanks_kept | with_reducible apply State.updSeqr_kept | simp only [kept_mk] | with_reducible apply kept_parts | with_reducible intro _ | dsimp only | split)

theorem State.ev252_kept {pq : List Instr} {s : State} (h : s.Kept pq) (kind : Nat) : (s.ev252 kind).Kept pq := by
  unfold State.ev252
  repeat' (first | with_reducible assumption | with_reducible apply State.raise_kept | simp only [kept_mk] | with_reducible apply kept_parts | with_reducible intro _ | dsimp only | split)

theorem State.seqDrive_kept {pq : List Instr} {s : State} (h : s.Kept pq) : s.seqDrive.Kept pq := by
  unfold State.seqDrive
  repeat' (first | with_reducible assumption | with_reducible apply State.updSeqr_kept | simp only [kept_mk] | with_reducible apply kept_parts | with_reducible intro _ | dsimp only | split)

theorem State.seqFinish_kept {pq : List Instr} {s : State} (h : s.Kept pq) : s.seqFinish.Kept pq := by
  unfold State.seqFinish
  repeat' (first | with_reducible assumption | with_reducible apply State.updSeqr_kept | with_reducible apply State.ev252_kept | simp only [kept_mk] | with_reducible apply kept_parts | with_reducible intro _ | dsimp only | split)

theorem State.seqRun_kept {pq : List Instr} {s : State} (h : s.Kept pq) (x0 : Nat) (x1 : Nat) : (State.seqRun x0 x1 s).Kept pq := by
  induction x0 generalizing s x1 with
  | zero => exact h
  | succ n ih =>
    unfold State.seqRun
    repeat' (first | with_reducible assumption | with_reducible apply ih | with_reducible apply State.seqFinish_kept | with_reducible apply State.updSeqr_kept | with_reducible apply State.seqDrive_kept | simp only [kept_mk] | with_reducible apply kept_parts | with_reducible intro _ | dsimp only | split)

theorem State.seqStepEnd_kept {pq : List Instr} {s : State} (h : s.Kept pq) : s.seqStepEnd.Kept pq := by
  unfold State.seqStepEnd
  repeat' (first | with_reducible assumption | with_reducible apply State.seqRun_kept | simp only [kept_mk] | with_reducible apply kept_parts | with_reducible intro _ | dsimp only | split)

theorem State.seqDelayEnd_kept {pq : List Instr} {s : State} (h : s.Kept pq) : s.seqDelayEnd.Kept pq := by
  unfold State.seqDelayEnd
  repeat' (first | with_reducible assumption | with_reducible apply State.seqDrive_kept | with_reducible apply State.seqStepEnd_kept | simp only [kept_mk] | with_reducible apply kept_parts | with_reducible intro _ | dsimp only | split)

theorem State.railRecord_kept {pq : List Instr} {s : State} (h : s.Kept pq) (kind : Nat → Nat) (ns : BitVec 24) : (s.railRecord kind ns).Kept pq := by
  unfold State.railRecord
  repeat' (first | with_reducible assumption | with_reducible apply State.each_kept | with_reducible apply State.updSeqr_kept | with_reducible apply State.raise_kept | simp only [kept_mk] | with_reducible apply kept_parts | with_reducible intro _ | dsimp only | split)

theorem State.seqDown_kept {pq : List Instr} {s : State} (h : s.Kept pq) (st : Nat) : (s.seqDown st).Kept pq := by
  unfold State.seqDown
  repeat' (first | with_reducible assumption | with_reducible apply State.dropUpDone_kept | with_reducible apply State.updSeqr_kept | with_reducible apply State.result_kept | with_reducible apply State.seqRun_kept | with_reducible apply State.railRecord_kept | simp only [kept_mk] | with_reducible apply kept_parts | with_reducible intro _ | dsimp only | split)

theorem State.seqRej_kept {pq : List Instr} {s : State} (h : s.Kept pq) : s.seqRej.Kept pq := by
  unfold State.seqRej
  repeat' (first | with_reducible assumption | with_reducible apply State.updSeqr_kept | simp only [kept_mk] | with_reducible apply kept_parts | with_reducible intro _ | dsimp only | split)

theorem State.goUp_kept {pq : List Instr} {s : State} (h : s.Kept pq) : s.goUp.Kept pq := by
  unfold State.goUp
  repeat' (first | with_reducible assumption | with_reducible apply State.updSeqr_kept | with_reducible apply State.seqRun_kept | with_reducible apply State.seqRej_kept | simp only [kept_mk] | with_reducible apply kept_parts | with_reducible intro _ | dsimp only | split)

theorem State.goDown_kept {pq : List Instr} {s : State} (h : s.Kept pq) : s.goDown.Kept pq := by
  unfold State.goDown
  repeat' (first | with_reducible assumption | with_reducible apply State.seqDown_kept | with_reducible apply State.seqRej_kept | simp only [kept_mk] | with_reducible apply kept_parts | with_reducible intro _ | dsimp only | split)

theorem State.railOff_kept {pq : List Instr} {s : State} (h : s.Kept pq) (ns : BitVec 24) : (s.railOff ns).Kept pq := by
  unfold State.railOff
  repeat' (first | with_reducible assumption | with_reducible apply State.dropUpDone_kept | with_reducible apply State.updSeqr_kept | with_reducible apply State.result_kept | simp only [kept_mk] | with_reducible apply kept_parts | with_reducible intro _ | dsimp only | split)

theorem State.railAction_kept {pq : List Instr} {s : State} (h : s.Kept pq) (x0 : Nat) (x2 : BitVec 24) : (State.railAction x0 s x2).Kept pq := by
  induction x0 generalizing s x2 with
  | zero => exact h
  | succ n ih =>
    unfold State.railAction
    repeat' (first | with_reducible assumption | with_reducible apply ih | with_reducible apply State.seqStepEnd_kept | with_reducible apply State.seqDown_kept | with_reducible apply State.railOff_kept | with_reducible apply State.railRecord_kept | simp only [kept_mk] | with_reducible apply kept_parts | with_reducible intro _ | dsimp only | split)

theorem State.railCycle_kept {pq : List Instr} {s : State} (h : s.Kept pq) (pg : BitVec 24) (late : BitVec 24) : (s.railCycle pg late).Kept pq := by
  unfold State.railCycle
  repeat' (first | with_reducible assumption | with_reducible apply State.updSeqr_kept | with_reducible apply State.railRecord_kept | with_reducible apply State.seqStepEnd_kept | with_reducible apply State.railAction_kept | simp only [kept_mk] | with_reducible apply kept_parts | with_reducible intro _ | dsimp only | split)

theorem State.pgChange_kept {pq : List Instr} {s : State} (h : s.Kept pq) (pg : BitVec 24) (late : BitVec 24) : (s.pgChange pg late).Kept pq := by
  unfold State.pgChange
  repeat' (first | with_reducible assumption | with_reducible apply State.railCycle_kept | simp only [kept_mk] | with_reducible apply kept_parts | with_reducible intro _ | dsimp only | split)

theorem State.pgTimeout_kept {pq : List Instr} {s : State} (h : s.Kept pq) (late : BitVec 24) : (s.pgTimeout late).Kept pq := by
  unfold State.pgTimeout
  repeat' (first | with_reducible assumption | with_reducible apply State.railCycle_kept | simp only [kept_mk] | with_reducible apply kept_parts | with_reducible intro _ | dsimp only | split)

theorem State.seqRestore_kept {pq : List Instr} {s : State} (h : s.Kept pq) : s.seqRestore.Kept pq := by
  unfold State.seqRestore
  repeat' (first | with_reducible assumption | with_reducible apply State.updSeqr_kept | simp only [kept_mk] | with_reducible apply kept_parts | with_reducible intro _ | dsimp only | split)

theorem State.seqMan_kept {pq : List Instr} {s : State} (h : s.Kept pq) (v : Word) : (s.seqMan v).Kept pq := by
  unfold State.seqMan
  repeat' (first | with_reducible assumption | with_reducible apply State.seqRej_kept | with_reducible apply State.updSeqr_kept | simp only [kept_mk] | with_reducible apply kept_parts | with_reducible intro _ | dsimp only | split)

theorem State.manFollow_kept {pq : List Instr} {s : State} (h : s.Kept pq) (n : Nat) : (s.manFollow n).Kept pq := by
  unfold State.manFollow
  repeat' (first | with_reducible assumption | with_reducible apply State.updSeqr_kept | simp only [kept_mk] | with_reducible apply kept_parts | with_reducible intro _ | dsimp only | split)

theorem State.railWrite_kept {pq : List Instr} {s : State} (h : s.Kept pq) (a : Nat) (v : Word) (be : BitVec 4) : (s.railWrite a v be).1.Kept pq := by
  unfold State.railWrite
  repeat' (first | with_reducible assumption | with_reducible apply State.writeReg_kept | with_reducible apply State.manFollow_kept | with_reducible apply State.railRecord_kept | with_reducible apply State.railAction_kept | simp only [kept_mk] | with_reducible apply kept_parts | with_reducible intro _ | dsimp only | split)

theorem State.setCharge_kept {pq : List Instr} {s : State} (h : s.Kept pq) (q : Int) : (s.setCharge q).Kept pq := by
  unfold State.setCharge
  repeat' (first | with_reducible assumption | with_reducible apply State.updSeqr_kept | with_reducible apply State.drawn_kept | simp only [kept_mk] | with_reducible apply kept_parts | with_reducible intro _ | dsimp only | split)

theorem State.batQWrite_kept {pq : List Instr} {s : State} (h : s.Kept pq) (v : Word) : (s.batQWrite v).Kept pq := by
  unfold State.batQWrite
  repeat' (first | with_reducible assumption | with_reducible apply State.setCharge_kept | simp only [kept_mk] | with_reducible apply kept_parts | with_reducible intro _ | dsimp only | split)

theorem State.batLimits_kept {pq : List Instr} {s : State} (h : s.Kept pq) (i : Nat) (low : Bool) (high : Bool) (value : Nat) : (s.batLimits i low high value).Kept pq := by
  unfold State.batLimits
  repeat' (first | with_reducible assumption | with_reducible apply State.updSeqr_kept | with_reducible apply State.raise_kept | with_reducible apply State.seqDown_kept | simp only [kept_mk] | with_reducible apply kept_parts | with_reducible intro _ | dsimp only | split)

theorem State.batSkip_kept {pq : List Instr} {s : State} (h : s.Kept pq) (i : Nat) : (s.batSkip i).Kept pq := by
  unfold State.batSkip
  repeat' (first | with_reducible assumption | with_reducible apply State.updSeqr_kept | simp only [kept_mk] | with_reducible apply kept_parts | with_reducible intro _ | dsimp only | split)

theorem State.batUpdate_kept {pq : List Instr} {s : State} (h : s.Kept pq) : s.batUpdate.Kept pq := by
  unfold State.batUpdate
  repeat' (first | with_reducible assumption | with_reducible apply State.updSeqr_kept | with_reducible apply State.setCharge_kept | with_reducible apply State.batLimits_kept | with_reducible apply State.batSkip_kept | simp only [kept_mk] | with_reducible apply kept_parts | with_reducible intro _ | dsimp only | split)

theorem State.coinStart_kept {pq : List Instr} {s : State} (h : s.Kept pq) : s.coinStart.Kept pq := by
  unfold State.coinStart
  repeat' (first | with_reducible assumption | with_reducible apply State.updSeqr_kept | simp only [kept_mk] | with_reducible apply kept_parts | with_reducible intro _ | dsimp only | split)

theorem State.coinEnd_kept {pq : List Instr} {s : State} (h : s.Kept pq) (mv : Nat) : (s.coinEnd mv).Kept pq := by
  unfold State.coinEnd
  repeat' (first | with_reducible assumption | with_reducible apply State.updSeqr_kept | with_reducible apply State.raise_kept | simp only [kept_mk] | with_reducible apply kept_parts | with_reducible intro _ | dsimp only | split)

end Sys2Proof.Machine
end

