-- ==== Sys2Proof/Laws/KeptThermal.lean ====
section
/-! SUPPORT. Every operation of Machine/Thermal.lean keeps a state safe and its queue as it is. -/

namespace Sys2Proof.Machine

set_option linter.unreachableTactic false
set_option linter.unusedTactic false
set_option linter.unusedVariables false
set_option linter.unusedSimpArgs false

theorem State.setSensor_kept {pq : List Instr} {s : State} (h : s.Kept pq) (i : Nat) (t : Int) (kind : Nat) : (s.setSensor i t kind).Kept pq := by
  unfold State.setSensor
  repeat' (first | with_reducible assumption | with_reducible apply State.updSensor_kept | with_reducible apply State.raise_kept | simp only [kept_mk] | with_reducible apply kept_parts | with_reducible intro _ | dsimp only | split)

theorem State.dieUpdate_kept {pq : List Instr} {s : State} (h : s.Kept pq) (die : List Int) (i : Nat) : (s.dieUpdate die i).Kept pq := by
  unfold State.dieUpdate
  repeat' (first | with_reducible assumption | with_reducible apply State.setSensor_kept | simp only [kept_mk] | with_reducible apply kept_parts | with_reducible intro _ | dsimp only | split)

theorem State.extUpdate_kept {pq : List Instr} {s : State} (h : s.Kept pq) (j : Nat) : (s.extUpdate j).Kept pq := by
  unfold State.extUpdate
  repeat' (first | with_reducible assumption | with_reducible apply State.setSensor_kept | with_reducible apply State.drawn_kept | simp only [kept_mk] | with_reducible apply kept_parts | with_reducible intro _ | dsimp only | split)

theorem State.critUpdate_kept {pq : List Instr} {s : State} (h : s.Kept pq) : s.critUpdate.Kept pq := by
  unfold State.critUpdate
  repeat' (first | with_reducible assumption | with_reducible apply State.raise_kept | with_reducible apply foldl_kept | simp only [kept_mk] | with_reducible apply kept_parts | with_reducible intro _ | dsimp only | split)

theorem State.zoneUpdate_kept {pq : List Instr} {s : State} (h : s.Kept pq) (k : Nat) : (s.zoneUpdate k).Kept pq := by
  unfold State.zoneUpdate
  repeat' (first | with_reducible assumption | with_reducible apply State.updZone_kept | with_reducible apply State.raise_kept | with_reducible apply foldl_kept | simp only [kept_mk] | with_reducible apply kept_parts | with_reducible intro _ | dsimp only | split)

theorem State.stallCheck_kept {pq : List Instr} {s : State} (h : s.Kept pq) (n : Nat) : (s.stallCheck n).Kept pq := by
  unfold State.stallCheck
  repeat' (first | with_reducible assumption | with_reducible apply State.updFan_kept | with_reducible apply State.raise_kept | simp only [kept_mk] | with_reducible apply kept_parts | with_reducible intro _ | dsimp only | split)

theorem State.fanDuty_kept {pq : List Instr} {s : State} (h : s.Kept pq) (n : Nat) : (s.fanDuty n).Kept pq := by
  unfold State.fanDuty
  repeat' (first | with_reducible assumption | with_reducible apply State.updFan_kept | simp only [kept_mk] | with_reducible apply kept_parts | with_reducible intro _ | dsimp only | split)

theorem State.thermalUpdate_kept {pq : List Instr} {s : State} (h : s.Kept pq) (die : List Int) : (s.thermalUpdate die).Kept pq := by
  unfold State.thermalUpdate
  repeat' (first | with_reducible assumption | with_reducible apply State.each_kept | with_reducible apply State.dieUpdate_kept | with_reducible apply State.extUpdate_kept | with_reducible apply State.critUpdate_kept | with_reducible apply State.zoneUpdate_kept | with_reducible apply State.fanDuty_kept | with_reducible apply State.stallCheck_kept | simp only [kept_mk] | with_reducible apply kept_parts | with_reducible intro _ | dsimp only | split)

theorem State.stallLouvred_kept {pq : List Instr} {s : State} (h : s.Kept pq) (n : Nat) : (s.stallLouvred n).Kept pq := by
  unfold State.stallLouvred
  repeat' (first | with_reducible assumption | with_reducible apply State.stallCheck_kept | with_reducible apply State.drawn_kept | with_reducible apply State.updFan_kept | simp only [kept_mk] | with_reducible apply kept_parts | with_reducible intro _ | dsimp only | split)

theorem State.tachEdge_kept {pq : List Instr} {s : State} (h : s.Kept pq) (n : Nat) (us : Nat) : (s.tachEdge n us).Kept pq := by
  unfold State.tachEdge
  repeat' (first | with_reducible assumption | with_reducible apply State.updFan_kept | with_reducible apply State.stallLouvred_kept | simp only [kept_mk] | with_reducible apply kept_parts | with_reducible intro _ | dsimp only | split)

theorem State.tachSilence_kept {pq : List Instr} {s : State} (h : s.Kept pq) (n : Nat) : (s.tachSilence n).Kept pq := by
  unfold State.tachSilence
  repeat' (first | with_reducible assumption | with_reducible apply State.updFan_kept | with_reducible apply State.stallLouvred_kept | simp only [kept_mk] | with_reducible apply kept_parts | with_reducible intro _ | dsimp only | split)

end Sys2Proof.Machine
end

