-- ==== Sys2Proof/Laws/KeptDoors.lean ====
section
/-! SUPPORT. Every operation of Machine/Doors.lean keeps a state safe and its queue as it is. -/

namespace Sys2Proof.Machine

set_option linter.unreachableTactic false
set_option linter.unusedTactic false
set_option linter.unusedVariables false
set_option linter.unusedSimpArgs false

theorem State.fireDoor_kept {pq : List Instr} {s : State} (h : s.Kept pq) (t : Nat) (cause : Nat) (value : Nat) : (s.fireDoor t cause value).Kept pq := by
  unfold State.fireDoor
  repeat' (first | with_reducible assumption | with_reducible apply State.setDoor_kept | with_reducible apply State.updTen_kept | with_reducible apply State.raise_kept | simp only [kept_mk] | with_reducible apply kept_parts | with_reducible intro _ | dsimp only | split)

theorem State.doorFail_kept {pq : List Instr} {s : State} (h : s.Kept pq) (t : Nat) (auth : Bool) : (s.doorFail t auth).Kept pq := by
  unfold State.doorFail
  repeat' (first | with_reducible assumption | with_reducible apply State.updTen_kept | with_reducible apply State.fireDoor_kept | simp only [kept_mk] | with_reducible apply kept_parts | with_reducible intro _ | dsimp only | split)

theorem State.leakExpire_kept {pq : List Instr} {s : State} (h : s.Kept pq) (t : Nat) : (s.leakExpire t).Kept pq := by
  unfold State.leakExpire
  repeat' (first | with_reducible assumption | with_reducible apply State.updTen_kept | simp only [kept_mk] | with_reducible apply kept_parts | with_reducible intro _ | dsimp only | split)

theorem State.hbExpire_kept {pq : List Instr} {s : State} (h : s.Kept pq) (t : Nat) : (s.hbExpire t).Kept pq := by
  unfold State.hbExpire
  repeat' (first | with_reducible assumption | with_reducible apply State.fireDoor_kept | simp only [kept_mk] | with_reducible apply kept_parts | with_reducible intro _ | dsimp only | split)

theorem State.heartbeat_kept {pq : List Instr} {s : State} (h : s.Kept pq) (t : Nat) (v : Word) : (s.heartbeat t v).Kept pq := by
  unfold State.heartbeat
  repeat' (first | with_reducible assumption | with_reducible apply State.updTen_kept | simp only [kept_mk] | with_reducible apply kept_parts | with_reducible intro _ | dsimp only | split)

theorem State.setBuf_kept {pq : List Instr} {s : State} (h : s.Kept pq) (b : Nat) (v : Option RspBuf) : (s.setBuf b v).Kept pq := by
  unfold State.setBuf
  repeat' (first | with_reducible assumption | simp only [kept_mk] | with_reducible apply kept_parts | with_reducible intro _ | dsimp only | split)

theorem State.bufSettle_kept {pq : List Instr} {s : State} (h : s.Kept pq) (b : Nat) : (s.bufSettle b).Kept pq := by
  unfold State.bufSettle
  repeat' (first | with_reducible assumption | with_reducible apply State.setBuf_kept | simp only [kept_mk] | with_reducible apply kept_parts | with_reducible intro _ | dsimp only | split)

theorem State.dropLinkSlots_kept {pq : List Instr} {s : State} (h : s.Kept pq) (t : Nat) : (s.dropLinkSlots t).Kept pq := by
  unfold State.dropLinkSlots
  repeat' (first | with_reducible assumption | with_reducible apply State.each_kept | with_reducible apply State.setBuf_kept | with_reducible apply State.bufSettle_kept | simp only [kept_mk] | with_reducible apply kept_parts | with_reducible intro _ | dsimp only | split)

theorem State.shutDoor_kept {pq : List Instr} {s : State} (h : s.Kept pq) (t : Nat) : (s.shutDoor t).Kept pq := by
  unfold State.shutDoor
  repeat' (first | with_reducible assumption | with_reducible apply State.updTen_kept | with_reducible apply State.setDoor_kept | with_reducible apply State.dropLinkSlots_kept | simp only [kept_mk] | with_reducible apply kept_parts | with_reducible intro _ | dsimp only | split)

theorem State.askOpen_kept {pq : List Instr} {s : State} (h : s.Kept pq) (t : Nat) (flush : Bool) : (s.askOpen t flush).Kept pq := by
  unfold State.askOpen
  repeat' (first | with_reducible assumption | with_reducible apply State.updTen_kept | simp only [kept_mk] | with_reducible apply kept_parts | with_reducible intro _ | dsimp only | split)

theorem State.openDoor_kept {pq : List Instr} {s : State} (h : s.Kept pq) (t : Nat) : (s.openDoor t).Kept pq := by
  unfold State.openDoor
  repeat' (first | with_reducible assumption | with_reducible apply State.setDoor_kept | with_reducible apply State.updTen_kept | with_reducible apply State.dropLinkSlots_kept | simp only [kept_mk] | with_reducible apply kept_parts | with_reducible intro _ | dsimp only | split)

theorem State.voteLapse_kept {pq : List Instr} {s : State} (h : s.Kept pq) (t : Nat) : (s.voteLapse t).Kept pq := by
  unfold State.voteLapse
  repeat' (first | with_reducible assumption | with_reducible apply State.updTen_kept | simp only [kept_mk] | with_reducible apply kept_parts | with_reducible intro _ | dsimp only | split)

theorem State.keyLoad_kept {pq : List Instr} {s : State} (h : s.Kept pq) (persist : Bool) : (s.keyLoad persist).Kept pq := by
  unfold State.keyLoad
  repeat' (first | with_reducible assumption | with_reducible apply State.updTen_kept | simp only [kept_mk] | with_reducible apply kept_parts | with_reducible intro _ | dsimp only | split)

theorem State.sealJob_kept {pq : List Instr} {s : State} (h : s.Kept pq) (t : Nat) (key : Option (BitVec 256)) : (s.sealJob t key).Kept pq := by
  unfold State.sealJob
  repeat' (first | with_reducible assumption | with_reducible apply State.drawn_kept | with_reducible apply State.enqueueNew_kept | simp only [kept_mk] | with_reducible apply kept_parts | with_reducible intro _ | dsimp only | split)

theorem State.keyErase_kept {pq : List Instr} {s : State} (h : s.Kept pq) (load : Bool) : (s.keyErase load).Kept pq := by
  unfold State.keyErase
  repeat' (first | with_reducible assumption | with_reducible apply State.updTen_kept | with_reducible apply State.sealJob_kept | simp only [kept_mk] | with_reducible apply kept_parts | with_reducible intro _ | dsimp only | split)

theorem State.keyActivate_kept {pq : List Instr} {s : State} (h : s.Kept pq) (t : Nat) : (s.keyActivate t).Kept pq := by
  unfold State.keyActivate
  repeat' (first | with_reducible assumption | with_reducible apply State.updTen_kept | with_reducible apply State.sealJob_kept | simp only [kept_mk] | with_reducible apply kept_parts | with_reducible intro _ | dsimp only | split)

theorem State.ev6_kept {pq : List Instr} {s : State} (h : s.Kept pq) (t : Nat) (kind : Nat) : (s.ev6 t kind).Kept pq := by
  unfold State.ev6
  repeat' (first | with_reducible assumption | with_reducible apply State.raise_kept | simp only [kept_mk] | with_reducible apply kept_parts | with_reducible intro _ | dsimp only | split)

theorem State.authenticate_kept {pq : List Instr} {s : State} (h : s.Kept pq) (t : Nat) (tag : Option (Nat × Nat × List Byte)) : (s.authenticate t tag).1.Kept pq := by
  unfold State.authenticate
  repeat' (first | with_reducible assumption | with_reducible apply State.ev6_kept | with_reducible apply State.doorFail_kept | with_reducible apply State.updTen_kept | simp only [kept_mk] | with_reducible apply kept_parts | with_reducible intro _ | dsimp only | split)

theorem State.acntReset_kept {pq : List Instr} {s : State} (h : s.Kept pq) : s.acntReset.Kept pq := by
  unfold State.acntReset
  repeat' (first | with_reducible assumption | with_reducible apply State.each_kept | with_reducible apply State.updTen_kept | simp only [kept_mk] | with_reducible apply kept_parts | with_reducible intro _ | dsimp only | split)

theorem State.numberSet_kept {pq : List Instr} {s : State} (h : s.Kept pq) : s.numberSet.Kept pq := by
  unfold State.numberSet
  repeat' (first | with_reducible assumption | with_reducible apply State.acntReset_kept | simp only [kept_mk] | with_reducible apply kept_parts | with_reducible intro _ | dsimp only | split)

theorem State.grantStage_kept {pq : List Instr} {s : State} (h : s.Kept pq) (v : Word) : (s.grantStage v).1.Kept pq := by
  unfold State.grantStage
  repeat' (first | with_reducible assumption | simp only [kept_mk] | with_reducible apply kept_parts | with_reducible intro _ | dsimp only | split)

theorem State.ownerChange_kept {pq : List Instr} {s : State} (h : s.Kept pq) (cls : Nat) (i : Nat) (keep : Bool) : (s.ownerChange cls i keep).Kept pq := by
  unfold State.ownerChange
  repeat' (first | with_reducible assumption | with_reducible apply State.cellOwnerChange_kept | with_reducible apply State.lampOwner_kept | with_reducible apply State.engineOwner_kept | with_reducible apply State.keyOwner_kept | with_reducible apply State.chanOwner_kept | simp only [kept_mk] | with_reducible apply kept_parts | with_reducible intro _ | dsimp only | split)

theorem State.wipeScratch_kept {pq : List Instr} {s : State} (h : s.Kept pq) (ws : List (Nat × Nat)) : (s.wipeScratch ws).Kept pq := by
  unfold State.wipeScratch
  repeat' (first | with_reducible assumption | with_reducible apply State.each_kept | with_reducible apply State.zeroMem_kept | with_reducible apply State.raise_kept | simp only [kept_mk] | with_reducible apply kept_parts | with_reducible intro _ | dsimp only | split)

theorem State.wipeShelf_kept {pq : List Instr} {s : State} (h : s.Kept pq) (ws : List (Nat × Nat)) : (s.wipeShelf ws).Kept pq := by
  unfold State.wipeShelf
  repeat' (first | with_reducible assumption | with_reducible apply State.enqueueNew_kept | simp only [kept_mk] | with_reducible apply kept_parts | with_reducible intro _ | dsimp only | split)

theorem State.applyGrants_kept {pq : List Instr} {s : State} (h : s.Kept pq) : s.applyGrants.Kept pq := by
  unfold State.applyGrants
  repeat' (first | with_reducible assumption | with_reducible apply State.ownerChange_kept | with_reducible apply State.lampRefollow_kept | with_reducible apply State.wipeScratch_kept | with_reducible apply State.wipeShelf_kept | with_reducible apply foldl_kept | simp only [kept_mk] | with_reducible apply kept_parts | with_reducible intro _ | dsimp only | split)

end Sys2Proof.Machine
end

