-- ==== Sys2Proof/Laws/KeptTick.lean ====
section
/-! SUPPORT. Every operation of Machine/Tick.lean keeps a state safe and its queue as it is. -/

namespace Sys2Proof.Machine

set_option linter.unreachableTactic false
set_option linter.unusedTactic false
set_option linter.unusedVariables false
set_option linter.unusedSimpArgs false

theorem State.updTick_kept {pq : List Instr} {s : State} (h : s.Kept pq) (f : Tick → Tick) : (s.updTick f).Kept pq := by
  unfold State.updTick
  repeat' (first | with_reducible assumption | simp only [kept_mk] | with_reducible apply kept_parts | with_reducible intro _ | dsimp only | split)

theorem State.enterHoldover_kept {pq : List Instr} {s : State} (h : s.Kept pq) (n : Nat) (num : Nat) : (s.enterHoldover n num).Kept pq := by
  unfold State.enterHoldover
  repeat' (first | with_reducible assumption | with_reducible apply State.updTick_kept | with_reducible apply State.raise_kept | simp only [kept_mk] | with_reducible apply kept_parts | with_reducible intro _ | dsimp only | split)

theorem State.approach_kept {pq : List Instr} {s : State} (h : s.Kept pq) (ds : Bool) (err : Int) (flip : Bool) (ahead : Bool) : (s.approach ds err flip ahead).Kept pq := by
  unfold State.approach
  repeat' (first | with_reducible assumption | with_reducible apply State.updTick_kept | with_reducible apply State.raise_kept | simp only [kept_mk] | with_reducible apply kept_parts | with_reducible intro _ | dsimp only | split)

theorem State.countArrival_kept {pq : List Instr} {s : State} (h : s.Kept pq) (ds : Bool) (err : Int) (flip : Bool) (ahead : Bool) : (s.countArrival ds err flip ahead).Kept pq := by
  unfold State.countArrival
  repeat' (first | with_reducible assumption | with_reducible apply State.updTick_kept | with_reducible apply State.approach_kept | simp only [kept_mk] | with_reducible apply kept_parts | with_reducible intro _ | dsimp only | split)

theorem State.arrival_kept {pq : List Instr} {s : State} (h : s.Kept pq) (ds : Bool) (phase : Int) (flip : Bool) (ahead : Bool) : (s.arrival ds phase flip ahead).Kept pq := by
  unfold State.arrival
  repeat' (first | with_reducible assumption | with_reducible apply State.updTick_kept | with_reducible apply State.approach_kept | with_reducible apply State.countArrival_kept | simp only [kept_mk] | with_reducible apply kept_parts | with_reducible intro _ | dsimp only | split)

theorem State.dsyncEdge_kept {pq : List Instr} {s : State} (h : s.Kept pq) (phase : Int) : (s.dsyncEdge phase).Kept pq := by
  unfold State.dsyncEdge
  repeat' (first | with_reducible assumption | with_reducible apply State.updTick_kept | with_reducible apply State.arrival_kept | simp only [kept_mk] | with_reducible apply kept_parts | with_reducible intro _ | dsimp only | split)

theorem State.loadNumber_kept {pq : List Instr} {s : State} (h : s.Kept pq) (n : BitVec 48) (link : Bool) (within : Bool) : (s.loadNumber n link within).Kept pq := by
  unfold State.loadNumber
  repeat' (first | with_reducible assumption | with_reducible apply State.updTick_kept | with_reducible apply State.numberSet_kept | with_reducible apply State.skipArms_kept | with_reducible apply State.raise_kept | simp only [kept_mk] | with_reducible apply kept_parts | with_reducible intro _ | dsimp only | split)

theorem State.numSetLoad_kept {pq : List Instr} {s : State} (h : s.Kept pq) (v : Word) : (s.numSetLoad v).Kept pq := by
  unfold State.numSetLoad
  repeat' (first | with_reducible assumption | with_reducible apply State.updTick_kept | simp only [kept_mk] | with_reducible apply kept_parts | with_reducible intro _ | dsimp only | split)

theorem State.applyCtrl_kept {pq : List Instr} {s : State} (h : s.Kept pq) : s.applyCtrl.1.Kept pq := by
  unfold State.applyCtrl
  repeat' (first | with_reducible assumption | with_reducible apply State.updTick_kept | simp only [kept_mk] | with_reducible apply kept_parts | with_reducible intro _ | dsimp only | split)

theorem State.tenantSlot0_kept {pq : List Instr} {s : State} (h : s.Kept pq) : s.tenantSlot0.Kept pq := by
  unfold State.tenantSlot0
  repeat' (first | with_reducible assumption | with_reducible apply State.each_kept | with_reducible apply State.updTen_kept | with_reducible apply State.openDoor_kept | with_reducible apply State.keyActivate_kept | simp only [kept_mk] | with_reducible apply kept_parts | with_reducible intro _ | dsimp only | split)

theorem State.boundarySteps_kept {pq : List Instr} {s : State} (h : s.Kept pq) : s.boundarySteps.Kept pq := by
  unfold State.boundarySteps
  repeat' (first | with_reducible assumption | with_reducible apply State.frameSteps_kept | with_reducible apply State.applyGrants_kept | simp only [kept_mk] | with_reducible apply kept_parts | with_reducible intro _ | dsimp only | split)

theorem State.waitedSteps_kept {pq : List Instr} {s : State} (h : s.Kept pq) : s.waitedSteps.Kept pq := by
  unfold State.waitedSteps
  repeat' (first | with_reducible assumption | with_reducible apply State.updTick_kept | with_reducible apply State.boundarySteps_kept | simp only [kept_mk] | with_reducible apply kept_parts | with_reducible intro _ | dsimp only | split)

theorem State.r310_kept {pq : List Instr} {s : State} (h : s.Kept pq) : s.r310.Kept pq := by
  unfold State.r310
  repeat' (first | with_reducible assumption | with_reducible apply State.updTick_kept | with_reducible apply State.boundarySteps_kept | simp only [kept_mk] | with_reducible apply kept_parts | with_reducible intro _ | dsimp only | split)

theorem State.ev0_kept {pq : List Instr} {s : State} (h : s.Kept pq) : s.ev0.Kept pq := by
  unfold State.ev0
  repeat' (first | with_reducible assumption | with_reducible apply State.raise_kept | simp only [kept_mk] | with_reducible apply kept_parts | with_reducible intro _ | dsimp only | split)

theorem State.tickCounts_kept {pq : List Instr} {s : State} (h : s.Kept pq) : s.tickCounts.Kept pq := by
  unfold State.tickCounts
  repeat' (first | with_reducible assumption | simp only [kept_mk] | with_reducible apply kept_parts | with_reducible intro _ | dsimp only | split)

theorem State.newTick_kept {pq : List Instr} {s : State} (h : s.Kept pq) : s.newTick.Kept pq := by
  unfold State.newTick
  repeat' (first | with_reducible assumption | with_reducible apply State.updTick_kept | with_reducible apply State.loadNumber_kept | with_reducible apply State.applyCtrl_kept | with_reducible apply State.enterHoldover_kept | simp only [kept_mk] | with_reducible apply kept_parts | with_reducible intro _ | dsimp only | split)

theorem State.slotZero_kept {pq : List Instr} {s : State} (h : s.Kept pq) : s.slotZero.Kept pq := by
  unfold State.slotZero
  repeat' (first | with_reducible assumption | with_reducible apply State.tenantSlot0_kept | with_reducible apply State.tickCounts_kept | with_reducible apply State.updTick_kept | with_reducible apply State.ev0_kept | with_reducible apply State.adcSlot0_kept | simp only [kept_mk] | with_reducible apply kept_parts | with_reducible intro _ | dsimp only | split)

theorem State.laterArrival_kept {pq : List Instr} {s : State} (h : s.Kept pq) : s.laterArrival.Kept pq := by
  unfold State.laterArrival
  repeat' (first | with_reducible assumption | with_reducible apply State.updTick_kept | with_reducible apply State.arrival_kept | simp only [kept_mk] | with_reducible apply kept_parts | with_reducible intro _ | dsimp only | split)

theorem State.boundary_kept {pq : List Instr} {s : State} (h : s.Kept pq) (mis : List (BitVec 12)) : (s.boundary mis).Kept pq := by
  unfold State.boundary
  repeat' (first | with_reducible assumption | with_reducible apply State.waitedSteps_kept | with_reducible apply State.padReadback_kept | with_reducible apply State.scanFront_kept | with_reducible apply State.newTick_kept | with_reducible apply State.updTick_kept | with_reducible apply State.r310_kept | with_reducible apply State.slotZero_kept | with_reducible apply State.laterArrival_kept | simp only [kept_mk] | with_reducible apply kept_parts | with_reducible intro _ | dsimp only | split)

theorem State.dsyncClassify_kept {pq : List Instr} {s : State} (h : s.Kept pq) (high : Nat) : (s.dsyncClassify high).Kept pq := by
  unfold State.dsyncClassify
  repeat' (first | with_reducible assumption | with_reducible apply State.updTick_kept | with_reducible apply State.waitedSteps_kept | simp only [kept_mk] | with_reducible apply kept_parts | with_reducible intro _ | dsimp only | split)

theorem State.atSlot_kept {pq : List Instr} {s : State} (h : s.Kept pq) (n : Nat) {f : State → State} (hff : ∀ s, s.Kept pq → (f s).Kept pq) : (s.atSlot n f).Kept pq := by
  unfold State.atSlot
  repeat' (first | with_reducible apply hff | with_reducible assumption | with_reducible apply State.updTick_kept | simp only [kept_mk] | with_reducible apply kept_parts | with_reducible intro _ | dsimp only | split)

end Sys2Proof.Machine
end

