-- ==== Sys2Proof/Laws/KeptLink.lean ====
section
/-! SUPPORT. Every operation of Machine/Link.lean keeps a state safe and its queue as it is. -/

namespace Sys2Proof.Machine

set_option linter.unreachableTactic false
set_option linter.unusedTactic false
set_option linter.unusedVariables false
set_option linter.unusedSimpArgs false

theorem State.updLink_kept {pq : List Instr} {s : State} (h : s.Kept pq) (f : Link → Link) : (s.updLink f).Kept pq := by
  unfold State.updLink
  repeat' (first | with_reducible assumption | simp only [kept_mk] | with_reducible apply kept_parts | with_reducible intro _ | dsimp only | split)

theorem State.updLport_kept {pq : List Instr} {s : State} (h : s.Kept pq) (dn : Bool) (f : LinkPort → LinkPort) : (s.updLport dn f).Kept pq := by
  unfold State.updLport
  repeat' (first | with_reducible assumption | with_reducible apply State.updLink_kept | simp only [kept_mk] | with_reducible apply kept_parts | with_reducible intro _ | dsimp only | split)

theorem State.updCls_kept {pq : List Instr} {s : State} (h : s.Kept pq) (dn : Bool) (rsp : Bool) (f : LinkCls → LinkCls) : (s.updCls dn rsp f).Kept pq := by
  unfold State.updCls
  repeat' (first | with_reducible assumption | with_reducible apply State.updLport_kept | simp only [kept_mk] | with_reducible apply kept_parts | with_reducible intro _ | dsimp only | split)

theorem State.updSending_kept {pq : List Instr} {s : State} (h : s.Kept pq) (dn : Bool) (f : LinkCls → LinkCls) : (s.updSending dn f).Kept pq := by
  unfold State.updSending
  repeat' (first | with_reducible assumption | with_reducible apply State.updCls_kept | simp only [kept_mk] | with_reducible apply kept_parts | with_reducible intro _ | dsimp only | split)

theorem State.emit_kept {pq : List Instr} {s : State} (h : s.Kept pq) (dn : Bool) (i : LinkItem) : (s.emit dn i).Kept pq := by
  unfold State.emit
  repeat' (first | with_reducible assumption | with_reducible apply State.updLport_kept | simp only [kept_mk] | with_reducible apply kept_parts | with_reducible intro _ | dsimp only | split)

theorem State.countCode_kept {pq : List Instr} {s : State} (h : s.Kept pq) : s.countCode.Kept pq := by
  unfold State.countCode
  repeat' (first | with_reducible assumption | with_reducible apply State.updLink_kept | simp only [kept_mk] | with_reducible apply kept_parts | with_reducible intro _ | dsimp only | split)

theorem State.countCodes_kept {pq : List Instr} {s : State} (h : s.Kept pq) (k : Nat) : (s.countCodes k).Kept pq := by
  unfold State.countCodes
  repeat' (first | with_reducible assumption | with_reducible apply State.updLink_kept | simp only [kept_mk] | with_reducible apply kept_parts | with_reducible intro _ | dsimp only | split)

theorem State.rspFrame_kept {pq : List Instr} {s : State} (h : s.Kept pq) (type : Nat) (ten : Nat) (ftag : Nat) (tagged : Bool) (pay : List Byte) : (s.rspFrame type ten ftag tagged pay).1.Kept pq := by
  unfold State.rspFrame
  repeat' (first | with_reducible assumption | with_reducible apply State.updTen_kept | simp only [kept_mk] | with_reducible apply kept_parts | with_reducible intro _ | dsimp only | split)

theorem State.trySend_kept {pq : List Instr} {s : State} (h : s.Kept pq) (x0 : Nat) (x1 : Bool) : (State.trySend x0 x1 s).Kept pq := by
  induction x0 generalizing s x1 with
  | zero => exact h
  | succ n ih =>
    unfold State.trySend
    repeat' (first | with_reducible assumption | with_reducible apply ih | with_reducible apply State.updSending_kept | with_reducible apply State.emit_kept | simp only [kept_mk] | with_reducible apply kept_parts | with_reducible intro _ | dsimp only | split)

theorem State.flushPort_kept {pq : List Instr} {s : State} (h : s.Kept pq) (dn : Bool) : (s.flushPort dn).Kept pq := by
  unfold State.flushPort
  repeat' (first | with_reducible assumption | with_reducible apply State.trySend_kept | simp only [kept_mk] | with_reducible apply kept_parts | with_reducible intro _ | dsimp only | split)

theorem State.sendOn_kept {pq : List Instr} {s : State} (h : s.Kept pq) (dn : Bool) (relay : Bool) (b : List Byte) : (s.sendOn dn relay b).Kept pq := by
  unfold State.sendOn
  repeat' (first | with_reducible assumption | with_reducible apply State.updSending_kept | with_reducible apply State.flushPort_kept | simp only [kept_mk] | with_reducible apply kept_parts | with_reducible intro _ | dsimp only | split)

theorem State.sendUp_kept {pq : List Instr} {s : State} (h : s.Kept pq) (b : List Byte) : (s.sendUp b).Kept pq := by
  unfold State.sendUp
  repeat' (first | with_reducible assumption | with_reducible apply State.sendOn_kept | simp only [kept_mk] | with_reducible apply kept_parts | with_reducible intro _ | dsimp only | split)

theorem State.answer_kept {pq : List Instr} {s : State} (h : s.Kept pq) (b : List Byte) (status : Nat) (retry : Nat) (info : Nat) : (s.answer b status retry info).Kept pq := by
  unfold State.answer
  repeat' (first | with_reducible assumption | with_reducible apply State.rspFrame_kept | with_reducible apply State.sendUp_kept | simp only [kept_mk] | with_reducible apply kept_parts | with_reducible intro _ | dsimp only | split)

theorem State.notice_kept {pq : List Instr} {s : State} (h : s.Kept pq) (kind : Nat) (ftag : Nat) : (s.notice kind ftag).Kept pq := by
  unfold State.notice
  repeat' (first | with_reducible assumption | with_reducible apply State.sendUp_kept | simp only [kept_mk] | with_reducible apply kept_parts | with_reducible intro _ | dsimp only | split)

theorem State.awakeSend_kept {pq : List Instr} {s : State} (h : s.Kept pq) : s.awakeSend.Kept pq := by
  unfold State.awakeSend
  repeat' (first | with_reducible assumption | with_reducible apply State.notice_kept | with_reducible apply State.updLink_kept | with_reducible apply foldl_kept | simp only [kept_mk] | with_reducible apply kept_parts | with_reducible intro _ | dsimp only | split)

theorem State.sendCredit_kept {pq : List Instr} {s : State} (h : s.Kept pq) (dn : Bool) (rsp : Bool) : (s.sendCredit dn rsp).Kept pq := by
  unfold State.sendCredit
  repeat' (first | with_reducible assumption | with_reducible apply State.emit_kept | simp only [kept_mk] | with_reducible apply kept_parts | with_reducible intro _ | dsimp only | split)

theorem State.freeRelay_kept {pq : List Instr} {s : State} (h : s.Kept pq) (dn : Bool) (k : Nat) : (s.freeRelay dn k).Kept pq := by
  unfold State.freeRelay
  repeat' (first | with_reducible assumption | with_reducible apply State.updCls_kept | with_reducible apply State.sendCredit_kept | simp only [kept_mk] | with_reducible apply kept_parts | with_reducible intro _ | dsimp only | split)

theorem State.dropFrames_kept {pq : List Instr} {s : State} (h : s.Kept pq) (dn : Bool) : (s.dropFrames dn).Kept pq := by
  unfold State.dropFrames
  repeat' (first | with_reducible assumption | with_reducible apply State.updSending_kept | with_reducible apply State.updLink_kept | with_reducible apply State.raise_kept | with_reducible apply State.freeRelay_kept | simp only [kept_mk] | with_reducible apply kept_parts | with_reducible intro _ | dsimp only | split)

theorem State.setHop_kept {pq : List Instr} {s : State} (h : s.Kept pq) (dn : Bool) (st : HopSt) : (s.setHop dn st).Kept pq := by
  unfold State.setHop
  repeat' (first | with_reducible assumption | with_reducible apply State.updLport_kept | with_reducible apply State.raise_kept | simp only [kept_mk] | with_reducible apply kept_parts | with_reducible intro _ | dsimp only | split)

theorem State.train_kept {pq : List Instr} {s : State} (h : s.Kept pq) (dn : Bool) : (s.train dn).Kept pq := by
  unfold State.train
  repeat' (first | with_reducible assumption | with_reducible apply State.updLport_kept | with_reducible apply State.setHop_kept | simp only [kept_mk] | with_reducible apply kept_parts | with_reducible intro _ | dsimp only | split)

theorem State.breakDown_kept {pq : List Instr} {s : State} (h : s.Kept pq) : s.breakDown.Kept pq := by
  unfold State.breakDown
  repeat' (first | with_reducible assumption | with_reducible apply State.updLink_kept | with_reducible apply State.emit_kept | simp only [kept_mk] | with_reducible apply kept_parts | with_reducible intro _ | dsimp only | split)

theorem State.hopDown_kept {pq : List Instr} {s : State} (h : s.Kept pq) (dn : Bool) : (s.hopDown dn).Kept pq := by
  unfold State.hopDown
  repeat' (first | with_reducible assumption | with_reducible apply State.dropFrames_kept | with_reducible apply State.setHop_kept | with_reducible apply State.notice_kept | with_reducible apply State.breakDown_kept | with_reducible apply State.train_kept | simp only [kept_mk] | with_reducible apply kept_parts | with_reducible intro _ | dsimp only | split)

theorem State.hopOff_kept {pq : List Instr} {s : State} (h : s.Kept pq) (dn : Bool) : (s.hopOff dn).Kept pq := by
  unfold State.hopOff
  repeat' (first | with_reducible assumption | with_reducible apply State.dropFrames_kept | with_reducible apply State.setHop_kept | with_reducible apply State.updLport_kept | simp only [kept_mk] | with_reducible apply kept_parts | with_reducible intro _ | dsimp only | split)

theorem State.askDelay_kept {pq : List Instr} {s : State} (h : s.Kept pq) (dn : Bool) : (s.askDelay dn).Kept pq := by
  unfold State.askDelay
  repeat' (first | with_reducible assumption | with_reducible apply State.updLport_kept | with_reducible apply State.emit_kept | simp only [kept_mk] | with_reducible apply kept_parts | with_reducible intro _ | dsimp only | split)

theorem State.tryUp_kept {pq : List Instr} {s : State} (h : s.Kept pq) (dn : Bool) : (s.tryUp dn).Kept pq := by
  unfold State.tryUp
  repeat' (first | with_reducible assumption | with_reducible apply State.setHop_kept | with_reducible apply State.askDelay_kept | with_reducible apply State.notice_kept | with_reducible apply State.flushPort_kept | simp only [kept_mk] | with_reducible apply kept_parts | with_reducible intro _ | dsimp only | split)

theorem State.receiverLock_kept {pq : List Instr} {s : State} (h : s.Kept pq) (dn : Bool) : (s.receiverLock dn).Kept pq := by
  unfold State.receiverLock
  repeat' (first | with_reducible assumption | with_reducible apply State.updLport_kept | with_reducible apply State.sendCredit_kept | with_reducible apply State.tryUp_kept | simp only [kept_mk] | with_reducible apply kept_parts | with_reducible intro _ | dsimp only | split)

theorem State.trainingTimeout_kept {pq : List Instr} {s : State} (h : s.Kept pq) (dn : Bool) : (s.trainingTimeout dn).Kept pq := by
  unfold State.trainingTimeout
  repeat' (first | with_reducible assumption | with_reducible apply State.hopOff_kept | simp only [kept_mk] | with_reducible apply kept_parts | with_reducible intro _ | dsimp only | split)

theorem State.dataSymbols_kept {pq : List Instr} {s : State} (h : s.Kept pq) (dn : Bool) : (s.dataSymbols dn).Kept pq := by
  unfold State.dataSymbols
  repeat' (first | with_reducible assumption | with_reducible apply State.train_kept | simp only [kept_mk] | with_reducible apply kept_parts | with_reducible intro _ | dsimp only | split)

theorem State.symbolLoss_kept {pq : List Instr} {s : State} (h : s.Kept pq) (dn : Bool) (errs : Nat) : (s.symbolLoss dn errs).Kept pq := by
  unfold State.symbolLoss
  repeat' (first | with_reducible assumption | with_reducible apply State.countCodes_kept | with_reducible apply State.hopDown_kept | with_reducible apply State.updLport_kept | simp only [kept_mk] | with_reducible apply kept_parts | with_reducible intro _ | dsimp only | split)

theorem State.linkctl_kept {pq : List Instr} {s : State} (h : s.Kept pq) (dn : Bool) (code : Option Byte) (notCode : Byte) (want : Byte) : (s.linkctl dn code notCode want).Kept pq := by
  unfold State.linkctl
  repeat' (first | with_reducible assumption | with_reducible apply State.countCode_kept | with_reducible apply State.breakDown_kept | with_reducible apply State.hopOff_kept | simp only [kept_mk] | with_reducible apply kept_parts | with_reducible intro _ | dsimp only | split)

theorem State.portEnable_kept {pq : List Instr} {s : State} (h : s.Kept pq) (dn : Bool) (en : Bool) : (s.portEnable dn en).Kept pq := by
  unfold State.portEnable
  repeat' (first | with_reducible assumption | with_reducible apply State.updLport_kept | with_reducible apply State.hopOff_kept | simp only [kept_mk] | with_reducible apply kept_parts | with_reducible intro _ | dsimp only | split)

theorem State.idSet_kept {pq : List Instr} {s : State} (h : s.Kept pq) (dn : Bool) (id : Option Byte) {f : State → Nat → State} (hff : ∀ s a0, s.Kept pq → (f s a0).Kept pq) : (s.idSet dn id f).Kept pq := by
  unfold State.idSet
  repeat' (first | with_reducible apply hff | with_reducible assumption | with_reducible apply State.countCode_kept | simp only [kept_mk] | with_reducible apply kept_parts | with_reducible intro _ | dsimp only | split)

theorem State.dlyReq_kept {pq : List Instr} {s : State} (h : s.Kept pq) (dn : Bool) (id : Nat) (turn : Nat) : (s.dlyReq dn id turn).Kept pq := by
  unfold State.dlyReq
  repeat' (first | with_reducible assumption | with_reducible apply State.emit_kept | simp only [kept_mk] | with_reducible apply kept_parts | with_reducible intro _ | dsimp only | split)

theorem State.dlyRsp_kept {pq : List Instr} {s : State} (h : s.Kept pq) (dn : Bool) (id : Nat) (turn : Nat) (round : Nat) : (s.dlyRsp dn id turn round).Kept pq := by
  unfold State.dlyRsp
  repeat' (first | with_reducible assumption | with_reducible apply State.updLport_kept | simp only [kept_mk] | with_reducible apply kept_parts | with_reducible intro _ | dsimp only | split)

theorem State.badSet_kept {pq : List Instr} {s : State} (h : s.Kept pq) (dn : Bool) (cls : Byte) (codeErr : Bool) : (s.badSet dn cls codeErr).Kept pq := by
  unfold State.badSet
  repeat' (first | with_reducible assumption | with_reducible apply State.countCode_kept | simp only [kept_mk] | with_reducible apply kept_parts | with_reducible intro _ | dsimp only | split)

theorem State.ackIn_kept {pq : List Instr} {s : State} (h : s.Kept pq) (dn : Bool) (cls : Byte) (hseq : Byte) (codeErr : Bool) : (s.ackIn dn cls hseq codeErr).Kept pq := by
  unfold State.ackIn
  repeat' (first | with_reducible assumption | with_reducible apply State.badSet_kept | with_reducible apply State.updSending_kept | with_reducible apply State.freeRelay_kept | with_reducible apply State.flushPort_kept | simp only [kept_mk] | with_reducible apply kept_parts | with_reducible intro _ | dsimp only | split)

theorem State.resendAll_kept {pq : List Instr} {s : State} (h : s.Kept pq) (dn : Bool) : (s.resendAll dn).Kept pq := by
  unfold State.resendAll
  repeat' (first | with_reducible assumption | with_reducible apply State.hopDown_kept | with_reducible apply State.updSending_kept | with_reducible apply State.emit_kept | with_reducible apply State.updLink_kept | with_reducible apply foldl_kept | simp only [kept_mk] | with_reducible apply kept_parts | with_reducible intro _ | dsimp only | split)

theorem State.nakIn_kept {pq : List Instr} {s : State} (h : s.Kept pq) (dn : Bool) (cls : Byte) (codeErr : Bool) : (s.nakIn dn cls codeErr).Kept pq := by
  unfold State.nakIn
  repeat' (first | with_reducible assumption | with_reducible apply State.badSet_kept | with_reducible apply State.resendAll_kept | simp only [kept_mk] | with_reducible apply kept_parts | with_reducible intro _ | dsimp only | split)

theorem State.retransmit_kept {pq : List Instr} {s : State} (h : s.Kept pq) (dn : Bool) (rsp : Bool) : (s.retransmit dn rsp).Kept pq := by
  unfold State.retransmit
  repeat' (first | with_reducible assumption | with_reducible apply State.resendAll_kept | simp only [kept_mk] | with_reducible apply kept_parts | with_reducible intro _ | dsimp only | split)

theorem State.creditIn_kept {pq : List Instr} {s : State} (h : s.Kept pq) (dn : Bool) (cls : Byte) (count : Byte) (codeErr : Bool) : (s.creditIn dn cls count codeErr).Kept pq := by
  unfold State.creditIn
  repeat' (first | with_reducible assumption | with_reducible apply State.countCode_kept | with_reducible apply State.updCls_kept | with_reducible apply State.updLport_kept | with_reducible apply State.tryUp_kept | with_reducible apply State.flushPort_kept | simp only [kept_mk] | with_reducible apply kept_parts | with_reducible intro _ | dsimp only | split)

theorem State.countProto_kept {pq : List Instr} {s : State} (h : s.Kept pq) : s.countProto.Kept pq := by
  unfold State.countProto
  repeat' (first | with_reducible assumption | with_reducible apply State.updLink_kept | simp only [kept_mk] | with_reducible apply kept_parts | with_reducible intro _ | dsimp only | split)

theorem State.fillLocal_kept {pq : List Instr} {s : State} (h : s.Kept pq) (x0 : Nat) : (State.fillLocal x0 s).Kept pq := by
  induction x0 generalizing s with
  | zero => exact h
  | succ n ih =>
    unfold State.fillLocal
    repeat' (first | with_reducible assumption | with_reducible apply ih | with_reducible apply State.hold_kept | with_reducible apply State.updLink_kept | with_reducible apply State.freeRelay_kept | simp only [kept_mk] | with_reducible apply kept_parts | with_reducible intro _ | dsimp only | split)

theorem State.localIn_kept {pq : List Instr} {s : State} (h : s.Kept pq) (b : List Byte) (uni : Bool) : (s.localIn b uni).1.Kept pq := by
  unfold State.localIn
  repeat' (first | with_reducible assumption | with_reducible apply State.countProto_kept | with_reducible apply State.answer_kept | with_reducible apply State.updLink_kept | with_reducible apply State.hold_kept | simp only [kept_mk] | with_reducible apply kept_parts | with_reducible intro _ | dsimp only | split)

theorem State.routeReq_kept {pq : List Instr} {s : State} (h : s.Kept pq) (b : List Byte) : (s.routeReq b).Kept pq := by
  unfold State.routeReq
  repeat' (first | with_reducible assumption | with_reducible apply State.countProto_kept | with_reducible apply State.freeRelay_kept | with_reducible apply State.localIn_kept | with_reducible apply State.sendOn_kept | with_reducible apply State.answer_kept | simp only [kept_mk] | with_reducible apply kept_parts | with_reducible intro _ | dsimp only | split)

theorem State.routeRsp_kept {pq : List Instr} {s : State} (h : s.Kept pq) (b : List Byte) : (s.routeRsp b).Kept pq := by
  unfold State.routeRsp
  repeat' (first | with_reducible assumption | with_reducible apply State.sendOn_kept | with_reducible apply State.updLink_kept | with_reducible apply State.raise_kept | with_reducible apply State.freeRelay_kept | simp only [kept_mk] | with_reducible apply kept_parts | with_reducible intro _ | dsimp only | split)

theorem State.frameIn_kept {pq : List Instr} {s : State} (h : s.Kept pq) (dn : Bool) (hseq : Byte) (notHseq : Byte) (b : List Byte) (codeErrs : Nat) (abort : Bool) : (s.frameIn dn hseq notHseq b codeErrs abort).Kept pq := by
  unfold State.frameIn
  repeat' (first | with_reducible assumption | with_reducible apply State.countCodes_kept | with_reducible apply State.countCode_kept | with_reducible apply State.updLink_kept | with_reducible apply State.updCls_kept | with_reducible apply State.emit_kept | with_reducible apply State.countProto_kept | with_reducible apply State.routeRsp_kept | with_reducible apply State.routeReq_kept | simp only [kept_mk] | with_reducible apply kept_parts | with_reducible intro _ | dsimp only | split)

theorem State.takeLocal_kept {pq : List Instr} {s s1 : State} (h : s.Kept pq) {n : Nat} {b : List Byte} (e : s.takeLocal n = some (s1, b)) :
    s1.Kept pq := by
  unfold State.takeLocal at e
  split at e
  · simp only [Option.ite_none_right_eq_some, Option.some.injEq, Prod.mk.injEq] at e
    obtain ⟨-, rfl, -⟩ := e
    exact State.fillLocal_kept (State.updLink_kept h _) 4
  · cases e

theorem State.tickOn_kept {pq : List Instr} {s : State} (h : s.Kept pq) (flags : Nat) (low : Nat) (lead : Nat) (held : Nat) : (s.tickOn flags low lead held).Kept pq := by
  unfold State.tickOn
  repeat' (first | with_reducible assumption | with_reducible apply State.updLink_kept | with_reducible apply State.emit_kept | with_reducible apply State.raise_kept | simp only [kept_mk] | with_reducible apply kept_parts | with_reducible intro _ | dsimp only | split)

theorem State.lowCheck_kept {pq : List Instr} {s : State} (h : s.Kept pq) (low : Nat) (next : Bool) : (s.lowCheck low next).Kept pq := by
  unfold State.lowCheck
  repeat' (first | with_reducible assumption | with_reducible apply State.updLink_kept | with_reducible apply State.updTick_kept | with_reducible apply State.raise_kept | simp only [kept_mk] | with_reducible apply kept_parts | with_reducible intro _ | dsimp only | split)

theorem State.ticknumMatch_kept {pq : List Instr} {s : State} (h : s.Kept pq) (low : Nat) (next : Bool) : (s.ticknumMatch low next).Kept pq := by
  unfold State.ticknumMatch
  repeat' (first | with_reducible assumption | with_reducible apply State.updTick_kept | with_reducible apply State.loadNumber_kept | with_reducible apply State.lowCheck_kept | simp only [kept_mk] | with_reducible apply kept_parts | with_reducible intro _ | dsimp only | split)

theorem State.tickSet_kept {pq : List Instr} {s : State} (h : s.Kept pq) (flags : Byte) (low : Byte) (lead : BitVec 24) (chk : Byte) (codeErr : Bool) (phase : Int) (held : Nat) : (s.tickSet flags low lead chk codeErr phase held).Kept pq := by
  unfold State.tickSet
  repeat' (first | with_reducible assumption | with_reducible apply State.countCode_kept | with_reducible apply State.updLink_kept | with_reducible apply State.tickOn_kept | with_reducible apply State.ticknumMatch_kept | with_reducible apply State.updTick_kept | with_reducible apply State.arrival_kept | simp only [kept_mk] | with_reducible apply kept_parts | with_reducible intro _ | dsimp only | split)

end Sys2Proof.Machine
end

