-- ==== Sys2Proof/Laws/KeptScrub.lean ====
section
/-! SUPPORT. Every operation of Machine/Scrub.lean keeps a state safe and its queue as it is. -/

namespace Sys2Proof.Machine

set_option linter.unreachableTactic false
set_option linter.unusedTactic false
set_option linter.unusedVariables false
set_option linter.unusedSimpArgs false

theorem State.updProt_kept {pq : List Instr} {s : State} (h : s.Kept pq) (f : Prot → Prot) : (s.updProt f).Kept pq := by
  unfold State.updProt
  repeat' (first | with_reducible assumption | simp only [kept_mk] | with_reducible apply kept_parts | with_reducible intro _ | dsimp only | split)

theorem State.scrubNote_kept {pq : List Instr} {s : State} (h : s.Kept pq) (a : Nat) : (s.scrubNote a).Kept pq := by
  unfold State.scrubNote
  repeat' (first | with_reducible assumption | with_reducible apply State.updProt_kept | simp only [kept_mk] | with_reducible apply kept_parts | with_reducible intro _ | dsimp only | split)

theorem State.sramPassEnd_kept {pq : List Instr} {s : State} (h : s.Kept pq) : s.sramPassEnd.Kept pq := by
  unfold State.sramPassEnd
  repeat' (first | with_reducible assumption | with_reducible apply State.updProt_kept | simp only [kept_mk] | with_reducible apply kept_parts | with_reducible intro _ | dsimp only | split)

theorem State.scrubWord_kept {pq : List Instr} {s : State} (h : s.Kept pq) : s.scrubWord.Kept pq := by
  unfold State.scrubWord
  repeat' (first | with_reducible assumption | with_reducible apply State.eccRead_kept | with_reducible apply State.scrubNote_kept | with_reducible apply State.updProt_kept | with_reducible apply State.sramPassEnd_kept | simp only [kept_mk] | with_reducible apply kept_parts | with_reducible intro _ | dsimp only | split)

theorem State.sramScrub_kept {pq : List Instr} {s : State} (h : s.Kept pq) : s.sramScrub.Kept pq := by
  unfold State.sramScrub
  repeat' (first | with_reducible assumption | with_reducible apply State.updProt_kept | with_reducible apply State.raise_kept | with_reducible apply State.each_kept | with_reducible apply State.scrubWord_kept | simp only [kept_mk] | with_reducible apply kept_parts | with_reducible intro _ | dsimp only | split)

theorem State.flashPassTime_kept {pq : List Instr} {s : State} (h : s.Kept pq) (us : Nat) : (s.flashPassTime us).Kept pq := by
  unfold State.flashPassTime
  repeat' (first | with_reducible assumption | with_reducible apply State.updProt_kept | with_reducible apply State.raise_kept | simp only [kept_mk] | with_reducible apply kept_parts | with_reducible intro _ | dsimp only | split)

theorem State.flashScrub_kept {pq : List Instr} {s : State} (h : s.Kept pq) : s.flashScrub.Kept pq := by
  unfold State.flashScrub
  repeat' (first | with_reducible assumption | with_reducible apply State.flashPassTime_kept | with_reducible apply State.updTick_kept | with_reducible apply State.flashRead_kept | with_reducible apply State.updProt_kept | simp only [kept_mk] | with_reducible apply kept_parts | with_reducible intro _ | dsimp only | split)

theorem State.protClear_kept {pq : List Instr} {s : State} (h : s.Kept pq) (v : Word) : (s.protClear v).Kept pq := by
  unfold State.protClear
  repeat' (first | with_reducible assumption | with_reducible apply State.wrWhole_kept | with_reducible apply State.cellWritten_kept | simp only [kept_mk] | with_reducible apply kept_parts | with_reducible intro _ | dsimp only | split)

theorem State.flipBits_kept {pq : List Instr} {s : State} (h : s.Kept pq) (key : Nat) (k : Nat) : (s.flipBits key k).Kept pq := by
  unfold State.flipBits
  repeat' (first | with_reducible assumption | with_reducible apply State.setEcc_kept | simp only [kept_mk] | with_reducible apply kept_parts | with_reducible intro _ | dsimp only | split)

theorem State.protInject_kept {pq : List Instr} {s : State} (h : s.Kept pq) (v : Word) : (s.protInject v).1.Kept pq := by
  unfold State.protInject
  repeat' (first | with_reducible assumption | with_reducible apply State.flipBits_kept | with_reducible apply State.cellWritten_kept | simp only [kept_mk] | with_reducible apply kept_parts | with_reducible intro _ | dsimp only | split)

theorem State.ev69_kept {pq : List Instr} {s : State} (h : s.Kept pq) (sect : Nat) (kind : Nat) : (s.ev69 sect kind).Kept pq := by
  unfold State.ev69
  repeat' (first | with_reducible assumption | with_reducible apply State.raise_kept | simp only [kept_mk] | with_reducible apply kept_parts | with_reducible intro _ | dsimp only | split)

theorem State.fieldRepair_kept {pq : List Instr} {s : State} (h : s.Kept pq) (sect : Nat) (fails : Bool) (line : Bool × Nat) : (s.fieldRepair sect fails line).Kept pq := by
  unfold State.fieldRepair
  repeat' (first | with_reducible assumption | with_reducible apply State.updProt_kept | with_reducible apply State.ev69_kept | simp only [kept_mk] | with_reducible apply kept_parts | with_reducible intro _ | dsimp only | split)

theorem State.setTest_kept {pq : List Instr} {s : State} (h : s.Kept pq) (block : Nat) (t : Option Test) : (s.setTest block t).Kept pq := by
  unfold State.setTest
  repeat' (first | with_reducible assumption | simp only [kept_mk] | with_reducible apply kept_parts | with_reducible intro _ | dsimp only | split)

theorem State.deepStart_kept {pq : List Instr} {s : State} (h : s.Kept pq) (t : Test) : (s.deepStart t).Kept pq := by
  unfold State.deepStart
  repeat' (first | with_reducible assumption | with_reducible apply State.fits_kept | with_reducible apply State.loosen_kept | with_reducible apply State.setTest_kept | simp only [kept_mk] | with_reducible apply kept_parts | with_reducible intro _ | dsimp only | split)

theorem State.testStart_kept {pq : List Instr} {s : State} (h : s.Kept pq) (block : Nat) (t : Test) : (s.testStart block t).Kept pq := by
  unfold State.testStart
  repeat' (first | with_reducible assumption | with_reducible apply State.setTest_kept | with_reducible apply State.updLamp_kept | with_reducible apply State.deepStart_kept | simp only [kept_mk] | with_reducible apply kept_parts | with_reducible intro _ | dsimp only | split)

theorem State.dieTested_kept {pq : List Instr} {s : State} (h : s.Kept pq) (fan : Nat) (bad : List Nat) : (s.dieTested fan bad).Kept pq := by
  unfold State.dieTested
  repeat' (first | with_reducible assumption | with_reducible apply State.each_kept | with_reducible apply State.updSensor_kept | with_reducible apply State.setSensor_kept | simp only [kept_mk] | with_reducible apply kept_parts | with_reducible intro _ | dsimp only | split)

theorem State.testRecord_kept {pq : List Instr} {s : State} (h : s.Kept pq) (block : Nat) (t : Test) (aborted pass : Bool) (detail : Word) :
    (s.testRecord block t aborted pass detail).1.Kept pq := by
  unfold State.testRecord
  repeat' (first | with_reducible assumption | with_reducible apply State.padFault_kept | with_reducible apply State.updLamp_kept | with_reducible apply State.lampFault_kept | with_reducible apply State.dieTested_kept | with_reducible apply State.each_kept | with_reducible apply State.retire_kept | simp only [kept_mk] | with_reducible apply kept_parts | with_reducible intro _ | dsimp only | split)

theorem State.testEnd_kept {pq : List Instr} {s : State} (h : s.Kept pq) (block : Nat) (pass : Bool) (detail : Word) : (s.testEnd block pass detail).Kept pq := by
  unfold State.testEnd
  repeat' (first | with_reducible assumption | with_reducible apply State.setTest_kept | with_reducible apply State.testRecord_kept | with_reducible apply State.finishId_kept | simp only [kept_mk] | with_reducible apply kept_parts | with_reducible intro _ | dsimp only | split)

theorem State.testAbort_kept {pq : List Instr} {s : State} (h : s.Kept pq) (block : Nat) : (s.testAbort block).Kept pq := by
  unfold State.testAbort
  repeat' (first | with_reducible assumption | with_reducible apply State.setTest_kept | with_reducible apply State.testRecord_kept | with_reducible apply State.finishId_kept | simp only [kept_mk] | with_reducible apply kept_parts | with_reducible intro _ | dsimp only | split)

end Sys2Proof.Machine
end

