-- ==== Sys2Proof/Laws/KeptPower.lean ====
section
/-! SUPPORT. Every operation of Machine/Power.lean keeps a state safe and its queue as it is. -/

namespace Sys2Proof.Machine

set_option linter.unreachableTactic false
set_option linter.unusedTactic false
set_option linter.unusedVariables false
set_option linter.unusedSimpArgs false

theorem State.updPwr_kept {pq : List Instr} {s : State} (h : s.Kept pq) (f : Pwr → Pwr) : (s.updPwr f).Kept pq := by
  unfold State.updPwr
  repeat' (first | with_reducible assumption | simp only [kept_mk] | with_reducible apply kept_parts | with_reducible intro _ | dsimp only | split)

theorem State.raiseAfter_kept {pq : List Instr} {s : State} (h : s.Kept pq) (e : Nat) (data : Word) : (s.raiseAfter e data).Kept pq := by
  unfold State.raiseAfter
  repeat' (first | with_reducible assumption | with_reducible apply State.place_kept | simp only [kept_mk] | with_reducible apply kept_parts | with_reducible intro _ | dsimp only | split)

theorem State.afterOne_kept {pq : List Instr} {s : State} (h : s.Kept pq) (h' : Held) : (s.afterOne h').Kept pq := by
  unfold State.afterOne
  repeat' (first | with_reducible assumption | with_reducible apply State.place_kept | simp only [kept_mk] | with_reducible apply kept_parts | with_reducible intro _ | dsimp only | split)

theorem State.releaseAfter_kept {pq : List Instr} {s : State} (h : s.Kept pq) : s.releaseAfter.Kept pq := by
  unfold State.releaseAfter
  repeat' (first | with_reducible assumption | with_reducible apply State.afterOne_kept | with_reducible apply foldl_kept | simp only [kept_mk] | with_reducible apply kept_parts | with_reducible intro _ | dsimp only | split)

theorem State.hbRestart_kept {pq : List Instr} {s : State} (h : s.Kept pq) : s.hbRestart.Kept pq := by
  unfold State.hbRestart
  repeat' (first | with_reducible assumption | with_reducible apply State.each_kept | with_reducible apply State.updTen_kept | simp only [kept_mk] | with_reducible apply kept_parts | with_reducible intro _ | dsimp only | split)

theorem State.ajarEnd_kept {pq : List Instr} {s : State} (h : s.Kept pq) : s.ajarEnd.Kept pq := by
  unfold State.ajarEnd
  repeat' (first | with_reducible assumption | with_reducible apply State.updPwr_kept | with_reducible apply State.hbRestart_kept | simp only [kept_mk] | with_reducible apply kept_parts | with_reducible intro _ | dsimp only | split)

theorem State.ev80_kept {pq : List Instr} {s : State} (h : s.Kept pq) : s.ev80.Kept pq := by
  unfold State.ev80
  repeat' (first | with_reducible assumption | with_reducible apply State.raise_kept | with_reducible apply State.result_kept | simp only [kept_mk] | with_reducible apply kept_parts | with_reducible intro _ | dsimp only | split)

theorem State.entryEnd_kept {pq : List Instr} {s : State} (h : s.Kept pq) (result : Nat) (refuser : Nat) : (s.entryEnd result refuser).Kept pq := by
  unfold State.entryEnd
  repeat' (first | with_reducible assumption | with_reducible apply State.lampResume_kept | with_reducible apply State.updPwr_kept | with_reducible apply State.enqueueWaiting_kept | with_reducible apply State.ev80_kept | with_reducible apply State.pairsGo_kept | simp only [kept_mk] | with_reducible apply kept_parts | with_reducible intro _ | dsimp only | split)

theorem State.exitStart_kept {pq : List Instr} {s : State} (h : s.Kept pq) (srcs : BitVec 6) (replayed : Bool) : (s.exitStart srcs replayed).Kept pq := by
  unfold State.exitStart
  repeat' (first | with_reducible assumption | with_reducible apply State.updPwr_kept | simp only [kept_mk] | with_reducible apply kept_parts | with_reducible intro _ | dsimp only | split)

theorem State.ev81_kept {pq : List Instr} {s : State} (h : s.Kept pq) : s.ev81.Kept pq := by
  unfold State.ev81
  repeat' (first | with_reducible assumption | with_reducible apply State.raiseAfter_kept | simp only [kept_mk] | with_reducible apply kept_parts | with_reducible intro _ | dsimp only | split)

theorem State.ajarExit_kept {pq : List Instr} {s : State} (h : s.Kept pq) : s.ajarExit.Kept pq := by
  unfold State.ajarExit
  repeat' (first | with_reducible assumption | with_reducible apply State.updPwr_kept | with_reducible apply State.ajarEnd_kept | with_reducible apply State.ev81_kept | simp only [kept_mk] | with_reducible apply kept_parts | with_reducible intro _ | dsimp only | split)

theorem State.wakeEnds_kept {pq : List Instr} {s : State} (h : s.Kept pq) : s.wakeEnds.Kept pq := by
  unfold State.wakeEnds
  repeat' (first | with_reducible assumption | with_reducible apply State.entryEnd_kept | with_reducible apply State.ajarExit_kept | simp only [kept_mk] | with_reducible apply kept_parts | with_reducible intro _ | dsimp only | split)

theorem State.takeWake_kept {pq : List Instr} {s : State} (h : s.Kept pq) (src : Nat) : (s.takeWake src).Kept pq := by
  unfold State.takeWake
  repeat' (first | with_reducible assumption | with_reducible apply State.updPwr_kept | with_reducible apply State.wakeEnds_kept | with_reducible apply State.exitStart_kept | with_reducible apply State.ajarExit_kept | simp only [kept_mk] | with_reducible apply kept_parts | with_reducible intro _ | dsimp only | split)

theorem State.wakeNHeld_kept {pq : List Instr} {s : State} (h : s.Kept pq) : s.wakeNHeld.Kept pq := by
  unfold State.wakeNHeld
  repeat' (first | with_reducible assumption | with_reducible apply State.drawn_kept | with_reducible apply State.updPwr_kept | with_reducible apply State.takeWake_kept | simp only [kept_mk] | with_reducible apply kept_parts | with_reducible intro _ | dsimp only | split)

theorem State.pwrRequest_kept {pq : List Instr} {s : State} (h : s.Kept pq) (want : Nat) (force : Bool) : (s.pwrRequest want force).Kept pq := by
  unfold State.pwrRequest
  repeat' (first | with_reducible assumption | with_reducible apply State.updPwr_kept | with_reducible apply State.ajarEnd_kept | with_reducible apply State.wakeNHeld_kept | simp only [kept_mk] | with_reducible apply kept_parts | with_reducible intro _ | dsimp only | split)

theorem State.commit_kept {pq : List Instr} {s : State} (h : s.Kept pq) : s.commit.Kept pq := by
  unfold State.commit
  repeat' (first | with_reducible assumption | with_reducible apply State.updPwr_kept | with_reducible apply State.closeBanks_kept | with_reducible apply State.closeGen_kept | with_reducible apply State.drawn_kept | with_reducible apply State.updTick_kept | simp only [kept_mk] | with_reducible apply kept_parts | with_reducible intro _ | dsimp only | split)

theorem State.query_kept {pq : List Instr} {s : State} (h : s.Kept pq) : s.query.Kept pq := by
  unfold State.query
  repeat' (first | with_reducible assumption | with_reducible apply State.updPwr_kept | with_reducible apply State.lampAsk_kept | with_reducible apply State.entryEnd_kept | with_reducible apply State.commit_kept | simp only [kept_mk] | with_reducible apply kept_parts | with_reducible intro _ | dsimp only | split)

theorem State.powerGuard_kept {pq : List Instr} {s : State} (h : s.Kept pq) : s.powerGuard.Kept pq := by
  unfold State.powerGuard
  repeat' (first | with_reducible assumption | with_reducible apply State.updPwr_kept | with_reducible apply State.query_kept | simp only [kept_mk] | with_reducible apply kept_parts | with_reducible intro _ | dsimp only | split)

theorem State.overruns_kept {pq : List Instr} {s : State} (h : s.Kept pq) : s.overruns.Kept pq := by
  unfold State.overruns
  repeat' (first | with_reducible assumption | with_reducible apply State.updRun_kept | with_reducible apply State.raise_kept | with_reducible apply foldl_kept | simp only [kept_mk] | with_reducible apply kept_parts | with_reducible intro _ | dsimp only | split)

theorem State.guardSlot_kept {pq : List Instr} {s : State} (h : s.Kept pq) : s.guardSlot.Kept pq := by
  unfold State.guardSlot
  repeat' (first | with_reducible assumption | with_reducible apply State.adcGuard_kept | with_reducible apply State.verifyArmed_kept | with_reducible apply State.overruns_kept | with_reducible apply State.powerGuard_kept | simp only [kept_mk] | with_reducible apply kept_parts | with_reducible intro _ | dsimp only | split)

theorem State.sleepPort_kept {pq : List Instr} {s : State} (h : s.Kept pq) (dn : Bool) : (s.sleepPort dn).Kept pq := by
  unfold State.sleepPort
  repeat' (first | with_reducible assumption | with_reducible apply State.emit_kept | with_reducible apply State.hopOff_kept | simp only [kept_mk] | with_reducible apply kept_parts | with_reducible intro _ | dsimp only | split)

theorem State.dropped_kept {pq : List Instr} {s : State} (h : s.Kept pq) (rsp : Bool) (n : Nat) : (s.dropped rsp n).Kept pq := by
  unfold State.dropped
  repeat' (first | with_reducible assumption | with_reducible apply State.updLink_kept | with_reducible apply State.raise_kept | simp only [kept_mk] | with_reducible apply kept_parts | with_reducible intro _ | dsimp only | split)

theorem State.dropLocal_kept {pq : List Instr} {s : State} (h : s.Kept pq) : s.dropLocal.Kept pq := by
  unfold State.dropLocal
  repeat' (first | with_reducible assumption | with_reducible apply State.updLink_kept | with_reducible apply State.dropped_kept | with_reducible apply State.hold_kept | simp only [kept_mk] | with_reducible apply kept_parts | with_reducible intro _ | dsimp only | split)

theorem State.linkOff_kept {pq : List Instr} {s : State} (h : s.Kept pq) : s.linkOff.Kept pq := by
  unfold State.linkOff
  repeat' (first | with_reducible assumption | with_reducible apply State.dropLocal_kept | with_reducible apply State.sleepPort_kept | simp only [kept_mk] | with_reducible apply kept_parts | with_reducible intro _ | dsimp only | split)

theorem State.entryComplete_kept {pq : List Instr} {s : State} (h : s.Kept pq) (us : Nat) : (s.entryComplete us).Kept pq := by
  unfold State.entryComplete
  repeat' (first | with_reducible assumption | with_reducible apply State.updPwr_kept | with_reducible apply State.linkOff_kept | with_reducible apply State.scanOff_kept | with_reducible apply State.ev80_kept | with_reducible apply State.exitStart_kept | simp only [kept_mk] | with_reducible apply kept_parts | with_reducible intro _ | dsimp only | split)

theorem State.restartTick_kept {pq : List Instr} {s : State} (h : s.Kept pq) : s.restartTick.Kept pq := by
  unfold State.restartTick
  repeat' (first | with_reducible assumption | with_reducible apply State.updTick_kept | with_reducible apply State.loadNumber_kept | with_reducible apply State.boundarySteps_kept | with_reducible apply State.slotZero_kept | simp only [kept_mk] | with_reducible apply kept_parts | with_reducible intro _ | dsimp only | split)

theorem State.openReached_kept {pq : List Instr} {s : State} (h : s.Kept pq) (us : Nat) : (s.openReached us).Kept pq := by
  unfold State.openReached
  repeat' (first | with_reducible assumption | with_reducible apply State.updPwr_kept | with_reducible apply State.openBanks_kept | with_reducible apply State.releaseHeld_kept | with_reducible apply State.restartTick_kept | with_reducible apply State.hbRestart_kept | with_reducible apply State.enqueueWaiting_kept | with_reducible apply State.ev81_kept | with_reducible apply State.raiseAfter_kept | with_reducible apply State.awakeSend_kept | simp only [kept_mk] | with_reducible apply kept_parts | with_reducible intro _ | dsimp only | split)

theorem State.domReleased_kept {pq : List Instr} {s : State} (h : s.Kept pq) (d : Nat) : (s.domReleased d).Kept pq := by
  unfold State.domReleased
  repeat' (first | with_reducible assumption | with_reducible apply State.train_kept | with_reducible apply State.adcRestore_kept | with_reducible apply State.seqRestore_kept | simp only [kept_mk] | with_reducible apply kept_parts | with_reducible intro _ | dsimp only | split)

theorem State.restoreStage_kept {pq : List Instr} {s : State} (h : s.Kept pq) (d : Nat) (us : Nat) : (s.restoreStage d us).Kept pq := by
  unfold State.restoreStage
  repeat' (first | with_reducible assumption | with_reducible apply State.updPwr_kept | with_reducible apply State.domReleased_kept | with_reducible apply State.openReached_kept | simp only [kept_mk] | with_reducible apply kept_parts | with_reducible intro _ | dsimp only | split)

theorem State.wakeN_kept {pq : List Instr} {s : State} (h : s.Kept pq) : s.wakeN.Kept pq := by
  unfold State.wakeN
  repeat' (first | with_reducible assumption | with_reducible apply State.updPwr_kept | with_reducible apply State.takeWake_kept | simp only [kept_mk] | with_reducible apply kept_parts | with_reducible intro _ | dsimp only | split)

theorem State.rtcAlarm_kept {pq : List Instr} {s : State} (h : s.Kept pq) : s.rtcAlarm.Kept pq := by
  unfold State.rtcAlarm
  repeat' (first | with_reducible assumption | with_reducible apply State.raise_kept | with_reducible apply State.takeWake_kept | simp only [kept_mk] | with_reducible apply kept_parts | with_reducible intro _ | dsimp only | split)

theorem State.rowWake_kept {pq : List Instr} {s : State} (h : s.Kept pq) (row : Nat) : (s.rowWake row).Kept pq := by
  unfold State.rowWake
  repeat' (first | with_reducible assumption | with_reducible apply State.takeWake_kept | simp only [kept_mk] | with_reducible apply kept_parts | with_reducible intro _ | dsimp only | split)

theorem State.rowAgain_kept {pq : List Instr} {s : State} (h : s.Kept pq) (row : Nat) : (s.rowAgain row).Kept pq := by
  unfold State.rowAgain
  repeat' (first | with_reducible assumption | with_reducible apply State.updPwr_kept | simp only [kept_mk] | with_reducible apply kept_parts | with_reducible intro _ | dsimp only | split)

theorem State.keyWake_kept {pq : List Instr} {s : State} (h : s.Kept pq) (before : List Nat) (kp : Bool) : (s.keyWake before kp).Kept pq := by
  unfold State.keyWake
  repeat' (first | with_reducible assumption | with_reducible apply State.takeWake_kept | simp only [kept_mk] | with_reducible apply kept_parts | with_reducible intro _ | dsimp only | split)

theorem State.keyStep_kept {pq : List Instr} {s : State} (h : s.Kept pq) (kp : Bool) (c : Nat) (rows : BitVec 16) : (s.keyStep kp c rows).Kept pq := by
  unfold State.keyStep
  repeat' (first | with_reducible assumption | with_reducible apply State.keyColumn_kept | with_reducible apply State.keyWake_kept | simp only [kept_mk] | with_reducible apply kept_parts | with_reducible intro _ | dsimp only | split)

theorem State.lvEntry_kept {pq : List Instr} {s : State} (h : s.Kept pq) (mv : Nat) (k : Nat) (xs : List (Int × Int)) : (s.lvEntry mv k xs).1.Kept pq := by
  unfold State.lvEntry
  repeat' (first | with_reducible assumption | with_reducible apply State.updPwr_kept | simp only [kept_mk] | with_reducible apply kept_parts | with_reducible intro _ | dsimp only | split)

theorem State.lvRun_kept {pq : List Instr} {s : State} (h : s.Kept pq) (mv : Nat) (samples : List (List (Int × Int))) (x0 : List Nat) (x1 : Nat) : (s.lvRun mv samples x0 x1).1.Kept pq := by
  induction x0 generalizing s x1 with
  | nil => exact h
  | cons a l ih =>
    unfold State.lvRun
    repeat' (first | with_reducible assumption | with_reducible apply ih | with_reducible apply State.lvEntry_kept | simp only [kept_mk] | with_reducible apply kept_parts | with_reducible intro _ | dsimp only | split)

theorem State.lvCut_kept {pq : List Instr} {s : State} (h : s.Kept pq) (converted : Nat) : (s.lvCut converted).Kept pq := by
  unfold State.lvCut
  repeat' (first | with_reducible assumption | with_reducible apply State.drawn_kept | with_reducible apply State.updPwr_kept | simp only [kept_mk] | with_reducible apply kept_parts | with_reducible intro _ | dsimp only | split)

theorem State.louvre_kept {pq : List Instr} {s : State} (h : s.Kept pq) (mv : Nat) (samples : List (List (Int × Int))) : (s.louvre mv samples).Kept pq := by
  unfold State.louvre
  repeat' (first | with_reducible assumption | with_reducible apply State.lvRun_kept | with_reducible apply State.updPwr_kept | with_reducible apply State.takeWake_kept | with_reducible apply State.lvCut_kept | simp only [kept_mk] | with_reducible apply kept_parts | with_reducible intro _ | dsimp only | split)

end Sys2Proof.Machine
end

