-- ==== Sys2Proof/Laws/KeptDebug.lean ====
section
/-! SUPPORT. Every operation of Machine/Debug.lean keeps a state safe and its queue as it is. -/

namespace Sys2Proof.Machine

set_option linter.unreachableTactic false
set_option linter.unusedTactic false
set_option linter.unusedVariables false
set_option linter.unusedSimpArgs false

theorem State.updDbg_kept {pq : List Instr} {s : State} (h : s.Kept pq) (f : Dbg → Dbg) : (s.updDbg f).Kept pq := by
  unfold State.updDbg
  repeat' (first | with_reducible assumption | simp only [kept_mk] | with_reducible apply kept_parts | with_reducible intro _ | dsimp only | split)

theorem State.tapLoad_kept {pq : List Instr} {s : State} (h : s.Kept pq) (i : TapIr) : (s.tapLoad i).Kept pq := by
  unfold State.tapLoad
  repeat' (first | with_reducible assumption | with_reducible apply State.updDbg_kept | simp only [kept_mk] | with_reducible apply kept_parts | with_reducible intro _ | dsimp only | split)

theorem State.tapScan_kept {pq : List Instr} {s : State} (h : s.Kept pq) (i : TapIr) (pins : BitVec 474) : (s.tapScan i pins).Kept pq := by
  unfold State.tapScan
  repeat' (first | with_reducible assumption | with_reducible apply State.updDbg_kept | simp only [kept_mk] | with_reducible apply kept_parts | with_reducible intro _ | dsimp only | split)

theorem State.tapIdcode_kept {pq : List Instr} {s : State} (h : s.Kept pq) : s.tapIdcode.Kept pq := by
  unfold State.tapIdcode
  repeat' (first | with_reducible assumption | with_reducible apply State.tapLoad_kept | simp only [kept_mk] | with_reducible apply kept_parts | with_reducible intro _ | dsimp only | split)

theorem State.tapRelease_kept {pq : List Instr} {s : State} (h : s.Kept pq) : s.tapRelease.Kept pq := by
  unfold State.tapRelease
  repeat' (first | with_reducible assumption | with_reducible apply State.updDbg_kept | simp only [kept_mk] | with_reducible apply kept_parts | with_reducible intro _ | dsimp only | split)

theorem State.seqStep_kept {pq : List Instr} {s : State} (h : s.Kept pq) (sys : Bool) (j : Job) (off : Nat) (v : Word) : (s.seqStep sys j off v).Kept pq := by
  unfold State.seqStep
  repeat' (first | with_reducible assumption | with_reducible apply State.seqCommand_kept | simp only [kept_mk] | with_reducible apply kept_parts | with_reducible intro _ | dsimp only | split)

theorem State.winVoid_kept {pq : List Instr} {s : State} (h : s.Kept pq) (p : Nat) : (s.winVoid p).Kept pq := by
  unfold State.winVoid
  repeat' (first | with_reducible assumption | simp only [kept_mk] | with_reducible apply kept_parts | with_reducible intro _ | dsimp only | split)

theorem State.accServe_kept {pq : List Instr} {s : State} (h : s.Kept pq) : s.accServe.Kept pq := by
  unfold State.accServe
  repeat' (first | with_reducible assumption | with_reducible apply State.flashBytes_kept | simp only [kept_mk] | with_reducible apply kept_parts | with_reducible intro _ | dsimp only | split)

theorem State.accDo_kept {pq : List Instr} {s : State} (h : s.Kept pq) {f : State → State} (hff : ∀ s, s.Kept pq → (f s).Kept pq) : (s.accDo f).Kept pq := by
  unfold State.accDo
  repeat' (first | with_reducible apply hff | with_reducible assumption | with_reducible apply State.tapLoad_kept | with_reducible apply State.accServe_kept | simp only [kept_mk] | with_reducible apply kept_parts | with_reducible intro _ | dsimp only | split)

theorem State.accWrite_kept {pq : List Instr} {s : State} (h : s.Kept pq) (addr : BitVec 21) (v : Word) : (s.accWrite addr v).Kept pq := by
  unfold State.accWrite
  repeat' (first | with_reducible assumption | with_reducible apply State.accDo_kept | with_reducible apply State.seqStep_kept | simp only [kept_mk] | with_reducible apply kept_parts | with_reducible intro _ | dsimp only | split)

theorem State.accRead_kept {pq : List Instr} {s : State} (h : s.Kept pq) (addr : BitVec 21) : (s.accRead addr).Kept pq := by
  unfold State.accRead
  repeat' (first | with_reducible assumption | with_reducible apply State.accDo_kept | with_reducible apply State.accServe_kept | simp only [kept_mk] | with_reducible apply kept_parts | with_reducible intro _ | dsimp only | split)

theorem State.accStatus_kept {pq : List Instr} {s : State} (h : s.Kept pq) : s.accStatus.Kept pq := by
  unfold State.accStatus
  repeat' (first | with_reducible assumption | with_reducible apply State.accDo_kept | simp only [kept_mk] | with_reducible apply kept_parts | with_reducible intro _ | dsimp only | split)

theorem State.unlockFail_kept {pq : List Instr} {s : State} (h : s.Kept pq) : s.unlockFail.Kept pq := by
  unfold State.unlockFail
  repeat' (first | with_reducible assumption | simp only [kept_mk] | with_reducible apply kept_parts | with_reducible intro _ | dsimp only | split)

theorem State.unlockAsk_kept {pq : List Instr} {s : State} (h : s.Kept pq) : s.unlockAsk.Kept pq := by
  unfold State.unlockAsk
  repeat' (first | with_reducible assumption | with_reducible apply State.unlockFail_kept | with_reducible apply State.drawn_kept | with_reducible apply State.updDbg_kept | simp only [kept_mk] | with_reducible apply kept_parts | with_reducible intro _ | dsimp only | split)

theorem State.chalRead_kept {pq : List Instr} {s : State} (h : s.Kept pq) : s.chalRead.1.Kept pq := by
  unfold State.chalRead
  repeat' (first | with_reducible assumption | with_reducible apply State.updDbg_kept | simp only [kept_mk] | with_reducible apply kept_parts | with_reducible intro _ | dsimp only | split)

theorem State.unlockJudge_kept {pq : List Instr} {s : State} (h : s.Kept pq) (c : BitVec 128) : (s.unlockJudge c).Kept pq := by
  unfold State.unlockJudge
  repeat' (first | with_reducible assumption | with_reducible apply State.unlockFail_kept | simp only [kept_mk] | with_reducible apply kept_parts | with_reducible intro _ | dsimp only | split)

theorem State.chalWrite_kept {pq : List Instr} {s : State} (h : s.Kept pq) (v : Word) : (s.chalWrite v).Kept pq := by
  unfold State.chalWrite
  repeat' (first | with_reducible assumption | with_reducible apply State.unlockFail_kept | with_reducible apply State.updDbg_kept | with_reducible apply State.unlockJudge_kept | simp only [kept_mk] | with_reducible apply kept_parts | with_reducible intro _ | dsimp only | split)

theorem State.relock_kept {pq : List Instr} {s : State} (h : s.Kept pq) : s.relock.Kept pq := by
  unfold State.relock
  repeat' (first | with_reducible assumption | simp only [kept_mk] | with_reducible apply kept_parts | with_reducible intro _ | dsimp only | split)

theorem State.peepWrite_kept {pq : List Instr} {s : State} (h : s.Kept pq) (v : Word) : (s.peepWrite v).Kept pq := by
  unfold State.peepWrite
  repeat' (first | with_reducible assumption | with_reducible apply State.updDbg_kept | simp only [kept_mk] | with_reducible apply kept_parts | with_reducible intro _ | dsimp only | split)

theorem State.peepSample_kept {pq : List Instr} {s : State} (h : s.Kept pq) : s.peepSample.1.Kept pq := by
  unfold State.peepSample
  repeat' (first | with_reducible assumption | with_reducible apply State.drawn_kept | simp only [kept_mk] | with_reducible apply kept_parts | with_reducible intro _ | dsimp only | split)

end Sys2Proof.Machine
end

