-- ==== Sys2Proof/Laws/KeptBoot.lean ====
section
/-! SUPPORT. Every operation of Machine/Boot.lean keeps a state safe and its queue as it is. -/

namespace Sys2Proof.Machine

set_option linter.unreachableTactic false
set_option linter.unusedTactic false
set_option linter.unusedVariables false
set_option linter.unusedSimpArgs false

theorem State.updSys_kept {pq : List Instr} {s : State} (h : s.Kept pq) (f : Sys → Sys) : (s.updSys f).Kept pq := by
  unfold State.updSys
  repeat' (first | with_reducible assumption | simp only [kept_mk] | with_reducible apply kept_parts | with_reducible intro _ | dsimp only | split)

theorem State.tornSector_kept {pq : List Instr} {s : State} (h : s.Kept pq) (p : Nat) : (s.tornSector p).Kept pq := by
  unfold State.tornSector
  repeat' (first | with_reducible assumption | with_reducible apply State.each_kept | with_reducible apply State.setFword_kept | simp only [kept_mk] | with_reducible apply kept_parts | with_reducible intro _ | dsimp only | split)

theorem State.flashCut_kept {pq : List Instr} {s : State} (h : s.Kept pq) : s.flashCut.Kept pq := by
  unfold State.flashCut
  repeat' (first | with_reducible assumption | with_reducible apply State.setFword_kept | with_reducible apply State.each_kept | with_reducible apply State.tornSector_kept | simp only [kept_mk] | with_reducible apply kept_parts | with_reducible intro _ | dsimp only | split)

theorem State.resetKeep_kept {pq : List Instr} {s : State} (h : s.Kept pq) : s.resetKeep.Kept pq := by
  unfold State.resetKeep
  repeat' (first | with_reducible assumption | with_reducible apply State.flashCut_kept | with_reducible apply kept_fresh | simp only [kept_mk] | with_reducible apply kept_parts | with_reducible intro _ | dsimp only | split)

theorem State.cause_kept {pq : List Instr} {s : State} (h : s.Kept pq) (bit : Nat) : (s.cause bit).Kept pq := by
  unfold State.cause
  repeat' (first | with_reducible assumption | with_reducible apply State.updSys_kept | simp only [kept_mk] | with_reducible apply kept_parts | with_reducible intro _ | dsimp only | split)

theorem State.readEach_kept {pq : List Instr} {s : State} (h : s.Kept pq) (x0 : List Nat) : (s.readEach x0).1.Kept pq := by
  induction x0 generalizing s with
  | nil => exact h
  | cons a l ih =>
    unfold State.readEach
    repeat' (first | with_reducible assumption | with_reducible apply ih | with_reducible apply State.flashRead_kept | simp only [kept_mk] | with_reducible apply kept_parts | with_reducible intro _ | dsimp only | split)

theorem State.records_kept {pq : List Instr} {s : State} (h : s.Kept pq) (types : List Nat) (sects : List Nat) : (s.records types sects).1.Kept pq := by
  unfold State.records
  repeat' (first | with_reducible assumption | with_reducible apply State.readEach_kept | simp only [kept_mk] | with_reducible apply kept_parts | with_reducible intro _ | dsimp only | split)

theorem State.factoryCopy_kept {pq : List Instr} {s : State} (h : s.Kept pq) (sect : Nat) : (s.factoryCopy sect).1.Kept pq := by
  unfold State.factoryCopy
  repeat' (first | with_reducible assumption | with_reducible apply State.readEach_kept | simp only [kept_mk] | with_reducible apply kept_parts | with_reducible intro _ | dsimp only | split)

theorem State.factoryMap_kept {pq : List Instr} {s : State} (h : s.Kept pq) : s.factoryMap.1.Kept pq := by
  unfold State.factoryMap
  repeat' (first | with_reducible assumption | with_reducible apply State.factoryCopy_kept | simp only [kept_mk] | with_reducible apply kept_parts | with_reducible intro _ | dsimp only | split)

theorem State.applyGrown_kept {pq : List Instr} {s : State} (h : s.Kept pq) (d : DWord) : (s.applyGrown d).Kept pq := by
  unfold State.applyGrown
  repeat' (first | with_reducible assumption | with_reducible apply State.setRemap_kept | with_reducible apply State.setSuspect_kept | simp only [kept_mk] | with_reducible apply kept_parts | with_reducible intro _ | dsimp only | split)

theorem State.ringLoad_kept {pq : List Instr} {s : State} (h : s.Kept pq) (rings : List (List DWord)) : (s.ringLoad rings).Kept pq := by
  unfold State.ringLoad
  repeat' (first | with_reducible assumption | simp only [kept_mk] | with_reducible apply kept_parts | with_reducible intro _ | dsimp only | split)

theorem State.ledgerLoad_kept {pq : List Instr} {s : State} (h : s.Kept pq) : s.ledgerLoad.Kept pq := by
  unfold State.ledgerLoad
  repeat' (first | with_reducible assumption | with_reducible apply State.factoryMap_kept | with_reducible apply State.records_kept | with_reducible apply State.setRemap_kept | with_reducible apply State.applyGrown_kept | with_reducible apply State.ringLoad_kept | with_reducible apply foldl_kept | simp only [kept_mk] | with_reducible apply kept_parts | with_reducible intro _ | dsimp only | split)

theorem State.recoverFail_kept {pq : List Instr} {s : State} (h : s.Kept pq) (p : Nat) : (s.recoverFail p).Kept pq := by
  unfold State.recoverFail
  repeat' (first | with_reducible assumption | with_reducible apply State.ledgerFail_kept | with_reducible apply State.putGrown_kept | with_reducible apply State.setRemap_kept | with_reducible apply State.poolWarn_kept | with_reducible apply State.flashFail_kept | with_reducible apply State.startSpare_kept | simp only [kept_mk] | with_reducible apply kept_parts | with_reducible intro _ | dsimp only | split)

theorem State.ledgerRecover_kept {pq : List Instr} {s : State} (h : s.Kept pq) (marginFails : Bool) (pass : Bool) (pulses : Nat) : (s.ledgerRecover marginFails pass pulses).Kept pq := by
  unfold State.ledgerRecover
  repeat' (first | with_reducible assumption | with_reducible apply State.eraseSector_kept | with_reducible apply State.sealedErased_kept | with_reducible apply State.putJournal_kept | with_reducible apply State.recoverFail_kept | with_reducible apply State.raise_kept | with_reducible apply State.each_kept | with_reducible apply State.setSuspect_kept | with_reducible apply State.putGrown_kept | simp only [kept_mk] | with_reducible apply kept_parts | with_reducible intro _ | dsimp only | split)

theorem State.selectors_kept {pq : List Instr} {s : State} (h : s.Kept pq) (sect : Nat) : (s.selectors sect).1.Kept pq := by
  unfold State.selectors
  repeat' (first | with_reducible assumption | with_reducible apply State.readEach_kept | simp only [kept_mk] | with_reducible apply kept_parts | with_reducible intro _ | dsimp only | split)

theorem State.selector_kept {pq : List Instr} {s : State} (h : s.Kept pq) : s.selector.1.Kept pq := by
  unfold State.selector
  repeat' (first | with_reducible assumption | with_reducible apply State.selectors_kept | simp only [kept_mk] | with_reducible apply kept_parts | with_reducible intro _ | dsimp only | split)

theorem State.leafVerify_kept {pq : List Instr} {s : State} (h : s.Kept pq) (leaf : Bool) : (s.leafVerify leaf).1.Kept pq := by
  unfold State.leafVerify
  repeat' (first | with_reducible assumption | with_reducible apply State.flashBytes_kept | simp only [kept_mk] | with_reducible apply kept_parts | with_reducible intro _ | dsimp only | split)

theorem State.bootErase_kept {pq : List Instr} {s : State} (h : s.Kept pq) (sect : Nat) : (s.bootErase sect).1.Kept pq := by
  unfold State.bootErase
  repeat' (first | with_reducible assumption | with_reducible apply State.putJournal_kept | with_reducible apply State.drawn_kept | with_reducible apply State.eraseSector_kept | with_reducible apply State.tornSector_kept | with_reducible apply State.ledgerFail_kept | simp only [kept_mk] | with_reducible apply kept_parts | with_reducible intro _ | dsimp only | split)

theorem State.bootSelect_kept {pq : List Instr} {s : State} (h : s.Kept pq) (leaf : Bool) (gen : Nat) (sect : Nat) : (s.bootSelect leaf gen sect).1.Kept pq := by
  unfold State.bootSelect
  repeat' (first | with_reducible assumption | with_reducible apply State.bootErase_kept | with_reducible apply State.drawn_kept | with_reducible apply State.setFword_kept | with_reducible apply State.ledgerFail_kept | simp only [kept_mk] | with_reducible apply kept_parts | with_reducible intro _ | dsimp only | split)

theorem State.leafRun_kept {pq : List Instr} {s : State} (h : s.Kept pq) (leaf : Bool) (hd : List Byte) (im : List Byte) : (s.leafRun leaf hd im).Kept pq := by
  unfold State.leafRun
  repeat' (first | with_reducible assumption | with_reducible apply State.wrWhole_kept | with_reducible apply State.updSys_kept | simp only [kept_mk] | with_reducible apply kept_parts | with_reducible intro _ | dsimp only | split)

theorem State.leafChosen_kept {pq : List Instr} {s : State} (h : s.Kept pq) (leaf : Bool) (named : Bool) (gen : Nat) (sect : Nat) (hd : List Byte) (im : List Byte) : (s.leafChosen leaf named gen sect hd im).Kept pq := by
  unfold State.leafChosen
  repeat' (first | with_reducible assumption | with_reducible apply State.leafRun_kept | with_reducible apply State.updSys_kept | with_reducible apply State.bootSelect_kept | simp only [kept_mk] | with_reducible apply kept_parts | with_reducible intro _ | dsimp only | split)

theorem State.leafBoot_kept {pq : List Instr} {s : State} (h : s.Kept pq) : s.leafBoot.Kept pq := by
  unfold State.leafBoot
  repeat' (first | with_reducible assumption | with_reducible apply State.selector_kept | with_reducible apply State.updSys_kept | with_reducible apply State.leafVerify_kept | with_reducible apply State.leafChosen_kept | simp only [kept_mk] | with_reducible apply kept_parts | with_reducible intro _ | dsimp only | split)

theorem State.bootRom_kept {pq : List Instr} {s : State} (h : s.Kept pq) (straps : BitVec 4) : (s.bootRom straps).Kept pq := by
  unfold State.bootRom
  repeat' (first | with_reducible assumption | with_reducible apply State.tapRelease_kept | with_reducible apply State.openBanks_kept | with_reducible apply State.train_kept | with_reducible apply State.ledgerLoad_kept | with_reducible apply State.leafBoot_kept | with_reducible apply kept_zeroed | simp only [kept_mk] | with_reducible apply kept_parts | with_reducible intro _ | dsimp only | split)

theorem State.resetPulse_kept {pq : List Instr} {s : State} (h : s.Kept pq) (bit : Nat) : (s.resetPulse bit).Kept pq := by
  unfold State.resetPulse
  repeat' (first | with_reducible assumption | with_reducible apply State.resetKeep_kept | with_reducible apply State.cause_kept | with_reducible apply State.bootRom_kept | simp only [kept_mk] | with_reducible apply kept_parts | with_reducible intro _ | dsimp only | split)

theorem State.resetLow_kept {pq : List Instr} {s : State} (h : s.Kept pq) : s.resetLow.Kept pq := by
  unfold State.resetLow
  repeat' (first | with_reducible assumption | with_reducible apply State.updSys_kept | with_reducible apply State.resetKeep_kept | with_reducible apply State.cause_kept | simp only [kept_mk] | with_reducible apply kept_parts | with_reducible intro _ | dsimp only | split)

theorem State.resetHigh_kept {pq : List Instr} {s : State} (h : s.Kept pq) (straps : BitVec 4) (high : BitVec 2) : (s.resetHigh straps high).Kept pq := by
  unfold State.resetHigh
  repeat' (first | with_reducible assumption | with_reducible apply State.updSys_kept | with_reducible apply State.bootRom_kept | simp only [kept_mk] | with_reducible apply kept_parts | with_reducible intro _ | dsimp only | split)

theorem State.softReset_kept {pq : List Instr} {s : State} (h : s.Kept pq) (v : Word) : (s.softReset v).1.Kept pq := by
  unfold State.softReset
  repeat' (first | with_reducible assumption | with_reducible apply State.resetPulse_kept | simp only [kept_mk] | with_reducible apply kept_parts | with_reducible intro _ | dsimp only | split)

theorem State.vaoLost_kept {pq : List Instr} {s : State} (h : s.Kept pq) : s.vaoLost.Kept pq := by
  unfold State.vaoLost
  repeat' (first | with_reducible assumption | with_reducible apply State.closeGen_kept | with_reducible apply State.resetKeep_kept | with_reducible apply State.cause_kept | with_reducible apply State.updPwr_kept | simp only [kept_mk] | with_reducible apply kept_parts | with_reducible intro _ | dsimp only | split)

theorem State.vaoBack_kept {pq : List Instr} {s : State} (h : s.Kept pq) : s.vaoBack.Kept pq := by
  unfold State.vaoBack
  repeat' (first | with_reducible assumption | with_reducible apply State.updPwr_kept | with_reducible apply State.bootRom_kept | simp only [kept_mk] | with_reducible apply kept_parts | with_reducible intro _ | dsimp only | split)

theorem State.supplyLost_kept {pq : List Instr} {s : State} (h : s.Kept pq) : s.supplyLost.Kept pq := by
  unfold State.supplyLost
  repeat' (first | with_reducible assumption | with_reducible apply State.flashCut_kept | with_reducible apply kept_fresh | simp only [kept_mk] | with_reducible apply kept_parts | with_reducible intro _ | dsimp only | split)

theorem State.powerUp_kept {pq : List Instr} {s : State} (h : s.Kept pq) : s.powerUp.Kept pq := by
  unfold State.powerUp
  repeat' (first | with_reducible assumption | with_reducible apply State.updPwr_kept | simp only [kept_mk] | with_reducible apply kept_parts | with_reducible intro _ | dsimp only | split)

theorem State.setSnap_kept {pq : List Instr} {s : State} (h : s.Kept pq) (gen : Nat) (v : KSnap) : (s.setSnap gen v).Kept pq := by
  unfold State.setSnap
  repeat' (first | with_reducible assumption | simp only [kept_mk] | with_reducible apply kept_parts | with_reducible intro _ | dsimp only | split)

theorem State.kstoreSave_kept {pq : List Instr} {s : State} (h : s.Kept pq) : s.kstoreSave.Kept pq := by
  unfold State.kstoreSave
  repeat' (first | with_reducible assumption | with_reducible apply State.inForce_kept | with_reducible apply State.setSnap_kept | with_reducible apply State.updSys_kept | with_reducible apply State.drawn_kept | with_reducible apply State.enqueueNew_kept | simp only [kept_mk] | with_reducible apply kept_parts | with_reducible intro _ | dsimp only | split)

theorem State.saveEnd_kept {pq : List Instr} {s : State} (h : s.Kept pq) : s.saveEnd.Kept pq := by
  unfold State.saveEnd
  repeat' (first | with_reducible assumption | with_reducible apply State.updSys_kept | with_reducible apply State.readBack_kept | simp only [kept_mk] | with_reducible apply kept_parts | with_reducible intro _ | dsimp only | split)

theorem State.applySnap_kept {pq : List Instr} {s : State} (h : s.Kept pq) (k : KSnap) : (s.applySnap k).Kept pq := by
  unfold State.applySnap
  repeat' (first | with_reducible assumption | with_reducible apply State.each_kept | with_reducible apply State.setDoor_kept | with_reducible apply State.updTen_kept | simp only [kept_mk] | with_reducible apply kept_parts | with_reducible intro _ | dsimp only | split)

theorem State.bootSettings_kept {pq : List Instr} {s : State} (h : s.Kept pq) : s.bootSettings.Kept pq := by
  unfold State.bootSettings
  repeat' (first | with_reducible assumption | with_reducible apply State.inForce_kept | with_reducible apply State.updSys_kept | with_reducible apply State.applySnap_kept | with_reducible apply State.each_kept | with_reducible apply State.updTen_kept | simp only [kept_mk] | with_reducible apply kept_parts | with_reducible intro _ | dsimp only | split)

theorem State.ev8_kept {pq : List Instr} {s : State} (h : s.Kept pq) : s.ev8.Kept pq := by
  unfold State.ev8
  repeat' (first | with_reducible assumption | with_reducible apply State.raise_kept | simp only [kept_mk] | with_reducible apply kept_parts | with_reducible intro _ | dsimp only | split)

theorem State.bootComplete_kept {pq : List Instr} {s : State} (h : s.Kept pq) : s.bootComplete.Kept pq := by
  unfold State.bootComplete
  repeat' (first | with_reducible assumption | with_reducible apply State.bootSettings_kept | with_reducible apply State.each_kept | with_reducible apply State.raise_kept | with_reducible apply State.ev8_kept | with_reducible apply State.updSys_kept | with_reducible apply State.releaseHeld_kept | with_reducible apply State.ev81_kept | with_reducible apply State.raiseAfter_kept | with_reducible apply State.updPwr_kept | with_reducible apply State.awakeSend_kept | simp only [kept_mk] | with_reducible apply kept_parts | with_reducible intro _ | dsimp only | split)

theorem State.swingVerify_kept {pq : List Instr} {s : State} (h : s.Kept pq) : s.swingVerify.Kept pq := by
  unfold State.swingVerify
  repeat' (first | with_reducible assumption | with_reducible apply State.leafVerify_kept | with_reducible apply State.updSys_kept | with_reducible apply State.selector_kept | with_reducible apply State.enqueueNew_kept | simp only [kept_mk] | with_reducible apply kept_parts | with_reducible intro _ | dsimp only | split)

theorem State.swingStart_kept {pq : List Instr} {s : State} (h : s.Kept pq) : s.swingStart.Kept pq := by
  unfold State.swingStart
  repeat' (first | with_reducible assumption | with_reducible apply State.updSys_kept | with_reducible apply State.swingVerify_kept | simp only [kept_mk] | with_reducible apply kept_parts | with_reducible intro _ | dsimp only | split)

theorem State.ev9_kept {pq : List Instr} {s : State} (h : s.Kept pq) (result : Nat) : (s.ev9 result).Kept pq := by
  unfold State.ev9
  repeat' (first | with_reducible assumption | with_reducible apply State.raise_kept | simp only [kept_mk] | with_reducible apply kept_parts | with_reducible intro _ | dsimp only | split)

theorem State.swingFinish_kept {pq : List Instr} {s : State} (h : s.Kept pq) : s.swingFinish.Kept pq := by
  unfold State.swingFinish
  repeat' (first | with_reducible assumption | with_reducible apply State.updSys_kept | with_reducible apply State.ev9_kept | simp only [kept_mk] | with_reducible apply kept_parts | with_reducible intro _ | dsimp only | split)

theorem State.bootConfirm_kept {pq : List Instr} {s : State} (h : s.Kept pq) : s.bootConfirm.Kept pq := by
  unfold State.bootConfirm
  repeat' (first | with_reducible assumption | with_reducible apply State.updSys_kept | simp only [kept_mk] | with_reducible apply kept_parts | with_reducible intro _ | dsimp only | split)

theorem State.failService_kept {pq : List Instr} {s : State} (h : s.Kept pq) (svc : Byte) : (s.failService svc).Kept pq := by
  unfold State.failService
  repeat' (first | with_reducible assumption | with_reducible apply State.failJob_kept | with_reducible apply foldl_kept | simp only [kept_mk] | with_reducible apply kept_parts | with_reducible intro _ | dsimp only | split)

theorem State.serviceRestart_kept {pq : List Instr} {s : State} (h : s.Kept pq) (a : Nat) : (s.serviceRestart a).Kept pq := by
  unfold State.serviceRestart
  repeat' (first | with_reducible assumption | with_reducible apply State.resetPulse_kept | with_reducible apply State.failService_kept | with_reducible apply State.updProt_kept | with_reducible apply State.raise_kept | simp only [kept_mk] | with_reducible apply kept_parts | with_reducible intro _ | dsimp only | split)

end Sys2Proof.Machine
end

