-- ==== Sys2Proof/Laws/KeptOperands.lean ====
section
/-! SUPPORT. Every operation of Machine/Operands.lean keeps a state safe and its queue as it is. -/

namespace Sys2Proof.Machine

set_option linter.unreachableTactic false
set_option linter.unusedTactic false
set_option linter.unusedVariables false
set_option linter.unusedSimpArgs false

theorem State.pageSide_kept {pq : List Instr} {s : State} (h : s.Kept pq) (t : Nat) (off : Nat) : (s.pageSide t off).Kept pq := by
  unfold State.pageSide
  repeat' (first | with_reducible assumption | with_reducible apply State.updTen_kept | simp only [kept_mk] | with_reducible apply kept_parts | with_reducible intro _ | dsimp only | split)

theorem State.doorbell_kept {pq : List Instr} {s : State} (h : s.Kept pq) (t : Nat) (v : BitVec 6) : (s.doorbell t v).1.Kept pq := by
  unfold State.doorbell
  repeat' (first | with_reducible assumption | with_reducible apply State.updTen_kept | simp only [kept_mk] | with_reducible apply kept_parts | with_reducible intro _ | dsimp only | split)

theorem State.rqHeadWrite_kept {pq : List Instr} {s : State} (h : s.Kept pq) (t : Nat) (v : BitVec 6) : (s.rqHeadWrite t v).1.Kept pq := by
  unfold State.rqHeadWrite
  repeat' (first | with_reducible assumption | with_reducible apply State.updTen_kept | simp only [kept_mk] | with_reducible apply kept_parts | with_reducible intro _ | dsimp only | split)

theorem State.eqHeadWrite_kept {pq : List Instr} {s : State} (h : s.Kept pq) (t : Nat) (v : BitVec 7) : (s.eqHeadWrite t v).1.Kept pq := by
  unfold State.eqHeadWrite
  repeat' (first | with_reducible assumption | with_reducible apply State.updTen_kept | simp only [kept_mk] | with_reducible apply kept_parts | with_reducible intro _ | dsimp only | split)

theorem State.winBaseWrite_kept {pq : List Instr} {s : State} (h : s.Kept pq) (t : Nat) (w : Nat) (v : Nat) : (s.winBaseWrite t w v).1.Kept pq := by
  unfold State.winBaseWrite
  repeat' (first | with_reducible assumption | with_reducible apply State.updTen_kept | simp only [kept_mk] | with_reducible apply kept_parts | with_reducible intro _ | dsimp only | split)

theorem State.winCtrlWrite_kept {pq : List Instr} {s : State} (h : s.Kept pq) (t : Nat) (w : Nat) (v : Nat) : (s.winCtrlWrite t w v).1.Kept pq := by
  unfold State.winCtrlWrite
  repeat' (first | with_reducible assumption | with_reducible apply State.updTen_kept | simp only [kept_mk] | with_reducible apply kept_parts | with_reducible intro _ | dsimp only | split)

theorem State.winCommitWrite_kept {pq : List Instr} {s : State} (h : s.Kept pq) (t : Nat) (v : Word) : (s.winCommitWrite t v).1.Kept pq := by
  unfold State.winCommitWrite
  repeat' (first | with_reducible assumption | with_reducible apply State.updTen_kept | simp only [kept_mk] | with_reducible apply kept_parts | with_reducible intro _ | dsimp only | split)

theorem State.pagePut_kept {pq : List Instr} {s : State} (h : s.Kept pq) (t : Nat) (off : Nat) (v : Word) (be : BitVec 4) : (s.pagePut t off v be).1.Kept pq := by
  unfold State.pagePut
  repeat' (first | with_reducible assumption | with_reducible apply State.updTen_kept | with_reducible apply State.doorbell_kept | with_reducible apply State.rqHeadWrite_kept | with_reducible apply State.eqHeadWrite_kept | with_reducible apply State.winCommitWrite_kept | with_reducible apply State.heartbeat_kept | with_reducible apply State.winBaseWrite_kept | with_reducible apply State.winCtrlWrite_kept | simp only [kept_mk] | with_reducible apply kept_parts | with_reducible intro _ | dsimp only | split)

theorem State.sysSide_kept {pq : List Instr} {s : State} (h : s.Kept pq) (off : Nat) : (s.sysSide off).Kept pq := by
  unfold State.sysSide
  repeat' (first | with_reducible assumption | with_reducible apply State.updSys_kept | with_reducible apply State.chalRead_kept | with_reducible apply State.drawn_kept | simp only [kept_mk] | with_reducible apply kept_parts | with_reducible intro _ | dsimp only | split)

theorem State.portReset_kept {pq : List Instr} {s : State} (h : s.Kept pq) (v : Word) : (s.portReset v).1.Kept pq := by
  unfold State.portReset
  repeat' (first | with_reducible assumption | with_reducible apply State.updSys_kept | simp only [kept_mk] | with_reducible apply kept_parts | with_reducible intro _ | dsimp only | split)

theorem State.pwrReqWrite_kept {pq : List Instr} {s : State} (h : s.Kept pq) (v : Word) : (s.pwrReqWrite v).1.Kept pq := by
  unfold State.pwrReqWrite
  repeat' (first | with_reducible assumption | with_reducible apply State.pwrRequest_kept | simp only [kept_mk] | with_reducible apply kept_parts | with_reducible intro _ | dsimp only | split)

theorem State.shutterRelease_kept {pq : List Instr} {s : State} (h : s.Kept pq) (m : BitVec 6) : (s.shutterRelease m).Kept pq := by
  unfold State.shutterRelease
  repeat' (first | with_reducible assumption | with_reducible apply State.openBanks_kept | with_reducible apply State.updPwr_kept | with_reducible apply State.raise_kept | simp only [kept_mk] | with_reducible apply kept_parts | with_reducible intro _ | dsimp only | split)

theorem State.doorAct_kept {pq : List Instr} {s : State} (h : s.Kept pq) (t : Nat) (act : Nat) : (s.doorAct t act).Kept pq := by
  unfold State.doorAct
  repeat' (first | with_reducible assumption | with_reducible apply State.updSys_kept | with_reducible apply State.askOpen_kept | with_reducible apply State.shutDoor_kept | simp only [kept_mk] | with_reducible apply kept_parts | with_reducible intro _ | dsimp only | split)

theorem State.grantIdx_kept {pq : List Instr} {s : State} (h : s.Kept pq) (m : Word) (w : Word) : (s.grantIdx m w).1.Kept pq := by
  unfold State.grantIdx
  repeat' (first | with_reducible assumption | simp only [kept_mk] | with_reducible apply kept_parts | with_reducible intro _ | dsimp only | split)

theorem State.pageMask_kept {pq : List Instr} {s : State} (h : s.Kept pq) (via : Option Nat) (which : Nat) (v : Word) : (s.pageMask via which v).1.Kept pq := by
  unfold State.pageMask
  repeat' (first | with_reducible assumption | with_reducible apply State.updPort_kept | simp only [kept_mk] | with_reducible apply kept_parts | with_reducible intro _ | dsimp only | split)

theorem State.hpCfg_kept {pq : List Instr} {s : State} (h : s.Kept pq) (p : Nat) (m : Word) : (s.hpCfg p m).1.Kept pq := by
  unfold State.hpCfg
  repeat' (first | with_reducible assumption | with_reducible apply State.updPort_kept | simp only [kept_mk] | with_reducible apply kept_parts | with_reducible intro _ | dsimp only | split)

theorem State.tickCtrl_kept {pq : List Instr} {s : State} (h : s.Kept pq) (m : Word) : (s.tickCtrl m).Kept pq := by
  unfold State.tickCtrl
  repeat' (first | with_reducible assumption | with_reducible apply State.updTick_kept | simp only [kept_mk] | with_reducible apply kept_parts | with_reducible intro _ | dsimp only | split)

theorem State.dbgLock_kept {pq : List Instr} {s : State} (h : s.Kept pq) (w : Word) : (s.dbgLock w).Kept pq := by
  unfold State.dbgLock
  repeat' (first | with_reducible assumption | with_reducible apply State.updSys_kept | with_reducible apply State.unlockAsk_kept | with_reducible apply State.relock_kept | simp only [kept_mk] | with_reducible apply kept_parts | with_reducible intro _ | dsimp only | split)

theorem State.rtcSecWrite_kept {pq : List Instr} {s : State} (h : s.Kept pq) (v : Word) : (s.rtcSecWrite v).Kept pq := by
  unfold State.rtcSecWrite
  repeat' (first | with_reducible assumption | with_reducible apply State.updSys_kept | simp only [kept_mk] | with_reducible apply kept_parts | with_reducible intro _ | dsimp only | split)

theorem State.rtcSubWrite_kept {pq : List Instr} {s : State} (h : s.Kept pq) (v : Word) : (s.rtcSubWrite v).Kept pq := by
  unfold State.rtcSubWrite
  repeat' (first | with_reducible assumption | with_reducible apply State.updSys_kept | simp only [kept_mk] | with_reducible apply kept_parts | with_reducible intro _ | dsimp only | split)

theorem State.rtcAlarmWrite_kept {pq : List Instr} {s : State} (h : s.Kept pq) (v : Word) : (s.rtcAlarmWrite v).Kept pq := by
  unfold State.rtcAlarmWrite
  repeat' (first | with_reducible assumption | with_reducible apply State.updSys_kept | simp only [kept_mk] | with_reducible apply kept_parts | with_reducible intro _ | dsimp only | split)

theorem State.rtcTrimWrite_kept {pq : List Instr} {s : State} (h : s.Kept pq) (v : Word) : (s.rtcTrimWrite v).1.Kept pq := by
  unfold State.rtcTrimWrite
  repeat' (first | with_reducible assumption | with_reducible apply State.updSys_kept | simp only [kept_mk] | with_reducible apply kept_parts | with_reducible intro _ | dsimp only | split)

theorem State.aoWrite_kept {pq : List Instr} {s : State} (h : s.Kept pq) (v : Word) : (s.aoWrite v).Kept pq := by
  unfold State.aoWrite
  repeat' (first | with_reducible assumption | with_reducible apply State.updSys_kept | simp only [kept_mk] | with_reducible apply kept_parts | with_reducible intro _ | dsimp only | split)

theorem State.evTest_kept {pq : List Instr} {s : State} (h : s.Kept pq) (v : Word) : (s.evTest v).Kept pq := by
  unfold State.evTest
  repeat' (first | with_reducible assumption | with_reducible apply State.raise_kept | simp only [kept_mk] | with_reducible apply kept_parts | with_reducible intro _ | dsimp only | split)

theorem State.leafWrite_kept {pq : List Instr} {s : State} (h : s.Kept pq) (w : Word) : (s.leafWrite w).Kept pq := by
  unfold State.leafWrite
  repeat' (first | with_reducible assumption | with_reducible apply State.bootConfirm_kept | with_reducible apply State.swingStart_kept | simp only [kept_mk] | with_reducible apply kept_parts | with_reducible intro _ | dsimp only | split)

theorem State.sysPut_kept {pq : List Instr} {s : State} (h : s.Kept pq) (via : Option Nat) (off : Nat) (v : Word) (be : BitVec 4) : (s.sysPut via off v be).1.Kept pq := by
  unfold State.sysPut
  repeat' (first | with_reducible assumption | with_reducible apply State.pwrReqWrite_kept | with_reducible apply State.updPwr_kept | with_reducible apply State.wakeNHeld_kept | with_reducible apply State.shutterRelease_kept | with_reducible apply State.doorAct_kept | with_reducible apply State.grantIdx_kept | with_reducible apply State.grantStage_kept | with_reducible apply State.pageMask_kept | with_reducible apply State.hpCfg_kept | with_reducible apply State.updSys_kept | with_reducible apply State.portReset_kept | with_reducible apply State.softReset_kept | with_reducible apply State.leafWrite_kept | with_reducible apply State.tickCtrl_kept | with_reducible apply State.dbgLock_kept | with_reducible apply State.chalWrite_kept | with_reducible apply State.rtcSecWrite_kept | with_reducible apply State.rtcSubWrite_kept | with_reducible apply State.rtcAlarmWrite_kept | with_reducible apply State.rtcTrimWrite_kept | with_reducible apply State.aoWrite_kept | with_reducible apply State.kstoreSave_kept | with_reducible apply State.evTest_kept | simp only [kept_mk] | with_reducible apply kept_parts | with_reducible intro _ | dsimp only | split)

theorem State.regSide_kept {pq : List Instr} {s : State} (h : s.Kept pq) (t : Nat) (off : Nat) : (s.regSide t off).Kept pq := by
  unfold State.regSide
  repeat' (first | with_reducible assumption | with_reducible apply State.pageSide_kept | with_reducible apply State.sysSide_kept | simp only [kept_mk] | with_reducible apply kept_parts | with_reducible intro _ | dsimp only | split)

theorem State.regPut_kept {pq : List Instr} {s : State} (h : s.Kept pq) (via : Option Nat) (t : Nat) (off : Nat) (v : Word) (be : BitVec 4) : (s.regPut via t off v be).1.Kept pq := by
  unfold State.regPut
  repeat' (first | with_reducible assumption | with_reducible apply State.pagePut_kept | with_reducible apply State.sysPut_kept | simp only [kept_mk] | with_reducible apply kept_parts | with_reducible intro _ | dsimp only | split)

end Sys2Proof.Machine
end

