-- ==== Sys2Proof/Laws/KeptConfigSpace.lean ====
section
/-! SUPPORT. Every operation of Machine/ConfigSpace.lean keeps a state safe and its queue as it is. -/

namespace Sys2Proof.Machine

set_option linter.unreachableTactic false
set_option linter.unusedTactic false
set_option linter.unusedVariables false
set_option linter.unusedSimpArgs false

theorem State.mapNext_kept {pq : List Instr} {s : State} (h : s.Kept pq) : s.mapNext.Kept pq := by
  unfold State.mapNext
  repeat' (first | with_reducible assumption | with_reducible apply State.setReg_kept | simp only [kept_mk] | with_reducible apply kept_parts | with_reducible intro _ | dsimp only | split)

theorem State.cfgSide_kept {pq : List Instr} {s : State} (h : s.Kept pq) (a : Nat) : (s.cfgSide a).Kept pq := by
  unfold State.cfgSide
  repeat' (first | with_reducible assumption | with_reducible apply State.updTick_kept | with_reducible apply State.updLink_kept | with_reducible apply State.mapNext_kept | with_reducible apply State.updProt_kept | with_reducible apply State.peepSample_kept | with_reducible apply State.updTen_kept | with_reducible apply State.sysSide_kept | simp only [kept_mk] | with_reducible apply kept_parts | with_reducible intro _ | dsimp only | split)

theorem State.putTick_kept {pq : List Instr} {s : State} (h : s.Kept pq) (o : Nat) (v : Word) (be : BitVec 4) : (s.putTick o v be).1.Kept pq := by
  unfold State.putTick
  repeat' (first | with_reducible assumption | with_reducible apply State.tickCtrl_kept | with_reducible apply State.updTick_kept | with_reducible apply State.numSetLoad_kept | with_reducible apply State.updTen_kept | simp only [kept_mk] | with_reducible apply kept_parts | with_reducible intro _ | dsimp only | split)

theorem State.putLink_kept {pq : List Instr} {s : State} (h : s.Kept pq) (o : Nat) (v : Word) (be : BitVec 4) : (s.putLink o v be).1.Kept pq := by
  unfold State.putLink
  repeat' (first | with_reducible assumption | with_reducible apply State.portEnable_kept | with_reducible apply State.writeReg_kept | simp only [kept_mk] | with_reducible apply kept_parts | with_reducible intro _ | dsimp only | split)

theorem State.putFlash_kept {pq : List Instr} {s : State} (h : s.Kept pq) (o : Nat) (v : Word) (be : BitVec 4) : (s.putFlash o v be).1.Kept pq := by
  unfold State.putFlash
  repeat' (first | with_reducible assumption | with_reducible apply State.writeReg_kept | simp only [kept_mk] | with_reducible apply kept_parts | with_reducible intro _ | dsimp only | split)

theorem State.putProt_kept {pq : List Instr} {s : State} (h : s.Kept pq) (o : Nat) (v : Word) (be : BitVec 4) : (s.putProt o v be).1.Kept pq := by
  unfold State.putProt
  repeat' (first | with_reducible assumption | with_reducible apply State.protClear_kept | with_reducible apply State.protInject_kept | with_reducible apply State.writeReg_kept | simp only [kept_mk] | with_reducible apply kept_parts | with_reducible intro _ | dsimp only | split)

theorem State.seqCtrlWrite_kept {pq : List Instr} {s : State} (h : s.Kept pq) (w : Word) : (s.seqCtrlWrite w).Kept pq := by
  unfold State.seqCtrlWrite
  repeat' (first | with_reducible assumption | with_reducible apply State.goDown_kept | with_reducible apply State.goUp_kept | simp only [kept_mk] | with_reducible apply kept_parts | with_reducible intro _ | dsimp only | split)

theorem State.putSeq_kept {pq : List Instr} {s : State} (h : s.Kept pq) (o : Nat) (v : Word) (be : BitVec 4) : (s.putSeq o v be).1.Kept pq := by
  unfold State.putSeq
  repeat' (first | with_reducible assumption | with_reducible apply State.seqCtrlWrite_kept | with_reducible apply State.updSeqr_kept | with_reducible apply State.seqMan_kept | with_reducible apply State.batQWrite_kept | with_reducible apply State.writeReg_kept | with_reducible apply State.coinStart_kept | with_reducible apply State.railWrite_kept | simp only [kept_mk] | with_reducible apply kept_parts | with_reducible intro _ | dsimp only | split)

theorem State.putDisp_kept {pq : List Instr} {s : State} (h : s.Kept pq) (o : Nat) (v : Word) (be : BitVec 4) : (s.putDisp o v be).1.Kept pq := by
  unfold State.putDisp
  repeat' (first | with_reducible assumption | with_reducible apply State.updDport_kept | with_reducible apply State.writeReg_kept | simp only [kept_mk] | with_reducible apply kept_parts | with_reducible intro _ | dsimp only | split)

theorem State.putLamp_kept {pq : List Instr} {s : State} (h : s.Kept pq) (n : Nat) (o : Nat) (v : Word) (be : BitVec 4) : (s.putLamp n o v be).1.Kept pq := by
  unfold State.putLamp
  repeat' (first | with_reducible assumption | with_reducible apply State.writeReg_kept | with_reducible apply State.updLamp_kept | with_reducible apply State.lampStart_kept | with_reducible apply State.retarget_kept | with_reducible apply State.setTarget_kept | with_reducible apply State.lampClear_kept | simp only [kept_mk] | with_reducible apply kept_parts | with_reducible intro _ | dsimp only | split)

theorem State.putEngine_kept {pq : List Instr} {s : State} (h : s.Kept pq) (k : Nat) (o : Nat) (v : Word) (be : BitVec 4) : (s.putEngine k o v be).1.Kept pq := by
  unfold State.putEngine
  repeat' (first | with_reducible assumption | with_reducible apply State.engineGo_kept | with_reducible apply State.engineHalt_kept | with_reducible apply State.updEngine_kept | with_reducible apply State.writeReg_kept | simp only [kept_mk] | with_reducible apply kept_parts | with_reducible intro _ | dsimp only | split)

theorem State.putChan_kept {pq : List Instr} {s : State} (h : s.Kept pq) (n : Nat) (o : Nat) (v : Word) (be : BitVec 4) : (s.putChan n o v be).1.Kept pq := by
  unfold State.putChan
  repeat' (first | with_reducible assumption | with_reducible apply State.injectGo_kept | with_reducible apply State.updChan_kept | with_reducible apply State.writeReg_kept | simp only [kept_mk] | with_reducible apply kept_parts | with_reducible intro _ | dsimp only | split)

theorem State.putAdc_kept {pq : List Instr} {s : State} (h : s.Kept pq) (o : Nat) (v : Word) (be : BitVec 4) : (s.putAdc o v be).1.Kept pq := by
  unfold State.putAdc
  repeat' (first | with_reducible assumption | with_reducible apply State.putChan_kept | with_reducible apply State.refSelect_kept | with_reducible apply State.loosen_kept | with_reducible apply State.writeReg_kept | with_reducible apply State.pairsGo_kept | with_reducible apply State.updSeq_kept | simp only [kept_mk] | with_reducible apply kept_parts | with_reducible intro _ | dsimp only | split)

theorem State.doorCfgWrite_kept {pq : List Instr} {s : State} (h : s.Kept pq) (m : Word) : (s.doorCfgWrite m).1.Kept pq := by
  unfold State.doorCfgWrite
  repeat' (first | with_reducible assumption | with_reducible apply State.updTen_kept | simp only [kept_mk] | with_reducible apply kept_parts | with_reducible intro _ | dsimp only | split)

theorem State.keyCtrl_kept {pq : List Instr} {s : State} (h : s.Kept pq) (w : Word) : (s.keyCtrl w).Kept pq := by
  unfold State.keyCtrl
  repeat' (first | with_reducible assumption | with_reducible apply State.keyErase_kept | with_reducible apply State.keyLoad_kept | simp only [kept_mk] | with_reducible apply kept_parts | with_reducible intro _ | dsimp only | split)

theorem State.putSec_kept {pq : List Instr} {s : State} (h : s.Kept pq) (o : Nat) (v : Word) (be : BitVec 4) : (s.putSec o v be).1.Kept pq := by
  unfold State.putSec
  repeat' (first | with_reducible assumption | with_reducible apply State.doorCfgWrite_kept | with_reducible apply State.updTen_kept | with_reducible apply State.keyCtrl_kept | simp only [kept_mk] | with_reducible apply kept_parts | with_reducible intro _ | dsimp only | split)

theorem State.cfgPut_kept {pq : List Instr} {s : State} (h : s.Kept pq) (via : Option Nat) (a : Nat) (v : Word) (be : BitVec 4) :
    (s.cfgPut via a v be).1.Kept pq := by
  suffices H : ∀ P : State × Nat → Prop, (∀ q : State × Nat, q.1.Kept pq → P q) → P (s.cfgPut via a v be) from
    H (fun q => q.1.Kept pq) fun _ h => h
  intro P hP
  unfold State.cfgPut
  generalize cfgOff a = o
  generalize cfgBlock a = b
  dsimp only
  split
  · exact hP _ (State.sysPut_kept h _ _ _ _)
  · exact hP _ (State.putTick_kept h _ _ _)
  · exact hP _ (State.putLink_kept h _ _ _)
  · exact hP _ (State.putFlash_kept h _ _ _)
  · exact hP _ (State.putProt_kept h _ _ _)
  · exact hP _ (State.putSeq_kept h _ _ _)
  · exact hP _ (State.putDisp_kept h _ _ _)
  · split
    · exact hP _ (State.putLamp_kept h _ _ _ _)
    · split
      · exact hP _ (State.putEngine_kept h _ _ _ _)
      · exact hP _ h
  · split
    · exact hP _ (State.keyCfgWrite_kept h _ _ _)
    · exact hP _ (State.writeReg_kept h _ _ _)
  · exact hP _ (State.putAdc_kept h _ _ _)
  · split
    · exact hP _ (State.peepWrite_kept h _)
    · exact hP _ h
  · exact hP _ (State.putSec_kept h _ _ _)
  · exact hP _ (State.writeReg_kept h _ _ _)

end Sys2Proof.Machine
end

