-- ==== Sys2Proof/Laws/KeptWindows.lean ====
section
/-! SUPPORT. Every operation of Machine/Windows.lean keeps a state safe and its queue as it is. -/

namespace Sys2Proof.Machine

set_option linter.unreachableTactic false
set_option linter.unusedTactic false
set_option linter.unusedVariables false
set_option linter.unusedSimpArgs false

theorem State.targetWord_kept {pq : List Instr} {s : State} (h : s.Kept pq) (t : Nat) (tg : Target) : (s.targetWord t tg).1.Kept pq := by
  unfold State.targetWord
  repeat' (first | with_reducible assumption | with_reducible apply State.sramRead_kept | with_reducible apply State.flashBytes_kept | simp only [kept_mk] | with_reducible apply kept_parts | with_reducible intro _ | dsimp only | split)

theorem State.winWord_kept {pq : List Instr} {s : State} (h : s.Kept pq) (t : Nat) (w : Nat) (o : Nat) (tg : Target) : (s.winWord t w o tg).1.Kept pq := by
  unfold State.winWord
  repeat' (first | with_reducible assumption | with_reducible apply State.targetWord_kept | simp only [kept_mk] | with_reducible apply kept_parts | with_reducible intro _ | dsimp only | split)

theorem State.winSide_kept {pq : List Instr} {s : State} (h : s.Kept pq) (t : Nat) (w : Nat) (o : Nat) (tg : Target) : (s.winSide t w o tg).Kept pq := by
  unfold State.winSide
  repeat' (first | with_reducible assumption | with_reducible apply State.cfgSide_kept | simp only [kept_mk] | with_reducible apply kept_parts | with_reducible intro _ | dsimp only | split)

theorem State.winStage_kept {pq : List Instr} {s : State} (h : s.Kept pq) (t : Nat) (w : Nat) (o : Nat) (v : Word) (be : BitVec 4) : (s.winStage t w o v be).1.Kept pq := by
  unfold State.winStage
  repeat' (first | with_reducible assumption | with_reducible apply State.updTen_kept | simp only [kept_mk] | with_reducible apply kept_parts | with_reducible intro _ | dsimp only | split)

theorem State.winPut_kept {pq : List Instr} {s : State} (h : s.Kept pq) (t : Nat) (w : Nat) (o : Nat) (v : Word) (be : BitVec 4) (p : Nat) (tg : Target) : (s.winPut t w o v be p tg).1.Kept pq := by
  unfold State.winPut
  repeat' (first | with_reducible assumption | with_reducible apply State.seqStep_kept | with_reducible apply State.winStage_kept | simp only [kept_mk] | with_reducible apply kept_parts | with_reducible intro _ | dsimp only | split)

theorem State.winPutWords_kept {pq : List Instr} {s : State} (h : s.Kept pq) (t : Nat) (w : Nat) (path : Path) (x0 : List (Nat × Word × BitVec 4)) (x1 : Nat) : (s.winPutWords t w path x0 x1).1.Kept pq := by
  induction x0 generalizing s x1 with
  | nil => exact h
  | cons a l ih =>
    unfold State.winPutWords
    repeat' (first | with_reducible assumption | with_reducible apply ih | with_reducible apply State.winPut_kept | with_reducible apply State.clamps_kept | simp only [kept_mk] | with_reducible apply kept_parts | with_reducible intro _ | dsimp only | split)

theorem State.winPutAll_kept {pq : List Instr} {s : State} (h : s.Kept pq) (t : Nat) (w : Nat) (path : Path) (x0 : List (Nat × Word × BitVec 4)) : (s.winPutAll t w path x0).Kept pq := by
  induction x0 generalizing s with
  | nil => exact h
  | cons a l ih =>
    unfold State.winPutAll
    repeat' (first | with_reducible assumption | with_reducible apply ih | with_reducible apply State.winPut_kept | with_reducible apply State.clamps_kept | simp only [kept_mk] | with_reducible apply kept_parts | with_reducible intro _ | dsimp only | split)

theorem State.committedWords_kept {pq : List Instr} {s : State} (h : s.Kept pq) (t : Nat) (w : Nat) (x0 : List Nat) : (s.committedWords t w x0).1.Kept pq := by
  induction x0 generalizing s with
  | nil => exact h
  | cons a l ih =>
    unfold State.committedWords
    repeat' (first | with_reducible assumption | with_reducible apply ih | with_reducible apply State.targetWord_kept | simp only [kept_mk] | with_reducible apply kept_parts | with_reducible intro _ | dsimp only | split)

theorem State.committedBytes_kept {pq : List Instr} {s : State} (h : s.Kept pq) (t : Nat) (w : Nat) (off : Nat) (n : Nat) : (s.committedBytes t w off n).1.Kept pq := by
  unfold State.committedBytes
  repeat' (first | with_reducible assumption | with_reducible apply State.committedWords_kept | simp only [kept_mk] | with_reducible apply kept_parts | with_reducible intro _ | dsimp only | split)

theorem State.commitWords_kept {pq : List Instr} {s : State} (h : s.Kept pq) (t : Nat) (w : Nat) (x0 : List Nat) : (s.commitWords t w x0).1.Kept pq := by
  induction x0 generalizing s with
  | nil => exact h
  | cons a l ih =>
    unfold State.commitWords
    repeat' (first | with_reducible assumption | with_reducible apply ih | with_reducible apply State.winWord_kept | simp only [kept_mk] | with_reducible apply kept_parts | with_reducible intro _ | dsimp only | split)

theorem State.commitPut_kept {pq : List Instr} {s : State} (h : s.Kept pq) (t : Nat) (q : Staged) (whole : Bool) (path : Path) (tg : Target) : (s.commitPut t q whole path tg).Kept pq := by
  unfold State.commitPut
  repeat' (first | with_reducible assumption | with_reducible apply State.wr32_kept | with_reducible apply State.setEcc_kept | with_reducible apply State.cellWritten_kept | with_reducible apply State.cfgPut_kept | with_reducible apply State.clamps_kept | simp only [kept_mk] | with_reducible apply kept_parts | with_reducible intro _ | dsimp only | split)

theorem State.commitChecks_kept {pq : List Instr} {s : State} (h : s.Kept pq) (b : Nat) (off : Nat) (len : Nat) : (s.commitChecks b off len).Kept pq := by
  unfold State.commitChecks
  repeat' (first | with_reducible assumption | with_reducible apply State.each_kept | with_reducible apply State.setChk_kept | simp only [kept_mk] | with_reducible apply kept_parts | with_reducible intro _ | dsimp only | split)

theorem State.commitPuts_kept {pq : List Instr} {s : State} (h : s.Kept pq) (t : Nat) (path : Path) (x0 : List (Staged × Bool × Target)) : (s.commitPuts t path x0).Kept pq := by
  induction x0 generalizing s with
  | nil => exact h
  | cons a l ih =>
    unfold State.commitPuts
    repeat' (first | with_reducible assumption | with_reducible apply ih | with_reducible apply State.commitPut_kept | simp only [kept_mk] | with_reducible apply kept_parts | with_reducible intro _ | dsimp only | split)

theorem State.commitWrite_kept {pq : List Instr} {s : State} (h : s.Kept pq) (t : Nat) (w : Nat) (off : Nat) (len : Nat) (path : Path) : (s.commitWrite t w off len path).Kept pq := by
  unfold State.commitWrite
  repeat' (first | with_reducible assumption | with_reducible apply State.updTen_kept | with_reducible apply State.commitPuts_kept | with_reducible apply State.commitChecks_kept | simp only [kept_mk] | with_reducible apply kept_parts | with_reducible intro _ | dsimp only | split)

theorem State.commitPart_kept {pq : List Instr} {s : State} (h : s.Kept pq) (t : Nat) (w : Nat) (off : Nat) (len : Nat) : (s.commitPart t w off len).1.Kept pq := by
  unfold State.commitPart
  repeat' (first | with_reducible assumption | with_reducible apply State.eccReadAll_kept | simp only [kept_mk] | with_reducible apply kept_parts | with_reducible intro _ | dsimp only | split)

theorem State.winCommit_kept {pq : List Instr} {s : State} (h : s.Kept pq) (t : Nat) (w : Nat) (off : Nat) (len : Nat) (crc : Word) (path : Path) (err : Option Err) : (s.winCommit t w off len crc path err).1.Kept pq := by
  unfold State.winCommit
  repeat' (first | with_reducible assumption | with_reducible apply State.clamps_kept | with_reducible apply State.commitWords_kept | with_reducible apply State.doorFail_kept | with_reducible apply State.commitPart_kept | with_reducible apply State.commitWrite_kept | simp only [kept_mk] | with_reducible apply kept_parts | with_reducible intro _ | dsimp only | split)

theorem State.sramPut_kept {pq : List Instr} {s : State} (h : s.Kept pq) (a : Nat) (bs : List Byte) : (s.sramPut a bs).1.Kept pq := by
  unfold State.sramPut
  repeat' (first | with_reducible assumption | with_reducible apply State.eccReadAll_kept | with_reducible apply State.wrBytes_kept | with_reducible apply State.each_kept | with_reducible apply State.setEcc_kept | simp only [kept_mk] | with_reducible apply kept_parts | with_reducible intro _ | dsimp only | split)

end Sys2Proof.Machine
end

