-- ==== Sys2Proof/Laws/KeptLetterbox.lean ====
section
/-! SUPPORT. Every operation of Machine/Letterbox.lean keeps a state safe and its queue as it is. -/

namespace Sys2Proof.Machine

set_option linter.unreachableTactic false
set_option linter.unusedTactic false
set_option linter.unusedVariables false
set_option linter.unusedSimpArgs false

theorem State.ev32_kept {pq : List Instr} {s : State} (h : s.Kept pq) (t : Nat) (tag : Nat) (status : Nat) (held : Bool) : (s.ev32 t tag status held).Kept pq := by
  unfold State.ev32
  repeat' (first | with_reducible assumption | with_reducible apply State.raise_kept | simp only [kept_mk] | with_reducible apply kept_parts | with_reducible intro _ | dsimp only | split)

theorem State.rqPut_kept {pq : List Instr} {s : State} (h : s.Kept pq) (t : Nat) (resp : List Byte) : (s.rqPut t resp).Kept pq := by
  unfold State.rqPut
  repeat' (first | with_reducible assumption | with_reducible apply State.wrWhole_kept | with_reducible apply State.updTen_kept | simp only [kept_mk] | with_reducible apply kept_parts | with_reducible intro _ | dsimp only | split)

theorem State.linkPut_kept {pq : List Instr} {s : State} (h : s.Kept pq) (l : Nat × Nat) (resp : List Byte) : (s.linkPut l resp).Kept pq := by
  unfold State.linkPut
  repeat' (first | with_reducible assumption | with_reducible apply State.setBuf_kept | simp only [kept_mk] | with_reducible apply kept_parts | with_reducible intro _ | dsimp only | split)

theorem State.respond_kept {pq : List Instr} {s : State} (h : s.Kept pq) (t : Nat) (link : Option (Nat × Nat)) (resp : List Byte) (notify : Bool) : (s.respond t link resp notify).Kept pq := by
  unfold State.respond
  repeat' (first | with_reducible assumption | with_reducible apply State.linkPut_kept | with_reducible apply State.bufSettle_kept | with_reducible apply State.rqPut_kept | with_reducible apply State.ev32_kept | simp only [kept_mk] | with_reducible apply kept_parts | with_reducible intro _ | dsimp only | split)

theorem State.histNew_kept {pq : List Instr} {s : State} (h : s.Kept pq) (t : Nat) (tag : Nat) (resp : Option (List Byte)) : (s.histNew t tag resp).Kept pq := by
  unfold State.histNew
  repeat' (first | with_reducible assumption | with_reducible apply State.updTen_kept | simp only [kept_mk] | with_reducible apply kept_parts | with_reducible intro _ | dsimp only | split)

theorem State.heldRead_kept {pq : List Instr} {s : State} (h : s.Kept pq) (x0 : List Nat) : (s.heldRead x0).1.Kept pq := by
  induction x0 generalizing s with
  | nil => exact h
  | cons a l ih =>
    unfold State.heldRead
    repeat' (first | with_reducible assumption | with_reducible apply ih | with_reducible apply State.drawn_kept | with_reducible apply State.eccRead_kept | simp only [kept_mk] | with_reducible apply kept_parts | with_reducible intro _ | dsimp only | split)

theorem State.charge_kept {pq : List Instr} {s s1 : State} (h : s.Kept pq) {t cost : Nat} (e : s.charge t cost = some s1) : s1.Kept pq := by
  unfold State.charge at e
  simp only [Option.ite_none_left_eq_some, Option.some.injEq] at e
  obtain ⟨-, rfl⟩ := e
  exact State.updTick_kept (State.updTen_kept h _ _) _

theorem State.defer_kept {pq : List Instr} {s : State} (h : s.Kept pq) (t : Nat) : (s.defer t).Kept pq := by
  unfold State.defer
  repeat' (first | with_reducible assumption | with_reducible apply State.updTen_kept | with_reducible apply State.updTick_kept | simp only [kept_mk] | with_reducible apply kept_parts | with_reducible intro _ | dsimp only | split)

theorem State.takeSlot_kept {pq : List Instr} {s : State} (h : s.Kept pq) (t : Nat) : (s.takeSlot t).Kept pq := by
  unfold State.takeSlot
  repeat' (first | with_reducible assumption | with_reducible apply State.updTen_kept | simp only [kept_mk] | with_reducible apply kept_parts | with_reducible intro _ | dsimp only | split)

theorem State.registerCommit_kept {pq : List Instr} {s : State} (h : s.Kept pq) (t : Nat) (c : CommitReq) : (s.registerCommit t c).Kept pq := by
  unfold State.registerCommit
  repeat' (first | with_reducible assumption | with_reducible apply State.drawn_kept | with_reducible apply State.winCommit_kept | with_reducible apply State.updTen_kept | simp only [kept_mk] | with_reducible apply kept_parts | with_reducible intro _ | dsimp only | split)

theorem State.resend_kept {pq : List Instr} {s : State} (h : s.Kept pq) (t : Nat) (link : Option (Nat × Nat)) (b : List Byte) (h' : HistEnt) : (s.resend t link b h').Kept pq := by
  unfold State.resend
  repeat' (first | with_reducible assumption | with_reducible apply State.respond_kept | with_reducible apply State.heldRead_kept | with_reducible apply State.raise_kept | simp only [kept_mk] | with_reducible apply kept_parts | with_reducible intro _ | dsimp only | split)

theorem State.acceptSlot_kept {pq : List Instr} {s s1 : State} (h : s.Kept pq) {t n : Nat} {link : Option (Nat × Nat)} {b : List Byte}
    (e : s.acceptSlot t n link b = some s1) : s1.Kept pq := by
  unfold State.acceptSlot at e
  dsimp only at e
  split at e
  · obtain ⟨s2, h2, rfl⟩ := Option.map_eq_some_iff.mp e
    exact State.resend_kept (State.takeSlot_kept (State.charge_kept h h2) _) _ _ _ _
  · split at e
    · obtain ⟨s2, h2, rfl⟩ := Option.map_eq_some_iff.mp e
      exact State.respond_kept (State.histNew_kept (State.takeSlot_kept (State.charge_kept h h2) _) _ _ _) _ _ _ _
    · obtain ⟨s2, h2, rfl⟩ := Option.map_eq_some_iff.mp e
      exact State.Kept.congr (State.histNew_kept (State.takeSlot_kept (State.charge_kept h h2) t) t (slotTag b) none)
        rfl rfl rfl

theorem State.turnSlot_kept {pq : List Instr} {s : State} (h : s.Kept pq) (t n : Nat) : (s.turnSlot t n).1.Kept pq := by
  unfold State.turnSlot
  repeat' (first | with_reducible assumption | with_reducible apply State.hold_kept | with_reducible apply State.defer_kept | with_reducible apply State.sramRead_kept | with_reducible apply State.takeSlot_kept | with_reducible apply State.respond_kept | with_reducible apply State.doorFail_kept | simp only [kept_mk] | with_reducible apply kept_parts | with_reducible intro _ | dsimp only | split)
  exact State.acceptSlot_kept (State.sramRead_kept h _ _) (by assumption)

theorem State.turn_kept {pq : List Instr} {s : State} (h : s.Kept pq) (t n : Nat) : (s.turn t n).1.Kept pq := by
  unfold State.turn
  repeat' (first | with_reducible assumption | with_reducible apply State.hold_kept | with_reducible apply State.registerCommit_kept | with_reducible apply State.turnSlot_kept | with_reducible apply State.updTen_kept | with_reducible apply State.defer_kept | simp only [kept_mk] | with_reducible apply kept_parts | with_reducible intro _ | dsimp only | split)
  exact State.charge_kept h (by assumption)

theorem State.turns_kept {pq : List Instr} {s : State} (h : s.Kept pq) (x0 : Nat) (x1 : Nat) (x2 : Nat) : (State.turns x0 x1 x2 s).Kept pq := by
  induction x0 generalizing s x1 x2 with
  | zero => exact h
  | succ n ih =>
    unfold State.turns
    repeat' (first | with_reducible assumption | with_reducible apply ih | with_reducible apply State.turn_kept | simp only [kept_mk] | with_reducible apply kept_parts | with_reducible intro _ | dsimp only | split)

theorem State.cmdSlot_kept {pq : List Instr} {s : State} (h : s.Kept pq) (n : Nat) : (s.cmdSlot n).Kept pq := by
  unfold State.cmdSlot
  repeat' (first | with_reducible assumption | with_reducible apply State.each_kept | with_reducible apply State.turns_kept | simp only [kept_mk] | with_reducible apply kept_parts | with_reducible intro _ | dsimp only | split)

theorem State.complete_kept {pq : List Instr} {s : State} (h : s.Kept pq) (t : Nat) : (s.complete t).Kept pq := by
  unfold State.complete
  repeat' (first | with_reducible assumption | with_reducible apply State.result_kept | with_reducible apply State.hold_kept | with_reducible apply State.updTen_kept | with_reducible apply State.bufSettle_kept | with_reducible apply State.ev32_kept | with_reducible apply State.respond_kept | simp only [kept_mk] | with_reducible apply kept_parts | with_reducible intro _ | dsimp only | split)

theorem State.busyRetry_kept {pq : List Instr} {s : State} (h : s.Kept pq) (t : Nat) : (s.busyRetry t).Kept pq := by
  unfold State.busyRetry
  repeat' (first | with_reducible assumption | with_reducible apply State.result_kept | with_reducible apply State.updRun_kept | with_reducible apply State.respond_kept | simp only [kept_mk] | with_reducible apply kept_parts | with_reducible intro _ | dsimp only | split)

end Sys2Proof.Machine
end

