-- ==== Sys2Proof/Laws/KeptCommands.lean ====
section
/-! SUPPORT. Every operation of Machine/Commands.lean keeps a state safe and its queue as it is. -/

namespace Sys2Proof.Machine

set_option linter.unreachableTactic false
set_option linter.unusedTactic false
set_option linter.unusedVariables false
set_option linter.unusedSimpArgs false

theorem State.argClamps_kept {pq : List Instr} {s : State} (h : s.Kept pq) (r : Run) (k : Nat) : (s.argClamps r k).Kept pq := by
  unfold State.argClamps
  repeat' (first | with_reducible assumption | with_reducible apply State.clamps_kept | simp only [kept_mk] | with_reducible apply kept_parts | with_reducible intro _ | dsimp only | split)

theorem State.cfgReads_kept {pq : List Instr} {s : State} (h : s.Kept pq) (t : Nat) (x0 : List Nat) : (s.cfgReads t x0).1.Kept pq := by
  induction x0 generalizing s with
  | nil => exact h
  | cons a l ih =>
    unfold State.cfgReads
    repeat' (first | with_reducible assumption | with_reducible apply ih | with_reducible apply State.cfgSide_kept | simp only [kept_mk] | with_reducible apply kept_parts | with_reducible intro _ | dsimp only | split)

theorem State.cfgWrites_kept {pq : List Instr} {s : State} (h : s.Kept pq) (r : Run) (x0 : List (Nat × Word)) : (s.cfgWrites r x0).Kept pq := by
  induction x0 generalizing s with
  | nil => exact h
  | cons a l ih =>
    unfold State.cfgWrites
    repeat' (first | with_reducible assumption | with_reducible apply ih | with_reducible apply State.cfgPut_kept | with_reducible apply State.clamps_kept | simp only [kept_mk] | with_reducible apply kept_parts | with_reducible intro _ | dsimp only | split)

theorem State.runEcho_kept {pq : List Instr} {s : State} (h : s.Kept pq) (r : Run) : (s.runEcho r).Kept pq := by
  unfold State.runEcho
  repeat' (first | with_reducible assumption | with_reducible apply State.ok_kept | simp only [kept_mk] | with_reducible apply kept_parts | with_reducible intro _ | dsimp only | split)

theorem State.runCfgRead_kept {pq : List Instr} {s : State} (h : s.Kept pq) (r : Run) : (s.runCfgRead r).Kept pq := by
  unfold State.runCfgRead
  repeat' (first | with_reducible assumption | with_reducible apply State.hold_kept | with_reducible apply State.under_kept | with_reducible apply State.failed_kept | with_reducible apply State.argClamps_kept | with_reducible apply State.cfgReads_kept | with_reducible apply State.ok_kept | simp only [kept_mk] | with_reducible apply kept_parts | with_reducible intro _ | dsimp only | split)

theorem State.runCfgWrite_kept {pq : List Instr} {s : State} (h : s.Kept pq) (r : Run) : (s.runCfgWrite r).Kept pq := by
  unfold State.runCfgWrite
  repeat' (first | with_reducible assumption | with_reducible apply State.hold_kept | with_reducible apply State.under_kept | with_reducible apply State.failed_kept | with_reducible apply State.argClamps_kept | with_reducible apply State.cfgWrites_kept | with_reducible apply State.ok_kept | simp only [kept_mk] | with_reducible apply kept_parts | with_reducible intro _ | dsimp only | split)

theorem State.runCfgModify_kept {pq : List Instr} {s : State} (h : s.Kept pq) (r : Run) : (s.runCfgModify r).Kept pq := by
  unfold State.runCfgModify
  repeat' (first | with_reducible assumption | with_reducible apply State.hold_kept | with_reducible apply State.under_kept | with_reducible apply State.failed_kept | with_reducible apply State.argClamps_kept | with_reducible apply State.cfgWrites_kept | with_reducible apply State.ok_kept | simp only [kept_mk] | with_reducible apply kept_parts | with_reducible intro _ | dsimp only | split)

theorem State.pageReads_kept {pq : List Instr} {s : State} (h : s.Kept pq) (t : Nat) (x0 : List Nat) : (s.pageReads t x0).1.Kept pq := by
  induction x0 generalizing s with
  | nil => exact h
  | cons a l ih =>
    unfold State.pageReads
    repeat' (first | with_reducible assumption | with_reducible apply ih | with_reducible apply State.regSide_kept | simp only [kept_mk] | with_reducible apply kept_parts | with_reducible intro _ | dsimp only | split)

theorem State.pageWrites_kept {pq : List Instr} {s : State} (h : s.Kept pq) (r : Run) (x0 : List (Nat × Word)) : (s.pageWrites r x0).Kept pq := by
  induction x0 generalizing s with
  | nil => exact h
  | cons a l ih =>
    unfold State.pageWrites
    repeat' (first | with_reducible assumption | with_reducible apply ih | with_reducible apply State.regPut_kept | with_reducible apply State.clamps_kept | simp only [kept_mk] | with_reducible apply kept_parts | with_reducible intro _ | dsimp only | split)

theorem State.runPageRead_kept {pq : List Instr} {s : State} (h : s.Kept pq) (r : Run) : (s.runPageRead r).Kept pq := by
  unfold State.runPageRead
  repeat' (first | with_reducible assumption | with_reducible apply State.argClamps_kept | with_reducible apply State.pageReads_kept | with_reducible apply State.ok_kept | with_reducible apply State.failed_kept | simp only [kept_mk] | with_reducible apply kept_parts | with_reducible intro _ | dsimp only | split)

theorem State.runPageWrite_kept {pq : List Instr} {s : State} (h : s.Kept pq) (r : Run) : (s.runPageWrite r).Kept pq := by
  unfold State.runPageWrite
  repeat' (first | with_reducible assumption | with_reducible apply State.argClamps_kept | with_reducible apply State.pageWrites_kept | with_reducible apply State.ok_kept | with_reducible apply State.failed_kept | simp only [kept_mk] | with_reducible apply kept_parts | with_reducible intro _ | dsimp only | split)

theorem State.runEqRead_kept {pq : List Instr} {s : State} (h : s.Kept pq) (r : Run) : (s.runEqRead r).Kept pq := by
  unfold State.runEqRead
  repeat' (first | with_reducible assumption | with_reducible apply State.hold_kept | with_reducible apply State.eccReadAll_kept | with_reducible apply State.finish_kept | with_reducible apply State.argClamps_kept | with_reducible apply State.updTen_kept | with_reducible apply State.ok_kept | simp only [kept_mk] | with_reducible apply kept_parts | with_reducible intro _ | dsimp only | split)

theorem State.runWinWrite_kept {pq : List Instr} {s : State} (h : s.Kept pq) (r : Run) : (s.runWinWrite r).Kept pq := by
  unfold State.runWinWrite
  repeat' (first | with_reducible assumption | with_reducible apply State.hold_kept | with_reducible apply State.under_kept | with_reducible apply State.failed_kept | with_reducible apply State.argClamps_kept | with_reducible apply State.winPutAll_kept | with_reducible apply State.ok_kept | simp only [kept_mk] | with_reducible apply kept_parts | with_reducible intro _ | dsimp only | split)

theorem State.runWinCommit_kept {pq : List Instr} {s : State} (h : s.Kept pq) (r : Run) : (s.runWinCommit r).Kept pq := by
  unfold State.runWinCommit
  repeat' (first | with_reducible assumption | with_reducible apply State.hold_kept | with_reducible apply State.winCommit_kept | with_reducible apply State.under_kept | with_reducible apply State.argClamps_kept | with_reducible apply State.finish_kept | simp only [kept_mk] | with_reducible apply kept_parts | with_reducible intro _ | dsimp only | split)

theorem State.runFlipArm_kept {pq : List Instr} {s : State} (h : s.Kept pq) (r : Run) : (s.runFlipArm r).Kept pq := by
  unfold State.runFlipArm
  repeat' (first | with_reducible assumption | with_reducible apply State.hold_kept | with_reducible apply State.under_kept | with_reducible apply State.failed_kept | with_reducible apply State.each_kept | with_reducible apply State.updCell_kept | with_reducible apply State.ok_kept | simp only [kept_mk] | with_reducible apply kept_parts | with_reducible intro _ | dsimp only | split)

theorem State.runFlipCancel_kept {pq : List Instr} {s : State} (h : s.Kept pq) (r : Run) : (s.runFlipCancel r).Kept pq := by
  unfold State.runFlipCancel
  repeat' (first | with_reducible assumption | with_reducible apply State.hold_kept | with_reducible apply State.under_kept | with_reducible apply State.failed_kept | with_reducible apply State.each_kept | with_reducible apply State.unarm_kept | with_reducible apply State.ok_kept | simp only [kept_mk] | with_reducible apply kept_parts | with_reducible intro _ | dsimp only | split)

theorem State.flashFor_kept {pq : List Instr} {s : State} (h : s.Kept pq) (sects : List Nat) {f : State → State} (hff : ∀ s, s.Kept pq → (f s).Kept pq) : (s.flashFor sects f).Kept pq := by
  unfold State.flashFor
  repeat' (first | with_reducible apply hff | with_reducible assumption | with_reducible apply State.suspend_kept | with_reducible apply State.resumePulse_kept | simp only [kept_mk] | with_reducible apply kept_parts | with_reducible intro _ | dsimp only | split)

theorem State.runFlashRead_kept {pq : List Instr} {s : State} (h : s.Kept pq) (r : Run) : (s.runFlashRead r).Kept pq := by
  unfold State.runFlashRead
  repeat' (first | with_reducible assumption | with_reducible apply State.hold_kept | with_reducible apply State.under_kept | with_reducible apply State.failed_kept | with_reducible apply State.flashFor_kept | with_reducible apply State.argClamps_kept | with_reducible apply State.flashBytes_kept | with_reducible apply State.ok_kept | with_reducible apply State.finish_kept | simp only [kept_mk] | with_reducible apply kept_parts | with_reducible intro _ | dsimp only | split)

theorem State.runFlashProg_kept {pq : List Instr} {s : State} (h : s.Kept pq) (r : Run) : (s.runFlashProg r).Kept pq := by
  unfold State.runFlashProg
  repeat' (first | with_reducible assumption | with_reducible apply State.hold_kept | with_reducible apply State.under_kept | with_reducible apply State.failed_kept | with_reducible apply State.committedBytes_kept | with_reducible apply State.argClamps_kept | with_reducible apply State.setRun_kept | with_reducible apply State.suspend_kept | with_reducible apply State.enqueueNew_kept | simp only [kept_mk] | with_reducible apply kept_parts | with_reducible intro _ | dsimp only | split)

theorem State.runSectorErase_kept {pq : List Instr} {s : State} (h : s.Kept pq) (r : Run) : (s.runSectorErase r).Kept pq := by
  unfold State.runSectorErase
  repeat' (first | with_reducible assumption | with_reducible apply State.hold_kept | with_reducible apply State.under_kept | with_reducible apply State.failed_kept | with_reducible apply State.argClamps_kept | with_reducible apply State.setRun_kept | with_reducible apply State.enqueueNew_kept | simp only [kept_mk] | with_reducible apply kept_parts | with_reducible intro _ | dsimp only | split)

theorem State.runStore_kept {pq : List Instr} {s : State} (h : s.Kept pq) (r : Run) : (s.runStore r).Kept pq := by
  unfold State.runStore
  repeat' (first | with_reducible assumption | with_reducible apply State.hold_kept | with_reducible apply State.failed_kept | with_reducible apply State.under_kept | with_reducible apply State.argClamps_kept | with_reducible apply State.finish_kept | with_reducible apply State.committedBytes_kept | with_reducible apply State.flashFor_kept | with_reducible apply State.inForce_kept | with_reducible apply State.setRun_kept | with_reducible apply State.enqueueNew_kept | simp only [kept_mk] | with_reducible apply kept_parts | with_reducible intro _ | dsimp only | split)

theorem State.dropStaged_kept {pq : List Instr} {s : State} (h : s.Kept pq) (t : Nat) (w : Nat) (off : Nat) (n : Nat) : (s.dropStaged t w off n).Kept pq := by
  unfold State.dropStaged
  repeat' (first | with_reducible assumption | with_reducible apply State.updTen_kept | simp only [kept_mk] | with_reducible apply kept_parts | with_reducible intro _ | dsimp only | split)

theorem State.loadBody_kept {pq : List Instr} {s : State} (h : s.Kept pq) (r : Run) (w : Nat) (o : Nat) (n : Nat) (gen : Nat) (body : List Byte) : (s.loadBody r w o n gen body).Kept pq := by
  unfold State.loadBody
  repeat' (first | with_reducible assumption | with_reducible apply State.sramPut_kept | with_reducible apply State.finish_kept | with_reducible apply State.dropStaged_kept | with_reducible apply State.ok_kept | with_reducible apply State.failed_kept | simp only [kept_mk] | with_reducible apply kept_parts | with_reducible intro _ | dsimp only | split)

theorem State.runLoad_kept {pq : List Instr} {s : State} (h : s.Kept pq) (r : Run) : (s.runLoad r).Kept pq := by
  unfold State.runLoad
  repeat' (first | with_reducible assumption | with_reducible apply State.hold_kept | with_reducible apply State.failed_kept | with_reducible apply State.under_kept | with_reducible apply State.flashFor_kept | with_reducible apply State.argClamps_kept | with_reducible apply State.inForce_kept | with_reducible apply State.loadBody_kept | with_reducible apply State.finish_kept | with_reducible apply State.ok_kept | simp only [kept_mk] | with_reducible apply kept_parts | with_reducible intro _ | dsimp only | split)

theorem State.runSelfTest_kept {pq : List Instr} {s : State} (h : s.Kept pq) (r : Run) : (s.runSelfTest r).Kept pq := by
  unfold State.runSelfTest
  repeat' (first | with_reducible assumption | with_reducible apply State.hold_kept | with_reducible apply State.under_kept | with_reducible apply State.failed_kept | with_reducible apply State.argClamps_kept | with_reducible apply State.setRun_kept | with_reducible apply State.testStart_kept | simp only [kept_mk] | with_reducible apply kept_parts | with_reducible intro _ | dsimp only | split)

theorem State.runGrant_kept {pq : List Instr} {s : State} (h : s.Kept pq) (r : Run) : (s.runGrant r).Kept pq := by
  unfold State.runGrant
  repeat' (first | with_reducible assumption | with_reducible apply State.grantIdx_kept | with_reducible apply State.grantStage_kept | with_reducible apply State.drawn_kept | with_reducible apply State.argClamps_kept | with_reducible apply State.ok_kept | simp only [kept_mk] | with_reducible apply kept_parts | with_reducible intro _ | dsimp only | split)

theorem State.runPwrReq_kept {pq : List Instr} {s : State} (h : s.Kept pq) (r : Run) : (s.runPwrReq r).Kept pq := by
  unfold State.runPwrReq
  repeat' (first | with_reducible assumption | with_reducible apply State.sysPut_kept | with_reducible apply State.argClamps_kept | with_reducible apply State.ok_kept | simp only [kept_mk] | with_reducible apply kept_parts | with_reducible intro _ | dsimp only | split)

theorem State.execute_kept {pq : List Instr} {s : State} (h : s.Kept pq) (r : Run) : (s.execute r).Kept pq := by
  unfold State.execute
  repeat' (first | with_reducible assumption | with_reducible apply State.runEcho_kept | with_reducible apply State.runCfgRead_kept | with_reducible apply State.runCfgWrite_kept | with_reducible apply State.runCfgModify_kept | with_reducible apply State.runPageRead_kept | with_reducible apply State.runPageWrite_kept | with_reducible apply State.runEqRead_kept | with_reducible apply State.runWinWrite_kept | with_reducible apply State.runWinCommit_kept | with_reducible apply State.runFlipArm_kept | with_reducible apply State.runFlipCancel_kept | with_reducible apply State.runFlashRead_kept | with_reducible apply State.runFlashProg_kept | with_reducible apply State.runSectorErase_kept | with_reducible apply State.runStore_kept | with_reducible apply State.runLoad_kept | with_reducible apply State.runSelfTest_kept | with_reducible apply State.runGrant_kept | with_reducible apply State.runPwrReq_kept | simp only [kept_mk] | with_reducible apply kept_parts | with_reducible intro _ | dsimp only | split)

end Sys2Proof.Machine
end

