-- ==== Sys2Proof/Laws/KeptHostPort.lean ====
section
/-! SUPPORT. Every operation of Machine/HostPort.lean keeps a state safe and its queue as it is. -/

namespace Sys2Proof.Machine

set_option linter.unreachableTactic false
set_option linter.unusedTactic false
set_option linter.unusedVariables false
set_option linter.unusedSimpArgs false

theorem State.exitFail_kept {pq : List Instr} {s : State} (h : s.Kept pq) (t : Nat) (slot : Nat) (tag : Nat) : (s.exitFail t slot tag).Kept pq := by
  unfold State.exitFail
  repeat' (first | with_reducible assumption | with_reducible apply State.updTen_kept | with_reducible apply State.raise_kept | simp only [kept_mk] | with_reducible apply kept_parts | with_reducible intro _ | dsimp only | split)

theorem State.rqRead_kept {pq : List Instr} {s : State} (h : s.Kept pq) (t : Nat) (o : Nat) : (s.rqRead t o).1.Kept pq := by
  unfold State.rqRead
  repeat' (first | with_reducible assumption | with_reducible apply State.sramRead_kept | with_reducible apply State.exitFail_kept | with_reducible apply State.ok_kept | simp only [kept_mk] | with_reducible apply kept_parts | with_reducible intro _ | dsimp only | split)

theorem State.sramWord_kept {pq : List Instr} {s : State} (h : s.Kept pq) (a : Nat) : (s.sramWord a).1.Kept pq := by
  unfold State.sramWord
  repeat' (first | with_reducible assumption | with_reducible apply State.sramRead_kept | with_reducible apply State.ok_kept | simp only [kept_mk] | with_reducible apply kept_parts | with_reducible intro _ | dsimp only | split)

theorem State.refRead_kept {pq : List Instr} {s : State} (h : s.Kept pq) (p : Nat) (t : Nat) (ref : PageRef) : (s.refRead p t ref).1.Kept pq := by
  unfold State.refRead
  repeat' (first | with_reducible assumption | with_reducible apply State.regSide_kept | with_reducible apply State.ok_kept | with_reducible apply State.sramWord_kept | with_reducible apply State.rqRead_kept | with_reducible apply State.winWord_kept | with_reducible apply State.winSide_kept | simp only [kept_mk] | with_reducible apply kept_parts | with_reducible intro _ | dsimp only | split)

theorem State.refWrite_kept {pq : List Instr} {s : State} (h : s.Kept pq) (p : Nat) (a : Access) (ref : PageRef) : (s.refWrite p a ref).1.Kept pq := by
  unfold State.refWrite
  repeat' (first | with_reducible assumption | with_reducible apply State.regPut_kept | with_reducible apply State.clamps_kept | with_reducible apply State.sramWrite32_kept | with_reducible apply State.winPut_kept | simp only [kept_mk] | with_reducible apply kept_parts | with_reducible intro _ | dsimp only | split)

theorem State.portEnd_kept {pq : List Instr} {s : State} (h : s.Kept pq) (p : Nat) (a : Access) (res : Except Err Word) : (s.portEnd p a res).Kept pq := by
  unfold State.portEnd
  repeat' (first | with_reducible assumption | with_reducible apply State.ok_kept | with_reducible apply State.updPort_kept | simp only [kept_mk] | with_reducible apply kept_parts | with_reducible intro _ | dsimp only | split)

theorem State.portWait_kept {pq : List Instr} {s : State} (h : s.Kept pq) (p : Nat) (a : Access) : (s.portWait p a).Kept pq := by
  unfold State.portWait
  repeat' (first | with_reducible assumption | with_reducible apply State.drawn_kept | with_reducible apply State.updPort_kept | with_reducible apply State.hold_kept | simp only [kept_mk] | with_reducible apply kept_parts | with_reducible intro _ | dsimp only | split)

theorem State.portFail_kept {pq : List Instr} {s : State} (h : s.Kept pq) (p : Nat) (a : Access) (e : Err) : (s.portFail p a e).Kept pq := by
  unfold State.portFail
  repeat' (first | with_reducible assumption | with_reducible apply State.berrRecord_kept | with_reducible apply State.portEnd_kept | simp only [kept_mk] | with_reducible apply kept_parts | with_reducible intro _ | dsimp only | split)

theorem State.fenceEnd_kept {pq : List Instr} {s : State} (h : s.Kept pq) (p : Nat) (a : Access) : (s.fenceEnd p a).Kept pq := by
  unfold State.fenceEnd
  repeat' (first | with_reducible assumption | with_reducible apply State.updPort_kept | with_reducible apply State.portEnd_kept | with_reducible apply State.ok_kept | simp only [kept_mk] | with_reducible apply kept_parts | with_reducible intro _ | dsimp only | split)

theorem State.portWrite_kept {pq : List Instr} {s : State} (h : s.Kept pq) (p : Nat) (a : Access) (ref : PageRef) : (s.portWrite p a ref).Kept pq := by
  unfold State.portWrite
  repeat' (first | with_reducible assumption | with_reducible apply State.refWrite_kept | with_reducible apply State.portFail_kept | with_reducible apply State.portWait_kept | with_reducible apply State.portEnd_kept | with_reducible apply State.ok_kept | simp only [kept_mk] | with_reducible apply kept_parts | with_reducible intro _ | dsimp only | split)

theorem State.portServe_kept {pq : List Instr} {s : State} (h : s.Kept pq) (p : Nat) (a : Access) : (s.portServe p a).Kept pq := by
  unfold State.portServe
  repeat' (first | with_reducible assumption | with_reducible apply State.portFail_kept | with_reducible apply State.portWait_kept | with_reducible apply State.portEnd_kept | with_reducible apply State.ok_kept | with_reducible apply State.updPort_kept | with_reducible apply State.portWrite_kept | with_reducible apply State.fenceEnd_kept | with_reducible apply State.refRead_kept | simp only [kept_mk] | with_reducible apply kept_parts | with_reducible intro _ | dsimp only | split)

theorem State.portAccess_kept {pq : List Instr} {s : State} (h : s.Kept pq) (p : Nat) (a : Access) : (s.portAccess p a).Kept pq := by
  unfold State.portAccess
  repeat' (first | with_reducible assumption | with_reducible apply State.updPort_kept | with_reducible apply State.portEnd_kept | with_reducible apply State.ok_kept | with_reducible apply State.portFail_kept | with_reducible apply State.portServe_kept | simp only [kept_mk] | with_reducible apply kept_parts | with_reducible intro _ | dsimp only | split)

theorem State.portComplete_kept {pq : List Instr} {s : State} (h : s.Kept pq) (p : Nat) : (s.portComplete p).Kept pq := by
  unfold State.portComplete
  repeat' (first | with_reducible assumption | with_reducible apply State.portServe_kept | simp only [kept_mk] | with_reducible apply kept_parts | with_reducible intro _ | dsimp only | split)

theorem State.resetTake_kept {pq : List Instr} {s : State} (h : s.Kept pq) : s.resetTake.Kept pq := by
  unfold State.resetTake
  repeat' (first | with_reducible assumption | with_reducible apply State.resetPulse_kept | simp only [kept_mk] | with_reducible apply kept_parts | with_reducible intro _ | dsimp only | split)

theorem State.strobeRelease_kept {pq : List Instr} {s : State} (h : s.Kept pq) (p : Nat) : (s.strobeRelease p).Kept pq := by
  unfold State.strobeRelease
  repeat' (first | with_reducible assumption | with_reducible apply State.updPort_kept | simp only [kept_mk] | with_reducible apply kept_parts | with_reducible intro _ | dsimp only | split)

theorem State.ackPort_kept {pq : List Instr} {s : State} (h : s.Kept pq) (p : Nat) : (s.ackPort p).Kept pq := by
  unfold State.ackPort
  repeat' (first | with_reducible assumption | with_reducible apply State.portEnd_kept | with_reducible apply State.ok_kept | with_reducible apply State.updPort_kept | simp only [kept_mk] | with_reducible apply kept_parts | with_reducible intro _ | dsimp only | split)

theorem State.ackPorts_kept {pq : List Instr} {s : State} (h : s.Kept pq) : s.ackPorts.Kept pq := by
  unfold State.ackPorts
  repeat' (first | with_reducible assumption | with_reducible apply State.ackPort_kept | simp only [kept_mk] | with_reducible apply kept_parts | with_reducible intro _ | dsimp only | split)

theorem State.portDrop_kept {pq : List Instr} {s : State} (h : s.Kept pq) (p : Nat) (a : Access) : (s.portDrop p a).Kept pq := by
  unfold State.portDrop
  repeat' (first | with_reducible assumption | with_reducible apply State.winVoid_kept | with_reducible apply State.updPort_kept | simp only [kept_mk] | with_reducible apply kept_parts | with_reducible intro _ | dsimp only | split)

theorem State.portAbandon_kept {pq : List Instr} {s : State} (h : s.Kept pq) (p : Nat) : (s.portAbandon p).Kept pq := by
  unfold State.portAbandon
  repeat' (first | with_reducible assumption | with_reducible apply State.ackPort_kept | with_reducible apply State.portDrop_kept | with_reducible apply State.strobeRelease_kept | simp only [kept_mk] | with_reducible apply kept_parts | with_reducible intro _ | dsimp only | split)

theorem State.portStall_kept {pq : List Instr} {s : State} (h : s.Kept pq) (p : Nat) : (s.portStall p).Kept pq := by
  unfold State.portStall
  repeat' (first | with_reducible assumption | with_reducible apply State.ackPort_kept | with_reducible apply State.portDrop_kept | with_reducible apply State.portFail_kept | simp only [kept_mk] | with_reducible apply kept_parts | with_reducible intro _ | dsimp only | split)

theorem State.postFail_kept {pq : List Instr} {s : State} (h : s.Kept pq) (p : Nat) (a : Access) (e : Err) : (s.postFail p a e).Kept pq := by
  unfold State.postFail
  repeat' (first | with_reducible assumption | with_reducible apply State.berrRecord_kept | with_reducible apply State.updPort_kept | with_reducible apply State.cause_kept | simp only [kept_mk] | with_reducible apply kept_parts | with_reducible intro _ | dsimp only | split)

theorem State.postDrain_kept {pq : List Instr} {s : State} (h : s.Kept pq) (p : Nat) : (s.postDrain p).Kept pq := by
  unfold State.postDrain
  repeat' (first | with_reducible assumption | with_reducible apply State.ackPort_kept | with_reducible apply State.hold_kept | with_reducible apply State.updPort_kept | with_reducible apply State.postFail_kept | with_reducible apply State.refWrite_kept | simp only [kept_mk] | with_reducible apply kept_parts | with_reducible intro _ | dsimp only | split)

end Sys2Proof.Machine
end

