-- ==== Sys2Proof/Laws/KeptDelivery.lean ====
section
/-! SUPPORT. Every operation of Machine/Delivery.lean keeps a state safe and its queue as it is. -/

namespace Sys2Proof.Machine

set_option linter.unreachableTactic false
set_option linter.unusedTactic false
set_option linter.unusedVariables false
set_option linter.unusedSimpArgs false

theorem State.linkBufRead_kept {pq : List Instr} {s : State} (h : s.Kept pq) : s.linkBufRead.1.Kept pq := by
  unfold State.linkBufRead
  suffices H : ∀ (l : List Nat) (r : State × Bool), r.1.Kept pq → (l.foldl (fun r k =>
      if Config.linkBufWord r.1.free then
        let q := r.1.drawn.eccRead k
        (q.1, r.2 || q.2)
      else (r.1.drawn, r.2)) r).1.Kept pq from H _ _ h
  intro l
  induction l with
  | nil => exact fun r hr => hr
  | cons a l ih =>
    intro r hr
    refine ih _ ?_
    dsimp only
    split
    · exact State.eccRead_kept (State.drawn_kept hr) _
    · exact State.drawn_kept hr

theorem State.ev71Link_kept {pq : List Instr} {s : State} (h : s.Kept pq) (t : Nat) (tag : Nat) : (s.ev71Link t tag).Kept pq := by
  unfold State.ev71Link
  repeat' (first | with_reducible assumption | with_reducible apply State.raise_kept | simp only [kept_mk] | with_reducible apply kept_parts | with_reducible intro _ | dsimp only | split)

theorem State.ev71Lost_kept {pq : List Instr} {s : State} (h : s.Kept pq) (t : Nat) : (s.ev71Lost t).Kept pq := by
  unfold State.ev71Lost
  repeat' (first | with_reducible assumption | with_reducible apply State.drawn_kept | with_reducible apply State.ev71Link_kept | simp only [kept_mk] | with_reducible apply kept_parts | with_reducible intro _ | dsimp only | split)

theorem State.linkWake_kept {pq : List Instr} {s : State} (h : s.Kept pq) (b : List Byte) : (s.linkWake b).Kept pq := by
  unfold State.linkWake
  repeat' (first | with_reducible assumption | with_reducible apply State.takeWake_kept | simp only [kept_mk] | with_reducible apply kept_parts | with_reducible intro _ | dsimp only | split)

theorem State.answerUni_kept {pq : List Instr} {s : State} (h : s.Kept pq) (b : List Byte) (status : Nat) (retry : Nat) (info : Nat) : (s.answerUni b status retry info).Kept pq := by
  unfold State.answerUni
  repeat' (first | with_reducible assumption | with_reducible apply State.answer_kept | simp only [kept_mk] | with_reducible apply kept_parts | with_reducible intro _ | dsimp only | split)

theorem State.passFrame_kept {pq : List Instr} {s : State} (h : s.Kept pq) (b : List Byte) {f : State → State} (hff : ∀ s, s.Kept pq → (f s).Kept pq) : (s.passFrame b f).Kept pq := by
  unfold State.passFrame
  repeat' (first | with_reducible apply hff | with_reducible assumption | with_reducible apply State.linkWake_kept | with_reducible apply State.answerUni_kept | with_reducible apply State.linkBufRead_kept | with_reducible apply State.ev71Lost_kept | with_reducible apply State.authenticate_kept | simp only [kept_mk] | with_reducible apply kept_parts | with_reducible intro _ | dsimp only | split)

theorem State.linkSlot_kept {pq : List Instr} {s : State} (h : s.Kept pq) (t : Nat) (buf : Nat) (b : List Byte) (j : Nat) : (s.linkSlot t buf b j).Kept pq := by
  unfold State.linkSlot
  repeat' (first | with_reducible assumption | with_reducible apply State.wrWhole_kept | with_reducible apply State.updTen_kept | with_reducible apply State.updLink_kept | simp only [kept_mk] | with_reducible apply kept_parts | with_reducible intro _ | dsimp only | split)

theorem State.deliverCmd_kept {pq : List Instr} {s : State} (h : s.Kept pq) (b : List Byte) : (s.deliverCmd b).Kept pq := by
  unfold State.deliverCmd
  repeat' (first | with_reducible assumption | with_reducible apply State.answer_kept | with_reducible apply State.updLink_kept | with_reducible apply State.raise_kept | with_reducible apply State.setBuf_kept | with_reducible apply State.each_kept | with_reducible apply State.linkSlot_kept | simp only [kept_mk] | with_reducible apply kept_parts | with_reducible intro _ | dsimp only | split)

theorem State.cmdIn_kept {pq : List Instr} {s : State} (h : s.Kept pq) : s.cmdIn.Kept pq := by
  unfold State.cmdIn
  repeat' (first | with_reducible assumption | with_reducible apply State.hold_kept | with_reducible apply State.passFrame_kept | with_reducible apply State.deliverCmd_kept | simp only [kept_mk] | with_reducible apply kept_parts | with_reducible intro _ | dsimp only | split)
  all_goals exact State.takeLocal_kept h (by assumption)

theorem State.deliverWin_kept {pq : List Instr} {s : State} (h : s.Kept pq) (b : List Byte) : (s.deliverWin b).Kept pq := by
  unfold State.deliverWin
  repeat' (first | with_reducible assumption | with_reducible apply State.winPutWords_kept | with_reducible apply State.answer_kept | simp only [kept_mk] | with_reducible apply kept_parts | with_reducible intro _ | dsimp only | split)

theorem State.winIn_kept {pq : List Instr} {s : State} (h : s.Kept pq) : s.winIn.Kept pq := by
  unfold State.winIn
  repeat' (first | with_reducible assumption | with_reducible apply State.hold_kept | with_reducible apply State.passFrame_kept | with_reducible apply State.deliverWin_kept | simp only [kept_mk] | with_reducible apply kept_parts | with_reducible intro _ | dsimp only | split)
  all_goals exact State.takeLocal_kept h (by assumption)

theorem State.ticknumIn_kept {pq : List Instr} {s : State} (h : s.Kept pq) : s.ticknumIn.Kept pq := by
  unfold State.ticknumIn
  repeat' (first | with_reducible assumption | with_reducible apply State.updTick_kept | simp only [kept_mk] | with_reducible apply kept_parts | with_reducible intro _ | dsimp only | split)
  all_goals exact State.takeLocal_kept h (by assumption)

theorem State.enumOn_kept {pq : List Instr} {s : State} (h : s.Kept pq) (next : Nat) (segid : Nat) (ftag : Nat) : (s.enumOn next segid ftag).Kept pq := by
  unfold State.enumOn
  repeat' (first | with_reducible assumption | with_reducible apply State.sendOn_kept | simp only [kept_mk] | with_reducible apply kept_parts | with_reducible intro _ | dsimp only | split)

theorem State.enumRsp_kept {pq : List Instr} {s : State} (h : s.Kept pq) (addr : Nat) (old : Nat) (full : Bool) (ftag : Nat) : (s.enumRsp addr old full ftag).Kept pq := by
  unfold State.enumRsp
  repeat' (first | with_reducible assumption | with_reducible apply State.sendUp_kept | simp only [kept_mk] | with_reducible apply kept_parts | with_reducible intro _ | dsimp only | split)

theorem State.enumTake_kept {pq : List Instr} {s : State} (h : s.Kept pq) (next : Nat) (segid : Nat) (ftag : Nat) : (s.enumTake next segid ftag).Kept pq := by
  unfold State.enumTake
  repeat' (first | with_reducible assumption | with_reducible apply State.updSys_kept | with_reducible apply State.updLink_kept | with_reducible apply State.enumRsp_kept | with_reducible apply State.raise_kept | with_reducible apply State.enumOn_kept | simp only [kept_mk] | with_reducible apply kept_parts | with_reducible intro _ | dsimp only | split)

theorem State.enumIn_kept {pq : List Instr} {s : State} (h : s.Kept pq) : s.enumIn.Kept pq := by
  unfold State.enumIn
  repeat' (first | with_reducible assumption | with_reducible apply State.linkWake_kept | with_reducible apply State.enumOn_kept | with_reducible apply State.enumTake_kept | simp only [kept_mk] | with_reducible apply kept_parts | with_reducible intro _ | dsimp only | split)
  all_goals exact State.takeLocal_kept h (by assumption)

theorem State.owe_kept {pq : List Instr} {s : State} (h : s.Kept pq) (n : Option Nat) : (s.owe n).Kept pq := by
  unfold State.owe
  repeat' (first | with_reducible assumption | with_reducible apply State.updLink_kept | simp only [kept_mk] | with_reducible apply kept_parts | with_reducible intro _ | dsimp only | split)

theorem State.pathHoldStart_kept {pq : List Instr} {s : State} (h : s.Kept pq) : s.pathHoldStart.Kept pq := by
  unfold State.pathHoldStart
  repeat' (first | with_reducible assumption | with_reducible apply State.updPwr_kept | with_reducible apply State.train_kept | simp only [kept_mk] | with_reducible apply kept_parts | with_reducible intro _ | dsimp only | split)

theorem State.fullWake_kept {pq : List Instr} {s : State} (h : s.Kept pq) (owed : List (Option Nat)) : (s.fullWake owed).Kept pq := by
  unfold State.fullWake
  repeat' (first | with_reducible assumption | with_reducible apply State.owe_kept | with_reducible apply State.takeWake_kept | with_reducible apply State.awakeSend_kept | with_reducible apply State.pathHoldStart_kept | with_reducible apply foldl_kept | simp only [kept_mk] | with_reducible apply kept_parts | with_reducible intro _ | dsimp only | split)

theorem State.wakeIn_kept {pq : List Instr} {s : State} (h : s.Kept pq) : s.wakeIn.Kept pq := by
  unfold State.wakeIn
  repeat' (first | with_reducible assumption | with_reducible apply State.updLink_kept | with_reducible apply State.fullWake_kept | simp only [kept_mk] | with_reducible apply kept_parts | with_reducible intro _ | dsimp only | split)
  all_goals exact State.takeLocal_kept h (by assumption)

theorem State.wakeBitsIn_kept {pq : List Instr} {s : State} (h : s.Kept pq) (bits : BitVec 16) : (s.wakeBitsIn bits).Kept pq := by
  unfold State.wakeBitsIn
  repeat' (first | with_reducible assumption | with_reducible apply State.fullWake_kept | with_reducible apply State.updLink_kept | with_reducible apply State.pathHoldStart_kept | simp only [kept_mk] | with_reducible apply kept_parts | with_reducible intro _ | dsimp only | split)

theorem State.wakeMessage_kept {pq : List Instr} {s : State} (h : s.Kept pq) (line : List (Bool × Nat)) : (s.wakeMessage line).Kept pq := by
  unfold State.wakeMessage
  repeat' (first | with_reducible assumption | with_reducible apply State.wakeBitsIn_kept | simp only [kept_mk] | with_reducible apply kept_parts | with_reducible intro _ | dsimp only | split)

theorem State.wakeRepeat_kept {pq : List Instr} {s : State} (h : s.Kept pq) : s.wakeRepeat.Kept pq := by
  unfold State.wakeRepeat
  repeat' (first | with_reducible assumption | with_reducible apply State.updLink_kept | with_reducible apply State.emit_kept | with_reducible apply State.train_kept | simp only [kept_mk] | with_reducible apply kept_parts | with_reducible intro _ | dsimp only | split)

theorem State.pathHoldEnd_kept {pq : List Instr} {s : State} (h : s.Kept pq) : s.pathHoldEnd.Kept pq := by
  unfold State.pathHoldEnd
  repeat' (first | with_reducible assumption | with_reducible apply State.linkOff_kept | with_reducible apply State.updPwr_kept | with_reducible apply State.updLink_kept | simp only [kept_mk] | with_reducible apply kept_parts | with_reducible intro _ | dsimp only | split)

theorem State.rspBad_kept {pq : List Instr} {s : State} (h : s.Kept pq) (t : Nat) (b : List Byte) : (s.rspBad t b).Kept pq := by
  unfold State.rspBad
  repeat' (first | with_reducible assumption | with_reducible apply State.exitFail_kept | with_reducible apply State.ev71Link_kept | simp only [kept_mk] | with_reducible apply kept_parts | with_reducible intro _ | dsimp only | split)

theorem State.rspSend_kept {pq : List Instr} {s : State} (h : s.Kept pq) : s.rspSend.Kept pq := by
  unfold State.rspSend
  repeat' (first | with_reducible assumption | with_reducible apply State.setBuf_kept | with_reducible apply State.linkBufRead_kept | with_reducible apply State.ev71Link_kept | with_reducible apply State.rspFrame_kept | with_reducible apply State.sendUp_kept | with_reducible apply State.rspBad_kept | with_reducible apply foldl_kept | simp only [kept_mk] | with_reducible apply kept_parts | with_reducible intro _ | dsimp only | split)

end Sys2Proof.Machine
end

