-- ==== Sys2Proof/Laws/KeptSlots.lean ====
section
/-! SUPPORT. Every operation of Machine/Slots.lean keeps a state safe and its queue as it is. -/

namespace Sys2Proof.Machine

set_option linter.unreachableTactic false
set_option linter.unusedTactic false
set_option linter.unusedVariables false
set_option linter.unusedSimpArgs false

theorem State.windowEnd_kept {pq : List Instr} {s : State} (h : s.Kept pq) (mis : List (BitVec 12)) : (s.windowEnd mis).Kept pq := by
  unfold State.windowEnd
  repeat' (first | with_reducible assumption | with_reducible apply State.boundary_kept | simp only [kept_mk] | with_reducible apply kept_parts | with_reducible intro _ | dsimp only | split)

theorem State.loopSlot_kept {pq : List Instr} {s : State} (h : s.Kept pq) (die : List Int) : (s.loopSlot die).Kept pq := by
  unfold State.loopSlot
  repeat' (first | with_reducible assumption | with_reducible apply State.each_kept | with_reducible apply State.updChan_kept | with_reducible apply State.thermalUpdate_kept | with_reducible apply State.lampUpdate_kept | with_reducible apply State.batUpdate_kept | simp only [kept_mk] | with_reducible apply kept_parts | with_reducible intro _ | dsimp only | split)

theorem State.sweepSlot_kept {pq : List Instr} {s : State} (h : s.Kept pq) : s.sweepSlot.Kept pq := by
  unfold State.sweepSlot
  repeat' (first | with_reducible assumption | with_reducible apply State.each_kept | with_reducible apply State.sweepTen_kept | with_reducible apply State.releaseAfter_kept | simp only [kept_mk] | with_reducible apply kept_parts | with_reducible intro _ | dsimp only | split)

end Sys2Proof.Machine
end

