-- ==== Sys2Proof/Laws/KeptRows.lean ====
section
/-! SUPPORT. Every operation of Machine/Rows.lean keeps a state safe and its queue as it is. -/

namespace Sys2Proof.Machine

set_option linter.unreachableTactic false
set_option linter.unusedTactic false
set_option linter.unusedVariables false
set_option linter.unusedSimpArgs false

theorem State.pageRow_kept {pq : List Instr} {s : State} (h : s.Kept pq) (t : Nat) (off : Nat) (v : Word) (be : BitVec 4) : (s.pageRow t off v be).Kept pq := by
  unfold State.pageRow
  repeat' (first | with_reducible assumption | with_reducible apply State.regPut_kept | with_reducible apply State.clamps_kept | simp only [kept_mk] | with_reducible apply kept_parts | with_reducible intro _ | dsimp only | split)

theorem State.pageRowRead_kept {pq : List Instr} {s : State} (h : s.Kept pq) (t : Nat) (off : Nat) : (s.pageRowRead t off).Kept pq := by
  unfold State.pageRowRead
  repeat' (first | with_reducible assumption | with_reducible apply State.regSide_kept | simp only [kept_mk] | with_reducible apply kept_parts | with_reducible intro _ | dsimp only | split)

theorem State.cfgWriteNow_kept {pq : List Instr} {s : State} (h : s.Kept pq) (t : Nat) (a : Nat) (v : Word) (be : BitVec 4) : (s.cfgWriteNow t a v be).Kept pq := by
  unfold State.cfgWriteNow
  repeat' (first | with_reducible assumption | with_reducible apply State.cfgPut_kept | with_reducible apply State.drawn_kept | with_reducible apply State.clamps_kept | simp only [kept_mk] | with_reducible apply kept_parts | with_reducible intro _ | dsimp only | split)

theorem State.cfgReadNow_kept {pq : List Instr} {s : State} (h : s.Kept pq) (t : Nat) (a : Nat) : (s.cfgReadNow t a).Kept pq := by
  unfold State.cfgReadNow
  repeat' (first | with_reducible assumption | with_reducible apply State.cfgSide_kept | simp only [kept_mk] | with_reducible apply kept_parts | with_reducible intro _ | dsimp only | split)

theorem State.cfgRow_kept {pq : List Instr} {s : State} (h : s.Kept pq) (t : Nat) (a : Nat) (v : Word) (be : BitVec 4) : (s.cfgRow t a v be).Kept pq := by
  unfold State.cfgRow
  repeat' (first | with_reducible assumption | with_reducible apply State.holdRow_kept | with_reducible apply State.cfgWriteNow_kept | simp only [kept_mk] | with_reducible apply kept_parts | with_reducible intro _ | dsimp only | split)

theorem State.cfgRowRead_kept {pq : List Instr} {s : State} (h : s.Kept pq) (t : Nat) (a : Nat) : (s.cfgRowRead t a).Kept pq := by
  unfold State.cfgRowRead
  repeat' (first | with_reducible assumption | with_reducible apply State.holdRow_kept | with_reducible apply State.cfgReadNow_kept | simp only [kept_mk] | with_reducible apply kept_parts | with_reducible intro _ | dsimp only | split)

end Sys2Proof.Machine
end

