-- ==== Sys2Proof/Laws/KeptFlashRows.lean ====
section
/-! SUPPORT. Every operation of Machine/FlashRows.lean keeps a state safe and its queue as it is. -/

namespace Sys2Proof.Machine

set_option linter.unreachableTactic false
set_option linter.unusedTactic false
set_option linter.unusedVariables false
set_option linter.unusedSimpArgs false

theorem State.settle_kept {pq : List Instr} {s : State} (h : s.Kept pq) : s.settle.Kept pq := by
  unfold State.settle
  repeat' (first | with_reducible assumption | with_reducible apply State.swingVerify_kept | with_reducible apply State.ackPorts_kept | simp only [kept_mk] | with_reducible apply kept_parts | with_reducible intro _ | dsimp only | split)

theorem State.seqAct_kept {pq : List Instr} {s : State} (h : s.Kept pq) (sys : Bool) (code : Nat) (place : Nat) (data : DWord) : (s.seqAct sys code place data).Kept pq := by
  unfold State.seqAct
  repeat' (first | with_reducible assumption | with_reducible apply State.seqCommand_kept | simp only [kept_mk] | with_reducible apply kept_parts | with_reducible intro _ | dsimp only | split)

theorem State.sequenceDone_kept {pq : List Instr} {s : State} (h : s.Kept pq) (sys : Bool) (sect : Nat) (code : Nat) (place : Nat) (data : DWord) : (s.sequenceDone sys sect code place data).Kept pq := by
  unfold State.sequenceDone
  repeat' (first | with_reducible assumption | with_reducible apply State.holdRow_kept | with_reducible apply State.seqAct_kept | with_reducible apply State.settle_kept | simp only [kept_mk] | with_reducible apply kept_parts | with_reducible intro _ | dsimp only | split)

theorem State.programStart_kept {pq : List Instr} {s : State} (h : s.Kept pq) (usToGuard : Nat) : (s.programStart usToGuard).Kept pq := by
  unfold State.programStart
  repeat' (first | with_reducible assumption | with_reducible apply State.progStart_kept | simp only [kept_mk] | with_reducible apply kept_parts | with_reducible intro _ | dsimp only | split)

theorem State.suspendLimit_kept {pq : List Instr} {s : State} (h : s.Kept pq) : s.suspendLimit.Kept pq := by
  unfold State.suspendLimit
  repeat' (first | with_reducible assumption | with_reducible apply State.pulseOn_kept | simp only [kept_mk] | with_reducible apply kept_parts | with_reducible intro _ | dsimp only | split)

theorem State.borTrip_kept {pq : List Instr} {s : State} (h : s.Kept pq) : s.borTrip.Kept pq := by
  unfold State.borTrip
  repeat' (first | with_reducible assumption | with_reducible apply State.raise_kept | with_reducible apply State.pulseEnd_kept | simp only [kept_mk] | with_reducible apply kept_parts | with_reducible intro _ | dsimp only | split)

end Sys2Proof.Machine
end

