-- ==== Sys2Proof/Laws/KeptBlockRows.lean ====
section
/-! SUPPORT. Every operation of Machine/BlockRows.lean keeps a state safe and its queue as it is. -/

namespace Sys2Proof.Machine

set_option linter.unreachableTactic false
set_option linter.unusedTactic false
set_option linter.unusedVariables false
set_option linter.unusedSimpArgs false

theorem State.engineStep_kept {pq : List Instr} {s : State} (h : s.Kept pq) (k : Nat) (op : Nat) {f : State → Nat → State} (hff : ∀ s a0, s.Kept pq → (f s a0).Kept pq) : (s.engineStep k op f).Kept pq := by
  unfold State.engineStep
  repeat' (first | with_reducible apply hff | with_reducible assumption | simp only [kept_mk] | with_reducible apply kept_parts | with_reducible intro _ | dsimp only | split)

end Sys2Proof.Machine
end

