-- ==== Sys2Proof/Laws/KeptHeld.lean ====
section
/-! SUPPORT. Every operation of Machine/Held.lean keeps a state safe and its queue as it is. -/

namespace Sys2Proof.Machine

set_option linter.unreachableTactic false
set_option linter.unusedTactic false
set_option linter.unusedVariables false
set_option linter.unusedSimpArgs false

theorem State.serveAccess_kept {pq : List Instr} {s : State} (h : s.Kept pq) (p : Nat) : (s.serveAccess p).Kept pq := by
  unfold State.serveAccess
  repeat' (first | with_reducible assumption | with_reducible apply State.portComplete_kept | simp only [kept_mk] | with_reducible apply kept_parts | with_reducible intro _ | dsimp only | split)

theorem State.serveFrame_kept {pq : List Instr} {s : State} (h : s.Kept pq) : s.serveFrame.Kept pq := by
  unfold State.serveFrame
  repeat' (first | with_reducible assumption | with_reducible apply State.cmdIn_kept | with_reducible apply State.winIn_kept | simp only [kept_mk] | with_reducible apply kept_parts | with_reducible intro _ | dsimp only | split)

theorem State.serveRun_kept {pq : List Instr} {s : State} (h : s.Kept pq) (id : Nat) : (s.serveRun id).Kept pq := by
  unfold State.serveRun
  repeat' (first | with_reducible assumption | with_reducible apply State.execute_kept | simp only [kept_mk] | with_reducible apply kept_parts | with_reducible intro _ | dsimp only | split)

theorem State.serveTurn_kept {pq : List Instr} {s : State} (h : s.Kept pq) (t : Nat) : (s.serveTurn t).Kept pq := by
  unfold State.serveTurn
  repeat' (first | with_reducible assumption | with_reducible apply State.turns_kept | simp only [kept_mk] | with_reducible apply kept_parts | with_reducible intro _ | dsimp only | split)

theorem State.serve_kept {pq : List Instr} {s : State} (h : s.Kept pq) (q : Request) : (s.serve q).Kept pq := by
  unfold State.serve
  repeat' (first | with_reducible assumption | with_reducible apply State.serveAccess_kept | with_reducible apply State.postDrain_kept | with_reducible apply State.serveRun_kept | with_reducible apply State.turn_kept | with_reducible apply State.serveTurn_kept | with_reducible apply State.complete_kept | with_reducible apply State.serveFrame_kept | with_reducible apply State.holdRow_kept | with_reducible apply State.cfgWriteNow_kept | with_reducible apply State.cfgReadNow_kept | with_reducible apply State.seqDue_kept | with_reducible apply State.keyStep_kept | with_reducible apply State.sequenceDone_kept | simp only [kept_mk] | with_reducible apply kept_parts | with_reducible intro _ | dsimp only | split)

theorem State.serveHeld_kept {pq : List Instr} {s : State} (h : s.Kept pq) : s.serveHeld.Kept pq := by
  unfold State.serveHeld
  repeat' (first | with_reducible assumption | with_reducible apply State.serve_kept | with_reducible apply foldl_kept | simp only [kept_mk] | with_reducible apply kept_parts | with_reducible intro _ | dsimp only | split)

theorem State.loopedEnd_kept {pq : List Instr} {s : State} (h : s.Kept pq) (block : Nat) (unit : Nat) : (s.loopedEnd block unit).Kept pq := by
  unfold State.loopedEnd
  repeat' (first | with_reducible assumption | with_reducible apply State.flushPort_kept | with_reducible apply State.pairsGo_kept | simp only [kept_mk] | with_reducible apply kept_parts | with_reducible intro _ | dsimp only | split)

theorem State.testEnds_kept {pq : List Instr} {s : State} (h : s.Kept pq) (block : Nat) (pass : Bool) (detail : Word) : (s.testEnds block pass detail).Kept pq := by
  unfold State.testEnds
  repeat' (first | with_reducible assumption | with_reducible apply State.testEnd_kept | with_reducible apply State.loopedEnd_kept | with_reducible apply State.serveHeld_kept | simp only [kept_mk] | with_reducible apply kept_parts | with_reducible intro _ | dsimp only | split)

theorem State.testAborts_kept {pq : List Instr} {s : State} (h : s.Kept pq) (block : Nat) : (s.testAborts block).Kept pq := by
  unfold State.testAborts
  repeat' (first | with_reducible assumption | with_reducible apply State.testAbort_kept | with_reducible apply State.loopedEnd_kept | with_reducible apply State.serveHeld_kept | simp only [kept_mk] | with_reducible apply kept_parts | with_reducible intro _ | dsimp only | split)

end Sys2Proof.Machine
end

