-- ==== Sys2Proof/Laws/KeptRtc.lean ====
section
/-! SUPPORT. Every operation of Machine/Rtc.lean keeps a state safe and its queue as it is. -/

namespace Sys2Proof.Machine

set_option linter.unreachableTactic false
set_option linter.unusedTactic false
set_option linter.unusedVariables false
set_option linter.unusedSimpArgs false

theorem State.rtcCycle_kept {pq : List Instr} {s : State} (h : s.Kept pq) : s.rtcCycle.Kept pq := by
  unfold State.rtcCycle
  repeat' (first | with_reducible assumption | with_reducible apply State.updSys_kept | simp only [kept_mk] | with_reducible apply kept_parts | with_reducible intro _ | dsimp only | split)

theorem State.idleStep_kept {pq : List Instr} {s : State} (h : s.Kept pq) : s.idleStep.Kept pq := by
  unfold State.idleStep
  repeat' (first | with_reducible assumption | with_reducible apply State.resetTake_kept | with_reducible apply State.rtcCycle_kept | simp only [kept_mk] | with_reducible apply kept_parts | with_reducible intro _ | dsimp only | split)

end Sys2Proof.Machine
end

