-- ==== Sys2Proof/Laws/KeptExec.lean ====
section
/-! SUPPORT. The meaning of every command keeps a state safe and its queue as it is. -/

namespace Sys2Proof.Machine

set_option linter.unreachableTactic false
set_option linter.unusedTactic false
set_option linter.unusedVariables false
set_option linter.unusedSimpArgs false

theorem execEcho_kept {t : Fin 32} {pq : List Instr} {s s1 : State} (h : s.Kept pq)
    (e : execEcho t s = .next s1) : s1.Kept pq := by
  unfold execEcho at e
  injection e with e
  rw [← e]
  clear e
  repeat' (first | with_reducible assumption | with_reducible apply State.withRun_kept | with_reducible apply State.runEcho_kept | simp only [kept_mk] | with_reducible apply kept_parts | with_reducible intro _ | dsimp only | split)

theorem execCfgRead_kept {t : Fin 32} {pq : List Instr} {s s1 : State} (h : s.Kept pq)
    (e : execCfgRead t s = .next s1) : s1.Kept pq := by
  unfold execCfgRead at e
  injection e with e
  rw [← e]
  clear e
  repeat' (first | with_reducible assumption | with_reducible apply State.withRun_kept | with_reducible apply State.runCfgRead_kept | simp only [kept_mk] | with_reducible apply kept_parts | with_reducible intro _ | dsimp only | split)

theorem execCfgWrite_kept {t : Fin 32} {pq : List Instr} {s s1 : State} (h : s.Kept pq)
    (e : execCfgWrite t s = .next s1) : s1.Kept pq := by
  unfold execCfgWrite at e
  injection e with e
  rw [← e]
  clear e
  repeat' (first | with_reducible assumption | with_reducible apply State.withRun_kept | with_reducible apply State.runCfgWrite_kept | simp only [kept_mk] | with_reducible apply kept_parts | with_reducible intro _ | dsimp only | split)

theorem execCfgModify_kept {t : Fin 32} {pq : List Instr} {s s1 : State} (h : s.Kept pq)
    (e : execCfgModify t s = .next s1) : s1.Kept pq := by
  unfold execCfgModify at e
  injection e with e
  rw [← e]
  clear e
  repeat' (first | with_reducible assumption | with_reducible apply State.withRun_kept | with_reducible apply State.runCfgModify_kept | simp only [kept_mk] | with_reducible apply kept_parts | with_reducible intro _ | dsimp only | split)

theorem execPageRead_kept {t : Fin 32} {pq : List Instr} {s s1 : State} (h : s.Kept pq)
    (e : execPageRead t s = .next s1) : s1.Kept pq := by
  unfold execPageRead at e
  injection e with e
  rw [← e]
  clear e
  repeat' (first | with_reducible assumption | with_reducible apply State.withRun_kept | with_reducible apply State.runPageRead_kept | simp only [kept_mk] | with_reducible apply kept_parts | with_reducible intro _ | dsimp only | split)

theorem execPageWrite_kept {t : Fin 32} {pq : List Instr} {s s1 : State} (h : s.Kept pq)
    (e : execPageWrite t s = .next s1) : s1.Kept pq := by
  unfold execPageWrite at e
  injection e with e
  rw [← e]
  clear e
  repeat' (first | with_reducible assumption | with_reducible apply State.withRun_kept | with_reducible apply State.runPageWrite_kept | simp only [kept_mk] | with_reducible apply kept_parts | with_reducible intro _ | dsimp only | split)

theorem execEqRead_kept {t : Fin 32} {pq : List Instr} {s s1 : State} (h : s.Kept pq)
    (e : execEqRead t s = .next s1) : s1.Kept pq := by
  unfold execEqRead at e
  injection e with e
  rw [← e]
  clear e
  repeat' (first | with_reducible assumption | with_reducible apply State.withRun_kept | with_reducible apply State.runEqRead_kept | simp only [kept_mk] | with_reducible apply kept_parts | with_reducible intro _ | dsimp only | split)

theorem execWinWrite_kept {t : Fin 32} {pq : List Instr} {s s1 : State} (h : s.Kept pq)
    (e : execWinWrite t s = .next s1) : s1.Kept pq := by
  unfold execWinWrite at e
  injection e with e
  rw [← e]
  clear e
  repeat' (first | with_reducible assumption | with_reducible apply State.withRun_kept | with_reducible apply State.runWinWrite_kept | simp only [kept_mk] | with_reducible apply kept_parts | with_reducible intro _ | dsimp only | split)

theorem execWinCommit_kept {t : Fin 32} {pq : List Instr} {s s1 : State} (h : s.Kept pq)
    (e : execWinCommit t s = .next s1) : s1.Kept pq := by
  unfold execWinCommit at e
  injection e with e
  rw [← e]
  clear e
  repeat' (first | with_reducible assumption | with_reducible apply State.withRun_kept | with_reducible apply State.runWinCommit_kept | simp only [kept_mk] | with_reducible apply kept_parts | with_reducible intro _ | dsimp only | split)

theorem execFlipArm_kept {t : Fin 32} {pq : List Instr} {s s1 : State} (h : s.Kept pq)
    (e : execFlipArm t s = .next s1) : s1.Kept pq := by
  unfold execFlipArm at e
  injection e with e
  rw [← e]
  clear e
  repeat' (first | with_reducible assumption | with_reducible apply State.withRun_kept | with_reducible apply State.runFlipArm_kept | simp only [kept_mk] | with_reducible apply kept_parts | with_reducible intro _ | dsimp only | split)

theorem execFlipCancel_kept {t : Fin 32} {pq : List Instr} {s s1 : State} (h : s.Kept pq)
    (e : execFlipCancel t s = .next s1) : s1.Kept pq := by
  unfold execFlipCancel at e
  injection e with e
  rw [← e]
  clear e
  repeat' (first | with_reducible assumption | with_reducible apply State.withRun_kept | with_reducible apply State.runFlipCancel_kept | simp only [kept_mk] | with_reducible apply kept_parts | with_reducible intro _ | dsimp only | split)

theorem execFlashRead_kept {t : Fin 32} {pq : List Instr} {s s1 : State} (h : s.Kept pq)
    (e : execFlashRead t s = .next s1) : s1.Kept pq := by
  unfold execFlashRead at e
  injection e with e
  rw [← e]
  clear e
  repeat' (first | with_reducible assumption | with_reducible apply State.withRun_kept | with_reducible apply State.runFlashRead_kept | simp only [kept_mk] | with_reducible apply kept_parts | with_reducible intro _ | dsimp only | split)

theorem execFlashProg_kept {t : Fin 32} {pq : List Instr} {s s1 : State} (h : s.Kept pq)
    (e : execFlashProg t s = .next s1) : s1.Kept pq := by
  unfold execFlashProg at e
  injection e with e
  rw [← e]
  clear e
  repeat' (first | with_reducible assumption | with_reducible apply State.withRun_kept | with_reducible apply State.runFlashProg_kept | simp only [kept_mk] | with_reducible apply kept_parts | with_reducible intro _ | dsimp only | split)

theorem execSectorErase_kept {t : Fin 32} {pq : List Instr} {s s1 : State} (h : s.Kept pq)
    (e : execSectorErase t s = .next s1) : s1.Kept pq := by
  unfold execSectorErase at e
  injection e with e
  rw [← e]
  clear e
  repeat' (first | with_reducible assumption | with_reducible apply State.withRun_kept | with_reducible apply State.runSectorErase_kept | simp only [kept_mk] | with_reducible apply kept_parts | with_reducible intro _ | dsimp only | split)

theorem execStore_kept {t : Fin 32} {pq : List Instr} {s s1 : State} (h : s.Kept pq)
    (e : execStore t s = .next s1) : s1.Kept pq := by
  unfold execStore at e
  injection e with e
  rw [← e]
  clear e
  repeat' (first | with_reducible assumption | with_reducible apply State.withRun_kept | with_reducible apply State.runStore_kept | simp only [kept_mk] | with_reducible apply kept_parts | with_reducible intro _ | dsimp only | split)

theorem execLoad_kept {t : Fin 32} {pq : List Instr} {s s1 : State} (h : s.Kept pq)
    (e : execLoad t s = .next s1) : s1.Kept pq := by
  unfold execLoad at e
  injection e with e
  rw [← e]
  clear e
  repeat' (first | with_reducible assumption | with_reducible apply State.withRun_kept | with_reducible apply State.runLoad_kept | simp only [kept_mk] | with_reducible apply kept_parts | with_reducible intro _ | dsimp only | split)

theorem execSelfTest_kept {t : Fin 32} {pq : List Instr} {s s1 : State} (h : s.Kept pq)
    (e : execSelfTest t s = .next s1) : s1.Kept pq := by
  unfold execSelfTest at e
  injection e with e
  rw [← e]
  clear e
  repeat' (first | with_reducible assumption | with_reducible apply State.withRun_kept | with_reducible apply State.runSelfTest_kept | simp only [kept_mk] | with_reducible apply kept_parts | with_reducible intro _ | dsimp only | split)

theorem execGrant_kept {t : Fin 32} {pq : List Instr} {s s1 : State} (h : s.Kept pq)
    (e : execGrant t s = .next s1) : s1.Kept pq := by
  unfold execGrant at e
  injection e with e
  rw [← e]
  clear e
  repeat' (first | with_reducible assumption | with_reducible apply State.withRun_kept | with_reducible apply State.runGrant_kept | simp only [kept_mk] | with_reducible apply kept_parts | with_reducible intro _ | dsimp only | split)

theorem execPwrReq_kept {t : Fin 32} {pq : List Instr} {s s1 : State} (h : s.Kept pq)
    (e : execPwrReq t s = .next s1) : s1.Kept pq := by
  unfold execPwrReq at e
  injection e with e
  rw [← e]
  clear e
  repeat' (first | with_reducible assumption | with_reducible apply State.withRun_kept | with_reducible apply State.runPwrReq_kept | simp only [kept_mk] | with_reducible apply kept_parts | with_reducible intro _ | dsimp only | split)

theorem execBusyRetry_kept {t : Fin 32} {pq : List Instr} {s s1 : State} (h : s.Kept pq)
    (e : execBusyRetry t s = .next s1) : s1.Kept pq := by
  unfold execBusyRetry at e
  injection e with e
  rw [← e]
  clear e
  repeat' (first | with_reducible assumption | with_reducible apply State.busyRetry_kept | simp only [kept_mk] | with_reducible apply kept_parts | with_reducible intro _ | dsimp only | split)

theorem execCommandComplete_kept {t : Fin 32} {pq : List Instr} {s s1 : State} (h : s.Kept pq)
    (e : execCommandComplete t s = .next s1) : s1.Kept pq := by
  unfold execCommandComplete at e
  injection e with e
  rw [← e]
  clear e
  repeat' (first | with_reducible assumption | with_reducible apply State.complete_kept | simp only [kept_mk] | with_reducible apply kept_parts | with_reducible intro _ | dsimp only | split)

theorem execBoundary_kept {mis : List (BitVec 12)} {pq : List Instr} {s s1 : State} (h : s.Kept pq)
    (e : execBoundary mis s = .next s1) : s1.Kept pq := by
  unfold execBoundary onlyIf at e
  injection e with e
  rw [← e]
  clear e
  repeat' (first | with_reducible assumption | with_reducible apply State.boundary_kept | simp only [kept_mk] | with_reducible apply kept_parts | with_reducible intro _ | dsimp only | split)

theorem execTickSet_kept {flags : Byte} {low : Byte} {lead : BitVec 24} {chk : Byte} {codeErr : Bool} {phase : Int} {held : Nat} {pq : List Instr} {s s1 : State} (h : s.Kept pq)
    (e : execTickSet flags low lead chk codeErr phase held s = .next s1) : s1.Kept pq := by
  unfold execTickSet at e
  injection e with e
  rw [← e]
  clear e
  repeat' (first | with_reducible assumption | with_reducible apply State.tickSet_kept | simp only [kept_mk] | with_reducible apply kept_parts | with_reducible intro _ | dsimp only | split)

theorem execDsyncEdge_kept {phase : Int} {pq : List Instr} {s s1 : State} (h : s.Kept pq)
    (e : execDsyncEdge phase s = .next s1) : s1.Kept pq := by
  unfold execDsyncEdge at e
  injection e with e
  rw [← e]
  clear e
  repeat' (first | with_reducible assumption | with_reducible apply State.dsyncEdge_kept | simp only [kept_mk] | with_reducible apply kept_parts | with_reducible intro _ | dsimp only | split)

theorem execDsyncClassify_kept {high : Nat} {pq : List Instr} {s s1 : State} (h : s.Kept pq)
    (e : execDsyncClassify high s = .next s1) : s1.Kept pq := by
  unfold execDsyncClassify at e
  injection e with e
  rw [← e]
  clear e
  repeat' (first | with_reducible assumption | with_reducible apply State.dsyncClassify_kept | simp only [kept_mk] | with_reducible apply kept_parts | with_reducible intro _ | dsimp only | split)

theorem execWindowEnd_kept {mis : List (BitVec 12)} {pq : List Instr} {s s1 : State} (h : s.Kept pq)
    (e : execWindowEnd mis s = .next s1) : s1.Kept pq := by
  unfold execWindowEnd onlyIf at e
  injection e with e
  rw [← e]
  clear e
  repeat' (first | with_reducible assumption | with_reducible apply State.windowEnd_kept | simp only [kept_mk] | with_reducible apply kept_parts | with_reducible intro _ | dsimp only | split)

theorem execLoopSlot_kept {die : List Int} {pq : List Instr} {s s1 : State} (h : s.Kept pq)
    (e : execLoopSlot die s = .next s1) : s1.Kept pq := by
  unfold execLoopSlot onlyIf at e
  injection e with e
  rw [← e]
  clear e
  repeat' (first | with_reducible assumption | with_reducible apply State.loopSlot_kept | with_reducible apply State.atSlot_kept | simp only [kept_mk] | with_reducible apply kept_parts | with_reducible intro _ | dsimp only | split)

theorem execFlashSlot_kept {pq : List Instr} {s s1 : State} (h : s.Kept pq)
    (e : execFlashSlot s = .next s1) : s1.Kept pq := by
  unfold execFlashSlot at e
  injection e with e
  rw [← e]
  clear e
  repeat' (first | with_reducible assumption | with_reducible apply State.atSlot_kept | with_reducible apply State.flashSlot_kept | with_reducible apply State.ackPorts_kept | simp only [kept_mk] | with_reducible apply kept_parts | with_reducible intro _ | dsimp only | split)

theorem execAdcSlot_kept {pq : List Instr} {s s1 : State} (h : s.Kept pq)
    (e : execAdcSlot s = .next s1) : s1.Kept pq := by
  unfold execAdcSlot at e
  injection e with e
  rw [← e]
  clear e
  repeat' (first | with_reducible assumption | with_reducible apply State.atSlot_kept | with_reducible apply State.adcSlot_kept | simp only [kept_mk] | with_reducible apply kept_parts | with_reducible intro _ | dsimp only | split)

theorem execCmdSlot_kept {slot : Nat} {pq : List Instr} {s s1 : State} (h : s.Kept pq)
    (e : execCmdSlot slot s = .next s1) : s1.Kept pq := by
  unfold execCmdSlot onlyIf at e
  injection e with e
  rw [← e]
  clear e
  repeat' (first | with_reducible assumption | with_reducible apply State.cmdSlot_kept | with_reducible apply State.atSlot_kept | simp only [kept_mk] | with_reducible apply kept_parts | with_reducible intro _ | dsimp only | split)

theorem execSramScrubStep_kept {pq : List Instr} {s s1 : State} (h : s.Kept pq)
    (e : execSramScrubStep s = .next s1) : s1.Kept pq := by
  unfold execSramScrubStep at e
  injection e with e
  rw [← e]
  clear e
  repeat' (first | with_reducible assumption | with_reducible apply State.atSlot_kept | with_reducible apply State.sramScrub_kept | simp only [kept_mk] | with_reducible apply kept_parts | with_reducible intro _ | dsimp only | split)

theorem execFlashScrubRead_kept {pq : List Instr} {s s1 : State} (h : s.Kept pq)
    (e : execFlashScrubRead s = .next s1) : s1.Kept pq := by
  unfold execFlashScrubRead at e
  injection e with e
  rw [← e]
  clear e
  repeat' (first | with_reducible assumption | with_reducible apply State.atSlot_kept | with_reducible apply State.flashScrub_kept | simp only [kept_mk] | with_reducible apply kept_parts | with_reducible intro _ | dsimp only | split)

theorem execCoalesceSweep_kept {pq : List Instr} {s s1 : State} (h : s.Kept pq)
    (e : execCoalesceSweep s = .next s1) : s1.Kept pq := by
  unfold execCoalesceSweep at e
  injection e with e
  rw [← e]
  clear e
  repeat' (first | with_reducible assumption | with_reducible apply State.atSlot_kept | with_reducible apply State.sweepSlot_kept | simp only [kept_mk] | with_reducible apply kept_parts | with_reducible intro _ | dsimp only | split)

theorem execGuardSlot_kept {pq : List Instr} {s s1 : State} (h : s.Kept pq)
    (e : execGuardSlot s = .next s1) : s1.Kept pq := by
  unfold execGuardSlot at e
  injection e with e
  rw [← e]
  clear e
  repeat' (first | with_reducible assumption | with_reducible apply State.atSlot_kept | with_reducible apply State.guardSlot_kept | simp only [kept_mk] | with_reducible apply kept_parts | with_reducible intro _ | dsimp only | split)

theorem execHostRead_kept {p : Fin 2} {page : Fin 32} {off : BitVec 16} {pq : List Instr} {s s1 : State} (h : s.Kept pq)
    (e : execHostRead p page off s = .next s1) : s1.Kept pq := by
  unfold execHostRead at e
  injection e with e
  rw [← e]
  clear e
  repeat' (first | with_reducible assumption | with_reducible apply State.portAccess_kept | simp only [kept_mk] | with_reducible apply kept_parts | with_reducible intro _ | dsimp only | split)

theorem execHostWrite_kept {p : Fin 2} {page : Fin 32} {off : BitVec 16} {v : Word} {beN : BitVec 4} {pq : List Instr} {s s1 : State} (h : s.Kept pq)
    (e : execHostWrite p page off v beN s = .next s1) : s1.Kept pq := by
  unfold execHostWrite at e
  injection e with e
  rw [← e]
  clear e
  repeat' (first | with_reducible assumption | with_reducible apply State.portAccess_kept | simp only [kept_mk] | with_reducible apply kept_parts | with_reducible intro _ | dsimp only | split)

theorem execHostAccessComplete_kept {p : Fin 2} {pq : List Instr} {s s1 : State} (h : s.Kept pq)
    (e : execHostAccessComplete p s = .next s1) : s1.Kept pq := by
  unfold execHostAccessComplete at e
  injection e with e
  rw [← e]
  clear e
  repeat' (first | with_reducible assumption | with_reducible apply State.portComplete_kept | simp only [kept_mk] | with_reducible apply kept_parts | with_reducible intro _ | dsimp only | split)

theorem execHostStrobeRelease_kept {p : Fin 2} {pq : List Instr} {s s1 : State} (h : s.Kept pq)
    (e : execHostStrobeRelease p s = .next s1) : s1.Kept pq := by
  unfold execHostStrobeRelease at e
  injection e with e
  rw [← e]
  clear e
  repeat' (first | with_reducible assumption | with_reducible apply State.strobeRelease_kept | with_reducible apply State.resetTake_kept | simp only [kept_mk] | with_reducible apply kept_parts | with_reducible intro _ | dsimp only | split)

theorem execAccessAbandon_kept {p : Fin 2} {pq : List Instr} {s s1 : State} (h : s.Kept pq)
    (e : execAccessAbandon p s = .next s1) : s1.Kept pq := by
  unfold execAccessAbandon at e
  injection e with e
  rw [← e]
  clear e
  repeat' (first | with_reducible assumption | with_reducible apply State.portAbandon_kept | simp only [kept_mk] | with_reducible apply kept_parts | with_reducible intro _ | dsimp only | split)

theorem execWaitGuardExpiry_kept {p : Fin 2} {pq : List Instr} {s s1 : State} (h : s.Kept pq)
    (e : execWaitGuardExpiry p s = .next s1) : s1.Kept pq := by
  unfold execWaitGuardExpiry at e
  injection e with e
  rw [← e]
  clear e
  repeat' (first | with_reducible assumption | with_reducible apply State.portStall_kept | simp only [kept_mk] | with_reducible apply kept_parts | with_reducible intro _ | dsimp only | split)

theorem execPostedWriteDrain_kept {p : Fin 2} {pq : List Instr} {s s1 : State} (h : s.Kept pq)
    (e : execPostedWriteDrain p s = .next s1) : s1.Kept pq := by
  unfold execPostedWriteDrain at e
  injection e with e
  rw [← e]
  clear e
  repeat' (first | with_reducible assumption | with_reducible apply State.postDrain_kept | simp only [kept_mk] | with_reducible apply kept_parts | with_reducible intro _ | dsimp only | split)

theorem execFenceRead_kept {p : Fin 2} {page : Fin 32} {pq : List Instr} {s s1 : State} (h : s.Kept pq)
    (e : execFenceRead p page s = .next s1) : s1.Kept pq := by
  unfold execFenceRead at e
  injection e with e
  rw [← e]
  clear e
  repeat' (first | with_reducible assumption | with_reducible apply State.portAccess_kept | simp only [kept_mk] | with_reducible apply kept_parts | with_reducible intro _ | dsimp only | split)

theorem execRegisterWrite_kept {t : Fin 32} {cfg : Bool} {off : Nat} {v : Word} {beN : BitVec 4} {pq : List Instr} {s s1 : State} (h : s.Kept pq)
    (e : execRegisterWrite t cfg off v beN s = .next s1) : s1.Kept pq := by
  unfold execRegisterWrite at e
  injection e with e
  rw [← e]
  clear e
  repeat' (first | with_reducible assumption | with_reducible apply State.cfgRow_kept | with_reducible apply State.pageRow_kept | simp only [kept_mk] | with_reducible apply kept_parts | with_reducible intro _ | dsimp only | split)

theorem execReadClear_kept {t : Fin 32} {cfg : Bool} {off : Nat} {pq : List Instr} {s s1 : State} (h : s.Kept pq)
    (e : execReadClear t cfg off s = .next s1) : s1.Kept pq := by
  unfold execReadClear at e
  injection e with e
  rw [← e]
  clear e
  repeat' (first | with_reducible assumption | with_reducible apply State.cfgRowRead_kept | with_reducible apply State.pageRowRead_kept | simp only [kept_mk] | with_reducible apply kept_parts | with_reducible intro _ | dsimp only | split)

theorem execTickNumberRead_kept {page : Option (Fin 32)} {pq : List Instr} {s s1 : State} (h : s.Kept pq)
    (e : execTickNumberRead page s = .next s1) : s1.Kept pq := by
  unfold execTickNumberRead at e
  injection e with e
  rw [← e]
  clear e
  repeat' (first | with_reducible assumption | with_reducible apply State.pageRowRead_kept | with_reducible apply State.cfgRowRead_kept | simp only [kept_mk] | with_reducible apply kept_parts | with_reducible intro _ | dsimp only | split)

theorem execTickNumSetLoad_kept {v : Word} {pq : List Instr} {s s1 : State} (h : s.Kept pq)
    (e : execTickNumSetLoad v s = .next s1) : s1.Kept pq := by
  unfold execTickNumSetLoad at e
  injection e with e
  rw [← e]
  clear e
  repeat' (first | with_reducible assumption | with_reducible apply State.cfgRow_kept | simp only [kept_mk] | with_reducible apply kept_parts | with_reducible intro _ | dsimp only | split)

theorem execGrantStage_kept {v : Word} {pq : List Instr} {s s1 : State} (h : s.Kept pq)
    (e : execGrantStage v s = .next s1) : s1.Kept pq := by
  unfold execGrantStage at e
  injection e with e
  rw [← e]
  clear e
  repeat' (first | with_reducible assumption | with_reducible apply State.pageRow_kept | simp only [kept_mk] | with_reducible apply kept_parts | with_reducible intro _ | dsimp only | split)

theorem execDoorNone_kept {t : Fin 32} {pq : List Instr} {s s1 : State} (h : s.Kept pq)
    (e : execDoorNone t s = .next s1) : s1.Kept pq := by
  unfold execDoorNone at e
  injection e with e
  rw [← e]
  clear e
  repeat' (first | with_reducible assumption | with_reducible apply State.pageRow_kept | simp only [kept_mk] | with_reducible apply kept_parts | with_reducible intro _ | dsimp only | split)

theorem execDoorOpen_kept {t : Fin 32} {pq : List Instr} {s s1 : State} (h : s.Kept pq)
    (e : execDoorOpen t s = .next s1) : s1.Kept pq := by
  unfold execDoorOpen at e
  injection e with e
  rw [← e]
  clear e
  repeat' (first | with_reducible assumption | with_reducible apply State.pageRow_kept | simp only [kept_mk] | with_reducible apply kept_parts | with_reducible intro _ | dsimp only | split)

theorem execDoorShut_kept {t : Fin 32} {pq : List Instr} {s s1 : State} (h : s.Kept pq)
    (e : execDoorShut t s = .next s1) : s1.Kept pq := by
  unfold execDoorShut at e
  injection e with e
  rw [← e]
  clear e
  repeat' (first | with_reducible assumption | with_reducible apply State.pageRow_kept | simp only [kept_mk] | with_reducible apply kept_parts | with_reducible intro _ | dsimp only | split)

theorem execDoorOpenFlush_kept {t : Fin 32} {pq : List Instr} {s s1 : State} (h : s.Kept pq)
    (e : execDoorOpenFlush t s = .next s1) : s1.Kept pq := by
  unfold execDoorOpenFlush at e
  injection e with e
  rw [← e]
  clear e
  repeat' (first | with_reducible assumption | with_reducible apply State.pageRow_kept | simp only [kept_mk] | with_reducible apply kept_parts | with_reducible intro _ | dsimp only | split)

theorem execLeakCountExpiry_kept {t : Fin 32} {pq : List Instr} {s s1 : State} (h : s.Kept pq)
    (e : execLeakCountExpiry t s = .next s1) : s1.Kept pq := by
  unfold execLeakCountExpiry at e
  injection e with e
  rw [← e]
  clear e
  repeat' (first | with_reducible assumption | with_reducible apply State.leakExpire_kept | simp only [kept_mk] | with_reducible apply kept_parts | with_reducible intro _ | dsimp only | split)

theorem execSecDoorCfgWrite_kept {v : Word} {pq : List Instr} {s s1 : State} (h : s.Kept pq)
    (e : execSecDoorCfgWrite v s = .next s1) : s1.Kept pq := by
  unfold execSecDoorCfgWrite at e
  injection e with e
  rw [← e]
  clear e
  repeat' (first | with_reducible assumption | with_reducible apply State.cfgRow_kept | simp only [kept_mk] | with_reducible apply kept_parts | with_reducible intro _ | dsimp only | split)

theorem execHeartbeatWrite_kept {t : Fin 32} {v : Word} {pq : List Instr} {s s1 : State} (h : s.Kept pq)
    (e : execHeartbeatWrite t v s = .next s1) : s1.Kept pq := by
  unfold execHeartbeatWrite at e
  injection e with e
  rw [← e]
  clear e
  repeat' (first | with_reducible assumption | with_reducible apply State.pageRow_kept | simp only [kept_mk] | with_reducible apply kept_parts | with_reducible intro _ | dsimp only | split)

theorem execHeartbeatExpiry_kept {t : Fin 32} {pq : List Instr} {s s1 : State} (h : s.Kept pq)
    (e : execHeartbeatExpiry t s = .next s1) : s1.Kept pq := by
  unfold execHeartbeatExpiry at e
  injection e with e
  rw [← e]
  clear e
  repeat' (first | with_reducible assumption | with_reducible apply State.hbExpire_kept | simp only [kept_mk] | with_reducible apply kept_parts | with_reducible intro _ | dsimp only | split)

theorem execKeyLoad_kept {persist : Bool} {pq : List Instr} {s s1 : State} (h : s.Kept pq)
    (e : execKeyLoad persist s = .next s1) : s1.Kept pq := by
  unfold execKeyLoad at e
  injection e with e
  rw [← e]
  clear e
  repeat' (first | with_reducible assumption | with_reducible apply State.cfgRow_kept | simp only [kept_mk] | with_reducible apply kept_parts | with_reducible intro _ | dsimp only | split)

theorem execKeyErase_kept {load : Bool} {pq : List Instr} {s s1 : State} (h : s.Kept pq)
    (e : execKeyErase load s = .next s1) : s1.Kept pq := by
  unfold execKeyErase at e
  injection e with e
  rw [← e]
  clear e
  repeat' (first | with_reducible assumption | with_reducible apply State.cfgRow_kept | simp only [kept_mk] | with_reducible apply kept_parts | with_reducible intro _ | dsimp only | split)

theorem execPageMaskWrite_kept {via : Option (Fin 2)} {which : Fin 2} {v : Word} {beN : BitVec 4} {pq : List Instr} {s s1 : State} (h : s.Kept pq)
    (e : execPageMaskWrite via which v beN s = .next s1) : s1.Kept pq := by
  unfold execPageMaskWrite at e
  injection e with e
  rw [← e]
  clear e
  repeat' (first | with_reducible assumption | with_reducible apply State.portAccess_kept | with_reducible apply State.pageRow_kept | simp only [kept_mk] | with_reducible apply kept_parts | with_reducible intro _ | dsimp only | split)

theorem execDoorbell_kept {t : Fin 32} {v : BitVec 6} {pq : List Instr} {s s1 : State} (h : s.Kept pq)
    (e : execDoorbell t v s = .next s1) : s1.Kept pq := by
  unfold execDoorbell at e
  injection e with e
  rw [← e]
  clear e
  repeat' (first | with_reducible assumption | with_reducible apply State.pageRow_kept | simp only [kept_mk] | with_reducible apply kept_parts | with_reducible intro _ | dsimp only | split)

theorem execRqHeadWrite_kept {t : Fin 32} {v : BitVec 6} {pq : List Instr} {s s1 : State} (h : s.Kept pq)
    (e : execRqHeadWrite t v s = .next s1) : s1.Kept pq := by
  unfold execRqHeadWrite at e
  injection e with e
  rw [← e]
  clear e
  repeat' (first | with_reducible assumption | with_reducible apply State.pageRow_kept | simp only [kept_mk] | with_reducible apply kept_parts | with_reducible intro _ | dsimp only | split)

theorem execEqHeadWrite_kept {t : Fin 32} {v : BitVec 7} {pq : List Instr} {s s1 : State} (h : s.Kept pq)
    (e : execEqHeadWrite t v s = .next s1) : s1.Kept pq := by
  unfold execEqHeadWrite at e
  injection e with e
  rw [← e]
  clear e
  repeat' (first | with_reducible assumption | with_reducible apply State.pageRow_kept | simp only [kept_mk] | with_reducible apply kept_parts | with_reducible intro _ | dsimp only | split)

theorem execWinCommitReg_kept {t : Fin 32} {v : Word} {pq : List Instr} {s s1 : State} (h : s.Kept pq)
    (e : execWinCommitReg t v s = .next s1) : s1.Kept pq := by
  unfold execWinCommitReg at e
  injection e with e
  rw [← e]
  clear e
  repeat' (first | with_reducible assumption | with_reducible apply State.pageRow_kept | simp only [kept_mk] | with_reducible apply kept_parts | with_reducible intro _ | dsimp only | split)

theorem execWindowConfigWrite_kept {t : Fin 32} {w : Fin 4} {ctrl : Bool} {v : Word} {pq : List Instr} {s s1 : State} (h : s.Kept pq)
    (e : execWindowConfigWrite t w ctrl v s = .next s1) : s1.Kept pq := by
  unfold execWindowConfigWrite at e
  injection e with e
  rw [← e]
  clear e
  repeat' (first | with_reducible assumption | with_reducible apply State.pageRow_kept | simp only [kept_mk] | with_reducible apply kept_parts | with_reducible intro _ | dsimp only | split)

theorem execEventTest_kept {v : Word} {pq : List Instr} {s s1 : State} (h : s.Kept pq)
    (e : execEventTest v s = .next s1) : s1.Kept pq := by
  unfold execEventTest at e
  injection e with e
  rw [← e]
  clear e
  repeat' (first | with_reducible assumption | with_reducible apply State.pageRow_kept | simp only [kept_mk] | with_reducible apply kept_parts | with_reducible intro _ | dsimp only | split)

theorem execPwrReqOpen_kept {force : Bool} {pq : List Instr} {s s1 : State} (h : s.Kept pq)
    (e : execPwrReqOpen force s = .next s1) : s1.Kept pq := by
  unfold execPwrReqOpen at e
  injection e with e
  rw [← e]
  clear e
  repeat' (first | with_reducible assumption | with_reducible apply State.pageRow_kept | simp only [kept_mk] | with_reducible apply kept_parts | with_reducible intro _ | dsimp only | split)

theorem execPwrReqAjar_kept {force : Bool} {pq : List Instr} {s s1 : State} (h : s.Kept pq)
    (e : execPwrReqAjar force s = .next s1) : s1.Kept pq := by
  unfold execPwrReqAjar at e
  injection e with e
  rw [← e]
  clear e
  repeat' (first | with_reducible assumption | with_reducible apply State.pageRow_kept | simp only [kept_mk] | with_reducible apply kept_parts | with_reducible intro _ | dsimp only | split)

theorem execPwrReqLouvred_kept {force : Bool} {pq : List Instr} {s s1 : State} (h : s.Kept pq)
    (e : execPwrReqLouvred force s = .next s1) : s1.Kept pq := by
  unfold execPwrReqLouvred at e
  injection e with e
  rw [← e]
  clear e
  repeat' (first | with_reducible assumption | with_reducible apply State.pageRow_kept | simp only [kept_mk] | with_reducible apply kept_parts | with_reducible intro _ | dsimp only | split)

theorem execPwrReqLatched_kept {force : Bool} {pq : List Instr} {s s1 : State} (h : s.Kept pq)
    (e : execPwrReqLatched force s = .next s1) : s1.Kept pq := by
  unfold execPwrReqLatched at e
  injection e with e
  rw [← e]
  clear e
  repeat' (first | with_reducible assumption | with_reducible apply State.pageRow_kept | simp only [kept_mk] | with_reducible apply kept_parts | with_reducible intro _ | dsimp only | split)

theorem execWakeHoldLapse_kept {t : Fin 32} {pq : List Instr} {s s1 : State} (h : s.Kept pq)
    (e : execWakeHoldLapse t s = .next s1) : s1.Kept pq := by
  unfold execWakeHoldLapse at e
  injection e with e
  rw [← e]
  clear e
  repeat' (first | with_reducible assumption | with_reducible apply State.voteLapse_kept | simp only [kept_mk] | with_reducible apply kept_parts | with_reducible intro _ | dsimp only | split)

theorem execGrantViewRead_kept {t : Fin 32} {pq : List Instr} {s s1 : State} (h : s.Kept pq)
    (e : execGrantViewRead t s = .next s1) : s1.Kept pq := by
  unfold execGrantViewRead at e
  injection e with e
  rw [← e]
  clear e
  repeat' (first | with_reducible assumption | with_reducible apply State.pageRowRead_kept | simp only [kept_mk] | with_reducible apply kept_parts | with_reducible intro _ | dsimp only | split)

theorem execTimeSubRead_kept {page : Option (Fin 32)} {pq : List Instr} {s s1 : State} (h : s.Kept pq)
    (e : execTimeSubRead page s = .next s1) : s1.Kept pq := by
  unfold execTimeSubRead at e
  injection e with e
  rw [← e]
  clear e
  repeat' (first | with_reducible assumption | with_reducible apply State.pageRowRead_kept | simp only [kept_mk] | with_reducible apply kept_parts | with_reducible intro _ | dsimp only | split)

theorem execRtcSecWrite_kept {v : Word} {pq : List Instr} {s s1 : State} (h : s.Kept pq)
    (e : execRtcSecWrite v s = .next s1) : s1.Kept pq := by
  unfold execRtcSecWrite at e
  injection e with e
  rw [← e]
  clear e
  repeat' (first | with_reducible assumption | with_reducible apply State.pageRow_kept | simp only [kept_mk] | with_reducible apply kept_parts | with_reducible intro _ | dsimp only | split)

theorem execRtcSubWrite_kept {v : Word} {pq : List Instr} {s s1 : State} (h : s.Kept pq)
    (e : execRtcSubWrite v s = .next s1) : s1.Kept pq := by
  unfold execRtcSubWrite at e
  injection e with e
  rw [← e]
  clear e
  repeat' (first | with_reducible assumption | with_reducible apply State.pageRow_kept | simp only [kept_mk] | with_reducible apply kept_parts | with_reducible intro _ | dsimp only | split)

theorem execRtcTrimWrite_kept {v : Word} {pq : List Instr} {s s1 : State} (h : s.Kept pq)
    (e : execRtcTrimWrite v s = .next s1) : s1.Kept pq := by
  unfold execRtcTrimWrite at e
  injection e with e
  rw [← e]
  clear e
  repeat' (first | with_reducible assumption | with_reducible apply State.pageRow_kept | simp only [kept_mk] | with_reducible apply kept_parts | with_reducible intro _ | dsimp only | split)

theorem execSoftReset_kept {v : Word} {pq : List Instr} {s s1 : State} (h : s.Kept pq)
    (e : execSoftReset v s = .next s1) : s1.Kept pq := by
  unfold execSoftReset at e
  injection e with e
  rw [← e]
  clear e
  repeat' (first | with_reducible assumption | with_reducible apply State.pageRow_kept | simp only [kept_mk] | with_reducible apply kept_parts | with_reducible intro _ | dsimp only | split)

theorem execShutterRelease_kept {v : Word} {pq : List Instr} {s s1 : State} (h : s.Kept pq)
    (e : execShutterRelease v s = .next s1) : s1.Kept pq := by
  unfold execShutterRelease at e
  injection e with e
  rw [← e]
  clear e
  repeat' (first | with_reducible assumption | with_reducible apply State.pageRow_kept | simp only [kept_mk] | with_reducible apply kept_parts | with_reducible intro _ | dsimp only | split)

theorem execSwing_kept {pq : List Instr} {s s1 : State} (h : s.Kept pq)
    (e : execSwing s = .next s1) : s1.Kept pq := by
  unfold execSwing at e
  injection e with e
  rw [← e]
  clear e
  repeat' (first | with_reducible assumption | with_reducible apply State.pageRow_kept | simp only [kept_mk] | with_reducible apply kept_parts | with_reducible intro _ | dsimp only | split)

theorem execBootConfirm_kept {pq : List Instr} {s s1 : State} (h : s.Kept pq)
    (e : execBootConfirm s = .next s1) : s1.Kept pq := by
  unfold execBootConfirm at e
  injection e with e
  rw [← e]
  clear e
  repeat' (first | with_reducible assumption | with_reducible apply State.pageRow_kept | simp only [kept_mk] | with_reducible apply kept_parts | with_reducible intro _ | dsimp only | split)

theorem execKstoreSave_kept {pq : List Instr} {s s1 : State} (h : s.Kept pq)
    (e : execKstoreSave s = .next s1) : s1.Kept pq := by
  unfold execKstoreSave at e
  injection e with e
  rw [← e]
  clear e
  repeat' (first | with_reducible assumption | with_reducible apply State.pageRow_kept | simp only [kept_mk] | with_reducible apply kept_parts | with_reducible intro _ | dsimp only | split)

theorem execUnlock_kept {pq : List Instr} {s s1 : State} (h : s.Kept pq)
    (e : execUnlock s = .next s1) : s1.Kept pq := by
  unfold execUnlock at e
  injection e with e
  rw [← e]
  clear e
  repeat' (first | with_reducible assumption | with_reducible apply State.pageRow_kept | simp only [kept_mk] | with_reducible apply kept_parts | with_reducible intro _ | dsimp only | split)

theorem execRelock_kept {pq : List Instr} {s s1 : State} (h : s.Kept pq)
    (e : execRelock s = .next s1) : s1.Kept pq := by
  unfold execRelock at e
  injection e with e
  rw [← e]
  clear e
  repeat' (first | with_reducible assumption | with_reducible apply State.pageRow_kept | simp only [kept_mk] | with_reducible apply kept_parts | with_reducible intro _ | dsimp only | split)

theorem execChallengeRead_kept {pq : List Instr} {s s1 : State} (h : s.Kept pq)
    (e : execChallengeRead s = .next s1) : s1.Kept pq := by
  unfold execChallengeRead at e
  injection e with e
  rw [← e]
  clear e
  repeat' (first | with_reducible assumption | with_reducible apply State.pageRowRead_kept | simp only [kept_mk] | with_reducible apply kept_parts | with_reducible intro _ | dsimp only | split)

theorem execChallengeResponse_kept {v : Word} {pq : List Instr} {s s1 : State} (h : s.Kept pq)
    (e : execChallengeResponse v s = .next s1) : s1.Kept pq := by
  unfold execChallengeResponse at e
  injection e with e
  rw [← e]
  clear e
  repeat' (first | with_reducible assumption | with_reducible apply State.pageRow_kept | simp only [kept_mk] | with_reducible apply kept_parts | with_reducible intro _ | dsimp only | split)

theorem execPeepGroupWrite_kept {v : Word} {pq : List Instr} {s s1 : State} (h : s.Kept pq)
    (e : execPeepGroupWrite v s = .next s1) : s1.Kept pq := by
  unfold execPeepGroupWrite at e
  injection e with e
  rw [← e]
  clear e
  repeat' (first | with_reducible assumption | with_reducible apply State.cfgRow_kept | simp only [kept_mk] | with_reducible apply kept_parts | with_reducible intro _ | dsimp only | split)

theorem execProtClear_kept {v : Word} {pq : List Instr} {s s1 : State} (h : s.Kept pq)
    (e : execProtClear v s = .next s1) : s1.Kept pq := by
  unfold execProtClear at e
  injection e with e
  rw [← e]
  clear e
  repeat' (first | with_reducible assumption | with_reducible apply State.cfgRow_kept | simp only [kept_mk] | with_reducible apply kept_parts | with_reducible intro _ | dsimp only | split)

theorem execProtInject_kept {v : Word} {pq : List Instr} {s s1 : State} (h : s.Kept pq)
    (e : execProtInject v s = .next s1) : s1.Kept pq := by
  unfold execProtInject at e
  injection e with e
  rw [← e]
  clear e
  repeat' (first | with_reducible assumption | with_reducible apply State.cfgRow_kept | simp only [kept_mk] | with_reducible apply kept_parts | with_reducible intro _ | dsimp only | split)

theorem execGoUp_kept {pq : List Instr} {s s1 : State} (h : s.Kept pq)
    (e : execGoUp s = .next s1) : s1.Kept pq := by
  unfold execGoUp at e
  injection e with e
  rw [← e]
  clear e
  repeat' (first | with_reducible assumption | with_reducible apply State.cfgRow_kept | simp only [kept_mk] | with_reducible apply kept_parts | with_reducible intro _ | dsimp only | split)

theorem execGoDown_kept {pq : List Instr} {s s1 : State} (h : s.Kept pq)
    (e : execGoDown s = .next s1) : s1.Kept pq := by
  unfold execGoDown at e
  injection e with e
  rw [← e]
  clear e
  repeat' (first | with_reducible assumption | with_reducible apply State.cfgRow_kept | simp only [kept_mk] | with_reducible apply kept_parts | with_reducible intro _ | dsimp only | split)

theorem execSeqManWrite_kept {v : Word} {pq : List Instr} {s s1 : State} (h : s.Kept pq)
    (e : execSeqManWrite v s = .next s1) : s1.Kept pq := by
  unfold execSeqManWrite at e
  injection e with e
  rw [← e]
  clear e
  repeat' (first | with_reducible assumption | with_reducible apply State.cfgRow_kept | simp only [kept_mk] | with_reducible apply kept_parts | with_reducible intro _ | dsimp only | split)

theorem execBatQWrite_kept {v : Word} {pq : List Instr} {s s1 : State} (h : s.Kept pq)
    (e : execBatQWrite v s = .next s1) : s1.Kept pq := by
  unfold execBatQWrite at e
  injection e with e
  rw [← e]
  clear e
  repeat' (first | with_reducible assumption | with_reducible apply State.cfgRow_kept | simp only [kept_mk] | with_reducible apply kept_parts | with_reducible intro _ | dsimp only | split)

theorem execCoinGo_kept {pq : List Instr} {s s1 : State} (h : s.Kept pq)
    (e : execCoinGo s = .next s1) : s1.Kept pq := by
  unfold execCoinGo at e
  injection e with e
  rw [← e]
  clear e
  repeat' (first | with_reducible assumption | with_reducible apply State.cfgRow_kept | simp only [kept_mk] | with_reducible apply kept_parts | with_reducible intro _ | dsimp only | split)

theorem execTargetWrite_kept {n : Fin 16} {v : Word} {pq : List Instr} {s s1 : State} (h : s.Kept pq)
    (e : execTargetWrite n v s = .next s1) : s1.Kept pq := by
  unfold execTargetWrite at e
  injection e with e
  rw [← e]
  clear e
  repeat' (first | with_reducible assumption | with_reducible apply State.cfgRow_kept | simp only [kept_mk] | with_reducible apply kept_parts | with_reducible intro _ | dsimp only | split)

theorem execLampFaultClear_kept {n : Fin 16} {v : Word} {pq : List Instr} {s s1 : State} (h : s.Kept pq)
    (e : execLampFaultClear n v s = .next s1) : s1.Kept pq := by
  unfold execLampFaultClear at e
  injection e with e
  rw [← e]
  clear e
  repeat' (first | with_reducible assumption | with_reducible apply State.cfgRow_kept | simp only [kept_mk] | with_reducible apply kept_parts | with_reducible intro _ | dsimp only | split)

theorem execEngineRun_kept {k : Fin 4} {start : Fin 32} {pq : List Instr} {s s1 : State} (h : s.Kept pq)
    (e : execEngineRun k start s = .next s1) : s1.Kept pq := by
  unfold execEngineRun at e
  injection e with e
  rw [← e]
  clear e
  repeat' (first | with_reducible assumption | with_reducible apply State.cfgRow_kept | simp only [kept_mk] | with_reducible apply kept_parts | with_reducible intro _ | dsimp only | split)

theorem execEngineStop_kept {k : Fin 4} {pq : List Instr} {s s1 : State} (h : s.Kept pq)
    (e : execEngineStop k s = .next s1) : s1.Kept pq := by
  unfold execEngineStop at e
  injection e with e
  rw [← e]
  clear e
  repeat' (first | with_reducible assumption | with_reducible apply State.cfgRow_kept | simp only [kept_mk] | with_reducible apply kept_parts | with_reducible intro _ | dsimp only | split)

theorem execKeyMaskWrite_kept {k : Fin 320} {v : Word} {pq : List Instr} {s s1 : State} (h : s.Kept pq)
    (e : execKeyMaskWrite k v s = .next s1) : s1.Kept pq := by
  unfold execKeyMaskWrite at e
  injection e with e
  rw [← e]
  clear e
  repeat' (first | with_reducible assumption | with_reducible apply State.cfgRow_kept | simp only [kept_mk] | with_reducible apply kept_parts | with_reducible intro _ | dsimp only | split)

theorem execRefSelect_kept {v : Word} {pq : List Instr} {s s1 : State} (h : s.Kept pq)
    (e : execRefSelect v s = .next s1) : s1.Kept pq := by
  unfold execRefSelect at e
  injection e with e
  rw [← e]
  clear e
  repeat' (first | with_reducible assumption | with_reducible apply State.cfgRow_kept | simp only [kept_mk] | with_reducible apply kept_parts | with_reducible intro _ | dsimp only | split)

theorem execInject_kept {n : Fin 32} {v : Word} {pq : List Instr} {s s1 : State} (h : s.Kept pq)
    (e : execInject n v s = .next s1) : s1.Kept pq := by
  unfold execInject at e
  injection e with e
  rw [← e]
  clear e
  repeat' (first | with_reducible assumption | with_reducible apply State.cfgRow_kept | simp only [kept_mk] | with_reducible apply kept_parts | with_reducible intro _ | dsimp only | split)

theorem execCmd_kept {pq : List Instr} {s s1 : State} (h : s.Kept pq)
    (e : execCmd s = .next s1) : s1.Kept pq := by
  unfold execCmd at e
  injection e with e
  rw [← e]
  clear e
  repeat' (first | with_reducible assumption | with_reducible apply State.cmdIn_kept | simp only [kept_mk] | with_reducible apply kept_parts | with_reducible intro _ | dsimp only | split)

theorem execWin_kept {pq : List Instr} {s s1 : State} (h : s.Kept pq)
    (e : execWin s = .next s1) : s1.Kept pq := by
  unfold execWin at e
  injection e with e
  rw [← e]
  clear e
  repeat' (first | with_reducible assumption | with_reducible apply State.winIn_kept | simp only [kept_mk] | with_reducible apply kept_parts | with_reducible intro _ | dsimp only | split)

theorem execTicknum_kept {pq : List Instr} {s s1 : State} (h : s.Kept pq)
    (e : execTicknum s = .next s1) : s1.Kept pq := by
  unfold execTicknum at e
  injection e with e
  rw [← e]
  clear e
  repeat' (first | with_reducible assumption | with_reducible apply State.ticknumIn_kept | simp only [kept_mk] | with_reducible apply kept_parts | with_reducible intro _ | dsimp only | split)

theorem execWake_kept {pq : List Instr} {s s1 : State} (h : s.Kept pq)
    (e : execWake s = .next s1) : s1.Kept pq := by
  unfold execWake at e
  injection e with e
  rw [← e]
  clear e
  repeat' (first | with_reducible assumption | with_reducible apply State.wakeIn_kept | simp only [kept_mk] | with_reducible apply kept_parts | with_reducible intro _ | dsimp only | split)

theorem execEnum_kept {pq : List Instr} {s s1 : State} (h : s.Kept pq)
    (e : execEnum s = .next s1) : s1.Kept pq := by
  unfold execEnum at e
  injection e with e
  rw [← e]
  clear e
  repeat' (first | with_reducible assumption | with_reducible apply State.enumIn_kept | simp only [kept_mk] | with_reducible apply kept_parts | with_reducible intro _ | dsimp only | split)

theorem execCmdRspSend_kept {pq : List Instr} {s s1 : State} (h : s.Kept pq)
    (e : execCmdRspSend s = .next s1) : s1.Kept pq := by
  unfold execCmdRspSend at e
  injection e with e
  rw [← e]
  clear e
  repeat' (first | with_reducible assumption | with_reducible apply State.rspSend_kept | simp only [kept_mk] | with_reducible apply kept_parts | with_reducible intro _ | dsimp only | split)

theorem execWakeMessage_kept {line : List (Bool × Nat)} {pq : List Instr} {s s1 : State} (h : s.Kept pq)
    (e : execWakeMessage line s = .next s1) : s1.Kept pq := by
  unfold execWakeMessage at e
  injection e with e
  rw [← e]
  clear e
  repeat' (first | with_reducible assumption | with_reducible apply State.wakeMessage_kept | simp only [kept_mk] | with_reducible apply kept_parts | with_reducible intro _ | dsimp only | split)

theorem execWakeRepeat_kept {pq : List Instr} {s s1 : State} (h : s.Kept pq)
    (e : execWakeRepeat s = .next s1) : s1.Kept pq := by
  unfold execWakeRepeat at e
  injection e with e
  rw [← e]
  clear e
  repeat' (first | with_reducible assumption | with_reducible apply State.wakeRepeat_kept | simp only [kept_mk] | with_reducible apply kept_parts | with_reducible intro _ | dsimp only | split)

theorem execPathHoldEnd_kept {pq : List Instr} {s s1 : State} (h : s.Kept pq)
    (e : execPathHoldEnd s = .next s1) : s1.Kept pq := by
  unfold execPathHoldEnd at e
  injection e with e
  rw [← e]
  clear e
  repeat' (first | with_reducible assumption | with_reducible apply State.pathHoldEnd_kept | simp only [kept_mk] | with_reducible apply kept_parts | with_reducible intro _ | dsimp only | split)

theorem execFlashSectorErase_kept {sys : Bool} {sect : BitVec 12} {pq : List Instr} {s s1 : State} (h : s.Kept pq)
    (e : execFlashSectorErase sys sect s = .next s1) : s1.Kept pq := by
  unfold execFlashSectorErase at e
  injection e with e
  rw [← e]
  clear e
  repeat' (first | with_reducible assumption | with_reducible apply State.sequenceDone_kept | simp only [kept_mk] | with_reducible apply kept_parts | with_reducible intro _ | dsimp only | split)

theorem execFlashWordProgram_kept {sys : Bool} {word : BitVec 20} {data : DWord} {pq : List Instr} {s s1 : State} (h : s.Kept pq)
    (e : execFlashWordProgram sys word data s = .next s1) : s1.Kept pq := by
  unfold execFlashWordProgram at e
  injection e with e
  rw [← e]
  clear e
  repeat' (first | with_reducible assumption | with_reducible apply State.sequenceDone_kept | simp only [kept_mk] | with_reducible apply kept_parts | with_reducible intro _ | dsimp only | split)

theorem execEraseSuspend_kept {pq : List Instr} {s s1 : State} (h : s.Kept pq)
    (e : execEraseSuspend s = .next s1) : s1.Kept pq := by
  unfold execEraseSuspend at e
  injection e with e
  rw [← e]
  clear e
  repeat' (first | with_reducible assumption | with_reducible apply State.sequenceDone_kept | simp only [kept_mk] | with_reducible apply kept_parts | with_reducible intro _ | dsimp only | split)

theorem execResume_kept {pq : List Instr} {s s1 : State} (h : s.Kept pq)
    (e : execResume s = .next s1) : s1.Kept pq := by
  unfold execResume at e
  injection e with e
  rw [← e]
  clear e
  repeat' (first | with_reducible assumption | with_reducible apply State.sequenceDone_kept | simp only [kept_mk] | with_reducible apply kept_parts | with_reducible intro _ | dsimp only | split)

theorem execStatusRead_kept {pq : List Instr} {s s1 : State} (h : s.Kept pq)
    (e : execStatusRead s = .next s1) : s1.Kept pq := by
  unfold execStatusRead at e
  injection e with e
  rw [← e]
  clear e
  repeat' (first | with_reducible assumption | with_reducible apply State.sequenceDone_kept | simp only [kept_mk] | with_reducible apply kept_parts | with_reducible intro _ | dsimp only | split)

theorem execResetToRead_kept {pq : List Instr} {s s1 : State} (h : s.Kept pq)
    (e : execResetToRead s = .next s1) : s1.Kept pq := by
  unfold execResetToRead at e
  injection e with e
  rw [← e]
  clear e
  repeat' (first | with_reducible assumption | with_reducible apply State.sequenceDone_kept | simp only [kept_mk] | with_reducible apply kept_parts | with_reducible intro _ | dsimp only | split)

theorem execProgramStart_kept {usToGuard : Nat} {pq : List Instr} {s s1 : State} (h : s.Kept pq)
    (e : execProgramStart usToGuard s = .next s1) : s1.Kept pq := by
  unfold execProgramStart at e
  injection e with e
  rw [← e]
  clear e
  repeat' (first | with_reducible assumption | with_reducible apply State.programStart_kept | with_reducible apply State.settle_kept | simp only [kept_mk] | with_reducible apply kept_parts | with_reducible intro _ | dsimp only | split)

theorem execProgramEnd_kept {pulses : Nat} {pass : Bool} {pq : List Instr} {s s1 : State} (h : s.Kept pq)
    (e : execProgramEnd pulses pass s = .next s1) : s1.Kept pq := by
  unfold execProgramEnd onlyIf at e
  injection e with e
  rw [← e]
  clear e
  repeat' (first | with_reducible assumption | with_reducible apply State.progEnd_kept | with_reducible apply State.settle_kept | simp only [kept_mk] | with_reducible apply kept_parts | with_reducible intro _ | dsimp only | split)

theorem execErasePulseEnd_kept {pass : Bool} {pq : List Instr} {s s1 : State} (h : s.Kept pq)
    (e : execErasePulseEnd pass s = .next s1) : s1.Kept pq := by
  unfold execErasePulseEnd at e
  injection e with e
  rw [← e]
  clear e
  repeat' (first | with_reducible assumption | with_reducible apply State.pulseEnd_kept | with_reducible apply State.settle_kept | simp only [kept_mk] | with_reducible apply kept_parts | with_reducible intro _ | dsimp only | split)

theorem execSuspendLimit_kept {pq : List Instr} {s s1 : State} (h : s.Kept pq)
    (e : execSuspendLimit s = .next s1) : s1.Kept pq := by
  unfold execSuspendLimit at e
  injection e with e
  rw [← e]
  clear e
  repeat' (first | with_reducible assumption | with_reducible apply State.suspendLimit_kept | with_reducible apply State.settle_kept | simp only [kept_mk] | with_reducible apply kept_parts | with_reducible intro _ | dsimp only | split)

theorem execBorTrip_kept {pq : List Instr} {s s1 : State} (h : s.Kept pq)
    (e : execBorTrip s = .next s1) : s1.Kept pq := by
  unfold execBorTrip at e
  injection e with e
  rw [← e]
  clear e
  repeat' (first | with_reducible assumption | with_reducible apply State.borTrip_kept | with_reducible apply State.settle_kept | simp only [kept_mk] | with_reducible apply kept_parts | with_reducible intro _ | dsimp only | split)

theorem execBorRelease_kept {pq : List Instr} {s s1 : State} (h : s.Kept pq)
    (e : execBorRelease s = .next s1) : s1.Kept pq := by
  unfold execBorRelease at e
  injection e with e
  rw [← e]
  clear e
  repeat' (first | with_reducible assumption | with_reducible apply State.settle_kept | simp only [kept_mk] | with_reducible apply kept_parts | with_reducible intro _ | dsimp only | split)

theorem execServiceRestart_kept {addr : BitVec 32} {pq : List Instr} {s s1 : State} (h : s.Kept pq)
    (e : execServiceRestart addr s = .next s1) : s1.Kept pq := by
  unfold execServiceRestart at e
  injection e with e
  rw [← e]
  clear e
  repeat' (first | with_reducible assumption | with_reducible apply State.serviceRestart_kept | simp only [kept_mk] | with_reducible apply kept_parts | with_reducible intro _ | dsimp only | split)

theorem execFieldRepair_kept {sect : Fin 128} {fails : Bool} {line : Bool × Nat} {pq : List Instr} {s s1 : State} (h : s.Kept pq)
    (e : execFieldRepair sect fails line s = .next s1) : s1.Kept pq := by
  unfold execFieldRepair at e
  injection e with e
  rw [← e]
  clear e
  repeat' (first | with_reducible assumption | with_reducible apply State.fieldRepair_kept | simp only [kept_mk] | with_reducible apply kept_parts | with_reducible intro _ | dsimp only | split)

theorem execFrameReceive_kept {dn : Bool} {hseq : Byte} {notHseq : Byte} {bytes : List Byte} {codeErrs : Nat} {abort : Bool} {pq : List Instr} {s s1 : State} (h : s.Kept pq)
    (e : execFrameReceive dn hseq notHseq bytes codeErrs abort s = .next s1) : s1.Kept pq := by
  unfold execFrameReceive at e
  injection e with e
  rw [← e]
  clear e
  repeat' (first | with_reducible assumption | with_reducible apply State.frameIn_kept | simp only [kept_mk] | with_reducible apply kept_parts | with_reducible intro _ | dsimp only | split)

theorem execAckReceive_kept {dn : Bool} {cls : Byte} {hseq : Byte} {codeErr : Bool} {pq : List Instr} {s s1 : State} (h : s.Kept pq)
    (e : execAckReceive dn cls hseq codeErr s = .next s1) : s1.Kept pq := by
  unfold execAckReceive at e
  injection e with e
  rw [← e]
  clear e
  repeat' (first | with_reducible assumption | with_reducible apply State.ackIn_kept | simp only [kept_mk] | with_reducible apply kept_parts | with_reducible intro _ | dsimp only | split)

theorem execNakReceive_kept {dn : Bool} {cls : Byte} {_hseq : Byte} {_reason : Byte} {codeErr : Bool} {pq : List Instr} {s s1 : State} (h : s.Kept pq)
    (e : execNakReceive dn cls _hseq _reason codeErr s = .next s1) : s1.Kept pq := by
  unfold execNakReceive at e
  injection e with e
  rw [← e]
  clear e
  repeat' (first | with_reducible assumption | with_reducible apply State.nakIn_kept | simp only [kept_mk] | with_reducible apply kept_parts | with_reducible intro _ | dsimp only | split)

theorem execRetransmitTimeout_kept {dn : Bool} {rsp : Bool} {pq : List Instr} {s s1 : State} (h : s.Kept pq)
    (e : execRetransmitTimeout dn rsp s = .next s1) : s1.Kept pq := by
  unfold execRetransmitTimeout at e
  injection e with e
  rw [← e]
  clear e
  repeat' (first | with_reducible assumption | with_reducible apply State.retransmit_kept | simp only [kept_mk] | with_reducible apply kept_parts | with_reducible intro _ | dsimp only | split)

theorem execCreditReceive_kept {dn : Bool} {cls : Byte} {count : Byte} {codeErr : Bool} {pq : List Instr} {s s1 : State} (h : s.Kept pq)
    (e : execCreditReceive dn cls count codeErr s = .next s1) : s1.Kept pq := by
  unfold execCreditReceive at e
  injection e with e
  rw [← e]
  clear e
  repeat' (first | with_reducible assumption | with_reducible apply State.creditIn_kept | with_reducible apply State.awakeSend_kept | simp only [kept_mk] | with_reducible apply kept_parts | with_reducible intro _ | dsimp only | split)

theorem execReceiverLock_kept {dn : Bool} {pq : List Instr} {s s1 : State} (h : s.Kept pq)
    (e : execReceiverLock dn s = .next s1) : s1.Kept pq := by
  unfold execReceiverLock at e
  injection e with e
  rw [← e]
  clear e
  repeat' (first | with_reducible assumption | with_reducible apply State.receiverLock_kept | with_reducible apply State.awakeSend_kept | simp only [kept_mk] | with_reducible apply kept_parts | with_reducible intro _ | dsimp only | split)

theorem execTrainingTimeout_kept {dn : Bool} {pq : List Instr} {s s1 : State} (h : s.Kept pq)
    (e : execTrainingTimeout dn s = .next s1) : s1.Kept pq := by
  unfold execTrainingTimeout at e
  injection e with e
  rw [← e]
  clear e
  repeat' (first | with_reducible assumption | with_reducible apply State.trainingTimeout_kept | simp only [kept_mk] | with_reducible apply kept_parts | with_reducible intro _ | dsimp only | split)

theorem execSymbolLoss_kept {loss : Bool × Nat} {pq : List Instr} {s s1 : State} (h : s.Kept pq)
    (e : execSymbolLoss loss s = .next s1) : s1.Kept pq := by
  unfold execSymbolLoss at e
  injection e with e
  rw [← e]
  clear e
  repeat' (first | with_reducible assumption | with_reducible apply State.symbolLoss_kept | simp only [kept_mk] | with_reducible apply kept_parts | with_reducible intro _ | dsimp only | split)

theorem execDlyReq_kept {dn : Bool} {id : Option Byte} {turn : BitVec 16} {pq : List Instr} {s s1 : State} (h : s.Kept pq)
    (e : execDlyReq dn id turn s = .next s1) : s1.Kept pq := by
  unfold execDlyReq at e
  injection e with e
  rw [← e]
  clear e
  repeat' (first | with_reducible assumption | with_reducible apply State.idSet_kept | with_reducible apply State.dlyReq_kept | simp only [kept_mk] | with_reducible apply kept_parts | with_reducible intro _ | dsimp only | split)

theorem execDlyRsp_kept {dn : Bool} {id : Option Byte} {turn : BitVec 16} {round : Nat} {pq : List Instr} {s s1 : State} (h : s.Kept pq)
    (e : execDlyRsp dn id turn round s = .next s1) : s1.Kept pq := by
  unfold execDlyRsp at e
  injection e with e
  rw [← e]
  clear e
  repeat' (first | with_reducible assumption | with_reducible apply State.idSet_kept | with_reducible apply State.dlyRsp_kept | simp only [kept_mk] | with_reducible apply kept_parts | with_reducible intro _ | dsimp only | split)

theorem execDelayRemeasure_kept {dn : Bool} {pq : List Instr} {s s1 : State} (h : s.Kept pq)
    (e : execDelayRemeasure dn s = .next s1) : s1.Kept pq := by
  unfold execDelayRemeasure at e
  injection e with e
  rw [← e]
  clear e
  repeat' (first | with_reducible assumption | with_reducible apply State.askDelay_kept | simp only [kept_mk] | with_reducible apply kept_parts | with_reducible intro _ | dsimp only | split)

theorem execLinkctlBreak_kept {dn : Bool} {code : Option Byte} {notCode : Byte} {pq : List Instr} {s s1 : State} (h : s.Kept pq)
    (e : execLinkctlBreak dn code notCode s = .next s1) : s1.Kept pq := by
  unfold execLinkctlBreak at e
  injection e with e
  rw [← e]
  clear e
  repeat' (first | with_reducible assumption | with_reducible apply State.linkctl_kept | simp only [kept_mk] | with_reducible apply kept_parts | with_reducible intro _ | dsimp only | split)

theorem execLinkctlSleep_kept {dn : Bool} {code : Option Byte} {notCode : Byte} {pq : List Instr} {s s1 : State} (h : s.Kept pq)
    (e : execLinkctlSleep dn code notCode s = .next s1) : s1.Kept pq := by
  unfold execLinkctlSleep at e
  injection e with e
  rw [← e]
  clear e
  repeat' (first | with_reducible assumption | with_reducible apply State.linkctl_kept | simp only [kept_mk] | with_reducible apply kept_parts | with_reducible intro _ | dsimp only | split)

theorem execDataModeSymbolsReceived_kept {dn : Bool} {pq : List Instr} {s s1 : State} (h : s.Kept pq)
    (e : execDataModeSymbolsReceived dn s = .next s1) : s1.Kept pq := by
  unfold execDataModeSymbolsReceived at e
  injection e with e
  rw [← e]
  clear e
  repeat' (first | with_reducible assumption | with_reducible apply State.dataSymbols_kept | simp only [kept_mk] | with_reducible apply kept_parts | with_reducible intro _ | dsimp only | split)

theorem execWakeNTaken_kept {pq : List Instr} {s s1 : State} (h : s.Kept pq)
    (e : execWakeNTaken s = .next s1) : s1.Kept pq := by
  unfold execWakeNTaken at e
  injection e with e
  rw [← e]
  clear e
  repeat' (first | with_reducible assumption | with_reducible apply State.wakeN_kept | simp only [kept_mk] | with_reducible apply kept_parts | with_reducible intro _ | dsimp only | split)

theorem execRtcAlarm_kept {pq : List Instr} {s s1 : State} (h : s.Kept pq)
    (e : execRtcAlarm s = .next s1) : s1.Kept pq := by
  unfold execRtcAlarm at e
  injection e with e
  rw [← e]
  clear e
  repeat' (first | with_reducible assumption | with_reducible apply State.rtcAlarm_kept | simp only [kept_mk] | with_reducible apply kept_parts | with_reducible intro _ | dsimp only | split)

theorem execKeyRowWake_kept {row : Fin 24} {pq : List Instr} {s s1 : State} (h : s.Kept pq)
    (e : execKeyRowWake row s = .next s1) : s1.Kept pq := by
  unfold execKeyRowWake at e
  injection e with e
  rw [← e]
  clear e
  repeat' (first | with_reducible assumption | with_reducible apply State.rowWake_kept | simp only [kept_mk] | with_reducible apply kept_parts | with_reducible intro _ | dsimp only | split)

theorem execRowWatchedAgain_kept {row : Fin 24} {pq : List Instr} {s s1 : State} (h : s.Kept pq)
    (e : execRowWatchedAgain row s = .next s1) : s1.Kept pq := by
  unfold execRowWatchedAgain at e
  injection e with e
  rw [← e]
  clear e
  repeat' (first | with_reducible assumption | with_reducible apply State.rowAgain_kept | simp only [kept_mk] | with_reducible apply kept_parts | with_reducible intro _ | dsimp only | split)

theorem execLouvre_kept {q : Nat × List (List (Int × Int))} {pq : List Instr} {s s1 : State} (h : s.Kept pq)
    (e : execLouvre q s = .next s1) : s1.Kept pq := by
  unfold execLouvre onlyIf at e
  injection e with e
  rw [← e]
  clear e
  repeat' (first | with_reducible assumption | with_reducible apply State.louvre_kept | simp only [kept_mk] | with_reducible apply kept_parts | with_reducible intro _ | dsimp only | split)

theorem execEntryComplete_kept {us : Nat} {pq : List Instr} {s s1 : State} (h : s.Kept pq)
    (e : execEntryComplete us s = .next s1) : s1.Kept pq := by
  unfold execEntryComplete at e
  injection e with e
  rw [← e]
  clear e
  repeat' (first | with_reducible assumption | with_reducible apply State.entryComplete_kept | simp only [kept_mk] | with_reducible apply kept_parts | with_reducible intro _ | dsimp only | split)

theorem execRestoreStageDone_kept {dom : Fin 16} {us : Nat} {pq : List Instr} {s s1 : State} (h : s.Kept pq)
    (e : execRestoreStageDone dom us s = .next s1) : s1.Kept pq := by
  unfold execRestoreStageDone at e
  injection e with e
  rw [← e]
  clear e
  repeat' (first | with_reducible assumption | with_reducible apply State.restoreStage_kept | simp only [kept_mk] | with_reducible apply kept_parts | with_reducible intro _ | dsimp only | split)

theorem execResetAssert_kept {pq : List Instr} {s s1 : State} (h : s.Kept pq)
    (e : execResetAssert s = .next s1) : s1.Kept pq := by
  unfold execResetAssert at e
  injection e with e
  rw [← e]
  clear e
  repeat' (first | with_reducible assumption | with_reducible apply State.resetLow_kept | simp only [kept_mk] | with_reducible apply kept_parts | with_reducible intro _ | dsimp only | split)

theorem execResetRelease_kept {pins : BitVec 4 × BitVec 2} {pq : List Instr} {s s1 : State} (h : s.Kept pq)
    (e : execResetRelease pins s = .next s1) : s1.Kept pq := by
  unfold execResetRelease at e
  injection e with e
  rw [← e]
  clear e
  repeat' (first | with_reducible assumption | with_reducible apply State.resetHigh_kept | simp only [kept_mk] | with_reducible apply kept_parts | with_reducible intro _ | dsimp only | split)

theorem execLedgerRecovery_kept {marginFails : Bool} {pass : Bool} {pulses : Nat} {pq : List Instr} {s s1 : State} (h : s.Kept pq)
    (e : execLedgerRecovery marginFails pass pulses s = .next s1) : s1.Kept pq := by
  unfold execLedgerRecovery onlyIf at e
  injection e with e
  rw [← e]
  clear e
  repeat' (first | with_reducible assumption | with_reducible apply State.ledgerRecover_kept | simp only [kept_mk] | with_reducible apply kept_parts | with_reducible intro _ | dsimp only | split)

theorem execBootComplete_kept {pq : List Instr} {s s1 : State} (h : s.Kept pq)
    (e : execBootComplete s = .next s1) : s1.Kept pq := by
  unfold execBootComplete at e
  injection e with e
  rw [← e]
  clear e
  repeat' (first | with_reducible assumption | with_reducible apply State.bootComplete_kept | simp only [kept_mk] | with_reducible apply kept_parts | with_reducible intro _ | dsimp only | split)

theorem execSwingEnd_kept {pq : List Instr} {s s1 : State} (h : s.Kept pq)
    (e : execSwingEnd s = .next s1) : s1.Kept pq := by
  unfold execSwingEnd at e
  injection e with e
  rw [← e]
  clear e
  repeat' (first | with_reducible assumption | with_reducible apply State.swingVerify_kept | with_reducible apply State.swingFinish_kept | simp only [kept_mk] | with_reducible apply kept_parts | with_reducible intro _ | dsimp only | split)

theorem execSaveComplete_kept {pq : List Instr} {s s1 : State} (h : s.Kept pq)
    (e : execSaveComplete s = .next s1) : s1.Kept pq := by
  unfold execSaveComplete at e
  injection e with e
  rw [← e]
  clear e
  repeat' (first | with_reducible assumption | with_reducible apply State.saveEnd_kept | simp only [kept_mk] | with_reducible apply kept_parts | with_reducible intro _ | dsimp only | split)

theorem execVaoLoss_kept {pq : List Instr} {s s1 : State} (h : s.Kept pq)
    (e : execVaoLoss s = .next s1) : s1.Kept pq := by
  unfold execVaoLoss at e
  injection e with e
  rw [← e]
  clear e
  repeat' (first | with_reducible assumption | with_reducible apply State.vaoLost_kept | simp only [kept_mk] | with_reducible apply kept_parts | with_reducible intro _ | dsimp only | split)

theorem execVaoReconnect_kept {pq : List Instr} {s s1 : State} (h : s.Kept pq)
    (e : execVaoReconnect s = .next s1) : s1.Kept pq := by
  unfold execVaoReconnect at e
  injection e with e
  rw [← e]
  clear e
  repeat' (first | with_reducible assumption | with_reducible apply State.vaoBack_kept | simp only [kept_mk] | with_reducible apply kept_parts | with_reducible intro _ | dsimp only | split)

theorem execBothSuppliesAbsent_kept {pq : List Instr} {s s1 : State} (h : s.Kept pq)
    (e : execBothSuppliesAbsent s = .next s1) : s1.Kept pq := by
  unfold execBothSuppliesAbsent at e
  injection e with e
  rw [← e]
  clear e
  repeat' (first | with_reducible assumption | with_reducible apply State.supplyLost_kept | simp only [kept_mk] | with_reducible apply kept_parts | with_reducible intro _ | dsimp only | split)

theorem execPowerUp_kept {pq : List Instr} {s s1 : State} (h : s.Kept pq)
    (e : execPowerUp s = .next s1) : s1.Kept pq := by
  unfold execPowerUp at e
  injection e with e
  rw [← e]
  clear e
  repeat' (first | with_reducible assumption | with_reducible apply State.powerUp_kept | simp only [kept_mk] | with_reducible apply kept_parts | with_reducible intro _ | dsimp only | split)

theorem execSeqStepDelayEnd_kept {pq : List Instr} {s s1 : State} (h : s.Kept pq)
    (e : execSeqStepDelayEnd s = .next s1) : s1.Kept pq := by
  unfold execSeqStepDelayEnd at e
  injection e with e
  rw [← e]
  clear e
  repeat' (first | with_reducible assumption | with_reducible apply State.seqDelayEnd_kept | simp only [kept_mk] | with_reducible apply kept_parts | with_reducible intro _ | dsimp only | split)

theorem execSeqPgChange_kept {pg : BitVec 24} {late : BitVec 24} {pq : List Instr} {s s1 : State} (h : s.Kept pq)
    (e : execSeqPgChange pg late s = .next s1) : s1.Kept pq := by
  unfold execSeqPgChange at e
  injection e with e
  rw [← e]
  clear e
  repeat' (first | with_reducible assumption | with_reducible apply State.pgChange_kept | simp only [kept_mk] | with_reducible apply kept_parts | with_reducible intro _ | dsimp only | split)

theorem execPgTimeout_kept {late : BitVec 24} {pq : List Instr} {s s1 : State} (h : s.Kept pq)
    (e : execPgTimeout late s = .next s1) : s1.Kept pq := by
  unfold execPgTimeout at e
  injection e with e
  rw [← e]
  clear e
  repeat' (first | with_reducible assumption | with_reducible apply State.pgTimeout_kept | simp only [kept_mk] | with_reducible apply kept_parts | with_reducible intro _ | dsimp only | split)

theorem execCoinPeriod_kept {pq : List Instr} {s s1 : State} (h : s.Kept pq)
    (e : execCoinPeriod s = .next s1) : s1.Kept pq := by
  unfold execCoinPeriod at e
  injection e with e
  rw [← e]
  clear e
  repeat' (first | with_reducible assumption | with_reducible apply State.coinStart_kept | simp only [kept_mk] | with_reducible apply kept_parts | with_reducible intro _ | dsimp only | split)

theorem execCoinMeasureEnd_kept {mv : Nat} {pq : List Instr} {s s1 : State} (h : s.Kept pq)
    (e : execCoinMeasureEnd mv s = .next s1) : s1.Kept pq := by
  unfold execCoinMeasureEnd onlyIf at e
  injection e with e
  rw [← e]
  clear e
  repeat' (first | with_reducible assumption | with_reducible apply State.coinEnd_kept | simp only [kept_mk] | with_reducible apply kept_parts | with_reducible intro _ | dsimp only | split)

theorem execSwitchingPeriod_kept {n : Fin 16} {iCode : Nat} {oc : Bool} {pinBad : BitVec 2} {vstr : Nat} {ledk : Nat} {pq : List Instr} {s s1 : State} (h : s.Kept pq)
    (e : execSwitchingPeriod n iCode oc pinBad vstr ledk s = .next s1) : s1.Kept pq := by
  unfold execSwitchingPeriod onlyIf at e
  injection e with e
  rw [← e]
  clear e
  repeat' (first | with_reducible assumption | with_reducible apply State.switchPeriod_kept | simp only [kept_mk] | with_reducible apply kept_parts | with_reducible intro _ | dsimp only | split)

theorem execDimmingPeriod_kept {n : Fin 16} {pq : List Instr} {s s1 : State} (h : s.Kept pq)
    (e : execDimmingPeriod n s = .next s1) : s1.Kept pq := by
  unfold execDimmingPeriod at e
  injection e with e
  rw [← e]
  clear e
  repeat' (first | with_reducible assumption | with_reducible apply State.dimPeriod_kept | simp only [kept_mk] | with_reducible apply kept_parts | with_reducible intro _ | dsimp only | split)

theorem execFadeEnd_kept {n : Fin 16} {pq : List Instr} {s s1 : State} (h : s.Kept pq)
    (e : execFadeEnd n s = .next s1) : s1.Kept pq := by
  unfold execFadeEnd at e
  injection e with e
  rw [← e]
  clear e
  repeat' (first | with_reducible assumption | with_reducible apply State.endFade_kept | simp only [kept_mk] | with_reducible apply kept_parts | with_reducible intro _ | dsimp only | split)

theorem execRamp_kept {k : Fin 4} {pq : List Instr} {s s1 : State} (h : s.Kept pq)
    (e : execRamp k s = .next s1) : s1.Kept pq := by
  unfold execRamp at e
  injection e with e
  rw [← e]
  clear e
  repeat' (first | with_reducible assumption | with_reducible apply State.engineStep_kept | with_reducible apply State.engineRamp_kept | simp only [kept_mk] | with_reducible apply kept_parts | with_reducible intro _ | dsimp only | split)

theorem execRotate_kept {k : Fin 4} {pq : List Instr} {s s1 : State} (h : s.Kept pq)
    (e : execRotate k s = .next s1) : s1.Kept pq := by
  unfold execRotate at e
  injection e with e
  rw [← e]
  clear e
  repeat' (first | with_reducible assumption | with_reducible apply State.engineStep_kept | with_reducible apply State.engineRotate_kept | simp only [kept_mk] | with_reducible apply kept_parts | with_reducible intro _ | dsimp only | split)

theorem execHold_kept {k : Fin 4} {pq : List Instr} {s s1 : State} (h : s.Kept pq)
    (e : execHold k s = .next s1) : s1.Kept pq := by
  unfold execHold at e
  injection e with e
  rw [← e]
  clear e
  repeat' (first | with_reducible assumption | with_reducible apply State.engineStep_kept | with_reducible apply State.engineHold_kept | simp only [kept_mk] | with_reducible apply kept_parts | with_reducible intro _ | dsimp only | split)

theorem execLoop_kept {k : Fin 4} {pq : List Instr} {s s1 : State} (h : s.Kept pq)
    (e : execLoop k s = .next s1) : s1.Kept pq := by
  unfold execLoop at e
  injection e with e
  rw [← e]
  clear e
  repeat' (first | with_reducible assumption | with_reducible apply State.engineStep_kept | with_reducible apply State.engineLoop_kept | simp only [kept_mk] | with_reducible apply kept_parts | with_reducible intro _ | dsimp only | split)

theorem execEvent_kept {k : Fin 4} {pq : List Instr} {s s1 : State} (h : s.Kept pq)
    (e : execEvent k s = .next s1) : s1.Kept pq := by
  unfold execEvent at e
  injection e with e
  rw [← e]
  clear e
  repeat' (first | with_reducible assumption | with_reducible apply State.engineStep_kept | with_reducible apply State.engineEvent_kept | simp only [kept_mk] | with_reducible apply kept_parts | with_reducible intro _ | dsimp only | split)

theorem execPeEnd_kept {k : Fin 4} {pq : List Instr} {s s1 : State} (h : s.Kept pq)
    (e : execPeEnd k s = .next s1) : s1.Kept pq := by
  unfold execPeEnd at e
  injection e with e
  rw [← e]
  clear e
  repeat' (first | with_reducible assumption | with_reducible apply State.engineStep_kept | with_reducible apply State.engineEnd_kept | simp only [kept_mk] | with_reducible apply kept_parts | with_reducible intro _ | dsimp only | split)

theorem execEngineError_kept {k : Fin 4} {pq : List Instr} {s s1 : State} (h : s.Kept pq)
    (e : execEngineError k s = .next s1) : s1.Kept pq := by
  unfold execEngineError at e
  injection e with e
  rw [← e]
  clear e
  repeat' (first | with_reducible assumption | with_reducible apply State.engineErr_kept | simp only [kept_mk] | with_reducible apply kept_parts | with_reducible intro _ | dsimp only | split)

theorem execKeyColumnStep_kept {kp : Bool} {col : Fin 16} {rows : BitVec 16} {pq : List Instr} {s s1 : State} (h : s.Kept pq)
    (e : execKeyColumnStep kp col rows s = .next s1) : s1.Kept pq := by
  unfold execKeyColumnStep onlyIf at e
  injection e with e
  rw [← e]
  clear e
  repeat' (first | with_reducible assumption | with_reducible apply State.holdRow_kept | with_reducible apply State.keyStep_kept | simp only [kept_mk] | with_reducible apply kept_parts | with_reducible intro _ | dsimp only | split)

theorem execShelfRowDetect_kept {pq : List Instr} {s s1 : State} (h : s.Kept pq)
    (e : execShelfRowDetect s = .next s1) : s1.Kept pq := by
  unfold execShelfRowDetect at e
  injection e with e
  rw [← e]
  clear e
  repeat' (first | with_reducible assumption | with_reducible apply State.shelfRow_kept | simp only [kept_mk] | with_reducible apply kept_parts | with_reducible intro _ | dsimp only | split)

theorem execKeyStuck_kept {q : Fin 320 × Nat} {pq : List Instr} {s s1 : State} (h : s.Kept pq)
    (e : execKeyStuck q s = .next s1) : s1.Kept pq := by
  unfold execKeyStuck at e
  injection e with e
  rw [← e]
  clear e
  repeat' (first | with_reducible assumption | with_reducible apply State.keyStuck_kept | simp only [kept_mk] | with_reducible apply kept_parts | with_reducible intro _ | dsimp only | split)

theorem execConversionEnd_kept {b : Bool} {samples : List (Int × Int × Int)} {pq : List Instr} {s s1 : State} (h : s.Kept pq)
    (e : execConversionEnd b samples s = .next s1) : s1.Kept pq := by
  unfold execConversionEnd onlyIf at e
  injection e with e
  rw [← e]
  clear e
  repeat' (first | with_reducible assumption | with_reducible apply State.convEnd_kept | simp only [kept_mk] | with_reducible apply kept_parts | with_reducible intro _ | dsimp only | split)

theorem execCalibration_kept {pq : List Instr} {s s1 : State} (h : s.Kept pq)
    (e : execCalibration s = .next s1) : s1.Kept pq := by
  unfold execCalibration at e
  injection e with e
  rw [← e]
  clear e
  repeat' (first | with_reducible assumption | with_reducible apply State.calibrate_kept | simp only [kept_mk] | with_reducible apply kept_parts | with_reducible intro _ | dsimp only | split)

theorem execSliceSwap_kept {offset : Int} {gainErr : Int} {pq : List Instr} {s s1 : State} (h : s.Kept pq)
    (e : execSliceSwap offset gainErr s = .next s1) : s1.Kept pq := by
  unfold execSliceSwap at e
  injection e with e
  rw [← e]
  clear e
  repeat' (first | with_reducible assumption | with_reducible apply State.sliceSwap_kept | simp only [kept_mk] | with_reducible apply kept_parts | with_reducible intro _ | dsimp only | split)

theorem execRefSettled_kept {mv : Nat} {pq : List Instr} {s s1 : State} (h : s.Kept pq)
    (e : execRefSettled mv s = .next s1) : s1.Kept pq := by
  unfold execRefSettled at e
  injection e with e
  rw [← e]
  clear e
  repeat' (first | with_reducible assumption | with_reducible apply State.refSettled_kept | simp only [kept_mk] | with_reducible apply kept_parts | with_reducible intro _ | dsimp only | split)

theorem execTachEdge_kept {n : Fin 8} {us : Nat} {pq : List Instr} {s s1 : State} (h : s.Kept pq)
    (e : execTachEdge n us s = .next s1) : s1.Kept pq := by
  unfold execTachEdge at e
  injection e with e
  rw [← e]
  clear e
  repeat' (first | with_reducible assumption | with_reducible apply State.tachEdge_kept | simp only [kept_mk] | with_reducible apply kept_parts | with_reducible intro _ | dsimp only | split)

theorem execTachSilence_kept {n : Fin 8} {pq : List Instr} {s s1 : State} (h : s.Kept pq)
    (e : execTachSilence n s = .next s1) : s1.Kept pq := by
  unfold execTachSilence at e
  injection e with e
  rw [← e]
  clear e
  repeat' (first | with_reducible assumption | with_reducible apply State.tachSilence_kept | simp only [kept_mk] | with_reducible apply kept_parts | with_reducible intro _ | dsimp only | split)

theorem execTapReset_kept {pq : List Instr} {s s1 : State} (h : s.Kept pq)
    (e : execTapReset s = .next s1) : s1.Kept pq := by
  unfold execTapReset at e
  injection e with e
  rw [← e]
  clear e
  repeat' (first | with_reducible assumption | with_reducible apply State.tapLoad_kept | simp only [kept_mk] | with_reducible apply kept_parts | with_reducible intro _ | dsimp only | split)

theorem execExtest_kept {pins : BitVec 474} {pq : List Instr} {s s1 : State} (h : s.Kept pq)
    (e : execExtest pins s = .next s1) : s1.Kept pq := by
  unfold execExtest at e
  injection e with e
  rw [← e]
  clear e
  repeat' (first | with_reducible assumption | with_reducible apply State.tapScan_kept | simp only [kept_mk] | with_reducible apply kept_parts | with_reducible intro _ | dsimp only | split)

theorem execSamplePreload_kept {pins : BitVec 474} {pq : List Instr} {s s1 : State} (h : s.Kept pq)
    (e : execSamplePreload pins s = .next s1) : s1.Kept pq := by
  unfold execSamplePreload at e
  injection e with e
  rw [← e]
  clear e
  repeat' (first | with_reducible assumption | with_reducible apply State.tapScan_kept | simp only [kept_mk] | with_reducible apply kept_parts | with_reducible intro _ | dsimp only | split)

theorem execIdcode_kept {pq : List Instr} {s s1 : State} (h : s.Kept pq)
    (e : execIdcode s = .next s1) : s1.Kept pq := by
  unfold execIdcode at e
  injection e with e
  rw [← e]
  clear e
  repeat' (first | with_reducible assumption | with_reducible apply State.tapIdcode_kept | simp only [kept_mk] | with_reducible apply kept_parts | with_reducible intro _ | dsimp only | split)

theorem execHighz_kept {pq : List Instr} {s s1 : State} (h : s.Kept pq)
    (e : execHighz s = .next s1) : s1.Kept pq := by
  unfold execHighz at e
  injection e with e
  rw [← e]
  clear e
  repeat' (first | with_reducible assumption | with_reducible apply State.tapLoad_kept | simp only [kept_mk] | with_reducible apply kept_parts | with_reducible intro _ | dsimp only | split)

theorem execClamp_kept {pq : List Instr} {s s1 : State} (h : s.Kept pq)
    (e : execClamp s = .next s1) : s1.Kept pq := by
  unfold execClamp at e
  injection e with e
  rw [← e]
  clear e
  repeat' (first | with_reducible assumption | with_reducible apply State.tapLoad_kept | simp only [kept_mk] | with_reducible apply kept_parts | with_reducible intro _ | dsimp only | split)

theorem execBypass_kept {pq : List Instr} {s s1 : State} (h : s.Kept pq)
    (e : execBypass s = .next s1) : s1.Kept pq := by
  unfold execBypass at e
  injection e with e
  rw [← e]
  clear e
  repeat' (first | with_reducible assumption | with_reducible apply State.tapLoad_kept | simp only [kept_mk] | with_reducible apply kept_parts | with_reducible intro _ | dsimp only | split)

theorem execFlashAccWrite_kept {addr : BitVec 21} {data : Word} {pq : List Instr} {s s1 : State} (h : s.Kept pq)
    (e : execFlashAccWrite addr data s = .next s1) : s1.Kept pq := by
  unfold execFlashAccWrite at e
  injection e with e
  rw [← e]
  clear e
  repeat' (first | with_reducible assumption | with_reducible apply State.accWrite_kept | simp only [kept_mk] | with_reducible apply kept_parts | with_reducible intro _ | dsimp only | split)

theorem execFlashAccRead_kept {addr : BitVec 21} {pq : List Instr} {s s1 : State} (h : s.Kept pq)
    (e : execFlashAccRead addr s = .next s1) : s1.Kept pq := by
  unfold execFlashAccRead at e
  injection e with e
  rw [← e]
  clear e
  repeat' (first | with_reducible assumption | with_reducible apply State.accRead_kept | simp only [kept_mk] | with_reducible apply kept_parts | with_reducible intro _ | dsimp only | split)

theorem execFlashAccStatus_kept {pq : List Instr} {s s1 : State} (h : s.Kept pq)
    (e : execFlashAccStatus s = .next s1) : s1.Kept pq := by
  unfold execFlashAccStatus at e
  injection e with e
  rw [← e]
  clear e
  repeat' (first | with_reducible assumption | with_reducible apply State.accStatus_kept | simp only [kept_mk] | with_reducible apply kept_parts | with_reducible intro _ | dsimp only | split)

theorem execSelfTestEnd_kept {block : Fin 10} {pass : Bool} {detail : Word} {pq : List Instr} {s s1 : State} (h : s.Kept pq)
    (e : execSelfTestEnd block pass detail s = .next s1) : s1.Kept pq := by
  unfold execSelfTestEnd at e
  injection e with e
  rw [← e]
  clear e
  repeat' (first | with_reducible assumption | with_reducible apply State.testEnds_kept | simp only [kept_mk] | with_reducible apply kept_parts | with_reducible intro _ | dsimp only | split)

theorem execSelfTestAbort_kept {block : Fin 10} {pq : List Instr} {s s1 : State} (h : s.Kept pq)
    (e : execSelfTestAbort block s = .next s1) : s1.Kept pq := by
  unfold execSelfTestAbort at e
  injection e with e
  rw [← e]
  clear e
  repeat' (first | with_reducible assumption | with_reducible apply State.testAborts_kept | simp only [kept_mk] | with_reducible apply kept_parts | with_reducible intro _ | dsimp only | split)

end Sys2Proof.Machine
end

