-- ==== Sys2Proof/Laws/Raise.lean ====
section
/-! SUPPORT. What an event can change: a tenant's queue and pending bits, the queue's memory, and the events held. -/

namespace Sys2Proof.Machine

variable (s : State)

theorem State.wrBytes_shape (a : Nat) (bs : List Byte) : s.wrBytes a bs = { s with mem := (s.wrBytes a bs).mem } := by
  induction bs generalizing s a with
  | nil => rfl
  | cons b bs ih => exact ih (s.wrByte a b) (a + 1)

theorem State.setEccs_shape (a : Nat) (ns : List Nat) :
    s.each ns (fun s i => s.setEcc ((a / 8 + i) * 8) .good) =
      { s with ecc := (s.each ns fun s i => s.setEcc ((a / 8 + i) * 8) .good).ecc } := by
  induction ns generalizing s with
  | nil => rfl
  | cons n ns ih => exact ih (s.setEcc ((a / 8 + n) * 8) .good)

theorem State.wrWhole_shape (a : Nat) (bs : List Byte) :
    s.wrWhole a bs = { s with mem := (s.wrWhole a bs).mem, ecc := (s.wrWhole a bs).ecc } := by
  unfold State.wrWhole
  rw [State.wrBytes_shape]
  generalize (s.wrBytes a bs).mem = m
  rw [State.setEccs_shape]

theorem State.eqPut_shape (t e flags tick : Nat) (data : Word) :
    s.eqPut t e flags tick data = { s with
      tens := (s.eqPut t e flags tick data).tens, mem := (s.eqPut t e flags tick data).mem,
      ecc := (s.eqPut t e flags tick data).ecc } := by
  unfold State.eqPut
  rw [State.wrWhole_shape]
  generalize (s.wrWhole (eqAddr t (s.ten t).eqTail.toNat) (eventEntry e flags tick data)).mem = m
  generalize (s.wrWhole (eqAddr t (s.ten t).eqTail.toNat) (eventEntry e flags tick data)).ecc = x
  rfl

theorem State.place_shape (t e tick : Nat) (data : Word) :
    s.place t e tick data = { s with
      tens := (s.place t e tick data).tens, mem := (s.place t e tick data).mem,
      ecc := (s.place t e tick data).ecc } := by
  unfold State.place
  split
  · exact State.eqPut_shape s _ _ _ _ _
  · rfl

theorem State.deliver_shape (t e : Nat) (data : Word) :
    s.deliver t e data = { s with
      tens := (s.deliver t e data).tens, mem := (s.deliver t e data).mem, ecc := (s.deliver t e data).ecc } := by
  unfold State.deliver
  split
  · rfl
  · exact State.place_shape s _ _ _ _

/-- An event changes tenants, memory with its check bits, and the events held; nothing else. -/
theorem State.raise_shape (e : Nat) (d : Dest) (data : Word) :
    s.raise e d data = { s with
      tens := (s.raise e d data).tens, mem := (s.raise e d data).mem, ecc := (s.raise e d data).ecc,
      held := (s.raise e d data).held } := by
  unfold State.raise
  split
  · split
    · split <;> rfl
    · rfl
  · rw [State.deliver_shape]

@[simp] theorem State.raise_pending (e : Nat) (d : Dest) (v : Word) : (s.raise e d v).pending = s.pending :=
  (congrArg State.pending (State.raise_shape s e d v)).trans rfl
@[simp] theorem State.raise_doors (e : Nat) (d : Dest) (v : Word) : (s.raise e d v).doors = s.doors :=
  (congrArg State.doors (State.raise_shape s e d v)).trans rfl
@[simp] theorem State.raise_runs (e : Nat) (d : Dest) (v : Word) : (s.raise e d v).runs = s.runs :=
  (congrArg State.runs (State.raise_shape s e d v)).trans rfl
@[simp] theorem State.raise_portA (e : Nat) (d : Dest) (v : Word) : (s.raise e d v).portA = s.portA :=
  (congrArg State.portA (State.raise_shape s e d v)).trans rfl
@[simp] theorem State.raise_portB (e : Nat) (d : Dest) (v : Word) : (s.raise e d v).portB = s.portB :=
  (congrArg State.portB (State.raise_shape s e d v)).trans rfl
@[simp] theorem State.raise_tick (e : Nat) (d : Dest) (v : Word) : (s.raise e d v).tick = s.tick :=
  (congrArg State.tick (State.raise_shape s e d v)).trans rfl
@[simp] theorem State.raise_grants (e : Nat) (d : Dest) (v : Word) : (s.raise e d v).grants = s.grants :=
  (congrArg State.grants (State.raise_shape s e d v)).trans rfl
@[simp] theorem State.raise_sys (e : Nat) (d : Dest) (v : Word) : (s.raise e d v).sys = s.sys :=
  (congrArg State.sys (State.raise_shape s e d v)).trans rfl
@[simp] theorem State.raise_pwr (e : Nat) (d : Dest) (v : Word) : (s.raise e d v).pwr = s.pwr :=
  (congrArg State.pwr (State.raise_shape s e d v)).trans rfl
@[simp] theorem State.raise_seq (e : Nat) (d : Dest) (v : Word) : (s.raise e d v).seq = s.seq :=
  (congrArg State.seq (State.raise_shape s e d v)).trans rfl
@[simp] theorem State.raise_disp (e : Nat) (d : Dest) (v : Word) : (s.raise e d v).disp = s.disp :=
  (congrArg State.disp (State.raise_shape s e d v)).trans rfl
@[simp] theorem State.raise_lamps (e : Nat) (d : Dest) (v : Word) : (s.raise e d v).lamps = s.lamps :=
  (congrArg State.lamps (State.raise_shape s e d v)).trans rfl
@[simp] theorem State.raise_engines (e : Nat) (d : Dest) (v : Word) : (s.raise e d v).engines = s.engines :=
  (congrArg State.engines (State.raise_shape s e d v)).trans rfl
@[simp] theorem State.raise_keys (e : Nat) (d : Dest) (v : Word) : (s.raise e d v).keys = s.keys :=
  (congrArg State.keys (State.raise_shape s e d v)).trans rfl
@[simp] theorem State.raise_adc (e : Nat) (d : Dest) (v : Word) : (s.raise e d v).adc = s.adc :=
  (congrArg State.adc (State.raise_shape s e d v)).trans rfl
@[simp] theorem State.raise_therm (e : Nat) (d : Dest) (v : Word) : (s.raise e d v).therm = s.therm :=
  (congrArg State.therm (State.raise_shape s e d v)).trans rfl
@[simp] theorem State.raise_prot (e : Nat) (d : Dest) (v : Word) : (s.raise e d v).prot = s.prot :=
  (congrArg State.prot (State.raise_shape s e d v)).trans rfl
@[simp] theorem State.raise_flash (e : Nat) (d : Dest) (v : Word) : (s.raise e d v).flash = s.flash :=
  (congrArg State.flash (State.raise_shape s e d v)).trans rfl
@[simp] theorem State.raise_link (e : Nat) (d : Dest) (v : Word) : (s.raise e d v).link = s.link :=
  (congrArg State.link (State.raise_shape s e d v)).trans rfl
@[simp] theorem State.raise_tests (e : Nat) (d : Dest) (v : Word) : (s.raise e d v).tests = s.tests :=
  (congrArg State.tests (State.raise_shape s e d v)).trans rfl
@[simp] theorem State.raise_dbg (e : Nat) (d : Dest) (v : Word) : (s.raise e d v).dbg = s.dbg :=
  (congrArg State.dbg (State.raise_shape s e d v)).trans rfl
@[simp] theorem State.raise_after (e : Nat) (d : Dest) (v : Word) : (s.raise e d v).after = s.after :=
  (congrArg State.after (State.raise_shape s e d v)).trans rfl
@[simp] theorem State.raise_keyStage (e : Nat) (d : Dest) (v : Word) : (s.raise e d v).keyStage = s.keyStage :=
  (congrArg State.keyStage (State.raise_shape s e d v)).trans rfl
@[simp] theorem State.raise_secTen (e : Nat) (d : Dest) (v : Word) : (s.raise e d v).secTen = s.secTen :=
  (congrArg State.secTen (State.raise_shape s e d v)).trans rfl
@[simp] theorem State.raise_nextRun (e : Nat) (d : Dest) (v : Word) : (s.raise e d v).nextRun = s.nextRun :=
  (congrArg State.nextRun (State.raise_shape s e d v)).trans rfl
@[simp] theorem State.raise_waiting (e : Nat) (d : Dest) (v : Word) : (s.raise e d v).waiting = s.waiting :=
  (congrArg State.waiting (State.raise_shape s e d v)).trans rfl
@[simp] theorem State.raise_part (e : Nat) (d : Dest) (v : Word) : (s.raise e d v).part = s.part :=
  (congrArg State.part (State.raise_shape s e d v)).trans rfl
@[simp] theorem State.raise_regs (e : Nat) (d : Dest) (v : Word) : (s.raise e d v).regs = s.regs :=
  (congrArg State.regs (State.raise_shape s e d v)).trans rfl
@[simp] theorem State.raise_chk (e : Nat) (d : Dest) (v : Word) : (s.raise e d v).chk = s.chk :=
  (congrArg State.chk (State.raise_shape s e d v)).trans rfl
@[simp] theorem State.raise_ksnap (e : Nat) (d : Dest) (v : Word) : (s.raise e d v).ksnap = s.ksnap :=
  (congrArg State.ksnap (State.raise_shape s e d v)).trans rfl
@[simp] theorem State.raise_sealed (e : Nat) (d : Dest) (v : Word) : (s.raise e d v).sealed = s.sealed :=
  (congrArg State.sealed (State.raise_shape s e d v)).trans rfl
@[simp] theorem State.raise_rdata (e : Nat) (d : Dest) (v : Word) : (s.raise e d v).rdata = s.rdata :=
  (congrArg State.rdata (State.raise_shape s e d v)).trans rfl
@[simp] theorem State.raise_free (e : Nat) (d : Dest) (v : Word) : (s.raise e d v).free = s.free :=
  (congrArg State.free (State.raise_shape s e d v)).trans rfl
@[simp] theorem State.door_raise (e : Nat) (d : Dest) (v : Word) (x : Nat) : (s.raise e d v).door x = s.door x :=
  (congrArg (fun y : State => y.door x) (State.raise_shape s e d v)).trans rfl
@[simp] theorem State.lamp_raise (e : Nat) (d : Dest) (v : Word) (x : Nat) : (s.raise e d v).lamp x = s.lamp x :=
  (congrArg (fun y : State => y.lamp x) (State.raise_shape s e d v)).trans rfl
@[simp] theorem State.engine_raise (e : Nat) (d : Dest) (v : Word) (x : Nat) : (s.raise e d v).engine x = s.engine x :=
  (congrArg (fun y : State => y.engine x) (State.raise_shape s e d v)).trans rfl
@[simp] theorem State.key_raise (e : Nat) (d : Dest) (v : Word) (x : Nat) : (s.raise e d v).key x = s.key x :=
  (congrArg (fun y : State => y.key x) (State.raise_shape s e d v)).trans rfl
@[simp] theorem State.chan_raise (e : Nat) (d : Dest) (v : Word) (x : Nat) : (s.raise e d v).chan x = s.chan x :=
  (congrArg (fun y : State => y.chan x) (State.raise_shape s e d v)).trans rfl
@[simp] theorem State.sensor_raise (e : Nat) (d : Dest) (v : Word) (x : Nat) : (s.raise e d v).sensor x = s.sensor x :=
  (congrArg (fun y : State => y.sensor x) (State.raise_shape s e d v)).trans rfl
@[simp] theorem State.zone_raise (e : Nat) (d : Dest) (v : Word) (x : Nat) : (s.raise e d v).zone x = s.zone x :=
  (congrArg (fun y : State => y.zone x) (State.raise_shape s e d v)).trans rfl
@[simp] theorem State.fan_raise (e : Nat) (d : Dest) (v : Word) (x : Nat) : (s.raise e d v).fan x = s.fan x :=
  (congrArg (fun y : State => y.fan x) (State.raise_shape s e d v)).trans rfl
@[simp] theorem State.fword_raise (e : Nat) (d : Dest) (v : Word) (x : Nat) : (s.raise e d v).fword x = s.fword x :=
  (congrArg (fun y : State => y.fword x) (State.raise_shape s e d v)).trans rfl
@[simp] theorem State.cell_raise (e : Nat) (d : Dest) (v : Word) (x : Nat) : (s.raise e d v).cell x = s.cell x :=
  (congrArg (fun y : State => y.cell x) (State.raise_shape s e d v)).trans rfl
@[simp] theorem State.dport_raise (e : Nat) (d : Dest) (v : Word) (x : Nat) : (s.raise e d v).dport x = s.dport x :=
  (congrArg (fun y : State => y.dport x) (State.raise_shape s e d v)).trans rfl
@[simp] theorem State.reg_raise (e : Nat) (d : Dest) (v : Word) (x : Nat) : (s.raise e d v).reg x = s.reg x :=
  (congrArg (fun y : State => y.reg x) (State.raise_shape s e d v)).trans rfl
@[simp] theorem State.up_raise (e : Nat) (d : Dest) (v : Word) (x : Nat) : (s.raise e d v).up x = s.up x :=
  (congrArg (fun y : State => y.up x) (State.raise_shape s e d v)).trans rfl
@[simp] theorem State.shut_raise (e : Nat) (d : Dest) (v : Word) (x : Nat) : (s.raise e d v).shut x = s.shut x :=
  (congrArg (fun y : State => y.shut x) (State.raise_shape s e d v)).trans rfl
@[simp] theorem State.port_raise (e : Nat) (d : Dest) (v : Word) (x : Nat) : (s.raise e d v).port x = s.port x :=
  (congrArg (fun y : State => y.port x) (State.raise_shape s e d v)).trans rfl
@[simp] theorem State.grant_raise (e : Nat) (d : Dest) (v : Word) (c i : Nat) : (s.raise e d v).grant c i = s.grant c i :=
  (congrArg (fun y : State => y.grant c i) (State.raise_shape s e d v)).trans rfl
@[simp] theorem State.owner_raise (e : Nat) (d : Dest) (v : Word) (c i : Nat) : (s.raise e d v).owner c i = s.owner c i :=
  (congrArg (fun y : State => y.owner c i) (State.raise_shape s e d v)).trans rfl

end Sys2Proof.Machine
end

