-- ==== Sys2Proof/Tests/Slice0.lean ====
section
/-! SUPPORT. The tests of this model: an ill-formed command for each check, the states that the witnesses stand on, a
witness for the premises of every statement, and small tests of single steps. Expected values come from the spec. -/

namespace Sys2Proof.Tests

open Sys2Proof Sys2Proof.Machine

set_option Elab.async false

/-! ## Ill-formed commands (R37, R185, R276, R340, R364, R377) -/

theorem smoke_boundary : (Instr.boundary (List.replicate 13 0)).WellFormed = false := by decide
theorem smoke_windowEnd : (Instr.windowEnd (List.replicate 13 0)).WellFormed = false := by decide
theorem smoke_cmdSlot : (Instr.cmdSlot 3).WellFormed = false ∧ (Instr.cmdSlot 7).WellFormed = false ∧
    (Instr.cmdSlot 36).WellFormed = false := by decide
theorem smoke_loopSlot : (Instr.loopSlot [1, 2, 3]).WellFormed = false := by decide
theorem smoke_programEnd : (Instr.programEnd 17 true).WellFormed = false := by decide
theorem smoke_louvre : (Instr.louvre (2500, List.replicate 9 [])).WellFormed = false := by decide
theorem smoke_conversionEnd : (Instr.conversionEnd true []).WellFormed = false := by decide
theorem smoke_keyColumnStep : (Instr.keyColumnStep true 8 0).WellFormed = false := by decide
theorem smoke_ledgerRecovery : (Instr.ledgerRecovery true true 25).WellFormed = false := by decide
theorem smoke_switchingPeriod : (Instr.switchingPeriod 3 4096 false 0 0 0).WellFormed = false := by decide
theorem smoke_coinMeasureEnd : (Instr.coinMeasureEnd 8192).WellFormed = false := by decide
/-- A step past an ill-formed command leaves everything but the queue as it was (log entry 116). -/
theorem smoke_noEvent : step { State.reset with pending := [.cmdSlot 3] } = .next State.reset := by rfl

/-! ## States that the witnesses stand on -/

/-- A part in Open with boot complete, every shutter released, all pages on both ports, and tenant 3's door OPEN. -/
def served : State :=
  { State.reset with
    doors := [(3, .opened)],
    sys := { Sys.reset with bootDone := true, sweep := true, locked := true },
    pwr := { Pwr.reset with closed := 0 },
    tick := { Tick.reset with capLeft := 160 },
    portA := { HPort.reset with pages := 0xFFFFFFFF },
    portB := { HPort.reset with pages := 0xFFFFFFFF } }

/-- It with one tenant changed. -/
def tenanted (t : Nat) (f : Tenant → Tenant) : State := served.updTen t f

/-- It with one grant entry. -/
def owned (cls i : Nat) (g : Grant) : State :=
  { served with grants := { served.grants with table := [(512 * cls + i, g)] } }

/-- Tenant 3 at the limits of its leak count and its heartbeat. -/
def leaked : State := tenanted 3 fun T => { T with leak := 200, hbTicks := 5, hbLeft := 0 }

/-- SYS_GRANT_IDX at an entry, with extent 0 of class 9 covering every granule. -/
def granting (cls i : Nat) : State :=
  { served with grants := { served.grants with cls := cls, idx := i, table := [(512 * 9, ⟨3, 0, 192⟩)] } }

/-- A bus error of page 7 not yet read, and port B's access complete. -/
def failed : State :=
  { tenanted 7 fun T => { T with berr := 1 } with
    portB := { served.portB with rdy := true, ended := some ⟨true, none⟩ } }

def posting : State := { served with portA := { served.portA with postEn := true } }
def waiting : State := { served with portA := { served.portA with acc := some (readAcc 3 0x8000) } }
def drain1 : State := { posting with portA := { posting.portA with post := [writeAcc 3 0xB4 7 0] } }
def drain2 : State := { posting with portA := { posting.portA with post := [writeAcc 3 0x1800 7 0] } }
def busyWin : State := tenanted 3 fun T => { T with winState := 1 }

/-- An ECHO waits in tenant 3's CQ. -/
def echoIn : State := (tenanted 3 fun T => { T with cqTail := 1 }).wrBytes (cqAddr 3 0) (withCrc (padTo 60 [0x01, 0, 7, 0]))

/-- An accepted command. -/
def accepted (t : Nat) (bs : List Byte) : Run := ⟨3, t, padTo 64 bs, 0, 4, none, false, .accepted, [], []⟩
def running (t : Nat) (bs : List Byte) : State := { served with runs := [accepted t bs] }

/-- It started under a grant table, and in a state that has one. -/
def startedIn (s : State) (t : Nat) (bs : List Byte) : Run := { accepted t bs with table := s.grants.table }
def withRuns (s : State) (rs : List Run) : State := { s with runs := rs }

/-- Tenant 3's window 0 is SCRATCH from granule 0, which it owns. -/
def windowed : State :=
  (owned 9 0 ⟨3, 0, 4⟩).updTen 3 fun T => { T with winType := [(0, 2)] }
def winRun : Run := startedIn windowed 3 [0x10, 0, 1, 0, 0, 4, 0, 0, 9, 9, 9, 9]
def winIn : State := withRuns windowed [winRun]
def comRun : Run := startedIn windowed 3 [0x11, 0, 1, 0, 0, 0, 0, 0, 0, 0, 4, 0, 0, 0, 0, 0]
/-- It with the CRC-32C of four zero bytes. -/
def comOk : Run := startedIn windowed 3 [0x11, 0, 1, 0, 0, 0, 0, 0, 0, 0, 4, 0, 0xC7, 0x4B, 0x67, 0x48]
def winCom : State := withRuns windowed [comRun]
def storeRun : Run := startedIn windowed 3 [0x38, 0, 1, 0, 0, 0, 0, 0, 8, 0]
def storeIn : State := withRuns windowed [storeRun]
def loadIn : State := withRuns windowed [startedIn windowed 3 [0x39, 0, 1, 0, 0, 0, 0, 0, 8, 0]]
/-- A STORE behind an earlier one. -/
def storeTwo : State := withRuns windowed [{ storeRun with id := 2, st := .working }, storeRun]

/-- FLIP_ARM of cell 9 for tick 100. -/
def flipSlot : List Byte := [0x20, 0, 1, 0, 100, 0, 0, 0, 0, 0, 0, 0, 0, 2]
def flipRun : Run := startedIn (owned 0 9 ⟨3, 0, 0⟩) 3 flipSlot
def flipIn : State :=
  { owned 0 9 ⟨3, 0, 0⟩ with runs := [flipRun], tick := { served.tick with numValid := true, num := 10 } }
def unflip : Run := { flipRun with slot := padTo 64 (0x21 :: flipSlot.drop 1) }

/-- A block's self-test runs for command 3, its unit `u`. -/
def testingOf (b u : Nat) : State :=
  { served with
    tests := [(b, some ⟨u, 3⟩)],
    runs := [{ accepted 0 [0x40, 0, 1, 0, BitVec.ofNat 8 b, BitVec.ofNat 8 u] with st := .working }] }
def selfTestIn : State := running 0 [0x40, 0, 1, 0, 1, 127]
def aged (t : Nat) (bs : List Byte) : State := { served with runs := [{ accepted t bs with age := 2 }] }
def finished (t : Nat) (bs : List Byte) : State :=
  { served with runs := [{ accepted t bs with st := .finished 0 [1, 2] }] }
def entering : State := { served with pwr := { served.pwr with phase := .query } }

/-! Flash and memory -/

def flashTest : State := { served with tests := [(2, some ⟨0, 3⟩)] }
def pulsing (st : FlashSt) : State :=
  { served with flash := { served.flash with st := st, erases := [⟨7, 2, .window 0, 1, 0⟩] } }
def tripped (st : FlashSt) : State := { pulsing st with flash := { (pulsing st).flash with bor := true } }
def queued (ops : List FlashOp) : State :=
  { served with flash := { served.flash with queue := ops }, tick := { served.tick with slot := 5 } }
def programming (bad : Bool) : State :=
  { served with flash := { served.flash with st := .prog, prog := some (.prog 5 1#64 .sys), progBad := bad } }
def unlocked : State := { served with sys := { served.sys with locked := false } }
def scrubbing (b : Bool) : State := { served with sys := { served.sys with scrubSram := b } }
def twice : State :=
  { served with prot := { served.prot with
      fixed := [(sectionBase 5, true)], fixedPrev := [(sectionBase 5, true)] } }
/-- It with both spare rows of the section in use. -/
def twiceFull : State :=
  { twice with prot := { twice.prot with fuses := [⟨5, false, 1, true, false⟩, ⟨5, false, 2, true, false⟩] } }
def spoilt (e : EccSt) : State := { served with ecc := [(sramWordAddr 0, e)] }
def fullEq : State := tenanted 0 fun T => { T with eqTail := 64 }

/-! The link and the tick -/

/-- A hop state on UP. -/
def hopAt (st : HopSt) : State := { served with link := { served.link with up := { served.link.up with st := st } } }
def linked (st : TickSt) : State :=
  { hopAt .up with tick := { served.tick with srcF := 1, st := st, ctrl := 1 } }
def linkedDn : State :=
  { linked .lockedLink with link := { (linked .lockedLink).link with dn := { served.link.dn with st := .up } } }
def locking : State :=
  { served with link := { served.link with up := { served.link.up with st := .training, rxLock := true } } }
def dsyncAt (st : TickSt) (k : Nat) : State :=
  { served with tick := { served.tick with
      srcF := 2, dsyncF := true, ctrl := 0x0000000A#32, st := st, dsync := ⟨k, 900, false⟩ } }
def pulseHigh (mark : Nat) : State :=
  { dsyncAt .lockedDsync 0 with tick := { (dsyncAt .lockedDsync 0).tick with
      dsHigh := true, dsMark := mark, ctrl := 0x0000000E#32 } }
/-- Bank GEN is held. -/
def genShut : State := { served with pwr := { served.pwr with closed := 0x20 } }
/-- TICK_DSYNC.DLY is 5 us. -/
def delayed : State := { dsyncAt .holdover 0 with tick := { (dsyncAt .holdover 0).tick with dly := 1000 } }
def unacked (tx : Nat) : State :=
  { linked .lockedLink with link := { (linked .lockedLink).link with
      up := { (linked .lockedLink).link.up with rsp := { LinkCls.reset with unacked := [⟨5, [], tx, false⟩] } } } }

/-- A frame of a type to a destination and tenant, with its FCS. -/
def frame (type dst ten : Nat) (payload : List Byte) : List Byte :=
  withCrc ([BitVec.ofNat 8 type, 0, BitVec.ofNat 8 dst, 0, BitVec.ofNat 8 ten, 0, 5, 0] ++ leBytes 2 payload.length ++
    List.replicate 10 0 ++ payload)
def goodFrame : List Byte := frame 0x10 0xFF 0 [1, 0]
def badFrame : List Byte := goodFrame.dropLast ++ [goodFrame.getLastD 0 + 1]
def cmdFrame : List Byte := frame 0x01 9 3 (withCrc (padTo 60 [0x01, 0, 7, 0]))
def ticknumFrame : List Byte := frame 0x03 0xFF 0 [0, 0, 0, 0, 0, 0]
def enumFrame : List Byte := frame 0x10 0xFF 0 [7, 0]
def wakeFrame : List Byte := frame 0x04 9 0 [9, 0]
def winFrame : List Byte := frame 0x02 9 3 [0, 0, 4, 0, 10, 11, 12, 13]
def holdsFrame (b : List Byte) : State := { served with link := { served.link with loc := [b] } }
def early (b : List Byte) : State := { holdsFrame b with sys := { served.sys with bootDone := false } }
def bound9 (b : List Byte) : State :=
  { served with
    sys := { served.sys with linkAddr := 9 },
    link := { served.link with loc := [b], bound := true } }
def fullCq : State := (holdsFrame cmdFrame).updTen 3 fun T => { T with cqTail := 32 }
def holdsWin : State := { windowed with link := { served.link with loc := [winFrame] } }
def goodSlot : List Byte := withCrc (padTo 60 [0x01, 0, 7, 0])
def zeroSlot : List Byte := List.replicate 63 0 ++ [1]
def answering (b : List Byte) : State :=
  { hopAt .up with link := { (hopAt .up).link with bufs := [(1, some ⟨3, 5, true, false, [some b], false⟩)] } }

/-- A line of wake cells: 4 us and 2 us for a 1, 2 us and 4 us for a 0. -/
def cellsOf (bits : BitVec 16) : List (Nat × Nat) :=
  (List.range 16).map fun i => if bits.getMsbD i then (4000, 2000) else (2000, 4000)
def lineOf (cells : List (Nat × Nat)) : List (Bool × Nat) := cells.flatMap fun c => [(true, c.1), (false, c.2)]
def bitsOf (cells : List (Nat × Nat)) : Nat := cells.foldl (fun n c => 2 * n + bitNat (decide (c.2 < c.1))) 0

/-! Power -/

def supplied (st : PState) : State :=
  { served with pwr := { served.pwr with st := st, domOn := 0, domReady := 0, closed := 0x3F } }
def unsupplied (resetN : Bool) : State :=
  { supplied .shuttered with
    sys := { served.sys with resetN := resetN, bootDone := false },
    pwr := { (supplied .shuttered).pwr with vao := false } }
def held : State := { served with sys := { served.sys with resetN := false, bootDone := false, sweep := false } }
def unbooted : State := { served with sys := { served.sys with bootDone := false } }
def inAjar : State := { served with pwr := { served.pwr with st := .ajar } }
def ajarAsked : State := { served with pwr := { served.pwr with ajarPend := true } }
def swinging (bad : Bool) : State :=
  { served with
    sys := { served.sys with leafSt := 1, swingBad := bad },
    flash := { served.flash with queue := [.done 0 0 .swing] } }
def saving (r : Nat) : State :=
  { served with
    sys := { served.sys with kstSt := 1, kstResult := r },
    flash := { served.flash with queue := [.done 1 5 .save] } }
def querying (b : Bool) : State :=
  { (tenanted 3 fun T => { T with wakeHold := b }) with pwr := { served.pwr with phase := .query } }
def voting : State := tenanted 3 fun T => { T with wakeHold := true, wakeLapse := true }
def coalesced : State := tenanted 3 fun T => { T with pend := [(6, ⟨2, 5, 7⟩)] }

/-- Louvred, with PD_LINK off, bound at address 9, watching for LINK, KEY and WAKE_N. -/
def asleep : State :=
  { served with
    sys := { served.sys with linkAddr := 9 },
    link := { served.link with bound := true },
    pwr := { served.pwr with
      st := .louvred, domOn := 0xFFEF, domReady := 0xFFEF, wakeEn := 0x15, unwatched := 0x40 } }
def asleepIn (ph : Phase) : State := { asleep with pwr := { asleep.pwr with phase := ph } }
def deaf : State := { asleep with pwr := { asleep.pwr with wakeEn := 0x14 } }
def repeating : State := { asleep with link := { asleep.link with wakeRpt := [wakeBits 8] } }
def holding : State := { asleep with pwr := { asleep.pwr with pathHold := true } }
def latchedWake : State := { asleep with pwr := { asleep.pwr with phase := .committed, wakeLatch := 1 } }
def alarmed : State := { served with sys := { served.sys with rtcSec := 60, rtcAlarm := 60, alarmDone := false } }

/-- A restore in progress, with domain `d` at stage `k` and the domains of `ready` on. -/
def restoring (d : Nat) (ready : BitVec 16) (k : Nat) : State :=
  { served with pwr := { served.pwr with
      st := .louvred, phase := .restoring, domOn := ready, domReady := ready,
      stage := if k = 0 then [] else [(d, k)] } }
def louvring : State :=
  { asleep with
    regs := [(lvReg 2 0, 0x8000#32), (lvReg 2 4, 0x07D00000#32)],
    pwr := { asleep.pwr with wakeEn := 0x08 } }

/-! The sequencer and the battery watch -/

/-- Rail 4 rises in step 2 after a delay and watches its power-good. -/
def railed : SMap Word := [(railReg 4 0, 0x00100002#32), (railReg 4 4, 0x00640005#32)]
def stepped : State := { served with regs := railed }
def sequencing (st : Nat) : State :=
  { stepped with seq := { served.seq with st := st, step := 2, dlyRun := true } }
def powered : State :=
  { stepped with seq := { served.seq with en := 0x10, pg := 0x10, upDone := true } }
/-- Rails 4 and 5 up and watched; rail 5 has ACTION 2, DOWN_ALL. -/
def poweredTwo : State :=
  { served with
    regs := [(railReg 4 0, 0x00110002#32), (railReg 4 4, 0x00640005#32), (railReg 5 0, 0x00120002#32)],
    seq := { served.seq with en := 0x30, pg := 0x30, upDone := true } }
def rereading : State := { powered with seq := { powered.seq with reread := true } }
def waitingPg : State :=
  { served with
    regs := [(railReg 4 0, 0x00110002#32), (railReg 4 4, 0x00640005#32)],
    seq := { served.seq with st := 1, step := 2, en := 0x10, wait := 0x10 } }
def measuring : State := { served with seq := { served.seq with coinBusy := true } }

/-! Lamps, keys, converter -/

/-- Channel 2 enabled, inside its on-window at full current, with a duty word. -/
def lit (duty : Nat) : State :=
  { served with
    regs := SMap.set regReset [] (lampReg 2 0) 1,
    lamps := [(2, { Lamp.reset with ieff := 2000, onN := 100, duty := duty, out := 4095, pf := 4096 })] }
def unlit : State := { lit 1600 with lamps := [(2, { Lamp.reset with ieff := 2000 })] }
def litOc : State := { lit 1600 with lamps := [(2, { (lit 1600).lamp 2 with ocCnt := 15 })] }
/-- A fade of PF of channel 2. -/
def rising : State :=
  { served with lamps := [(2, { Lamp.reset with pfFade := some ⟨0, 4096, 0, 1000000, false⟩ })] }
def slowed : State := { served with regs := SMap.set regReset [] (lampReg 2 0x14) 0x00640064#32 }
def fading : State :=
  { served with lamps := [(2, { Lamp.reset with target := 9, own := 9, fade := some ⟨0, 9, 0, 1000000, false⟩ })] }
def stopped : State := { served with lamps := [(2, { Lamp.reset with fault := 8 })] }

/-- Engine 1 runs at step 0, which holds a word. -/
def playing (w : Word) : State :=
  { served with
    regs := SMap.set regReset [] (peReg 1 0x80) w,
    engines := [(1, { Engine.reset with st := 1 })] }
def spinning : State :=
  { playing 0x30000000#32 with engines := [(1, { Engine.reset with st := 1, quick := 31 })] }
def scanning : State := { served with keys := { served.keys with active := true } }
def pressing : State := { served with keys := { served.keys with keys := [(300, { Key.reset with down := true })] } }
/-- The cycles of CK_RTC in STUCK_S. -/
def stuckCycles : Nat := 32768 * served.fld 0x30090004 0 12
def jammed : State :=
  { served with keys := { served.keys with keys := [(300, { Key.reset with down := true, stuck := true })] } }
def converting (ovs : Nat) : State :=
  { served with
    adc := { served.adc with refRdy := true, seqA := { SeqRun.reset with run := some ⟨3, 3, 0, 4, ovs, false⟩ } } }
/-- Sequencer B converts the single-ended channel 20 at GAIN 1. -/
def convertingB : State :=
  { converting 0 with adc := { (converting 0).adc with
      seqA := SeqRun.reset, seqB := { SeqRun.reset with run := some ⟨20, 0, 1, 4, 1, false⟩ } } }
/-- A pass over all slices is at slice `i`. -/
def passing (i : Nat) : State :=
  { converting 0 with adc := { served.adc with refRdy := false, calAll := true, calPass := some i } }
/-- REF_SEL has changed while a conversion ran. -/
def unsettled : State :=
  { converting 0 with adc := { (converting 0).adc with refRdy := false, refWait := true, calAll := true } }
def idlePair : State := { converting 0 with adc := { (converting 0).adc with seqA := SeqRun.reset } }
def calibrating : State := { idlePair with adc := { idlePair.adc with calRun := true, calAge := [(1, 3), (2, 2)] } }
def external : State := { served with adc := { served.adc with refSel := 1 } }
def injecting : State := { served with adc := { served.adc with inj := [⟨9, false, 0, 20, 0, false, false⟩] } }

/-! The debug lock and core SRAM -/

def keyed : State := tenanted 0 fun T => { T with key := some 7 }
def failing : State := { served with dbg := { served.dbg with failAt := some 0 } }
def challenged (k : Nat) : State :=
  { keyed with dbg := { served.dbg with chal := some 0x123456789, wrPos := k } }
def poisoned : State := { served with ecc := [(0x10000008, .poisoned)] }
def poisonedTwice (svc : Nat) : State :=
  { poisoned with prot := { served.prot with restarts := [(svc, 1)] } }
def fronted (c : Instr) : State := { served with pending := [c] }

/-! More of them -/

/-- A reset that a port has asked for; a load that waits for the edge of CK_RTC; an accumulator about to wrap. -/
def resetting : State := { served with sys := { served.sys with resetPend := true } }
def clocked : State := { served with sys := { served.sys with rtcLoad := some (60, 3) } }
def trimmed (t : BitVec 8) : State := { served with sys := { served.sys with rtcTrim := t, rtcAcc := 2 ^ 20 - 1 } }

/-- The selected tenant has a sealed record. -/
def sealed0 : State := { served with sealed := [(served.secTen, some 7)] }

/-- Port A's access has programmed a word through a window, and waits for the controller. -/
def stepping : State :=
  { served with
    portA := { served.portA with acc := some { writeAcc 0 0x8000 7 0 with stepped := true } },
    flash := { served.flash with queue := [.prog 5 1#64 (.window 0)] } }

/-- FLASH_PROG of the keeper: word 0 of sector 800 from its SCRATCH window 0. -/
def keeperWin : State := { served with grants := { served.grants with table := [(512 * 9, ⟨0, 0, 4⟩), (512 * 8, ⟨0, 0, 4⟩)] } }
def progRun : Run := startedIn keeperWin 0 [0x31, 0, 1, 0, 0, 0, 0x19, 0, 1, 0, 0, 0]
def progIn : State := { keeperWin.updTen 0 fun T => { T with winType := [(0, 2)] } with runs := [progRun] }

/-- The part has halted in its Boot ROM. -/
def haltedPart : State := { served with sys := { served.sys with halted := true, bootDone := false } }
/-- The journal holds an INTENT without its DONE. -/
def cutErase : State :=
  { unbooted with flash := { unbooted.flash with words := [(522 * 256, ⟨recWord 0x4A 7 2 0, 0, none⟩)] } }

/-- No tick counts, with the pads of bank GEN live. -/
def idleTick : State := { supplied .louvred with pwr := { (supplied .louvred).pwr with closed := 0 } }
/-- The arrival of this boundary has come. -/
def arrivedTick : State := { dsyncAt .lockedDsync 0 with tick := { (dsyncAt .lockedDsync 0).tick with dsync := ⟨0, 0, true⟩ } }
/-- A WAKE frame for group address 240, which must go on. -/
def groupWake : List Byte := frame 0x04 0xF0 0 [0xF0, 0]
/-- The CQ slot, and the scratch word, that the oldest frame is for are under the self-test of SRAM. -/
def heldCmd : State := { holdsFrame cmdFrame with tests := [(1, some ⟨(sectionOf (cqAddr 3 0)).getD 0, 3⟩)] }
def heldWin : State := { holdsWin with tests := [(1, some ⟨(sectionOf scratchBase).getD 0, 3⟩)] }
/-- The last switching period of a fade. -/
def fadingLast : State :=
  { served with lamps := [(2, { Lamp.reset with target := 9, own := 9, fade := some ⟨0, 9, 999999, 1000000, false⟩ })] }
/-- The reference settles with no pass due. -/
def readyRef : State := { idlePair with adc := { idlePair.adc with refRdy := false, calAll := false } }

/-- ADC_CTRL.EN is 0. -/
def adcOff : State := { served with regs := SMap.set regReset [] 0x300A0000 0 }

/-! ## Witnesses: states and operands that meet the premises of the statements -/

theorem wit_IdleStepIsOneRtcCycle : State.reset.pending = [] ∧ served.pending = [] ∧ served.pwr.st ≠ .off ∧
    served.sys.resetPend = false ∧ resetting.sys.resetPend = true ∧ resetting.pending = [] ∧
    (supplied .off).pwr.st = .off ∧ (supplied .off).sys.resetPend = false ∧ (supplied .off).pending = [] ∧
    served.sys.rtcLoad = none ∧ clocked.sys.rtcLoad = some (60, 3) ∧ clocked.pending = [] ∧
    served.sys.rtcAcc + served.sys.trimSize < 2 ^ 20 ∧ (trimmed 0x05).sys.rtcLoad = none ∧
    2 ^ 20 ≤ (trimmed 0x05).sys.rtcAcc + (trimmed 0x05).sys.trimSize ∧ (trimmed 0x05).sys.rtcTrim.getLsbD 7 = false ∧
    2 ^ 20 ≤ (trimmed 0xFB).sys.rtcAcc + (trimmed 0xFB).sys.trimSize ∧ (trimmed 0xFB).sys.rtcTrim.getLsbD 7 = true := by
  decide

theorem wit_StepKeepsSafe : served.Safe ∧ served.StepsTo served.rtcCycle := ⟨⟨rfl, rfl⟩, rfl⟩

theorem wit_QueueIsFirstInFirstOut :
    { served with pending := [.tapReset, .idcode] }.StepsTo { served with pending := [.idcode] } := rfl

theorem wit_DoorNoneOpenFlush : served.Serves 0 ∧ served.door 7 = .shut ∧ served.door 3 = .opened := by decide

theorem wit_DoorShut : served.Serves 0 ∧ served.door 3 ≠ .shut := by decide

theorem wit_LeakAndHeartbeat :
    (served.ten 3).leak < (served.ten 3).leakTicks ∧ served.Serves 3 ∧
    (leaked.ten 3).leakTicks ≤ (leaked.ten 3).leak ∧ (3 : Fin 32) ≠ 0 ∧ (leaked.ten 3).hbTicks ≠ 0 ∧
    (leaked.ten 3).hbLeft = 0 ∧ leaked.door 3 = .opened ∧ leaked.pwr.st = .opened ∧ (served.ten 3).hbTicks = 0 := by
  decide

theorem wit_SecRows : served.testing 3 = false ∧ served.cfgReach 0 0x300D0004 true = true ∧
    served.cfgReach 0 0x300D0040 true = true ∧ (testingOf 3 0).testing 3 = true ∧
    (testingOf 3 0).cfgReach 0 0x300D0004 true = true ∧ (testingOf 3 0).cfgReach 0 0x300D0040 true = true ∧
    Word.fld 0x00C80408#32 0 8 ≠ 0 ∧ Word.fld 0x00C80408#32 8 8 ≠ 0 ∧ Word.fld 0x00C80408#32 16 16 ≠ 0 ∧
    served.sealHeld served.secTen = false ∧ sealed0.sealHeld sealed0.secTen = true ∧ sealed0.testing 3 = false ∧
    sealed0.cfgReach 0 0x300D0040 true = true := by decide

theorem wit_GrantStageRow :
    served.Serves 0 ∧ ¬(8 ≤ served.grants.cls) ∧ ¬(served.grants.cls = 7) ∧
    (granting 7 33).Serves 0 ∧ (granting 7 33).grants.cls = 7 ∧ evRouted (granting 7 33).grants.idx = true ∧
    (granting 9 1).Serves 0 ∧ 8 ≤ (granting 9 1).grants.cls ∧
    (granting 9 1).overlaps 9 1 (grantWrite 9 0x00400001#32).1 = true := by decide

theorem wit_HostReadRow :
    served.portFree 0 = true ∧ served.sys.bootDone = true ∧ served.portErr 0 3 0x0C0 false = some .unmapped ∧
    served.portErr 0 7 0xB4 false = some .door ∧ (served.ten 7).berr.fld 0 3 = 0 ∧
    (failed.ten 7).berr.fld 0 3 ≠ 0 ∧ failed.portFree 0 = true ∧ failed.portErr 0 7 0xB4 false = some .door ∧
    (isPageReg 0xB4 || false) = true ∧ (served.port 0).pages.getLsbD 3 = true ∧
    served.doorServes 3 (.reg 0xB4) false = true ∧
    ((served.port 0).post.any fun q => served.behind q (readAcc 3 0xB4)) = false ∧
    drain2.portFree 0 = true ∧ drain2.doorServes 3 (.reg 0xB4) false = true ∧
    ((drain2.port 0).post.any fun q => drain2.behind q (readAcc 3 0xB4)) = false := by decide

theorem wit_HostWriteRow :
    served.portFree 0 = true ∧ served.sys.bootDone = true ∧ (served.port 0).pages.getLsbD 3 = true ∧
    served.door 3 = .opened ∧ (served.port 0).postEn = false ∧ (served.port 0).post = [] ∧
    served.cqOwned 3 31 = false ∧ served.eccOf ((lbxBase + 3 * 0x1200 + 0x7FC) / 8 * 8) = .good ∧
    served.sramHeld (lbxBase + 3 * 0x1200 + 0x7FC) = false ∧
    posting.portFree 0 = true ∧ (posting.port 0).postEn = true ∧ (posting.port 0).post.length < 8 ∧
    posting.portErr 0 3 0xB4 true = none ∧ neverPosted 3 0xB4 = false := by decide

theorem wit_HostWaits :
    (served.port 0).ended = none ∧ served.sys.resetPend = false ∧ (served.port 0).acc = none ∧ (failed.port 1).ended ≠ none ∧
    (waiting.port 0).acc = some (readAcc 3 0x8000) ∧ (readAcc 3 0x8000).stepped = false ∧ waiting.up 2 = true ∧
    ((waiting.port 0).post.any fun q => q.stepped) = false ∧ (waiting.ten 3).berr.fld 0 3 = 0 ∧
    (stepping.port 0).acc = some { writeAcc 0 0x8000 7 0 with stepped := true } ∧ stepping.winWaits 0 = true ∧
    ((stepping.port 0).post.any fun q => q.stepped) = false := by decide

theorem wit_PostAndFence :
    (served.port 0).post = [] ∧ served.door 3 ≠ .shut ∧ (drain1.port 0).post = [writeAcc 3 0xB4 7 0] ∧
    (writeAcc 3 0xB4 7 0).stepped = false ∧ drain1.sys.bootDone = true ∧ (drain2.port 0).post = [writeAcc 3 0x1800 7 0] ∧
    pageRef 3 0x1800 = some (.rq 0) ∧ drain2.refHeld 3 (.rq 0) true = false ∧
    drain2.refErr 3 (.rq 0) true = some .door ∧ (drain2.ten 3).berr.fld 0 3 = 0 ∧
    SMap.get (fun _ => 0) (drain2.port 0).fence 3 = 0 ∧ served.portFree 0 = true ∧ served.sys.bootDone = true ∧
    (served.port 0).pages.getLsbD 3 = true := by decide

theorem wit_PageMaskRow :
    served.Serves 0 ∧ served.portFree 0 = true ∧ served.portFree 1 = true ∧
    (served.port 0).pages.getLsbD 0 = true ∧ (served.port 0).post = [] := by decide

theorem wit_QueueIndexRows :
    served.Serves 3 ∧ ((32 : BitVec 6) - (served.ten 3).cqTail).toNat ≤ 32 - (served.ten 3).cqCount ∧
    (32 : BitVec 6) ≠ (served.ten 3).cqTail ∧ 32 - (served.ten 3).cqCount < ((33 : BitVec 6) - (served.ten 3).cqTail).toNat ∧
    ((0 : BitVec 6) - (served.ten 3).rqHead).toNat ≤ (served.ten 3).rqCount ∧
    (served.ten 3).rqCount < ((1 : BitVec 6) - (served.ten 3).rqHead).toNat ∧
    ((0 : BitVec 7) - (served.ten 3).eqHead).toNat ≤ (served.ten 3).eqCount ∧
    (served.ten 3).eqCount < ((1 : BitVec 7) - (served.ten 3).eqHead).toNat := by decide

theorem wit_WindowRegisterRows :
    served.Serves 3 ∧ ¬(5 ≤ (3 : Word).toNat % 8 ∨ ((3 : Word).toNat % 8 = 4 ∧ (3 : Fin 32) ≠ 0)) ∧
    (1023 : Word).toNat % 1024 ≤ baseMax ((served.ten 3).wType 0) ∧ (served.ten 3).winState ≠ 1 ∧
    (busyWin.ten 3).winState = 1 ∧ busyWin.Serves 3 ∧ Word.fld 0x007FF800#32 0 11 + Word.fld 0x003FF800#32 11 11 ≤ 2047 := by
  decide

theorem wit_SlotAccepted :
    (Instr.cmdSlot 34).WellFormed = true ∧ (Instr.cmdSlot 4).WellFormed = true ∧ served.ticking = true ∧
    served.sys.bootDone = true ∧ served.pwr.phase = .idle ∧ (supplied .shuttered).ticking = false ∧ served.door 7 ≠ .opened ∧
    (served.ten 3).winReq = none ∧ (served.ten 3).cqCount = 0 ∧
    echoIn.door 3 = .opened ∧ (echoIn.ten 3).ended = false ∧ (echoIn.ten 3).winReq = none ∧
    (echoIn.ten 3).pause = false ∧ (echoIn.ten 3).cqCount ≠ 0 ∧ echoIn.rqFree 3 ≠ 0 ∧
    echoIn.cqLink 3 (echoIn.ten 3).cqHead.toNat = none ∧
    echoIn.sramHeld (cqAddr 3 (echoIn.ten 3).cqHead.toNat) = false ∧ echoIn.ecc = [] := by decide

theorem wit_SlotAccepted_check :
    wordOf (natAt (echoIn.rdBytes (cqAddr 3 0) 64) 60 4) = crc32c ((echoIn.rdBytes (cqAddr 3 0) 64).take 60) ∧
    (echoIn.ten 3).histOf (slotTag (echoIn.rdBytes (cqAddr 3 0) 64)) = none ∧
    echoIn.slotCost 3 (echoIn.rdBytes (cqAddr 3 0) 64) = some 1 ∧ 1 ≤ (echoIn.ten 3).quota ∧
    (echoIn.ten 3).spent + 1 ≤ (echoIn.ten 3).quota ∧ 1 ≤ echoIn.tick.capLeft := by decide +kernel

theorem wit_RegisterCommands_none : ∀ op, served.runOf 3 op = none := fun _ => rfl

theorem wit_RegisterCommands :
    (running 3 [0x01]).runOf 3 1 = some (accepted 3 [0x01]) ∧
    (running 0 [0x02, 0, 7, 0, 4, 0, 1, 0x30, 1]).runOf 0 2 = some (accepted 0 [0x02, 0, 7, 0, 4, 0, 1, 0x30, 1]) ∧
    (cfgArgs (accepted 0 [0x02, 0, 7, 0, 4, 0, 1, 0x30, 1]) 14).1 = [0x30010004] ∧
    served.cfgHeld 0x30010004 = false ∧ (testingOf 8 0).cfgHeld (fanReg 0 0) = true ∧
    (served.under (accepted 0 [])).cfgErrs 0 false [0x30010004] = none ∧
    (served.under (accepted 3 [])).cfgErrs 3 true [0x30010004] = some .door ∧
    (served.under (accepted 0 [])).cfgErrs 0 true [0x30010004] = none ∧
    (served.under (accepted 3 [])).cfgErrs 3 false [0x30010004] = some .door ∧
    (served.under (accepted 0 [])).cfgCmdErr 0 0x30010004 true = none ∧
    (served.under (accepted 0 [])).cfgCmdErr 0 0x30010004 false = none ∧
    (pageArgs (accepted 3 [0x05, 0, 7, 0, 0xB4, 0, 1]) 14).2.2 = true ∧
    (pageArgs (accepted 3 [0x05, 0, 7, 0, 0xBC, 0, 2]) 14).2.2 = false ∧
    (pageArgs (accepted 3 [0x06, 0, 7, 0, 0xBC, 0, 1]) 12).2.2 = true ∧
    (pageArgs (accepted 3 [0x06, 0, 7, 0, 0xBC, 0, 2]) 12).2.2 = false := by decide

theorem wit_EqGrantPowerCommands :
    (running 3 [0x07, 0, 1, 0, 6]).runOf 3 7 = some (accepted 3 [0x07, 0, 1, 0, 6]) ∧
    (running 3 [0x07, 0, 1, 0, 6]).sramHeld (eqAddr 3 0) = false ∧ (running 3 [0x07, 0, 1, 0, 6]).ecc = [] ∧
    (accepted 3 [0x07, 0, 1, 0, 6]).arg 4 1 = 6 ∧
    (running 0 [0x50, 0, 1, 0, 5, 0, 7, 0, 31, 0]).runOf 0 0x50 = some (accepted 0 [0x50, 0, 1, 0, 5, 0, 7, 0, 31, 0]) ∧
    (accepted 0 [0x50, 0, 1, 0, 5, 0, 7, 0, 31, 0]).arg 4 1 = 5 ∧ 7 < classSize 5 ∧
    (accepted 0 [0x50, 0, 1, 0, 5, 0, 7, 0, 31, 0]).arg 6 2 = 7 ∧
    (accepted 0 [0x50, 0, 1, 0, 5, 0, 7, 0, 31, 0]).arg 8 1 = 31 ∧
    (accepted 0 [0x50, 0, 1, 0, 5, 0, 7, 0, 31, 0]).arg 9 1 = 0 ∧
    (running 0 [0x52, 0, 1, 0, 3]).runOf 0 0x52 = some (accepted 0 [0x52, 0, 1, 0, 3]) ∧
    (wordOf ((accepted 0 [0x52, 0, 1, 0, 3]).arg 4 4)).fld 0 3 ≤ 3 := by decide

theorem wit_WindowCommands :
    winIn.runOf 3 0x10 = some winRun ∧ winIn.rangeHeld 3 0 0 4 = false ∧
    (winIn.under winRun).winErrs 3 0 true [0] = none ∧ (served.under winRun).winErrs 3 0 true [0] = some .unmapped ∧
    winCom.runOf 3 0x11 = some comRun ∧ commitArgs comRun.slot = (0, 0, 4, 0) ∧ commitArgs comOk.slot = (0, 0, 4, 0) ∧
    winCom.rangeHeld 3 0 0 4 = false ∧ winCom.rangeBusy 3 0 0 4 = false ∧ commitRange ((winCom.ten 3).wType 0) 0 4 = (0, 4) ∧
    (winCom.under comRun).commitErr 3 0 (wordOffs 0 4) = none ∧
    (served.under comRun).commitErr 3 0 (wordOffs 0 4) = some .unmapped ∧
    (winCom.commitWords 3 0 (wordOffs 0 4)).2 = some [0#32] ∧ crc32c [0#8, 0, 0, 0] = 0x48674BC7#32 ∧
    wordOf (comOk.arg 12 4) = 0x48674BC7#32 ∧ wordOf (comRun.arg 12 4) = 0 ∧ (winCom.commitPart 3 0 0 4).2 = false := by
  decide +kernel

theorem wit_FlipCommands :
    flipIn.runOf 3 0x20 = some flipRun ∧ flipIn.mapHeld (mapCells flipRun) = false ∧ mapCells flipRun = [9] ∧
    (mapCells flipRun).any (fun c => (flipIn.under flipRun).owner 0 c ≠ 3) = false ∧
    (mapCells flipRun).any (fun c => (flipIn.under (accepted 3 flipSlot)).owner 0 c ≠ 3) = true ∧
    flipIn.tick.numValid = true ∧ flipRun.arg 4 6 = 100 ∧ flipIn.armInTime 100 = true ∧ flipIn.armInTime 1 = false ∧
    flipIn.up 8 = true ∧ (withRuns flipIn [unflip]).runOf 3 0x21 = some unflip ∧ mapCells unflip = [9] ∧
    (testingOf 5 0).mapHeld [0] = true := by decide

theorem wit_FlashCommands :
    (running 0 [0x30, 0, 1, 0, 0, 0, 0, 0, 8]).runOf 0 0x30 = some (accepted 0 [0x30, 0, 1, 0, 0, 0, 0, 0, 8]) ∧
    rangeSectors 0 8 = [0] ∧ (served.under (accepted 0 [])).flashOk 0 0 false = true ∧
    (served.under (accepted 3 [])).flashOk 3 0 false = false ∧ served.up 5 = true ∧ flashTest.testing 2 = true ∧
    served.testing 2 = false ∧ served.erasing 0 = false ∧ served.flashBusy = false ∧
    (served.flashBytes 0 8).2 = some [255#8, 255, 255, 255, 255, 255, 255, 255] ∧ (supplied .shuttered).up 5 = false ∧
    (running 0 [0x32, 0, 1, 0, 32, 3]).runOf 0 0x32 = some (accepted 0 [0x32, 0, 1, 0, 32, 3]) ∧
    (served.under (accepted 0 [])).flashOk 0 800 true = true ∧ (served.under (accepted 3 [])).flashOk 3 800 true = false := by
  decide

theorem wit_FlashCommands_prog :
    progIn.runOf 0 0x31 = some progRun ∧ progArgs progRun = (0x190000, 1, 0, 0, 0) ∧ progIn.rangeHeld 0 0 0 8 = false ∧
    (progIn.under progRun).flashOk 0 800 true = true ∧ (progIn.under progRun).winErrs 0 0 false (wordOffs 0 8) = none ∧
    (served.under progRun).winErrs 0 0 false (wordOffs 0 8) = some .unmapped ∧ progIn.up 5 = true ∧
    progIn.rangeBusy 0 0 0 8 = false ∧ (progIn.committedBytes 0 0 0 8).2 = some (List.replicate 8 0#8) ∧
    (progIn.committedBytes 0 0 0 8).1.suspendable = false ∧ progIn.testing 2 = false := by decide

theorem wit_SettingsCommands :
    flashTest.testing 2 = true ∧ storeIn.runOf 3 0x38 = some storeRun ∧ recordArgs storeRun = (0, 0, 8, 0) ∧
    storeIn.testing 2 = false ∧ storeIn.storing storeRun = false ∧ storeTwo.storing storeRun = true ∧
    storeTwo.runOf 3 0x38 = some storeRun ∧ storeIn.rangeHeld 3 0 0 8 = false ∧ (storeIn.ten 3).wType 0 = 2 ∧
    (served.ten 3).wType 0 ≠ 2 ∧ storeIn.up 5 = true ∧ (areaSectors 3).any storeIn.erasing = false ∧
    storeIn.flashBusy = false ∧ (storeIn.under storeRun).winErrs 3 0 false (wordOffs 0 8) = none ∧
    (storeIn.under storeRun).winErrs 3 0 true (wordOffs 0 8) = none ∧
    (storeIn.committedBytes 3 0 0 8).2 = some (List.replicate 8 0#8) ∧ (storeIn.inForce false 3).2 = (none, false) ∧
    loadIn.runOf 3 0x39 ≠ none ∧ recordArgs (accepted 3 [0x38, 0, 1, 0, 0, 0, 0, 0, 0, 32]) = (0, 0, 8192, 0) := by decide

theorem wit_SelfTestRows :
    selfTestIn.runOf 0 0x40 = some (accepted 0 [0x40, 0, 1, 0, 1, 127]) ∧
    argClamp 1 9 ((accepted 0 [0x40, 0, 1, 0, 1, 127]).arg 4 1) = (1, 0) ∧
    argClamp 0 (testBlock 1).1 ((accepted 0 [0x40, 0, 1, 0, 1, 127]).arg 5 1) = (127, 0) ∧
    selfTestIn.testing 1 = false ∧ (selfTestIn.under (accepted 0 [])).mayTest 0 1 127 = true ∧
    (selfTestIn.under (accepted 3 [])).mayTest 3 1 127 = false ∧ selfTestIn.up (testBlock 1).2 = true ∧
    (supplied .shuttered).up (testBlock 1).2 = false ∧ (pulsing .erasePulse).flashBusy = true ∧
    (testingOf 1 127).testing 1 = true ∧ (testingOf 1 127).testOf 1 = some ⟨127, 3⟩ ∧
    ((testingOf 1 127).runById 3).isSome = true ∧ selfTestIn.testOf 1 = none ∧ served.disp.due.isSome = false ∧
    served.adc.due.isSome = false := by decide

theorem wit_ResponseRows :
    served.runs = [] ∧ (aged 3 [0x31, 0, 1, 0]).runs = [{ accepted 3 [0x31, 0, 1, 0] with age := 2 }] ∧
    ({ accepted 3 [0x31, 0, 1, 0] with age := 2 } : Run).result = none ∧ slotFlags (accepted 3 [0x31, 0, 1, 0]).slot % 2 = 0 ∧
    (aged 3 [0x31, 0, 1, 0]).door 3 ≠ .shut ∧
    (finished 3 [0x01, 0, 1, 0]).runs = [{ accepted 3 [0x01, 0, 1, 0] with st := .finished 0 [1, 2] }] ∧
    (finished 3 [0x01, 0, 1, 0]).sramHeld (rqAddr 3 0) = false := by decide

theorem wit_Settled : served.Settled ∧ (pulsing .erasePulse).Settled ∧ (queued []).Settled ∧ (programming true).Settled ∧
    flashTest.Settled ∧ (tripped .eraseSusp).Settled := by decide

theorem wit_FlashSequenceRows :
    served.flashServes = true ∧ served.inEntry = false ∧ served.flashReach 0 800 = true ∧ served.leafHeld 800 = false ∧
    served.sys.bootDone = true ∧ served.leafHeld 0 = true ∧ entering.flashServes = true ∧ entering.inEntry = true ∧
    served.sys.halted = false ∧ flashTest.up 5 = true ∧ flashTest.testing 2 = true ∧ flashTest.sys.halted = false ∧
    haltedPart.sys.halted = true ∧ haltedPart.flashServes = true ∧ (supplied .shuttered).up 5 = false := by decide

theorem wit_FlashSuspendRows :
    (pulsing .erasePulse).flashServes = true ∧ (pulsing .erasePulse).sys.bootDone = true ∧
    (pulsing .erasePulse).flash.st = .erasePulse ∧ (pulsing .erasePulse).flash.suspCnt < 8 ∧
    (pulsing .erasePulse).flash.suspUs < 1000 ∧ (pulsing .eraseSusp).flash.st = .eraseSusp ∧
    (pulsing .eraseSusp).flash.suspUs ≤ 999 ∧ (pulsing .eraseSusp).flash.bor = false ∧
    (pulsing .suspProg).flash.st = .suspProg ∧ (pulsing .suspProg).flashServes = true ∧
    (pulsing .eraseSusp).flashServes = true ∧ served.flash.st = .idle ∧ (pulsing .eraseGap).flash.st = .eraseGap ∧
    (tripped .eraseSusp).flash.bor = true ∧ (tripped .eraseSusp).flash.erases = [⟨7, 2, .window 0, 1, 0⟩] := by decide

theorem wit_FlashRunRows_program :
    (queued [.prog 5 1#64 .sys]).flash.queue = [.prog 5 1#64 .sys] ∧ (queued [.prog 5 1#64 .sys]).flash.prog = none ∧
    (queued [.prog 5 1#64 .sys]).flash.erases = [] ∧
    (queued [.prog 5 1#64 .sys]).ticking = true ∧ (queued [.prog 5 1#64 .sys]).flashServes = true ∧
    2 ≤ (queued [.prog 5 1#64 .sys]).tick.slot ∧ (queued [.prog 5 1#64 .sys]).tick.slot ≤ 37 ∧
    (queued [.prog 5 1#64 .sys]).flash.bor = false ∧ (queued [.prog 5 1#64 .sys]).flash.st = .idle ∧
    (programming false).flash.prog = some (.prog 5 1#64 .sys) ∧ (programming false).flash.queue = [] ∧
    (programming false).flash.progBad = false ∧ (programming false).flash.bor = false ∧
    (programming true).flash.progBad = true ∧ (programming true).flash.prog = some (.prog 5 1#64 .sys) ∧
    (programming true).flash.queue = [] ∧ (programming true).ticking = true ∧ (programming true).flash.prog.isSome = true ∧
    (tripped .prog).flash.bor = true := by decide

theorem wit_FlashRunRows_erase :
    (queued [.erase 7 2 (.window 0)]).ticking = true ∧ (queued [.erase 7 2 (.window 0)]).flash.bor = false ∧
    (queued [.erase 7 2 (.window 0)]).flash.prog = none ∧ (queued [.erase 7 2 (.window 0)]).flash.st = .idle ∧
    (queued [.erase 7 2 (.window 0)]).testing 2 = false ∧ (queued [.erase 7 2 (.window 0)]).flash.erases = [] ∧
    (queued [.erase 7 2 (.window 0)]).mayErase 7 (.window 0) = true ∧
    (queued [.erase 7 2 (.window 0)]).flash.ringWord < 256 ∧
    (queued [.erase 7 2 (.window 0)]).fword (522 * 256) = FWord.erased ∧
    (pulsing .erasePulse).flash.st = .erasePulse ∧ (pulsing .erasePulse).flash.erases = [⟨7, 2, .window 0, 1, 0⟩] ∧
    (pulsing .erasePulse).suspect ((pulsing .erasePulse).phys 7) = false ∧ (pulsing .erasePulse).flash.ringWord < 256 ∧
    (pulsing .erasePulse).flash.queue = [] ∧ (pulsing .erasePulse).flash.ring = 0 := by decide

theorem wit_ComparatorRows :
    (pulsing .erasePulse).flash.bor = false ∧ (pulsing .erasePulse).up 5 = true ∧
    (pulsing .erasePulse).flash.st = .erasePulse ∧ (pulsing .erasePulse).flash.erases = [⟨7, 2, .window 0, 1, 0⟩] ∧
    (programming false).flash.st = .prog ∧ (programming false).up 5 = true ∧ (programming false).flash.bor = false ∧
    served.flash.st = .idle ∧ served.up 5 = true ∧ served.flash.bor = false ∧ (tripped .erasePulse).flash.bor = true := by
  decide

theorem wit_ProtectRows_words :
    served.cfgReach 0 0x30040020 true = true ∧ served.cfgReach 0 0x30040024 true = true ∧
    Word.bit 0x10000009#32 0 = true ∧ (sramRegion 0x10000008).isSome = true ∧ Word.bit 0x8#32 0 = false ∧
    served.sys.locked = true ∧ unlocked.sys.locked = false ∧ unlocked.cfgReach 0 0x30040024 true = true ∧
    Word.fld 0x10000009#32 0 2 = 1 ∧ unlocked.eccOf 0x10000008 = .good ∧
    (spoilt (.bits 1)).eccOf (sramWordAddr (spoilt (.bits 1)).prot.pos) = .bits 1 ∧ (spoilt (.bits 1)).sys.scrubSram = true ∧
    (spoilt (.bits 1)).ticking = true ∧ (spoilt .poisoned).eccOf (sramWordAddr 0) = .poisoned := by decide

theorem wit_ProtectRows_scrub :
    served.ticking = true ∧ (scrubbing true).sys.scrubSram = true ∧ (scrubbing true).ticking = true ∧
    (scrubbing true).ecc = [] ∧ (scrubbing true).prot.pos + (262144 * (scrubbing true).periodUs + 7999999) / 8000000 < 262144 ∧
    (scrubbing true).prot.passUs + (scrubbing true).periodUs ≤ 8000000 ∧ 0 < (scrubbing true).periodUs ∧
    (scrubbing false).sys.scrubSram = false ∧ (scrubbing true).sys.scrubFlash = true ∧ (scrubbing true).tick.fscrub = 0 ∧
    (scrubbing true).scrubFlashWord 0 = some 0 ∧ (scrubbing true).flashWaits 0 = false ∧
    (scrubbing true).prot.fpos + 1 < 1048576 ∧ flashTest.scrubFlashWord flashTest.prot.fpos = some 0 ∧
    flashTest.flashWaits 0 = true ∧ flashTest.sys.scrubFlash = true ∧ flashTest.tick.fscrub = 0 ∧ flashTest.ticking = true := by
  decide

theorem wit_ProtectRows_repair :
    twice.twiceFixed 5 = true ∧ served.twiceFixed 5 = false ∧ twice.prot.fuses = [] ∧ twiceFull.twiceFixed 5 = true ∧
    (twiceFull.prot.fuses.filter fun q => q.sect == 5 && q.col == false).length = 2 ∧
    (twiceFull.prot.fuses.filter fun q => q.sect == 5 && q.col == true).length = 0 := by decide

theorem wit_EventTestRow :
    served.Serves 0 ∧ Word.bit 0x80000006#32 31 = true ∧ evNever 6 = false ∧ evRouted 6 = false ∧
    served.owner 7 6 = 0 ∧ served.door 0 ≠ .shut ∧ (served.ten 0).evMask.getLsbD 6 = false ∧
    (served.ten 0).eqCount < 64 ∧ (served.ten 0).eqPending = 0 ∧ evRouted 39 = true ∧ served.door 7 = .shut ∧
    fullEq.Serves 0 ∧ ¬((fullEq.ten 0).eqCount < 64 ∧ (fullEq.ten 0).eqPending = 0) ∧ fullEq.owner 7 6 = 0 ∧
    (fullEq.ten 0).evMask.getLsbD 6 = false := by decide

theorem wit_TimeRows :
    served.Serves 3 ∧ served.Serves 0 ∧ served.cfgReach 0 0x3001000C false = true ∧ served.cfgReach 0 0x30010018 true = true ∧
    served.tick.srcF = 0 ∧ served.tick.use = none ∧ (linked .lockedLink).tick.srcF = 1 ∧
    (linked .lockedLink).cfgReach 0 0x30010018 true = true ∧ Word.bit 0x80000000#32 31 = true := by decide

theorem wit_PowerRequestRows :
    served.Serves 0 ∧ served.pwr.phase = .idle ∧ served.pwr.st.code = 0 ∧ served.pwr.wakeLow = false ∧
    entering.Serves 0 ∧ entering.pwr.phase ≠ .idle ∧
    (inAjar).Serves 0 ∧ inAjar.pwr.phase = .idle ∧ inAjar.pwr.st.code = 1 ∧ inAjar.pwr.wakeLow = false := by decide

theorem wit_RegisterAccessRows :
    served.Serves 3 ∧ served.Serves 0 ∧ served.cfgReach 0 (fanReg 7 0) true = true ∧ served.testing 8 = false ∧
    served.testing 4 = false ∧ served.cfgReach 0 0x30040004 false = true ∧ served.cfgReach 0 0x3004000C false = true ∧
    served.cfgReach 0 0x30020024 false = true ∧ served.pageReach 7 0xB4 true = false ∧
    served.cfgReach 3 (fanReg 0 0) true = false ∧ served.cfgReach 3 0x30040004 false = false ∧
    (testingOf 8 0).cfgHeld (fanReg 0 0) = true ∧ (testingOf 8 0).cfgReach 0 (fanReg 0 0) true = true ∧
    (testingOf 4 0).cfgHeld 0x30020024 = true ∧ (testingOf 4 0).cfgReach 0 0x30020024 false = true := by decide

theorem wit_ResetRows :
    served.pwr.st ≠ .off ∧ served.pwr.st ≠ .shuttered ∧ served.flash.prog = none ∧ served.flash.erases = [] ∧
    served.bootDue = false ∧ served.Serves 0 ∧ served.pwr.vao = true ∧ held.bootDue = true ∧
    (supplied .shuttered).pwr.st = .shuttered ∧ Word.fld 0x8000D961#32 0 16 = 0xD961 := by decide

theorem wit_BootRows :
    served.sys.bootDone = true ∧ unbooted.sys.sweep = true ∧ unbooted.sys.halted = false ∧
    unbooted.sys.bootDone = false ∧ unbooted.sys.resetN = true ∧ served.Serves 0 ∧ served.sys.leafSt ≠ 1 := by decide

theorem wit_BootRows_ledger :
    unbooted.openIntent = none ∧ unbooted.owedClears = [] ∧ cutErase.openIntent = some (recWord 0x4A 7 2 0) ∧
    recSect (recWord 0x4A 7 2 0) = 7 ∧ cutErase.sys.sweep = true ∧ cutErase.sys.halted = false ∧
    cutErase.sys.bootDone = false := by decide +kernel

theorem wit_BootRows_journal : asRecord journalTypes (some (recWord 0x4A 7 2 0)) = some (recWord 0x4A 7 2 0) ∧
    openIntents [recWord 0x4A 7 2 0] = [recWord 0x4A 7 2 0] ∧ openIntents [recWord 0x4A 7 2 0, recWord 0x4D 7 2 1] = [] := by
  decide +kernel

theorem wit_SwingAndSaveRows :
    served.Serves 0 ∧ served.sys.leafSt ≠ 1 ∧ served.sys.kstSt ≠ 1 ∧ served.leafBusy (!served.sys.selLeaf) = false ∧
    (pulsing .erasePulse).leafBusy true = true ∧ (pulsing .erasePulse).Serves 0 ∧ (swinging true).sys.leafSt = 1 ∧
    (swinging true).sys.swingBad = true ∧ (swinging true).sys.swingDue = false ∧ (swinging false).sys.swingBad = false ∧
    (swinging false).flash.queue = [.done 0 0 .swing] ∧ (swinging false).flash.running = [] ∧
    (swinging false).sys.leafSt = 1 ∧ (swinging false).Serves 0 ∧ served.sys.swingDue = false ∧
    served.flash.queue = [] ∧ (saving 0).flash.queue = [.done 1 5 .save] ∧ (saving 0).flash.running = [] ∧
    (saving 0).sys.kstResult = 0 ∧ (saving 6).sys.kstResult ≠ 0 ∧ (saving 6).flash.queue = [.done 1 5 .save] ∧
    (saving 0).sys.kstSt = 1 := by decide

theorem wit_ShutterReleaseRow : served.Serves 0 ∧ (served.bankReady 2) = false ∧ served.bankReady 0 = true := by decide

theorem wit_TickArrivalRows_dsync :
    genShut.genHeld 1 = true ∧ served.genHeld 1 = false ∧ delayed.genHeld 1 = false ∧
    ((-3000 : Int) ≤ 0 ∧ (0 : Int) < -3000 + 5 * delayed.tick.dly ∧ delayed.tick.st ≠ .lockedDsync) ∧
    (supplied .opened).genHeld 1 = true ∧ idleTick.genHeld 1 = false ∧ idleTick.ticking = false ∧ idleTick.tick.dly = 0 ∧
    (dsyncAt .lockedDsync 0).genHeld 1 = false ∧ (dsyncAt .lockedDsync 0).ticking = true ∧
    (dsyncAt .lockedDsync 0).tick.srcF = 2 ∧ (dsyncAt .lockedDsync 0).tick.dly = 0 ∧
    (dsyncAt .lockedDsync 0).tick.st = .lockedDsync ∧ (dsyncAt .lockedDsync 0).tick.dsync.arrived = false ∧
    (dsyncAt .holdover 0).tick.dsync.count = 0 ∧ (dsyncAt .holdover 2).tick.dsync.count = 2 ∧
    (dsyncAt .holdover 3).tick.dsync.count = 3 ∧ (dsyncAt .holdover 3).ticking = true ∧
    (phaseIn (dsyncAt .holdover 3).periodUs (phaseIn (dsyncAt .holdover 3).periodUs 900 - (dsyncAt .holdover 3).tick.dsync.first)).natAbs ≤ 2000 ∧
    (dsyncAt .holdover 2).ticking = true ∧ (dsyncAt .holdover 2).tick.srcF = 2 ∧ (dsyncAt .holdover 2).tick.dsync.arrived = false ∧
    served.tick.dsHigh = false ∧ (pulseHigh 1).tick.dsHigh = true ∧ (pulseHigh 1).tick.flipWait = false ∧
    (pulseHigh 2).tick.dsMark = 2 ∧ (pulseHigh 2).tick.st = .lockedDsync ∧ (pulseHigh 2).tick.ctrl.bit 2 = true ∧
    (pulseHigh 2).genHeld 1 = false := by decide

theorem wit_TickArrivalRows_link :
    served.hopIsUp false = false ∧ (linked .lockedLink).hopIsUp false = true ∧ (linked .lockedLink).hopIsUp true = false ∧
    (linked .lockedLink).ticking = true ∧ (linked .lockedLink).tick.st = .lockedLink ∧ (linked .lockedLink).tick.srcF ≤ 1 ∧
    (linked .lockedLink).tick.link.arrived = false ∧ (linked .lockedLink).tick.ticknum = none ∧
    linkedDn.hopIsUp false = true ∧ linkedDn.hopIsUp true = true ∧ 5 < 10 + linkedDn.link.dn.delay := by decide

theorem wit_BoundaryRows :
    (supplied .shuttered).ticking = false ∧ served.ticking = true ∧ served.tick.load = none ∧ served.tick.use = none ∧
    (dsyncAt .lockedDsync 0).tick.use = some true ∧ (dsyncAt .lockedDsync 0).tick.locked = true ∧
    ((dsyncAt .lockedDsync 0).tick.lockOf true).arrived = false ∧ (dsyncAt .lockedDsync 0).tick.srcF ≠ 3 ∧
    (dsyncAt .lockedDsync 0).tick.ctrl.fld 0 2 = (dsyncAt .lockedDsync 0).tick.srcF ∧
    (dsyncAt .lockedDsync 0).tick.ctrl.bit 3 = (dsyncAt .lockedDsync 0).tick.dsyncF ∧
    (dsyncAt .lockedDsync 0).ticking = true ∧ arrivedTick.tick.use = some true ∧
    (arrivedTick.tick.lockOf true).arrived = true := by decide

theorem wit_SlotRows :
    (supplied .shuttered).ticking = false ∧ served.ticking = true ∧ served.up 12 = true ∧ (served.sensor 3).testBad = false ∧
    served.up 10 = true ∧ served.fld 0x300A0014 0 8 = 0 ∧ served.fld 0x300A001C 0 8 = 0 ∧ served.adc.inj = [] ∧
    served.adc.seqA.left = [] ∧ served.adc.seqB.left = [] ∧ served.after = [] ∧ (served.ten 0).pend = [] ∧
    coalesced.ticking = true ∧ coalesced.after = [] ∧ (coalesced.ten 3).pend = [(6, ⟨2, 5, 7⟩)] ∧
    (∀ u, u < 32 → u ≠ 3 → (coalesced.ten u).pend = []) ∧ (coalesced.ten 3).eqCount < 64 ∧
    ajarAsked.ticking = true ∧ ajarAsked.pwr.ajarPend = true ∧ served.pwr.ajarPend = false ∧ served.pwr.phase = .idle ∧
    (querying true).pwr.phase = .query ∧ (querying true).ticking = true ∧ (querying true).pwr.queries = 0 ∧
    (querying true).pwr.force = false ∧ (querying true).votes ≠ 0 ∧ (querying true).pwr.ajarPend = false := by decide

theorem wit_LinkFrameRows :
    served.hopIsUp false = false ∧ (linked .lockedLink).hopIsUp false = true ∧ goodFrame.length = frSize goodFrame ∧
    frLen goodFrame ≤ 576 ∧ frFcsOk goodFrame = true ∧
    ((linked .lockedLink).lport false).cls (frRsp goodFrame) = LinkCls.reset ∧ LinkCls.reset.expect = 0 ∧
    badFrame.length = frSize badFrame ∧ frFcsOk badFrame = false ∧ frLen badFrame ≤ 576 ∧
    (goodFrame ++ [0]).length ≠ frSize (goodFrame ++ [0]) ∧
    ¬(1 ≤ (0 + 256 - 0) % 256 ∧ (0 + 256 - 0) % 256 ≤ 8) := by decide +kernel

theorem wit_LinkFrameRows_acks :
    ((unacked 1).sending false).unacked = [⟨5, [], 1, false⟩] ∧ (unacked 1).hopIsUp false = true ∧
    ((unacked 1).sending false).queue = [] ∧ (unacked 1).looped false = false ∧
    ((unacked 4).sending false).unacked = [⟨5, [], 4, false⟩] ∧ (unacked 4).hopIsUp false = true ∧
    (unacked 4).looped false = false ∧ ((linked .lockedLink).sending false).unacked = [] := by decide

theorem wit_HopRows :
    served.link.awake = [] ∧ (hopAt .training).linkOn false = true ∧
    ((hopAt .training).lport false).st = .training ∧ ((hopAt .training).lport false).rxLock = false ∧
    ((hopAt .training).lport false).gotCredit = false ∧ (locking).linkOn false = true ∧ (locking.lport false).st = .training ∧
    (locking.lport false).rxLock = true ∧ (hopAt .off).linkOn false = true ∧
    ((hopAt .off).lport false).st = .off ∧ (linked .lockedLink).linkOn false = true ∧
    ((linked .lockedLink).lport false).st = .up ∧ ((linked .lockedLink).sending false).queue = [] ∧
    (supplied .shuttered).linkOn false = false := by decide

theorem wit_DelayAndControlRows :
    (locking).linkOn false = true ∧ (locking.lport false).rxLock = true ∧ (linked .lockedLink).hopIsUp false = true ∧
    ((linked .lockedLink).lport false).dlyId = 0 ∧ served.hopIsUp false = false ∧
    (linked .lockedLink).linkOn false = true ∧ ((linked .lockedLink).lport false).st = .up ∧
    (linked .lockedLink).hopIsUp true = false ∧ (linkedDn).hopIsUp true = true ∧ linkedDn.linkOn false = true ∧
    (linkedDn.lport false).st = .up ∧ (supplied .shuttered).linkOn false = false ∧
    ((hopAt .training).lport false).st ≠ .up ∧ ((hopAt .training).lport false).st ≠ .off := by decide

theorem wit_DeliveryRows :
    served.link.loc = [] ∧ (holdsFrame cmdFrame).Awake ∧ (holdsFrame cmdFrame).notReady = false ∧
    (holdsFrame cmdFrame).linkBufErrors = [] ∧ (holdsFrame cmdFrame).door 3 = .opened ∧
    ((holdsFrame cmdFrame).ten 3).authReq = false ∧ ((holdsFrame cmdFrame).ten 3).cqCount + 1 ≤ 32 ∧
    (holdsFrame cmdFrame).bufsOf 3 < 4 ∧ (fullCq.ten 3).cqCount = 32 ∧ fullCq.notReady = false ∧ fullCq.door 3 = .opened ∧
    (holdsFrame ticknumFrame).notReady = false ∧ (early ticknumFrame).notReady = true ∧
    (bound9 wakeFrame).hopIsUp false = false ∧ (bound9 wakeFrame).Awake ∧ (bound9 groupWake).Awake ∧
    (bound9 groupWake).hopIsUp true = false := by decide

theorem wit_DeliveryRows_frames :
    (holdsFrame cmdFrame).HeadFrame cmdFrame [] ∧ fullCq.HeadFrame cmdFrame [] ∧
    (early ticknumFrame).HeadFrame ticknumFrame [] ∧ (bound9 wakeFrame).HeadFrame wakeFrame [] ∧
    (bound9 groupWake).HeadFrame groupWake [] :=
  ⟨⟨rfl, rfl⟩, ⟨rfl, rfl⟩, ⟨rfl, rfl⟩, ⟨rfl, rfl⟩, ⟨rfl, rfl⟩⟩

theorem wit_DeliveryRows_fields :
    frType cmdFrame = 1 ∧ frLen cmdFrame = 64 ∧ frTen cmdFrame = 3 ∧ frAuth cmdFrame = false ∧
    (holdsFrame cmdFrame).frameHeld 1 = false ∧ heldCmd.frameHeld 1 = true ∧ frType ticknumFrame = 3 ∧
    frType enumFrame = 0x10 ∧ frUnicast enumFrame = false ∧ natAt enumFrame 20 1 = 7 ∧ frType wakeFrame = 4 ∧
    frUnicast wakeFrame = true ∧ (bound9 wakeFrame).ownDst (frDst wakeFrame) = true ∧ frType groupWake = 4 ∧
    frUnicast groupWake = false ∧ (bound9 groupWake).ownDst (frDst groupWake) = false := by decide +kernel

theorem wit_DeliveryRows_win :
    frType winFrame = 2 ∧ frTen winFrame = 3 ∧ frUnicast winFrame = true ∧ holdsWin.frameHeld 2 = false ∧
    heldWin.frameHeld 2 = true ∧
    frWinWords winFrame = [(4, 0x0D0C0B0A#32, 0xF#4)] ∧ natAt winFrame 22 2 = 4 ∧
    holdsWin.winTarget 3 0 4 = some (.sram (scratchBase + 4)) ∧ holdsWin.targetErr 3 (.sram (scratchBase + 4)) true = none ∧
    holdsWin.stagedAt 3 0 4 = none ∧ (holdsWin.ten 3).staged.length < 2048 ∧ holdsWin.link.loc = [winFrame] ∧
    holdsWin.door 3 = .opened ∧ holdsWin.notReady = false := by decide +kernel

theorem wit_LinkAnswerRows :
    served.hopIsUp false = false ∧ (linked .lockedLink).rspDue = none ∧
    (answering goodSlot).hopIsUp false = true ∧
    (answering goodSlot).rspDue = some (1, ⟨3, 5, true, false, [some goodSlot], false⟩, [goodSlot]) ∧
    (answering goodSlot).linkBufErrors = [] ∧ wordOf (natAt goodSlot 60 4) = crc32c (goodSlot.take 60) ∧
    (answering zeroSlot).rspDue = some (1, ⟨3, 5, true, false, [some zeroSlot], false⟩, [zeroSlot]) ∧
    wordOf (natAt zeroSlot 60 4) ≠ crc32c (zeroSlot.take 60) ∧ (answering zeroSlot).hopIsUp false = true := by decide +kernel

theorem cellsOf_ok (bits : BitVec 16) : ∀ c ∈ cellsOf bits, 500 ≤ c.1 ∧ 500 ≤ c.2 ∧ 2000 ≤ c.1 + c.2 ∧
    c.1 + c.2 ≤ 20000 ∧ (3 * c.2 ≤ 2 * c.1 ∨ 3 * c.1 ≤ 2 * c.2) := by
  intro c hc
  obtain ⟨i, -, rfl⟩ := List.mem_map.mp hc
  cases bits.getMsbD i <;> simp

theorem wit_LinkAnswerRows_cells :
    (∀ a, (cellsOf a).length = 16 ∧ ∀ c ∈ cellsOf a, 500 ≤ c.1 ∧ 500 ≤ c.2 ∧ 2000 ≤ c.1 + c.2 ∧ c.1 + c.2 ≤ 20000 ∧
      (3 * c.2 ≤ 2 * c.1 ∨ 3 * c.1 ≤ 2 * c.2)) ∧
    ¬([(3000, 3000)].length = 16 ∧ ∀ c ∈ [((3000 : Nat), (3000 : Nat))], 2000 ≤ c.1 + c.2 ∧ c.1 + c.2 ≤ 20000 ∧
      (3 * c.2 ≤ 2 * c.1 ∨ 3 * c.1 ≤ 2 * c.2)) :=
  ⟨fun a => ⟨by simp [cellsOf], cellsOf_ok a⟩, by simp⟩

theorem wit_LinkAnswerRows_bits :
    BitVec.ofNat 16 (bitsOf (cellsOf (wakeBits 9))) = wakeBits 9 ∧
    BitVec.ofNat 16 (bitsOf (cellsOf (wakeBits 8))) = wakeBits 8 ∧
    bitsOf (cellsOf (wakeBits 9)) / 16 % 256 = 9 ∧ bitsOf (cellsOf (wakeBits 8)) / 16 % 256 = 8 ∧
    BitVec.ofNat 16 (bitsOf (cellsOf 0)) ≠ wakeBits 0 := by decide

theorem wit_LinkAnswerRows_wake :
    served.frontEnd = false ∧ asleep.frontEnd = true ∧ asleep.ownDst 9 = true ∧ asleep.pwr.phase = .idle ∧
    asleep.pwr.wakeEn.getLsbD 0 = true ∧ deaf.frontEnd = true ∧ deaf.pwr.wakeEn.getLsbD 0 = false ∧ deaf.ownDst 9 = true ∧
    deaf.pwr.phase = .idle ∧ asleep.ownDst 8 = false ∧ asleep.inGroup 8 = false ∧
    repeating.link.wakeRpt = [wakeBits 8] ∧ repeating.pwr.vao = true ∧ repeating.hopIsUp true = false ∧
    holding.pwr.pathHold = true ∧ served.pwr.pathHold = false ∧ served.link.wakeRpt = [] := by decide

theorem wit_WakeSourceRows_wakeN :
    (supplied .shuttered).awakeAble = false ∧ louvring.awakeAble = true ∧ louvring.pwr.wakeEn.getLsbD 4 = false ∧
    asleep.awakeAble = true ∧ asleep.pwr.wakeEn.getLsbD 4 = true ∧ asleep.pwr.phase = .idle ∧ asleep.pwr.st = .louvred ∧
    (asleepIn .committed).awakeAble = true ∧ (asleepIn .committed).pwr.wakeEn.getLsbD 4 = true ∧
    (asleepIn .committed).pwr.phase = .committed ∧ (asleepIn .restoring).pwr.phase = .restoring ∧
    (querying false).pwr.phase = .query ∧ (querying false).awakeAble = true ∧ (querying false).pwr.wakeEn.getLsbD 4 = true ∧
    served.Awake ∧ served.awakeAble = true := by decide

theorem wit_WakeSourceRows_others :
    alarmed.Awake ∧ alarmed.sys.resetN = true ∧ alarmed.sys.rtcSec ≠ 0 ∧
    BitVec.ofNat 32 alarmed.sys.rtcSec = alarmed.sys.rtcAlarm ∧ alarmed.sys.alarmDone = false ∧
    served.sys.rtcSec = 0 ∧ served.rowWatch = false ∧ asleep.rowWatch = true ∧ asleep.pwr.unwatched.getLsbD 5 = false ∧
    asleep.pwr.unwatched.getLsbD 6 = true ∧ asleep.pwr.wakeEn.getLsbD 2 = true ∧
    (voting.ten 3).wakeLapse = true ∧ (served.ten 3).wakeLapse = false := by decide

theorem wit_EntryRestoreRows :
    served.pwr.phase = .idle ∧ (asleepIn .committed).pwr.phase = .committed ∧ (asleepIn .committed).pwr.wakeLatch = 0 ∧
    (latchedWake).pwr.phase = .committed ∧ latchedWake.pwr.wakeLatch ≠ 0 ∧
    (restoring 5 0xFFD0 0).pwr.phase = .restoring ∧ (restoring 5 0xFFD0 0).up 5 = false ∧
    (SMap.get (fun _ => 0) (restoring 5 0xFFD0 0).pwr.stage 5 : Nat) = 0 ∧
    (SMap.get (fun _ => 0) (restoring 5 0xFFD0 1).pwr.stage 5 : Nat) = 1 ∧
    (SMap.get (fun _ => 0) (restoring 5 0xFFD0 1).pwr.stage 1 : Nat) < 2 ∧
    (SMap.get (fun _ => 0) (restoring 5 0xFFD0 2).pwr.stage 5 : Nat) = 2 ∧
    (SMap.get (fun _ => 0) (restoring 5 0xFFC0 3).pwr.stage 5 : Nat) = 3 ∧ (restoring 5 0xFFC0 3).up 5 = false ∧
    (restoring 5 0xFFC0 3).pwr.domReady ||| BitVec.ofNat 16 (2 ^ 5) ≠ 0xFFFF ∧
    (restoring 5 0xFFDF 3).pwr.domReady ||| BitVec.ofNat 16 (2 ^ 5) = 0xFFFF ∧ (restoring 5 0xFFDF 3).up 5 = false ∧
    (restoring 5 0xFFDF 3).pwr.phase = .restoring ∧ (restoring 5 0xFFDF 3).tick.load = none := by decide

theorem wit_EntryRestoreRows_louvre :
    louvring.pwr.st = .louvred ∧ louvring.pwr.phase = .idle ∧ louvring.lvEntries = [2] ∧ served.lvEntries = [] ∧
    4 ^ louvring.fld (lvReg 2 0) 8 2 = 1 ∧ louvring.lvOutside 2 100 false = false ∧
    louvring.lvOutside 2 3000 false = true ∧ louvring.pwr.wakeEn.getLsbD 3 = true ∧ louvring.fld (lvReg 2 0) 10 2 = 0 ∧
    louvring.fld 0x3005000C 28 2 = 0 := by decide

/-- A sample of 20 mV lies inside the window of that entry, one of 600 mV outside (R276, R356). -/
theorem wit_EntryRestoreRows_samples :
    louvring.lvOutside 2 (sampleCode (louvring.fld (lvReg 2 0) 0 5) (louvring.fld (lvReg 2 0) 5 3) 2500 20000000 0).1
      false = false ∧
    louvring.lvOutside 2 (sampleCode (louvring.fld (lvReg 2 0) 0 5) (louvring.fld (lvReg 2 0) 5 3) 2500 600000000 0).1
      false = true := by decide

theorem wit_SupplyRows :
    served.pwr.vao = true ∧ served.pwr.st ≠ .off ∧ served.flash.prog = none ∧ served.flash.erases = [] ∧
    (unsupplied true).pwr.st = .shuttered ∧ (unsupplied true).pwr.vao = false ∧ (unsupplied true).sys.resetN = true ∧
    (unsupplied false).sys.resetN = false ∧ (unsupplied false).pwr.st = .shuttered ∧ (unsupplied false).pwr.vao = false ∧
    (supplied .off).pwr.st = .off := by decide

theorem wit_SequencerRows_up :
    served.cfgReach 0 0x30060000 true = true ∧ served.cfgReach 0 0x30060014 true = true ∧ served.seq.st = 0 ∧
    served.nextStep true 0 = none ∧ stepped.seq.st = 0 ∧ stepped.nextStep true 0 = some 2 ∧
    (stepped.stepRails true 2).any (fun n => stepped.railDly n != 0) = true ∧ stepped.cfgReach 0 0x30060000 true = true ∧
    (sequencing 1).seq.st = 1 ∧ (sequencing 1).up 13 = true ∧ (sequencing 1).seq.dlyRun = true ∧
    (sequencing 1).stepRails true 2 = [4] ∧ (sequencing 1).railPg 4 = true ∧ (sequencing 1).seq.pg.getLsbD 4 = false ∧
    (sequencing 1).seq.en.getLsbD 4 = false ∧ (sequencing 1).cfgReach 0 0x30060000 true = true ∧
    (sequencing 2).seq.st = 2 ∧ (sequencing 2).cfgReach 0 0x30060000 true = true ∧ (sequencing 2).cfgReach 0 0x30060014 true = true ∧
    powered.nextStep false 0 = some 0 ∧ (powered.stepRails false 0).any (fun n => powered.railDly n != 0) = true ∧
    powered.seq.upDone = true ∧ served.railManual 7 = true := by decide

theorem wit_SequencerRows_pg :
    poweredTwo.up 13 = true ∧ poweredTwo.genHeld 13 = false ∧ poweredTwo.seq.reread = false ∧ poweredTwo.seq.st = 0 ∧
    poweredTwo.seq.wait = 0 ∧ (∀ i, i < 24 → (0x30 : BitVec 24).getLsbD i = true →
      poweredTwo.seq.pg.getLsbD i = true ∧ poweredTwo.seq.en.getLsbD i = true ∧ poweredTwo.railPg i = true ∧
      poweredTwo.seq.manWait.getLsbD i = false) ∧
    poweredTwo.railAct 4 = 1 ∧ poweredTwo.railAct 5 = 2 ∧ powered.railAct 4 = 0 ∧ powered.seq.wait = 0 ∧
    powered.genHeld 13 = false ∧ powered.up 13 = true ∧ powered.seq.pg.getLsbD 4 = true ∧
    powered.seq.en.getLsbD 4 = true ∧ powered.railPg 4 = true ∧ powered.seq.manWait.getLsbD 4 = false ∧
    (0x30 : BitVec 24) &&& powered.seq.pg = powered.seq.pg ∧ genShut.genHeld 13 = true ∧ genShut.seq.reread = false ∧
    rereading.seq.reread = true ∧ waitingPg.seq.wait = railSet [4] ∧ waitingPg.up 13 = true ∧ waitingPg.seq.reread = false ∧
    waitingPg.seq.pg.getLsbD 4 = false ∧ waitingPg.seq.st = 1 ∧ waitingPg.railAct 4 = 1 ∧
    waitingPg.railManual 4 = false ∧ waitingPg.seq.upDone = false := by decide

theorem wit_BatteryRows :
    served.cfgReach 0 0x30060218 true = true ∧ served.cfgReach 0 0x30060230 true = true ∧ served.up 13 = true ∧
    served.seq.coinBusy = false ∧ served.pwr.vao = true ∧ measuring.seq.coinBusy = true ∧ measuring.up 13 = true ∧
    served.fld 0x30060230 8 8 = 24 ∧ served.fld 0x30060230 16 16 = 2400 := by decide

theorem wit_LampRows_period :
    served.up 9 = true ∧ served.lampLive 2 = false ∧ (lit 0).up 9 = true ∧ (lit 0).lampLive 2 = true ∧
    (lit 1600).lampLive 2 = true ∧ ((lit 1600).lamp 2).onNow = true ∧ 60 ≤ min ((lit 1600).lampMax 2) (1600 / 16) ∧
    (lit 800).lampLive 2 = true ∧ ((lit 800).lamp 2).onNow = true ∧ ((lit 800).lamp 2).owed = 0 ∧
    min ((lit 800).lampMax 2) (800 / 16) < 60 ∧ unlit.lampLive 2 = true ∧ (unlit.lamp 2).onNow = false ∧
    litOc.lampLive 2 = true ∧ (litOc.lamp 2).onNow = true ∧ (litOc.lamp 2).ocCnt = 15 ∧
    (served.lamp 2).fade = none ∧ (served.lamp 2).pfFade = none ∧ (supplied .shuttered).up 9 = false ∧
    (fading.lamp 2).fade = some ⟨0, 9, 0, 1000000, false⟩ ∧ 0 + fading.lampP 2 < 1000000 ∧
    (fadingLast.lamp 2).fade = some ⟨0, 9, 999999, 1000000, false⟩ ∧ 1000000 ≤ 999999 + fadingLast.lampP 2 ∧
    (rising.lamp 2).pfFade = some ⟨0, 4096, 0, 1000000, false⟩ ∧ (rising.lamp 2).fade = none := by decide

theorem wit_LampRows_writes :
    served.cfgReach (served.owner 1 2) (lampReg 2 0x10) true = true ∧ served.follows 2 = none ∧
    served.testUnit 6 ≠ some 2 ∧ (testingOf 6 2).testUnit 6 = some 2 ∧
    (testingOf 6 2).cfgReach ((testingOf 6 2).owner 1 2) (lampReg 2 0x10) true = true ∧
    (served.lamp 2).target = 0 ∧ served.fld (lampReg 2 0x14) 0 16 = 0 ∧ served.rbit (lampReg 2 0) 7 = false ∧
    (served.lamp 2).out = 0 ∧ slowed.fld (lampReg 2 0x14) 0 16 ≠ 0 ∧ slowed.follows 2 = none ∧
    (slowed.lamp 2).target = 0 ∧ slowed.cfgReach (slowed.owner 1 2) (lampReg 2 0x10) true = true ∧
    served.cfgReach (served.owner 1 2) (lampReg 2 0x34) true = true ∧ (served.lamp 2).fault = 0 ∧
    stopped.cfgReach (stopped.owner 1 2) (lampReg 2 0x34) true = true ∧ (stopped.lamp 2).fault = 8 ∧
    stopped.shut 3 = false := by decide

theorem wit_EngineRows :
    served.cfgReach (served.owner 2 1) (peReg 1 0) true = true ∧ served.stepOp 1 = none ∧ (served.engine 1).start < 32 ∧
    (playing 0x00000000#32).stepOp 1 = some 0 ∧ (playing 0x17C05FFF#32).stepOp 1 = some 1 ∧
    (playing 0x27005001#32).stepOp 1 = some 2 ∧ (playing 0x30005000#32).stepOp 1 = some 3 ∧
    (playing 0x30000000#32).stepOp 1 = some 3 ∧ (playing 0x40000003#32).stepOp 1 = some 4 ∧
    (playing 0x40000063#32).stepOp 1 = some 4 ∧ (playing 0x50000ABC#32).stepOp 1 = some 5 ∧
    (playing 0x60000000#32).stepOp 1 = some 6 ∧ ((playing 0x60000000#32).engine 1).quick < 31 ∧
    (spinning.engine 1).quick = 31 ∧ spinning.stepOp 1 = some 3 := by decide

theorem wit_KeyAndFanRows_columns :
    served.scanOn false 0 = false ∧ served.scanOn true 3 = true ∧ served.scanOn true 7 = true ∧ served.Awake ∧
    served.testing 7 = false ∧ (testingOf 7 1).testing 7 = true ∧ scanning.scanOn false 4 = true ∧
    scanning.scanOn false 15 = true ∧ scanning.Awake ∧ scanning.testing 7 = false ∧
    Keys.ghostsOf { served.keys with raw := rawColumn served.keys.raw true 7 (if served.shut 4 then 0 else 5) } true = [] ∧
    served.up 11 = true ∧ served.keys.active = false ∧ scanning.keys.active = true := by decide

theorem wit_KeyAndFanRows_keys :
    pressing.up 11 = true ∧ pressing.keyHeld 300 = true ∧ (pressing.key 300).stuck = false ∧
    32768 * pressing.fld 0x30090004 0 12 ≤ pressing.keys.cyc - (pressing.key 300).since + stuckCycles ∧
    pressing.keys.cyc - (pressing.key 300).since + 5 < 32768 * pressing.fld 0x30090004 0 12 ∧
    served.keyHeld 300 = false ∧ served.cfgReach (served.owner 3 300) (keyCfg 300) true = true ∧
    (0xFF010111#32).toNat / 16 % 16 = 1 ∧ (0xFF010111#32).toNat / 256 % 16 = 1 ∧ (0xFF010111#32).toNat / 65536 % 256 = 1 ∧
    1 ≤ (0xFF010111#32).toNat / 16777216 ∧
    (jammed.key 300).stuck = true ∧ jammed.cfgReach (jammed.owner 3 300) (keyCfg 300) true = true ∧
    jammed.testing 7 = false ∧ served.pwr.st ≠ .louvred ∧ served.genHeld 12 = false ∧ genShut.genHeld 12 = true ∧
    served.up 12 = true ∧ (supplied .shuttered).up 12 = false := by decide

theorem wit_ConversionRows_end :
    adcOff.pairAble false = false ∧ idlePair.pairAble false = true ∧ idlePair.injOf false = none ∧
    (idlePair.seqOf false).run = none ∧ (converting 0).pairAble false = true ∧ (converting 0).adc.refRdy = true ∧
    (converting 0).injOf false = none ∧ ((converting 0).seqOf false).run = some ⟨3, 3, 0, 4, 0, false⟩ ∧
    ((converting 0).seqOf false).left = [] ∧ (converting 0).adc.inj = [] ∧ (converting 0).rbit (seqCtrl false) 9 = false ∧
    convertingB.pairAble true = true ∧ (convertingB.seqOf true).run = some ⟨20, 0, 1, 4, 1, false⟩ ∧
    (convertingB.seqOf true).left = [] ∧ convertingB.injOf true = none ∧ convertingB.rbit (seqCtrl true) 9 = false ∧
    unsettled.pairAble false = true ∧ unsettled.adc.refRdy = false ∧ unsettled.adc.refWait = true ∧
    (unsettled.seqOf false).run = some ⟨3, 3, 0, 4, 0, false⟩ := by decide

theorem wit_ConversionRows_calibration :
    adcOff.rbit 0x300A0000 0 = false ∧ (converting 0).up 10 = true ∧ (converting 0).rbit 0x300A0000 0 = true ∧
    (converting 0).adc.refRdy = true ∧ (converting 0).adc.calRun = false ∧ (converting 0).testing 9 = false ∧
    (testingOf 9 4).testing 9 = true ∧ calibrating.up 10 = true ∧ calibrating.rbit 0x300A0000 0 = true ∧
    calibrating.testing 9 = false ∧ calibrating.adc.calPass = none ∧ calibrating.adc.calRun = true ∧
    calibrating.adc.spare = 4 ∧ calibrating.adc.retired.getLsbD 4 = false ∧ idlePair.adc.calRun = false ∧
    idlePair.adc.calPass = none ∧ (passing 2).adc.calPass = some 2 ∧ (passing 2).adc.nextSlice 3 = some 3 ∧
    (passing 2).up 10 = true ∧ (passing 2).rbit 0x300A0000 0 = true ∧ (passing 2).testing 9 = false ∧
    (passing 4).adc.calPass = some 4 ∧ (passing 4).adc.nextSlice 5 = none := by decide

theorem wit_ConversionRows_reference :
    served.cfgReach 0 0x300A0004 true = true ∧ served.testing 9 = false ∧ served.adc.refSel = 0 ∧
    external.up 10 = true ∧ external.adc.refRdy = false ∧ external.adc.refSel = 1 ∧ external.adc.calPass = none ∧
    served.up 10 = true ∧ (converting 0).adc.refRdy = true ∧ (passing 2).adc.calPass.isSome = true ∧
    unsettled.adc.calAll = true ∧ unsettled.adc.nextSlice 0 = some 0 ∧ unsettled.adc.calPass = none ∧
    unsettled.up 10 = true ∧ readyRef.adc.calAll = false ∧ readyRef.up 10 = true ∧ readyRef.adc.refRdy = false ∧
    readyRef.adc.calPass = none := by decide

theorem wit_ConversionRows_inject :
    served.cfgReach (served.owner 4 9) (adcReg 9 0x0C) true = true ∧ served.testing 9 = false ∧ served.adc.inj = [] ∧
    served.adc.injA = none ∧ served.adc.injB = none ∧ served.adcReady false = false ∧
    (0x00000281#32).toNat / 32 % 1024 = 20 ∧ idlePair.adcReady false = true ∧ idlePair.pairRuns false = false ∧
    idlePair.injNext false = none ∧ idlePair.entering = false ∧
    idlePair.cfgReach (idlePair.owner 4 9) (adcReg 9 0x0C) true = true ∧ idlePair.testing 9 = false ∧
    injecting.cfgReach (injecting.owner 4 9) (adcReg 9 0x0C) true = true ∧ (injecting.adc.inj.any fun i => i.ch == 9) = true := by
  decide

theorem wit_TapRows :
    served.tapWorks = true ∧ served.sys.resetN = true ∧ served.sys.locked = true ∧ unlocked.sys.locked = false ∧
    unlocked.tapWorks = true ∧ (supplied .shuttered).tapWorks = false ∧ served.sys.halted = false ∧ unlocked.flash.accBusy = false ∧
    unlocked.flashWaits (0x16A * 4 / 0x800) = false ∧ unlocked.suspect (unlocked.phys (0x16A * 4 / 0x800)) = false ∧
    (unlocked.fword (unlocked.physWord (0x16A / 2))).bad = 0 ∧ unlocked.flash.seqWin = none ∧
    0x16A * 4 % 0x800 = 0x5A8 := by decide

theorem wit_DebugRows :
    served.Serves 0 ∧ (served.ten 0).key = none ∧ keyed.Serves 0 ∧ (keyed.ten 0).key = some 7#256 ∧ keyed.unlockSoon = false ∧
    (failing.unlockSoon = true) ∧ failing.Serves 0 ∧ served.dbg.chal = none ∧ (challenged 3).dbg.chal = some 0x123456789#128 ∧
    (challenged 3).Serves 0 ∧ (challenged 3).dbg.wrPos = 3 ∧ (challenged 7).dbg.wrPos = 7 ∧ (challenged 7).Serves 0 ∧
    ((challenged 7).ten 0).key = some 7#256 ∧ served.cfgReach 0 0x300C0000 true = true ∧ served.sys.locked = true ∧
    unlocked.sys.locked = false ∧ unlocked.cfgReach 0 0x300C0000 true = true := by decide

theorem wit_DebugRows_poison :
    sramRegion 0x10000008 = some 0 ∧ poisoned.eccOf 0x10000008 = .poisoned ∧ poisoned.runs = [] ∧
    poisoned.prot.restarts = [] ∧ served.eccOf 0x10000008 = .good := by decide

/-- Whichever service holds the word, it has been restarted once. -/
theorem wit_DebugRows_second (svc : Nat) : (poisonedTwice svc).eccOf 0x10000008 = .poisoned ∧
    ((poisonedTwice svc).prot.restarts.any fun q => q.1 == svc) = true :=
  ⟨rfl, by simp [poisonedTwice]⟩

theorem wit_EveryCommandRuns :
    (Instr.cmdSlot 36).WellFormed = false ∧ (Instr.keyColumnStep true 8 0).WellFormed = false ∧
    (fronted .swing).pending = Instr.swing :: [] := by decide

/-! ## Small tests of single steps -/

/-- A field of the state after a command. -/
def after {α : Type} (c : Instr) (s : State) (f : State → α) : Option α :=
  match step (fronted c |> fun q => { s with pending := q.pending }) with
  | .next t => some (f t)
  | _ => none

/-- The CRC-32C of "123456789" (R155: the check value of the CRC-32C). -/
theorem test_crc32c : crc32c [49, 50, 51, 52, 53, 54, 55, 56, 57] = 0xE3069283#32 := by decide +kernel
/-- A thermistor at half scale with R25 = R reads 25.0 °C (R379). -/
theorem test_thermT : thermT 4096 3950 32768 = 250 := by decide +kernel
/-- CIE lightness maps full level to itself, and 0 to 0 (R327). -/
theorem test_cie : cieLevel (cieL 4095) = 4095 ∧ cieLevel (cieL 0) = 0 := by decide +kernel
/-- A switching frequency of 500 kHz has a period of 2,000 ns (R319). -/
theorem test_lampP : ({ served with regs := [(lampReg 0 4, 500#32)] } : State).lampP 0 = 2000 := by decide
/-- 20 °C below its start a zone has no floor; at its end 1,000; half way, half way (R384). -/
theorem test_floor : floorOf 500 600 800 200 = 0 ∧ floorOf 800 600 800 200 = 1000 ∧ floorOf 700 600 800 200 = 600 := by
  decide
/-- The wake message of address 9 (Table 10.9): KIND 0xA, ADDR, CHK. -/
theorem test_wakeBits : wakeBits 9 = 0xA093#16 := by decide

/-! Registers and pages -/

theorem test_registerWrite : after (.registerWrite 3 false 0xB4 0x12345678 0) served (fun s => (s.ten 3).scratch) =
    some 0x12345678 := by decide
theorem test_registerWrite_byte : after (.registerWrite 3 false 0xB4 0x12345678 0xE) served (fun s => (s.ten 3).scratch) =
    some 0x78 := by decide
theorem test_registerWrite_shut : after (.registerWrite 7 false 0xB4 1 0) served (fun s => (s.ten 7).scratch) = some 0 := by
  decide
theorem test_readClear : after (.readClear 3 false 0x10) (tenanted 3 fun T => { T with clamps := 4 })
    (fun s => (s.rdata, (s.ten 3).clamps)) = some (4, 0) := by decide
theorem test_hostRead : after (.hostRead 0 3 0xB4) (tenanted 3 fun T => { T with scratch := 77 })
    (fun s => (s.portA.rdy, s.portA.berrN, s.portA.dOut)) = some (true, true, some 77) := by decide
theorem test_hostRead_shut : after (.hostRead 0 7 0xB4) served
    (fun s => (s.portA.berrN, (s.ten 7).berr.fld 0 3, (s.ten 7).berrAddr)) = some (false, 1, 0x700B4) := by decide
/-- In synchronous mode HA_RDY has been high at Ek alone (R88). -/
theorem test_hostRead_sync : after (.hostRead 0 3 0xB4) { served with portA := { served.portA with sync := true } }
    (fun s => (s.portA.rdy, s.portA.ended)) = some (false, some ⟨true, some 0⟩) := by decide
/-- A reset through a port is acknowledged, and begins afterwards (R145). -/
theorem test_hostWrite_reset : after (.hostWrite 0 0 0x458 0x8000D961 0) served
    (fun s => (s.portA.rdy, s.sys.resetPend, s.sys.bootDone)) = some (true, true, true) := by decide
theorem test_hostWrite_posted : after (.hostWrite 0 3 0xB4 7 0) posting (fun s => (s.portA.rdy, s.portA.post.length)) =
    some (true, 1) := by decide
theorem test_drain : after (.postedWriteDrain 0) drain1 (fun s => ((s.ten 3).scratch, s.portA.post)) = some (7, []) := by
  decide
theorem test_doorbell : after (.doorbell 3 1) served (fun s => (s.ten 3).cqTail) = some 1 := by decide
theorem test_doorbell_beyond : after (.doorbell 3 33) served (fun s => ((s.ten 3).cqTail, (s.ten 3).clamps)) = some (0, 1) := by
  decide

/-! Doors, keys, heartbeats -/

theorem test_doorOpen_waits : after (.doorOpen 7) served (fun s => (s.door 7, (s.ten 7).doorPend)) =
    some (.shut, some false) := by decide
theorem test_doorShut_keeper : after (.doorShut 0) served (fun s => s.door 0) = some .opened := by decide
theorem test_doorShut : after (.doorShut 3) served (fun s => s.door 3) = some .shut := by decide
theorem test_leak : after (.leakCountExpiry 3) leaked (fun s => (s.ten 3).leak) = some 0 := by decide
theorem test_heartbeat : after (.heartbeatExpiry 3) leaked (fun s => s.door 3) = some .fire := by decide
theorem test_grantStage : after (.grantStage 3) (granting 1 5) (fun s => (s.grants.staged, s.owner 1 5)) =
    some ([(512 + 5, some ⟨3, false, 0, 0⟩)], 0) := by decide

/-! Letterboxes and commands -/

theorem test_cmdSlot : after (.cmdSlot 4) echoIn (fun s => ((s.ten 3).cqHead, (s.ten 3).spent, s.runs.length)) =
    some (1, 1, 1) := by decide +kernel
theorem test_echo : after (.echo 3) (running 3 [0x01, 0, 7, 0, 42]) (fun s => s.runs.map fun r => r.st matches .finished 0 _) =
    some [true] := by decide +kernel
theorem test_commandComplete : after (.commandComplete 3) (finished 3 [0x01, 0, 1, 0]) (fun s => ((s.ten 3).rqTail, s.runs)) =
    some (1, []) := by decide +kernel
/-- Of two finished commands the one that finished first is answered first (R114). -/
theorem test_commandComplete_order : after (.commandComplete 3)
    (withRuns served [{ accepted 3 [0x01, 0, 9, 0] with id := 8, st := .finished 0 [] },
      { accepted 3 [0x01, 0, 1, 0] with st := .finished 0 [] }]) (fun s => s.runs.map fun r => r.id) = some [3] := by
  decide +kernel
theorem test_flipArm : after (.flipArm 3) flipIn (fun s => (s.cell 9).arm) = some (some 100) := by decide +kernel
theorem test_winWrite : after (.winWrite 3) winIn (fun s => s.stagedAt 3 0 4 matches none) = some true := by decide +kernel

/-! System -/

theorem test_eventTest : after (.eventTest 0x80000006) served (fun s => ((s.ten 0).eqTail, s.rdByte (eqAddr 0 0))) =
    some (1, 6) := by decide +kernel
theorem test_pwrReqAjar : after (.pwrReqAjar false) served (fun s => (s.pwr.ajarPend, s.pwr.st)) = some (true, .opened) := by
  decide
theorem test_pwrReqLouvred_busy : after (.pwrReqLouvred false) entering (fun s => s.pwr.rej) = some true := by decide
theorem test_softReset_key : after (.softReset 0x80001234) served (fun s => ((s.ten 0).clamps, s.sys.bootDone)) =
    some (1, true) := by decide +kernel
theorem test_resetAssert : after .resetAssert served (fun s => (s.door 3, s.sys.bootDone, s.sys.resetCause)) =
    some (.shut, false, 3) := by decide +kernel
/-- The supplies of banks HA and HB are latched at the release (R408). -/
theorem test_resetRelease : after (.resetRelease (0, 2)) held (fun s => (s.sys.padsHigh, s.pwr.st)) = some (2, .opened) := by
  decide +kernel
theorem test_idle : (match step served with
    | .next t => t.sys.rtcSub
    | _ => 0) = 1 := by decide
theorem test_rtcAlarm : after .rtcAlarm alarmed (fun s => (s.sys.alarmDone, s.door 3)) = some (true, .opened) := by
  decide +kernel

/-! Tick -/

theorem test_boundary : after (.boundary []) { served with tick := { served.tick with num := 41 } } (fun s => s.now) =
    some 42 := by decide +kernel
theorem test_boundary_opens : after (.boundary []) (tenanted 7 fun T => { T with doorPend := some false })
    (fun s => s.door 7) = some .opened := by decide +kernel
theorem test_guardSlot_ajar : after .guardSlot ajarAsked (fun s => s.pwr.st) = some .ajar := by decide +kernel

/-! Flash -/

theorem test_flashSectorErase : after (.flashSectorErase true 800) served (fun s => s.flash.queue) =
    some [.erase 800 1 .sys] := by decide +kernel
theorem test_programEnd : after (.programEnd 2 true) (programming false) (fun s => ((s.fword 5).data, s.flash.pulses)) =
    some (1, 2) := by decide +kernel
theorem test_erasePulseEnd : after (.erasePulseEnd false) (pulsing .erasePulse) (fun s => s.flash.st) = some .eraseGap := by
  decide +kernel
theorem test_borTrip : after .borTrip (pulsing .erasePulse) (fun s => (s.flash.borSeen, s.flash.borCnt)) = some (true, 1) := by
  decide +kernel

/-! Link -/

theorem test_frameReceive_duplicate : after (.frameReceive false 0 0xFF goodFrame 0 false) (linked .lockedLink)
    (fun s => s.link.up.req.expect) = some 1 := by decide +kernel
theorem test_frameReceive_fcs : after (.frameReceive false 0 0xFF badFrame 0 false) (linked .lockedLink)
    (fun s => (s.link.up.req.expect, s.link.fcs)) = some (0, 1) := by decide +kernel
theorem test_symbolLoss : after (.symbolLoss (false, 2)) (linked .lockedLink)
    (fun s => (s.link.up.st, s.link.code)) = some (.training, 2) := by
  decide +kernel
theorem test_trainingTimeout : after (.trainingTimeout false) (hopAt .training) (fun s => s.link.up.st) = some .off := by
  decide +kernel

/-! Power and platform -/

theorem test_vaoLoss : after .vaoLoss served (fun s => (s.pwr.st, s.pwr.domOn)) = some (.shuttered, 0) := by decide +kernel
theorem test_wakeN : after .wakeNTaken asleep (fun s => (s.pwr.phase, s.pwr.wakeSrc)) = some (.restoring, 0x10) := by
  decide +kernel
/-- A wake message of 16 cells of 6 us wakes the device of its address (R249, R250). -/
theorem test_wakeMessage : after (.wakeMessage (lineOf (cellsOf (wakeBits 9)))) asleep
    (fun s => (s.pwr.phase, s.pwr.wakeSrc)) = some (.restoring, 1) := by decide +kernel
/-- One cell of a ratio below 1.5 discards it (R249). -/
theorem test_wakeMessage_ratio : after (.wakeMessage (lineOf ((3300, 2700) :: (cellsOf (wakeBits 9)).drop 1))) asleep
    (fun s => s.pwr.phase) = some .idle := by decide +kernel
theorem test_goUp_empty : after .goUp served (fun s => (s.seq.upDone, s.seq.result)) = some (true, 1) := by decide +kernel
theorem test_seqStepDelayEnd : after .seqStepDelayEnd (sequencing 1) (fun s => (s.seq.en, s.seq.wait)) = some (0x10, 0x10) := by
  decide +kernel
theorem test_coinMeasureEnd : after (.coinMeasureEnd 2300) measuring (fun s => (s.seq.coinMv, s.seq.coinLow)) =
    some (2300, true) := by decide +kernel

/-! Lamps, engines, keys, converter, fans -/

theorem test_switchingPeriod : after (.switchingPeriod 2 2000 false 0 0 0) (lit 1600) (fun s => (s.lamp 2).tOn) = some 100 := by
  decide +kernel
theorem test_switchingPeriod_skip : after (.switchingPeriod 2 2000 false 0 0 0) (lit 800)
    (fun s => ((s.lamp 2).tOn, (s.lamp 2).owed)) = some (0, 50) := by decide +kernel
theorem test_switchingPeriod_oc : after (.switchingPeriod 2 2000 true 0 0 0) litOc
    (fun s => ((s.lamp 2).tOn, (s.lamp 2).fault)) = some (0, 8) := by decide +kernel
theorem test_targetWrite : after (.targetWrite 2 9) served (fun s => (s.lamp 2).out) = some 9 := by decide +kernel
theorem test_targetWrite_fade : after (.targetWrite 2 9) slowed (fun s => ((s.lamp 2).out, (s.lamp 2).target)) = some (0, 9) := by
  decide +kernel
theorem test_lampFaultClear : after (.lampFaultClear 2 8) stopped (fun s => ((s.lamp 2).fault, (s.lamp 2).pf)) =
    some (0, 4096) := by decide +kernel
theorem test_engineRun : after (.engineRun 1 7) served (fun s => ((s.engine 1).st, (s.engine 1).pc)) = some (1, 7) := by
  decide +kernel
theorem test_ramp : after (.ramp 1) (playing 0x17C05FFF) (fun s => (s.lane 1 0, s.lane 1 1, s.lane 1 2, (s.engine 1).left)) =
    some (⟨0xFFF, 50, true⟩, ⟨0xFFF, 50, true⟩, ⟨0xFFF, 50, true⟩, 50) := by decide +kernel
theorem test_loop : after (.loop 1) (playing 0x40000063) (fun s => ((s.engine 1).pc, (s.engine 1).lc)) = some (3, 2) := by
  decide +kernel
theorem test_engineError : after (.engineError 1) (playing 0x60000000) (fun s => (s.engine 1).st) = some 3 := by
  decide +kernel
theorem test_keyStuck : after (.keyStuck (300, stuckCycles)) pressing (fun s => (s.key 300).stuck) = some true := by decide +kernel
theorem test_keyColumnStep : after (.keyColumnStep true 3 0x81) served (fun s => (s.keys.rawOf 280, s.keys.rawOf 287)) =
    some (true, true) := by decide +kernel
theorem test_conversionEnd : after (.conversionEnd false [(-1250000000, 0, -4)]) (converting 0)
    (fun s => ((s.chan 3).res.fld 0 16, (s.chan 3).ovr)) = some (0xBFFE, false) := by decide +kernel
theorem test_sliceSwap : after (.sliceSwap 0 0) calibrating (fun s => (s.laneOf 1, s.adc.spare)) = some (4, 1) := by
  decide +kernel
theorem test_sliceSwap_retires : after (.sliceSwap 257 0) calibrating (fun s => s.adc.retired) = some 0x10 := by
  decide +kernel
theorem test_refSettled_bad : after (.refSettled 900) external (fun s => (s.adc.refBad, s.adc.refRdy)) = some (true, false) := by
  decide +kernel
theorem test_tachEdge : after (.tachEdge 0 10000) (served.updFan 0 fun f => { f with edges := [20000] })
    (fun s => (s.fan 0).rpm) = some 2000 := by decide +kernel
theorem test_tachSilence : after (.tachSilence 0) (served.updFan 0 fun f => { f with rpm := 9 }) (fun s => (s.fan 0).rpm) =
    some 0 := by decide +kernel

/-! Test and debug -/

theorem test_idcode_a0 : after .idcode { served with part := { Part.b1 with a0 := true } } (fun s => s.rdata) =
    some 0x009619CB := by decide
theorem test_idcode : after .idcode served (fun s => s.rdata) = some 0x109619CB := by decide
theorem test_extest_locked : after (.extest (BitVec.allOnes 474)) served (fun s => s.dbg.bsr) = some 0 := by decide
theorem test_unlock_keyless : after .unlock served (fun s => (s.sys.dbgFail, s.dbg.chal)) = some (true, none) := by decide
theorem test_relock : after .relock unlocked (fun s => s.sys.locked) = some true := by decide

end Sys2Proof.Tests
end

section
/-! PROOFS. The delivery rows of the link (O47) and the register rows (O36): what an event, a frame sent, a slot written
and a word staged leave unchanged, and then each row. -/

namespace Sys2Proof.Machine

/-! ## Events and memory -/

/-- An event changes of a tenant nothing but its EQ_TAIL and its pending bits. -/
theorem State.ten_raise_shape (s : State) (e : Nat) (d : Dest) (v : Word) (u : Nat) :
    (s.raise e d v).ten u = { s.ten u with
      eqTail := ((s.raise e d v).ten u).eqTail, pend := ((s.raise e d v).ten u).pend } := by
  have upd (n : State) (hn : n.tens = s.tens) (t : Nat) (f : Tenant → Tenant)
      (hf : ∀ T, f T = { T with eqTail := (f T).eqTail, pend := (f T).pend }) :
      (n.updTen t f).ten u = { s.ten u with
        eqTail := ((n.updTen t f).ten u).eqTail, pend := ((n.updTen t f).ten u).pend } := by
    have hten : n.ten = s.ten := by unfold State.ten; rw [hn]
    rw [State.ten_updTen, hten]
    split
    · next h => rw [h]; exact hf _
    · rfl
  unfold State.raise
  split
  · split
    · split <;> rfl
    · rfl
  · unfold State.deliver
    split
    · rfl
    · unfold State.place
      split
      · exact upd _ (by rw [State.wrWhole_shape]) _ _ fun _ => rfl
      · exact upd s rfl _ _ fun _ => rfl

theorem State.cqTail_raise (s : State) (e : Nat) (d : Dest) (v : Word) (u : Nat) :
    ((s.raise e d v).ten u).cqTail = (s.ten u).cqTail := by rw [State.ten_raise_shape]

theorem State.clampCount_raise (s : State) (e : Nat) (d : Dest) (v : Word) (u : Nat) :
    ((s.raise e d v).ten u).clamps = (s.ten u).clamps := by rw [State.ten_raise_shape]

/-- Counting one more of 16 bits stops at 65,535. -/
theorem satAdd_one (n : Nat) : satAdd 65535 n 1 = min 65535 (n + 1) := by
  unfold satAdd; split <;> omega

/-- A byte of SRAM after bytes have been written from an address on. -/
theorem State.rdByte_wrBytes (s : State) (a : Nat) (bs : List Byte) (x : Nat) :
    (s.wrBytes a bs).rdByte x = if a ≤ x ∧ x < a + bs.length then bs.getD (x - a) 0 else s.rdByte x := by
  induction bs generalizing s a with
  | nil => simp [State.wrBytes]
  | cons b bs ih =>
    rw [State.wrBytes, ih, State.rdByte_wrByte, List.length_cons]
    rcases Nat.lt_trichotomy x a with h | rfl | h
    · rw [if_neg (by omega), if_neg (by omega), if_neg (by omega)]
    · simp
    · obtain ⟨i, rfl⟩ : ∃ i, x = a + 1 + i := ⟨x - (a + 1), by omega⟩
      have e : a + 1 + i - a = i + 1 := by omega
      rw [Nat.add_sub_cancel_left, e, List.getD_cons_succ, if_neg (show ¬ a + 1 + i = a by omega)]
      exact if_congr (by omega) rfl rfl

theorem State.rdByte_wrWhole (s : State) (a : Nat) (bs : List Byte) (x : Nat) :
    (s.wrWhole a bs).rdByte x = if a ≤ x ∧ x < a + bs.length then bs.getD (x - a) 0 else s.rdByte x := by
  rw [← State.rdByte_wrBytes]
  unfold State.wrWhole
  rw [State.setEccs_shape]
  rfl

/-- Bytes written are read back. -/
theorem State.rdBytes_wrWhole_self (s : State) (a : Nat) (bs : List Byte) :
    (s.wrWhole a bs).rdBytes a bs.length = bs := by
  apply List.ext_getElem
  · simp [State.rdBytes]
  · intro i h1 h2
    simp [State.rdBytes, State.rdByte_wrWhole, h2]

/-- A write elsewhere leaves bytes as they were. -/
theorem State.rdBytes_wrWhole_away (s : State) {a : Nat} {bs : List Byte} {c k : Nat}
    (h : c + k ≤ a ∨ a + bs.length ≤ c) : (s.wrWhole a bs).rdBytes c k = s.rdBytes c k := by
  unfold State.rdBytes
  apply List.map_congr_left
  intro i hi
  have hi : i < k := List.mem_range.mp hi
  rw [State.rdByte_wrWhole, if_neg (by omega)]

/-! ## What sending a frame changes (R233, R234) -/

/-- `n` differs from `s` in nothing but the two link ports. -/
def State.OnlyPorts (s n : State) : Prop := ∃ up dn, n = { s with link := { s.link with up := up, dn := dn } }

theorem State.OnlyPorts.refl (s : State) : s.OnlyPorts s := ⟨s.link.up, s.link.dn, rfl⟩

theorem State.OnlyPorts.trans {s m n : State} (h : s.OnlyPorts m) (g : m.OnlyPorts n) : s.OnlyPorts n := by
  obtain ⟨u, d, rfl⟩ := h
  obtain ⟨u', d', rfl⟩ := g
  exact ⟨u', d', rfl⟩

theorem State.OnlyPorts.ten {s n : State} (h : s.OnlyPorts n) (u : Nat) : n.ten u = s.ten u := by
  obtain ⟨_, _, rfl⟩ := h; rfl

theorem State.OnlyPorts.rdByte {s n : State} (h : s.OnlyPorts n) (a : Nat) : n.rdByte a = s.rdByte a := by
  obtain ⟨_, _, rfl⟩ := h; rfl

theorem State.OnlyPorts.loc {s n : State} (h : s.OnlyPorts n) : n.link.loc = s.link.loc := by
  obtain ⟨_, _, rfl⟩ := h; rfl

theorem State.updLport_onlyPorts (s : State) (dn : Bool) (f : LinkPort → LinkPort) : s.OnlyPorts (s.updLport dn f) := by
  cases dn
  · exact ⟨f s.link.up, s.link.dn, rfl⟩
  · exact ⟨s.link.up, f s.link.dn, rfl⟩

theorem State.updSending_onlyPorts (s : State) (dn : Bool) (f : LinkCls → LinkCls) : s.OnlyPorts (s.updSending dn f) :=
  s.updLport_onlyPorts dn fun p => if sendsRsp dn then { p with rsp := f p.rsp } else { p with req := f p.req }

theorem State.emit_onlyPorts (s : State) (dn : Bool) (i : LinkItem) : s.OnlyPorts (s.emit dn i) := by
  unfold State.emit
  split
  · exact s.updLport_onlyPorts dn _
  · exact .refl s

theorem State.trySend_onlyPorts (n : Nat) (dn : Bool) (s : State) : s.OnlyPorts (State.trySend n dn s) := by
  induction n generalizing s with
  | zero => exact .refl s
  | succ n ih =>
    unfold State.trySend
    dsimp only
    split
    · exact .refl s
    · split
      · exact ((s.updSending_onlyPorts dn _).trans (State.emit_onlyPorts _ dn _)).trans (ih _)
      · exact .refl s

theorem State.sendOn_onlyPorts (s : State) (dn relay : Bool) (b : List Byte) : s.OnlyPorts (s.sendOn dn relay b) :=
  (s.updSending_onlyPorts dn _).trans (State.trySend_onlyPorts _ dn _)

theorem State.sendUp_onlyPorts (s : State) (b : List Byte) : s.OnlyPorts (s.sendUp b) := by
  unfold State.sendUp
  split
  · exact s.sendOn_onlyPorts false false b
  · exact .refl s

theorem State.rspFrame_untagged (s : State) (type ten ftag : Nat) (pay : List Byte) :
    s.rspFrame type ten ftag false pay = (s, withCrc (frHead type 0 0 s.ownAddr ten ftag 0 pay)) := rfl

/-- The answer to an untagged frame is untagged, and counts no response of its tenant (R229). -/
theorem State.answer_onlyPorts (s : State) {b : List Byte} (h : frAuth b = false) (status retry info : Nat) :
    s.OnlyPorts (s.answer b status retry info) := by
  unfold State.answer
  rw [h, State.rspFrame_untagged]
  exact s.sendUp_onlyPorts _

theorem State.enumRsp_onlyPorts (s : State) (addr old : Nat) (full : Bool) (ftag : Nat) :
    s.OnlyPorts (s.enumRsp addr old full ftag) := s.sendUp_onlyPorts _

theorem State.enumOn_onlyPorts (s : State) (next segid ftag : Nat) : s.OnlyPorts (s.enumOn next segid ftag) := by
  unfold State.enumOn
  split
  · exact s.sendOn_onlyPorts true false _
  · exact .refl s

/-! ## The frame at the head of the local buffers (R234, R236) -/

/-- The state whose local buffers hold `bs`. -/
def State.withLoc (s : State) (bs : List (List Byte)) : State := { s with link := { s.link with loc := bs } }

theorem State.owner_withLoc (s : State) (bs : List (List Byte)) : (s.withLoc bs).owner = s.owner := rfl
theorem State.fld_withLoc (s : State) (bs : List (List Byte)) : (s.withLoc bs).fld = s.fld := rfl
theorem State.reachDisp_withLoc (s : State) (bs : List (List Byte)) : (s.withLoc bs).reachDisp = s.reachDisp := rfl

theorem State.reachCfg_withLoc (s : State) (bs : List (List Byte)) (t a : Nat) (write : Bool) :
    (s.withLoc bs).reachCfg t a write = s.reachCfg t a write := by
  unfold State.reachCfg
  rw [State.reachDisp_withLoc, State.owner_withLoc, State.fld_withLoc]

theorem State.targetErr_withLoc (s : State) (bs : List (List Byte)) (t : Nat) (tg : Target) (write : Bool) :
    (s.withLoc bs).targetErr t tg write = s.targetErr t tg write := by
  cases tg with
  | sram a => rfl
  | flash o => rfl
  | reg a =>
    unfold State.targetErr State.cfgDoor
    dsimp only
    rw [State.reachCfg_withLoc]
    rfl

theorem State.takeLocal_head {s : State} {b : List Byte} {bs : List (List Byte)} (h : s.HeadFrame b bs) {type : Nat}
    (ht : frType b = type) : s.takeLocal type = some (s.withLoc bs, b) := by
  obtain ⟨hloc, hhold⟩ := h
  have fill : (s.withLoc bs).fillLocal 4 = s.withLoc bs := by
    unfold State.fillLocal
    have : (s.withLoc bs).link.hold = [] := hhold
    rw [this]
  unfold State.takeLocal
  rw [hloc]
  dsimp only
  rw [if_pos ht]
  exact congrArg (fun n => some (n, b)) fill

theorem State.takeLocal_other {s : State} {type : Nat} (h : ∀ b bs, s.link.loc = b :: bs → frType b ≠ type) :
    s.takeLocal type = none := by
  unfold State.takeLocal
  cases hl : s.link.loc with
  | nil => rfl
  | cons b bs => exact if_neg (h b bs hl)

theorem State.frameHeld_other {s : State} {type : Nat} (h : ∀ b bs, s.link.loc = b :: bs → frType b ≠ type) :
    s.frameHeld type = false := by
  unfold State.frameHeld
  cases hl : s.link.loc with
  | nil => rfl
  | cons b bs => simp [h b bs hl]

theorem State.takeWake_awake {s : State} (h : s.Awake) (src : Nat) : s.takeWake src = s := by
  obtain ⟨hst, hph, haj⟩ := h
  simp [State.takeWake, hst, hph, haj]

/-- In Open a frame for this device wakes nothing. -/
theorem State.linkWake_awake {s : State} (h : s.Awake) (b : List Byte) : s.linkWake b = s := by
  unfold State.linkWake
  split
  · exact s.takeWake_awake h 0
  · rfl

/-- What lets a frame through every row of Table 10.7: Open, ready, its buffer read without error, no tag on it and none
asked for, and its tenant's door OPEN. -/
structure State.Passes (s : State) (b : List Byte) : Prop where
  awake : s.Awake
  ready : s.notReady = false
  clean : s.linkBufErrors = []
  plain : frAuth b = false
  opened : s.door (frTen b) = .opened
  tagless : (s.ten (frTen b)).authReq = false

theorem State.Passes.withLoc {s : State} {b : List Byte} (h : s.Passes b) (bs : List (List Byte)) :
    (s.withLoc bs).Passes b :=
  ⟨h.awake, h.ready, h.clean, h.plain, h.opened, h.tagless⟩

/-- A tenant that needs no tag takes an untagged frame (R73). -/
theorem State.authenticate_tagless {s : State} {t : Nat} (h : (s.ten t).authReq = false) :
    s.authenticate t none = (s, none) := by
  unfold State.authenticate
  dsimp only
  cases (s.ten t).key <;> simp [h]

theorem State.passFrame_passes {s : State} {b : List Byte} (h : s.Passes b) (f : State → State) :
    s.passFrame b f = f s := by
  have read : s.linkBufRead = (s, false) := by unfold State.linkBufRead; rw [h.clean]; rfl
  have tag : frTagged b = none := by simp [frTagged, h.plain]
  simp [State.passFrame, s.linkWake_awake h.awake, h.ready, read, tag, State.authenticate_tagless h.tagless, h.opened]

theorem State.cmdIn_passes {s : State} {b : List Byte} {bs : List (List Byte)} (h : s.HeadFrame b bs)
    (ht : frType b = 1) (hh : s.frameHeld 1 = false) (hp : s.Passes b) : s.cmdIn = (s.withLoc bs).deliverCmd b := by
  unfold State.cmdIn
  rw [hh, if_neg Bool.false_ne_true, State.takeLocal_head h ht]
  exact State.passFrame_passes (hp.withLoc bs) fun s => s.deliverCmd b

theorem State.winIn_passes {s : State} {b : List Byte} {bs : List (List Byte)} (h : s.HeadFrame b bs)
    (ht : frType b = 2) (hh : s.frameHeld 2 = false) (hp : s.Passes b) : s.winIn = (s.withLoc bs).deliverWin b := by
  unfold State.winIn
  rw [hh, if_neg Bool.false_ne_true, State.takeLocal_head h ht]
  exact State.passFrame_passes (hp.withLoc bs) fun s => s.deliverWin b

/-! ## CMD frames (R130, R238) -/

/-- A CQ slot lies in letterbox memory at its number modulo 32. -/
theorem cqAddr_offset (t : Nat) (tail : BitVec 6) (j : Nat) :
    cqAddr t (tail + BitVec.ofNat 6 j).toNat = lbxBase + t * 0x1200 + 64 * ((tail.toNat + j) % 32) := by
  have h : (tail + BitVec.ofNat 6 j).toNat % 32 = (tail.toNat + j) % 32 := by
    simp only [BitVec.toNat_add, BitVec.toNat_ofNat]
    omega
  rw [cqAddr, h]

/-- `n` is `s` with the first `k` slots of a frame put into a tenant's CQ. -/
structure State.SlotsIn (s : State) (t : Nat) (b : List Byte) (k : Nat) (n : State) : Prop where
  tail : n.ten t = { s.ten t with cqTail := (s.ten t).cqTail + BitVec.ofNat 6 k }
  others : ∀ u, u ≠ t → n.ten u = s.ten u
  slots : ∀ j, j < k → n.rdBytes (cqAddr t ((s.ten t).cqTail + BitVec.ofNat 6 j).toNat) 64 = bytesAt b (20 + 64 * j) 64
  loc : n.link.loc = s.link.loc
  doors : n.doors = s.doors
  regs : n.regs = s.regs

theorem State.linkSlot_shape (s : State) (t buf : Nat) (b : List Byte) (j : Nat) :
    ∃ m e q, s.linkSlot t buf b j = { s.updTen t fun T => { T with cqTail := (s.ten t).cqTail + 1 } with
      mem := m, ecc := e, link := { s.link with cqFrom := q } } := by
  unfold State.linkSlot
  dsimp only
  rw [State.wrWhole_shape]
  exact ⟨_, _, _, rfl⟩

theorem State.rdBytes_updTen_updLink (s : State) (t : Nat) (f : Tenant → Tenant) (g : Link → Link) (a k : Nat) :
    ((s.updTen t f).updLink g).rdBytes a k = s.rdBytes a k := rfl

theorem State.rdBytes_linkSlot (s : State) (t buf : Nat) (b : List Byte) (j a k : Nat) :
    (s.linkSlot t buf b j).rdBytes a k =
      (s.wrWhole (cqAddr t (s.ten t).cqTail.toNat) (bytesAt b (20 + 64 * j) 64)).rdBytes a k := by
  unfold State.linkSlot
  exact State.rdBytes_updTen_updLink _ _ _ _ _ _

theorem bytesAt_length (b : List Byte) (i k : Nat) : (bytesAt b i k).length = k := by simp [bytesAt]

/-- One more slot goes behind those that are in, while no more than 32 are. -/
theorem State.SlotsIn.succ {s n : State} {t k : Nat} {b : List Byte} (h : s.SlotsIn t b k n) (hk : k < 32) (buf : Nat) :
    s.SlotsIn t b (k + 1) (n.linkSlot t buf b k) := by
  obtain ⟨m, e, q, hn⟩ := n.linkSlot_shape t buf b k
  have ten (u : Nat) : (n.linkSlot t buf b k).ten u =
      (n.updTen t fun T => { T with cqTail := (n.ten t).cqTail + 1 }).ten u := by rw [hn]; rfl
  have hten : (n.ten t).cqTail = (s.ten t).cqTail + BitVec.ofNat 6 k := by rw [h.tail]
  have len := bytesAt_length b (20 + 64 * k) 64
  refine ⟨?_, fun u hu => ?_, fun j hj => ?_, ?_, ?_, ?_⟩
  · have next : (s.ten t).cqTail + BitVec.ofNat 6 k + 1 = (s.ten t).cqTail + BitVec.ofNat 6 (k + 1) := by
      rw [BitVec.ofNat_add, BitVec.add_assoc]; rfl
    rw [ten, State.ten_updTen_self, hten, next, h.tail]
  · rw [ten, State.ten_updTen_ne _ _ hu, h.others u hu]
  · rw [State.rdBytes_linkSlot, hten]
    rcases Nat.lt_or_ge j k with lt | ge
    · rw [State.rdBytes_wrWhole_away, h.slots j lt]
      rw [len, cqAddr_offset, cqAddr_offset]
      omega
    · obtain rfl : j = k := by omega
      have self := n.rdBytes_wrWhole_self (cqAddr t ((s.ten t).cqTail + BitVec.ofNat 6 j).toNat)
        (bytesAt b (20 + 64 * j) 64)
      rwa [len] at self
  · rw [hn]; exact h.loc
  · rw [hn]; exact h.doors
  · rw [hn]; exact h.regs

theorem State.slotsIn_each (s : State) (t buf : Nat) (b : List Byte) {k : Nat} (hk : k ≤ 32) :
    s.SlotsIn t b k (s.each (List.range k) fun s j => s.linkSlot t buf b j) := by
  induction k with
  | zero => exact ⟨by simp [State.each], fun _ _ => rfl, fun _ h => absurd h (Nat.not_lt_zero _), rfl, rfl, rfl⟩
  | succ k ih =>
    have h := (ih (by omega)).succ (by omega) buf
    rwa [State.each, List.range_succ, List.foldl_append]

/-- A frame whose slots fit, while a response buffer is free (R130, R238). -/
theorem State.deliverCmd_fits (s : State) (b : List Byte) (hk : (s.ten (frTen b)).cqCount + frLen b / 64 ≤ 32)
    (hb : s.bufsOf (frTen b) < 4) : s.SlotsIn (frTen b) b (frLen b / 64) (s.deliverCmd b) := by
  unfold State.deliverCmd
  rw [if_neg (by omega)]
  obtain ⟨tail, others, slots, loc, doors, regs⟩ := State.slotsIn_each
    (s.setBuf s.freeBuf (some ⟨frTen b, frTag b, frUnicast b, frAuth b, List.replicate (frLen b / 64) none, false⟩))
    (frTen b) s.freeBuf b (k := frLen b / 64) (by omega)
  exact ⟨tail, others, slots, loc, doors, regs⟩

/-- A frame whose slots do not fit, or for which no response buffer is free, enters no slot; a group frame is counted as
missed (R130). -/
theorem State.deliverCmd_full (s : State) {b : List Byte} (ha : frAuth b = false)
    (h : 32 - (s.ten (frTen b)).cqCount < frLen b / 64 ∨ 4 ≤ s.bufsOf (frTen b)) :
    ((s.deliverCmd b).ten (frTen b)).cqTail = (s.ten (frTen b)).cqTail ∧ (s.deliverCmd b).link.loc = s.link.loc ∧
      (s.deliverCmd b).link.bufs = s.link.bufs ∧
      (frUnicast b = false → (s.deliverCmd b).link.grpMiss = min 65535 (s.link.grpMiss + 1)) := by
  unfold State.deliverCmd
  dsimp only
  rw [if_pos h]
  split
  · next hu =>
    obtain ⟨up, dn, e⟩ := s.answer_onlyPorts ha 1 1 0
    rw [e]
    exact ⟨rfl, rfl, rfl, fun hg => absurd hu (by simp [hg])⟩
  · rw [State.cqTail_raise, State.raise_link]
    exact ⟨rfl, rfl, rfl, fun _ => satAdd_one _⟩

/-! ## WIN frames (R124, R125) -/

/-- A whole word staged through a window. -/
def State.stage (s : State) (t w o : Nat) (v : Word) : State :=
  s.updTen t fun T => { T with staged := SMap.set (fun _ => none) T.staged (2048 * w + o / 4) (some ⟨v, 0xF#4⟩) }

theorem State.stagedAt_stage (s : State) (t w o : Nat) (v : Word) (w2 o2 : Nat) :
    (s.stage t w o v).stagedAt t w2 o2 =
      if 2048 * w2 + o2 / 4 = 2048 * w + o / 4 then some ⟨v, 0xF#4⟩ else s.stagedAt t w2 o2 := by
  unfold State.stagedAt State.stage
  rw [State.ten_updTen_self]
  dsimp only
  rw [SMap.get_set]

/-- A whole word staged where none was, while the tenant has room: the tenant alone changes. -/
theorem State.winStage_new (s : State) {t w o : Nat} (v : Word) (hs : s.stagedAt t w o = none)
    (hl : (s.ten t).staged.length < 2048) :
    s.winStage t w o v 0xF#4 = (s.stage t w o v, 0) := by
  unfold State.winStage
  dsimp only
  rw [if_neg (by decide), hs]
  dsimp only
  rw [if_neg (by omega), mergeBytes_all]
  rfl

/-- A window that lets a word through stages it (R124). -/
theorem State.winPut_staged (s : State) {t w o : Nat} (v : Word) (p : Nat) {tg : Target} (hf : ∀ a, tg ≠ .flash a)
    (hs : s.stagedAt t w o = none) (hl : (s.ten t).staged.length < 2048) :
    s.winPut t w o v 0xF#4 p tg = (s.stage t w o v, 0) := by
  cases tg with
  | sram a => exact s.winStage_new v hs hl
  | reg a => exact s.winStage_new v hs hl
  | flash a => exact absurd rfl (hf a)

/-- A WIN frame of one word that its window lets through: the word is staged, and the frame answered with OK. -/
theorem State.deliverWin_one (s : State) {b : List Byte} {off : Nat} {v : Word} {tg : Target}
    (hw : frWinWords b = [(off, v, 0xF#4)]) (ho : off < 8192) (ht : s.winTarget (frTen b) (natAt b 20 1) off = some tg)
    (he : s.targetErr (frTen b) tg true = none) (hf : ∀ a, tg ≠ .flash a)
    (hs : s.stagedAt (frTen b) (natAt b 20 1) off = none) (hl : (s.ten (frTen b)).staged.length < 2048) :
    s.deliverWin b = (s.stage (frTen b) (natAt b 20 1) off v).answer b 0 0 1 := by
  have inside : (frWinWords b).takeWhile (fun q => q.1 < 8192) = frWinWords b := by simp [hw, ho]
  unfold State.deliverWin
  simp only [inside]
  simp [hw, State.winPutWords, ht, he, s.winPut_staged v 3 hf hs hl]

/-! ## Enumeration (R241) -/

/-- An ENUM broadcast with an address for this device. -/
theorem State.enumTake_bound (s : State) {next : Nat} (segid ftag : Nat) (h1 : 1 ≤ next) (h2 : next ≤ 239) :
    (s.enumTake next segid ftag).sys = { s.sys with linkAddr := next } ∧
      (s.enumTake next segid ftag).link.bound = true ∧ (s.enumTake next segid ftag).link.segid = segid ∧
      (s.enumTake next segid ftag).link.last = s.sys.linkAddr ∧ (s.enumTake next segid ftag).link.loc = s.link.loc := by
  unfold State.enumTake
  dsimp only
  rw [if_neg (by omega), if_neg (by omega)]
  generalize hm : ((s.updSys fun k => { k with linkAddr := next }).updLink fun l => { l with
    bound := true, last := s.sys.linkAddr, segid := segid }) = m
  obtain ⟨u, d, e⟩ := m.enumRsp_onlyPorts next s.sys.linkAddr false ftag
  obtain ⟨u', d', e'⟩ := ((m.enumRsp next s.sys.linkAddr false ftag).raise 16 .granted
    (wordOf (next + 256 * s.sys.linkAddr + 65536 * segid))).enumOn_onlyPorts (next + 1) segid ftag
  rw [e', State.raise_sys, State.raise_link, e, ← hm]
  exact ⟨rfl, rfl, rfl, rfl, rfl⟩

/-- An ENUM broadcast of a full segment. -/
theorem State.enumTake_full (s : State) (segid ftag : Nat) :
    (s.enumTake 240 segid ftag).sys = { s.sys with linkAddr := 0 } ∧
      (s.enumTake 240 segid ftag).link.bound = false ∧ (s.enumTake 240 segid ftag).link.loc = s.link.loc := by
  obtain ⟨u, d, e⟩ := ((s.updSys fun k => { k with linkAddr := 0 }).updLink fun l => { l with
    bound := false }).enumRsp_onlyPorts 0 s.sys.linkAddr true ftag
  rw [show s.enumTake 240 segid ftag = _ from e]
  exact ⟨rfl, rfl, rfl⟩

theorem State.enumTake_none (s : State) {next : Nat} (segid ftag : Nat) (h : next = 0 ∨ 240 < next) :
    s.enumTake next segid ftag = s := by
  unfold State.enumTake
  exact if_pos h

theorem State.enumIn_broadcast {s : State} {b : List Byte} {bs : List (List Byte)} (h : s.HeadFrame b bs)
    (ht : frType b = 0x10) (hu : frUnicast b = false) :
    s.enumIn = (s.withLoc bs).enumTake (natAt b 20 1) (natAt b 22 2) (frTag b) := by
  unfold State.enumIn
  rw [State.takeLocal_head h ht]
  dsimp only
  rw [if_neg (by simp [hu])]

/-! ## WAKE frames (R251) -/

/-- A device that is awake and whose UP hop is not UP owes the NOTICE, and nothing else happens. -/
theorem State.fullWake_awake {s : State} (h : s.Awake) (hop : s.hopIsUp false = false) (owed : List (Option Nat)) :
    s.fullWake owed = owed.foldl State.owe s := by
  have owe (ns : List (Option Nat)) : ∃ a, ns.foldl State.owe s = { s with link := { s.link with awake := a } } := by
    induction ns using List.reverseRecOn with
    | nil => exact ⟨s.link.awake, rfl⟩
    | append_singleton ns n ih =>
      obtain ⟨a, e⟩ := ih
      rw [List.foldl_append, e, List.foldl_cons, List.foldl_nil]
      unfold State.owe
      split
      · exact ⟨a, rfl⟩
      · exact ⟨a ++ [n], rfl⟩
  obtain ⟨a, e⟩ := owe owed
  have aw : (owed.foldl State.owe s).Awake := by rw [e]; exact h
  have hp : (owed.foldl State.owe s).hopIsUp false = false := by rw [e]; exact hop
  have send : (owed.foldl State.owe s).awakeSend = owed.foldl State.owe s := by simp [State.awakeSend, hp]
  unfold State.fullWake
  rw [State.takeWake_awake aw, send]
  simp [h.1, h.2.1]

/-- A WAKE frame while awake: it goes to DN as a wake message where it must go on and the DN hop is not UP; a unicast
one is answered by a NOTICE that is owed. -/
theorem State.wakeIn_awake {s : State} {b : List Byte} {bs : List (List Byte)} (h : s.HeadFrame b bs)
    (ht : frType b = 4) (ha : s.Awake) (hop : s.hopIsUp false = false) :
    s.wakeIn = (if frUnicast b then [some (frTag b)] else []).foldl State.owe
      (if !s.ownDst (frDst b) && !s.hopIsUp true then
        (s.withLoc bs).updLink fun k => { k with wakeRpt := k.wakeRpt ++ [wakeBits (frDst b)] }
      else s.withLoc bs) := by
  unfold State.wakeIn
  rw [State.takeLocal_head h ht]
  refine State.fullWake_awake ?_ ?_ _
  · split <;> exact ha
  · split <;> exact hop

/-! ## The delivery rows -/

theorem exec_cmd (s : State) : exec .cmd s = .next s.cmdIn := rfl
theorem exec_win (s : State) : exec .win s = .next s.winIn := rfl
theorem exec_ticknum (s : State) : exec .ticknum s = .next s.ticknumIn := rfl
theorem exec_wake (s : State) : exec .wake s = .next s.wakeIn := rfl
theorem exec_enum (s : State) : exec .enum s = .next s.enumIn := rfl

/-- A TICKNUM is stored once the device is ready, and dropped before (R247). -/
theorem State.ticknumIn_head {s : State} {b : List Byte} {bs : List (List Byte)} (h : s.HeadFrame b bs)
    (ht : frType b = 3) :
    s.ticknumIn = if s.notReady then s.withLoc bs
      else (s.withLoc bs).updTick fun k => { k with ticknum := some (BitVec.ofNat 48 (natAt b 20 6)) } := by
  unfold State.ticknumIn
  rw [State.takeLocal_head h ht]
  rfl

/-- CMD with a frame that passes and fits. -/
theorem State.cmdIn_fits {s : State} {b : List Byte} {bs : List (List Byte)} (h : s.HeadFrame b bs) (ht : frType b = 1)
    (hh : s.frameHeld 1 = false) (hp : s.Passes b) (hk : (s.ten (frTen b)).cqCount + frLen b / 64 ≤ 32)
    (hb : s.bufsOf (frTen b) < 4) : (s.withLoc bs).SlotsIn (frTen b) b (frLen b / 64) s.cmdIn := by
  rw [State.cmdIn_passes h ht hh hp]
  exact (s.withLoc bs).deliverCmd_fits b hk hb

/-- WIN with a frame of one word that passes: the word is staged, and its tenant alone changes beside the link. -/
theorem State.winIn_one {s : State} {b : List Byte} {bs : List (List Byte)} (h : s.HeadFrame b bs) (ht : frType b = 2)
    (hh : s.frameHeld 2 = false) (hp : s.Passes b) {off : Nat} {v : Word} {tg : Target}
    (hw : frWinWords b = [(off, v, 0xF#4)]) (ho : off < 8192) (hg : s.winTarget (frTen b) (natAt b 20 1) off = some tg)
    (he : s.targetErr (frTen b) tg true = none) (hf : ∀ a, tg ≠ .flash a)
    (hs : s.stagedAt (frTen b) (natAt b 20 1) off = none) (hl : (s.ten (frTen b)).staged.length < 2048) :
    s.winIn.stagedAt (frTen b) (natAt b 20 1) off = some ⟨v, 0xF#4⟩ ∧
      (∀ w2 o, 2048 * w2 + o / 4 ≠ 2048 * natAt b 20 1 + off / 4 →
        s.winIn.stagedAt (frTen b) w2 o = s.stagedAt (frTen b) w2 o) ∧
      (∀ u, u ≠ frTen b → s.winIn.ten u = s.ten u) ∧ s.SameMemory s.winIn ∧ s.winIn.link.loc = bs := by
  have he' := (s.targetErr_withLoc bs (frTen b) tg true).trans he
  rw [State.winIn_passes h ht hh hp, (s.withLoc bs).deliverWin_one hw ho hg he' hf hs hl]
  have sent := ((s.withLoc bs).stage (frTen b) (natAt b 20 1) off v).answer_onlyPorts hp.plain 0 0 1
  refine ⟨?_, fun w2 o hne => ?_, fun u hu => ?_, fun a => sent.rdByte a, sent.loc⟩
  · rw [State.stagedAt, sent.ten, ← State.stagedAt, State.stagedAt_stage, if_pos rfl]
  · rw [State.stagedAt, sent.ten, ← State.stagedAt, State.stagedAt_stage, if_neg hne]
    rfl
  · rw [sent.ten]
    exact State.ten_updTen_ne _ _ hu

end Sys2Proof.Machine

section
open Sys2Proof Sys2Proof.Machine

/-- Settles O47: a row whose frame is not at the head, or is held, by the lemmas about the head frame; every other
clause by the lemma about what its kind of frame does. -/
theorem deliveryRows : Obligations.DeliveryRows := by
  unfold Obligations.DeliveryRows
  intro s
  simp only [exec_cmd, exec_win, exec_ticknum, exec_wake, exec_enum]
  refine ⟨fun h => ?_, fun h => ?_, fun h => ?_, fun h => ?_, fun h => ?_, fun h => ?_, fun h => ?_,
    fun b bs hd => ⟨fun ht => ?_, fun aw hn hc ha ho hr => ⟨fun ht hh => ⟨fun hk hb => ?_, fun hq hk => ?_⟩,
      fun ht hh v tg hw hoff hg he hf hs hl _ => ?_⟩, fun ht hu => ?_, fun ht aw hop => ?_⟩⟩
  · simp [State.cmdIn, State.frameHeld_other h, State.takeLocal_other h]
  · simp [State.winIn, State.frameHeld_other h, State.takeLocal_other h]
  · simp [State.ticknumIn, State.takeLocal_other h]
  · simp [State.wakeIn, State.takeLocal_other h]
  · simp [State.enumIn, State.takeLocal_other h]
  · simp [State.cmdIn, h]
  · simp [State.winIn, h]
  · rw [State.ticknumIn_head hd ht]
    exact ⟨fun hn => by rw [hn]; rfl, fun hn => by rw [hn]; rfl⟩
  · obtain ⟨tail, others, slots, loc, doors, regs⟩ := State.cmdIn_fits hd ht hh ⟨aw, hn, hc, ha, ho, hr⟩ hk hb
    exact ⟨_, rfl, tail, others, slots, loc, doors, regs⟩
  · obtain ⟨tail, loc, bufs, miss⟩ := (s.withLoc bs).deliverCmd_full ha
      (show 32 - (s.ten (frTen b)).cqCount < frLen b / 64 ∨ 4 ≤ s.bufsOf (frTen b) by omega)
    rw [State.cmdIn_passes hd ht hh ⟨aw, hn, hc, ha, ho, hr⟩]
    exact ⟨_, rfl, tail, loc, bufs, miss⟩
  · exact ⟨_, rfl, State.winIn_one hd ht hh ⟨aw, hn, hc, ha, ho, hr⟩ hw hoff hg he hf hs hl⟩
  · rw [State.enumIn_broadcast hd ht hu]
    refine ⟨fun h1 h2 => ⟨_, rfl, (s.withLoc bs).enumTake_bound _ _ h1 h2⟩, fun h => ⟨_, rfl, ?_⟩, fun h => ?_⟩
    · rw [h]
      exact (s.withLoc bs).enumTake_full _ _
    · rw [State.enumTake_none _ _ _ h]; rfl
  · rw [State.wakeIn_awake hd ht aw hop]
    refine ⟨fun hu own => ?_, fun hu own => ⟨fun up => ?_, fun up => ?_⟩⟩
    · simp [hu, own, State.owe]; rfl
    · simp [hu, own, up]; rfl
    · simp [hu, own, up]; rfl

end

namespace Sys2Proof.Machine

/-! ## Register rows (R6, R7, R17, R29, R137) -/

theorem exec_registerWrite (s : State) (t : Fin 32) (cfg : Bool) (off : Nat) (v : Word) (beN : BitVec 4) :
    exec (.registerWrite t cfg off v beN) s =
      .next (if cfg then s.cfgRow t.val (0x30000000 + off) v (~~~beN) else s.pageRow t.val off v (~~~beN)) := rfl

theorem exec_readClear (s : State) (t : Fin 32) (cfg : Bool) (off : Nat) :
    exec (.readClear t cfg off) s =
      .next (if cfg then s.cfgRowRead t.val (0x30000000 + off) else s.pageRowRead t.val off) := rfl

theorem State.pageRow_unreached {s : State} {t off : Nat} {v : Word} {be : BitVec 4}
    (h : s.pageReach t (off / 4 * 4) true = false) : s.pageRow t off v be = s := by
  simp [State.pageRow, h]

theorem State.cfgRow_unreached {s : State} {t a : Nat} {v : Word} {be : BitVec 4}
    (h : s.cfgReach t (a / 4 * 4) true = false) : s.cfgRow t a v be = s := by
  simp [State.cfgRow, h]

theorem State.cfgRowRead_unreached {s : State} {t a : Nat} (h : s.cfgReach t (a / 4 * 4) false = false) :
    s.cfgRowRead t a = s := by
  simp [State.cfgRowRead, h]

theorem State.cfgRowRead_held {s : State} {t a : Nat} (h : s.cfgReach t (a / 4 * 4) false = true)
    (hh : s.cfgHeld (a / 4 * 4) = true) : s.cfgRowRead t a = s.holdRow (.regRead t (a / 4 * 4)) := by
  simp [State.cfgRowRead, h, hh]

/-- A read of the count of SRAM corrections (R176). -/
theorem State.cfgRowRead_ceSram {s : State} {t : Nat} (h : s.cfgReach t 0x30040004 false = true) :
    s.cfgRowRead t 0x30040004 =
      { s with rdata := wordOf s.prot.ceSram, prot := { s.prot with ceSram := 0, ceDone := s.prot.ceDone &&& 6#3 } } :=
  State.cfgRowRead_of h rfl

/-- A read of the count of uncorrectable words (R165). -/
theorem State.cfgRowRead_ue {s : State} {t : Nat} (h : s.cfgReach t 0x3004000C false = true) :
    s.cfgRowRead t 0x3004000C = { s with rdata := s.cfgGet t 0x3004000C, prot := { s.prot with ue := 0 } } :=
  State.cfgRowRead_of h rfl

/-- A read of the count of link protocol errors, while the link's self-test does not hold it (R229). -/
theorem State.cfgRowRead_proto {s : State} {t : Nat} (h : s.cfgReach t 0x30020024 false = true)
    (hh : s.testing 4 = false) :
    s.cfgRowRead t 0x30020024 = { s with rdata := wordOf s.link.proto, link := { s.link with proto := 0 } } :=
  State.cfgRowRead_of h hh

theorem State.bootDone_of_cfgReach {s : State} {t a : Nat} {write : Bool} (h : s.cfgReach t a write = true) :
    s.sys.bootDone = true := by
  simp only [State.cfgReach, State.rowServed, Bool.and_eq_true] at h
  exact h.1.1

/-- A register row that reaches its register has its effect, and counts its clamps (R25). -/
theorem State.cfgRow_clamped {s m : State} {t a k : Nat} {v : Word} {be : BitVec 4}
    (h : s.cfgReach t (a / 4 * 4) true = true) (hh : s.cfgHeld (a / 4 * 4) = false)
    (e : s.cfgPut none (a / 4 * 4) v be = (m, k)) (hk : k ≠ 0) (hb : m.sys.bootDone = true) :
    s.cfgRow t a v be = m.drawn.clamps t (.cmd 3 (Config.cfgTag m.free).toNat) k := by
  simp [State.cfgRow, State.cfgWriteNow, h, hh, e, hk, hb]

theorem State.updTen_onlyTenant (s : State) (t : Nat) (f : Tenant → Tenant) : s.OnlyTenant (s.updTen t f) t :=
  ⟨rfl, fun _ hu => s.ten_updTen_ne f hu⟩

/-- A write of PG_SCRATCH of a served tenant. -/
theorem State.pageRow_scratch {s : State} {t : Nat} (h : s.Serves t) (v : Word) (be : BitVec 4) :
    s.pageRow t 0xB4 v be = s.updTen t fun T => { T with scratch := mergeBytes (s.ten t).scratch v be } :=
  State.pageRow_of (State.pageReach_of_serves h rfl) rfl

/-- A read of PG_CLAMP of a served tenant. -/
theorem State.pageRowRead_clamp {s : State} {t : Nat} (h : s.Serves t) :
    s.pageRowRead t 0x10 = State.updTen { s with rdata := wordOf (s.ten t).clamps } t fun T => { T with clamps := 0 } :=
  State.pageRowRead_of (State.pageReach_of_serves h rfl)

/-- A write of SYS_RESET_CAUSE, whole. -/
theorem State.pageRow_resetCause {s : State} (h : s.Serves 0) (v : Word) :
    s.pageRow 0 0x454 v 0xF#4 =
      s.updSys fun k => { k with resetCause := k.resetCause &&& ~~~BitVec.ofNat 5 (v.toNat % 32) } := by
  have low : v.fld 0 5 = v.toNat % 32 := by simp [Word.fld, fieldOf]
  have put (be : BitVec 4) : s.regPut none 0 0x454 v be = (s.updSys fun k => { k with
      resetCause := k.resetCause &&& ~~~BitVec.ofNat 5 ((woBytes v be).fld 0 5) }, 0) := rfl
  rw [← low]
  refine State.pageRow_of (State.pageReach_of_serves h rfl) ((put 0xF#4).trans ?_)
  rw [woBytes_all]

/-! ## FANn_DUTY (Table 17.4) -/

/-- FANn_DUTY has one field, DUTY, of which 1,000 is the largest value. -/
theorem regSpec_fanDuty (i : Fin 8) : regSpec (fanReg i.val 0) = some (0, .fields [uf 0 10 0 1000]) := by
  fin_cases i <;> rfl

/-- A field of 10 bits at bit 0 is held at 1,000, and a clamp counted when it is. -/
theorem writeFields_duty (v : Word) :
    writeFields [uf 0 10 0 1000] v = (min 1000 (v.toNat % 1024), if v.toNat % 1024 ≤ 1000 then 0 else 1) := by
  have low : v.fld 0 10 = v.toNat % 1024 := by simp [Word.fld, fieldOf]
  have lt : v.toNat % 1024 < 1024 := Nat.mod_lt _ (by decide)
  simp only [writeFields, List.foldl, Fld.get, Fld.put, uf, low]
  generalize v.toNat % 1024 = x at lt
  simp only [clampInt, twosOf, Bool.false_eq_true, if_false]
  rcases Nat.lt_or_ge 1000 x with h | h
  · rw [if_neg (by omega), if_pos (by omega), if_neg (by omega), if_neg (by omega)]
    exact Prod.ext (by omega) rfl
  · rw [if_neg (by omega), if_neg (by omega), if_pos rfl, if_pos h]
    exact Prod.ext (by omega) rfl

theorem cfgBlock_fanDuty (i : Fin 8) : cfgBlock (fanReg i.val 0) = 11 := by unfold cfgBlock fanReg; omega

theorem State.cfgPut_fanDuty (s : State) (i : Fin 8) (v : Word) :
    s.cfgPut none (fanReg i.val 0) v 0xF#4 =
      (s.setReg (fanReg i.val 0) (wordOf (min 1000 (v.toNat % 1024))), if v.toNat % 1024 ≤ 1000 then 0 else 1) := by
  have rail (r : Nat × Nat) : railStep (fanReg i.val 0) r = r := if_neg (by unfold fanReg; omega)
  unfold State.cfgPut
  simp only [cfgBlock_fanDuty]
  simp only [State.writeReg, regSpec_fanDuty, RegSpec.write, mergeBytes_all, writeFields_duty, rail]

/-- One clamp counted: the count alone of the registers changes (R137). -/
theorem State.clampCount_clamps_one (s : State) (t : Nat) (p : Path) :
    ((s.clamps t p 1).ten t).clamps = min 65535 ((s.ten t).clamps + 1) := by
  unfold State.clamps
  dsimp only
  rw [if_neg Nat.one_ne_zero, ← satAdd_one]
  split
  · rw [State.clampCount_raise, State.ten_updTen_self]
  · rw [State.ten_updTen_self]

theorem State.reg_clamps (s : State) (t : Nat) (p : Path) (k a : Nat) : (s.clamps t p k).reg a = s.reg a := by
  unfold State.clamps
  split
  · rfl
  · dsimp only
    split
    · exact State.reg_raise _ _ _ _ _
    · rfl

/-- A whole write of FANn_DUTY that reaches it: DUTY is stored as held at 1,000, and one clamp counted when it is held. -/
theorem State.cfgRow_fanDuty {s : State} {t : Nat} {i : Fin 8} (h : s.cfgReach t (fanReg i.val 0) true = true)
    (hh : s.testing 8 = false) (v : Word) (n : State) (hn : s.cfgRow t (fanReg i.val 0) v 0xF#4 = n) :
    n.reg (fanReg i.val 0) = wordOf (min 1000 (v.toNat % 1024)) ∧
      (∀ a, a ≠ fanReg i.val 0 → n.reg a = s.reg a) ∧
      (v.toNat % 1024 ≤ 1000 → n = { s with regs := n.regs }) ∧
      (1000 < v.toNat % 1024 → (n.ten t).clamps = min 65535 ((s.ten t).clamps + 1)) := by
  have word : fanReg i.val 0 / 4 * 4 = fanReg i.val 0 := by unfold fanReg; omega
  have free : s.cfgHeld (fanReg i.val 0) = false := by
    unfold State.cfgHeld
    simp only [cfgBlock_fanDuty]
    exact hh
  have booted : s.sys.bootDone = true := State.bootDone_of_cfgReach h
  have put := s.cfgPut_fanDuty i v
  set m := s.setReg (fanReg i.val 0) (wordOf (min 1000 (v.toNat % 1024)))
  have stored (a : Nat) : m.reg a = if a = fanReg i.val 0 then wordOf (min 1000 (v.toNat % 1024)) else s.reg a :=
    s.reg_setReg _ _ a
  rcases Nat.lt_or_ge 1000 (v.toNat % 1024) with gt | le
  · rw [if_neg (by omega)] at put
    have row : n = m.drawn.clamps t (.cmd 3 (Config.cfgTag m.free).toNat) 1 := hn.symm.trans <|
      State.cfgRow_clamped (by rwa [word]) (by rwa [word]) (by rwa [word]) Nat.one_ne_zero booted
    refine ⟨?_, fun a ha => ?_, fun le => absurd le (by omega), fun _ => ?_⟩
    · rw [row, State.reg_clamps, State.reg_drawn, stored, if_pos rfl]
    · rw [row, State.reg_clamps, State.reg_drawn, stored, if_neg ha]
    · rw [row, State.clampCount_clamps_one]; rfl
  · rw [if_pos le] at put
    have row : n = m := hn.symm.trans (State.cfgRow_of (by rwa [word]) (by rwa [word]) (by rwa [word]))
    refine ⟨?_, fun a ha => ?_, fun _ => ?_, fun gt => absurd gt (by omega)⟩
    · rw [row, stored, if_pos rfl]
    · rw [row, stored, if_neg ha]
    · rw [row]; rfl

end Sys2Proof.Machine

section
open Sys2Proof Sys2Proof.Machine

/-- Settles O36: each clause by the lemma about its register, or about a row that is held or does not reach it. -/
theorem registerAccessRows : Obligations.RegisterAccessRows := by
  unfold Obligations.RegisterAccessRows
  intro s t v beN
  simp only [exec_registerWrite, exec_readClear, if_true, Bool.false_eq_true, if_false]
  refine ⟨fun h => ⟨?_, ?_⟩, fun h => ?_, fun i h hh => ⟨_, rfl, ?_⟩, fun h => ?_, fun h => ?_,
    fun h hh => ?_, fun h => ?_, fun off hh => ⟨fun h => ?_, fun h => ?_⟩, fun off h => ?_, fun off h => ?_⟩
  · rw [State.pageRow_scratch h]
    exact ⟨_, rfl, State.ten_updTen_self _ _ _, s.updTen_onlyTenant _ _⟩
  · rw [State.pageRowRead_clamp h]
    exact ⟨_, rfl, rfl, State.ten_updTen_self _ _ _, fun u hu => State.ten_updTen_ne _ _ hu, rfl⟩
  · exact congrArg Host.Outcome.next (State.pageRow_resetCause h v)
  · have a : 0x30000000 + (0xB1000 + i.val * 0x20) = fanReg i.val 0 := by unfold fanReg; omega
    rw [a]
    exact State.cfgRow_fanDuty h hh v _ rfl
  · exact ⟨_, congrArg Host.Outcome.next (State.cfgRowRead_ceSram h), rfl, rfl⟩
  · exact ⟨_, congrArg Host.Outcome.next (State.cfgRowRead_ue h), rfl, rfl⟩
  · exact ⟨_, congrArg Host.Outcome.next (State.cfgRowRead_proto h hh), rfl, rfl⟩
  · rw [State.pageRow_unreached h]
  · rw [State.cfgRow_held h hh]; rfl
  · rw [State.cfgRowRead_held h hh]; rfl
  · rw [State.cfgRow_unreached h]
  · rw [State.cfgRowRead_unreached h]

end
end

section
/-! PROOFS. Every command's next state (O60), a CMD slot (O19), the flip commands (O23), and the tick number and the RTC
(O34). -/

namespace Sys2Proof.Machine

/-! ## Commands and the queue (R37) -/

/-- An effect that no operand keeps from being an event. -/
theorem next_eq_onlyIf (s t : State) : Host.Outcome.next t = onlyIf true s t := rfl

/-- Every command has an effect, and has it when its operands lie in their ranges (log entry 116). -/
theorem exec_onlyIf (c : Instr) (s : State) : ∃ t, exec c s = onlyIf c.WellFormed s t := by
  cases c with
  | boundary | windowEnd | cmdSlot | loopSlot | programEnd | louvre | conversionEnd | keyColumnStep | ledgerRecovery
  | switchingPeriod | coinMeasureEnd => exact ⟨_, rfl⟩
  | _ => exact ⟨_, next_eq_onlyIf s _⟩

/-- Every command answers a next state. -/
theorem exec_runs (c : Instr) (s : State) : ∃ n, exec c s = .next n := by
  obtain ⟨t, h⟩ := exec_onlyIf c s
  exact ⟨_, h⟩

/-- A command with an operand outside its range is no event. -/
theorem exec_illFormed {c : Instr} (h : c.WellFormed = false) (s : State) : exec c s = .next s := by
  obtain ⟨t, e⟩ := exec_onlyIf c s
  rw [e, h]
  rfl

theorem State.stepsTo_front {s n : State} {c : Instr} {q : List Instr} (h : s.pending = c :: q)
    (e : exec c { s with pending := q } = .next n) : s.StepsTo n := by
  unfold State.StepsTo step
  rw [h]
  exact e

end Sys2Proof.Machine

section
open Sys2Proof Sys2Proof.Machine

/-- Settles O60: every command has its effect or, with an operand outside its range, none. -/
theorem everyCommandRuns : Obligations.EveryCommandRuns := by
  unfold Obligations.EveryCommandRuns
  refine ⟨exec_runs, fun c s h => exec_illFormed h s, fun c q s h => ?_, by decide⟩
  obtain ⟨n, e⟩ := exec_runs c { s with pending := q }
  exact ⟨n, State.stepsTo_front h e⟩

end

namespace Sys2Proof.Machine

/-! ## A CMD slot (R42, R45, R265) -/

theorem exec_cmdSlot {n : Nat} (hn : (Instr.cmdSlot n).WellFormed = true) (s : State) :
    exec (.cmdSlot n) s = .next (s.atSlot n fun s => s.cmdSlot n) := by
  have row : exec (.cmdSlot n) s = onlyIf (Instr.cmdSlot n).WellFormed s (s.atSlot n fun s => s.cmdSlot n) := rfl
  rw [row, hn]
  rfl

theorem State.atSlot_ticking {s : State} (h : s.ticking = true) (n : Nat) (f : State → State) :
    s.atSlot n f = f (s.updTick fun k => { k with slot := n }) := if_pos h

theorem State.atSlot_still {s : State} (h : s.ticking = false) (n : Nat) (f : State → State) : s.atSlot n f = s :=
  if_neg (ne_true_of_eq_false h)

/-- While commands start, every tenant has its turn, in the order of service. -/
theorem State.cmdSlot_starting {s : State} (hb : s.sys.bootDone = true) (hp : s.pwr.phase = .idle) (n : Nat) :
    s.cmdSlot n = s.each (serviceOrder s.tick.first) fun x t => State.turns 33 t n x :=
  if_pos (by simp [State.starting, hb, hp])

/-! ## A turn that ends at once (R41, R66, R144) -/

theorem State.turns_ended {s : State} {t n : Nat} (h : s.turn t n = (s, false)) (k : Nat) :
    State.turns (k + 1) t n s = s := by
  rw [State.turns, h]
  rfl

theorem State.turn_closed {s : State} {t : Nat} (h : (s.ten t).ended = true ∨ s.door t ≠ .opened) (n : Nat) :
    s.turn t n = (s, false) := if_pos h

/-- The turn of a tenant whose service goes on at an open door and that has no commit requested is that of its CQ. -/
theorem State.turn_open {s : State} {t : Nat} (hd : s.door t = .opened) (he : (s.ten t).ended = false)
    (hw : (s.ten t).winReq = none) (n : Nat) : s.turn t n = s.turnSlot t n := by
  unfold State.turn
  simp only [hd, he, hw]
  simp

/-- A tenant that is paused or has an empty CQ, with no commit requested, gets nothing. -/
theorem State.turn_idle {s : State} {t : Nat} (hw : (s.ten t).winReq = none)
    (h : (s.ten t).pause = true ∨ (s.ten t).cqCount = 0) (n : Nat) : s.turn t n = (s, false) := by
  by_cases hc : (s.ten t).ended = true ∨ s.door t ≠ .opened
  · exact State.turn_closed hc n
  · obtain ⟨he, hd⟩ := not_or.mp hc
    rw [State.turn_open (not_not.mp hd) (eq_false_of_ne_true he) hw]
    exact if_pos (h.imp_right .inl)

/-! ## A slot read without error (R111) -/

/-- Words without error are read, and nothing changes. -/
theorem State.eccReadAll_good {s : State} {ks : List Nat} (h : ∀ k ∈ ks, s.eccOf k = .good) :
    s.eccReadAll ks = (s, false) := by
  induction ks with
  | nil => rfl
  | cons k ks ih =>
    have read : s.eccRead k = (s, false) := by unfold State.eccRead; rw [h k List.mem_cons_self]
    rw [State.eccReadAll, read, ih fun j hj => h j (List.mem_cons_of_mem _ hj)]
    rfl

/-- The words of a CQ slot are eight, from its address on. -/
theorem wordKeys_cqAddr {t k x : Nat} (h : x ∈ wordKeys (cqAddr t k) 64) : ∃ i, i < 8 ∧ x = cqAddr t k + 8 * i := by
  have aligned : cqAddr t k % 8 = 0 := by unfold cqAddr lbxBase; omega
  simp only [wordKeys, List.mem_map, List.mem_range] at h
  obtain ⟨i, hi, rfl⟩ := h
  exact ⟨i, by omega, by omega⟩

theorem State.sramRead_cqSlot {s : State} {t k : Nat} (h : ∀ i, i < 8 → s.eccOf (cqAddr t k + 8 * i) = .good) :
    s.sramRead (cqAddr t k) 64 = (s, false) := by
  unfold State.sramRead
  refine State.eccReadAll_good fun x hx => ?_
  obtain ⟨i, hi, rfl⟩ := wordKeys_cqAddr hx
  exact h i hi

/-! ## Acceptance (R38, R61, R111, R116) -/

/-- The state once a cost has been charged to a tenant and to the capacity. -/
def State.charged (s : State) (t cost : Nat) : State :=
  (s.updTen t fun T => { T with spent := T.spent + cost, started := true }).updTick
    fun k => { k with capLeft := k.capLeft - cost }

/-- A cost that the quota and the capacity cover is charged whole. -/
theorem State.charge_covered {s : State} {t cost : Nat} (hq : cost ≤ (s.ten t).quota)
    (hs : (s.ten t).spent + cost ≤ (s.ten t).quota) (hc : cost ≤ s.tick.capLeft) :
    s.charge t cost = some (s.charged t cost) := by
  have room : ¬ ((s.ten t).quota < (s.ten t).spent + cost) := by omega
  unfold State.charge
  dsimp only
  rw [Nat.min_eq_left hq, if_neg (Nat.not_lt.mpr hq), if_neg (by simp [room, Nat.not_lt.mpr hc])]
  rfl

/-- The run that acceptance in CMD slot `n` begins, with the grants in effect. -/
def State.newRun (s : State) (t n : Nat) (b : List Byte) : Run :=
  ⟨s.nextRun, t, b, 0, n, none, false, .accepted, s.grants.table, s.grants.wipe⟩

/-- The state once a slot of a tenant's own CQ has been accepted. -/
def State.accepted (s : State) (t n cost : Nat) (b : List Byte) : State :=
  let m := ((s.charged t cost).takeSlot t).histNew t (slotTag b) none
  { m with runs := m.runs ++ [s.newRun t n b] }

/-- A new command whose cost is covered is accepted. -/
theorem State.acceptSlot_new {s : State} {t cost : Nat} {b : List Byte} (new : (s.ten t).histOf (slotTag b) = none)
    (known : s.slotCost t b = some cost) (hq : cost ≤ (s.ten t).quota)
    (hs : (s.ten t).spent + cost ≤ (s.ten t).quota) (hc : cost ≤ s.tick.capLeft) (n : Nat) :
    s.acceptSlot t n none b = some (s.accepted t n cost b) := by
  have free : s.surcharge none = 0 := rfl
  unfold State.acceptSlot
  simp only [new, known, free, Nat.add_zero, State.charge_covered hq hs hc]
  rfl

theorem State.ten_charged (s : State) (t cost u : Nat) :
    (s.charged t cost).ten u = (s.updTen t fun T => { T with spent := T.spent + cost, started := true }).ten u := rfl

theorem State.ten_takeSlot (s : State) (t u : Nat) :
    (s.takeSlot t).ten u = (s.updTen t fun T => { T with cqHead := T.cqHead + 1 }).ten u := by
  simp only [State.ten, State.takeSlot]

theorem State.ten_histNew (s : State) (t tag : Nat) (resp : Option (List Byte)) (u : Nat) :
    (s.histNew t tag resp).ten u =
      (s.updTen t fun T => { T with hist := (⟨s.nextRun, tag, resp⟩ :: T.hist).take 64 }).ten u := rfl

theorem State.ten_accepted (s : State) (t n cost : Nat) (b : List Byte) (u : Nat) :
    (s.accepted t n cost b).ten u = (((s.charged t cost).takeSlot t).histNew t (slotTag b) none).ten u := by
  simp only [State.ten, State.accepted]

/-- The tenant once its slot has been accepted: the cost charged, the slot taken, the tag in the history. -/
theorem State.ten_accepted_self (s : State) (t n cost : Nat) (b : List Byte) :
    (s.accepted t n cost b).ten t = { s.ten t with
      spent := (s.ten t).spent + cost, started := true, cqHead := (s.ten t).cqHead + 1,
      hist := (⟨s.nextRun, slotTag b, none⟩ :: (s.ten t).hist).take 64 } := by
  rw [State.ten_accepted, State.ten_histNew, State.ten_updTen_self, State.ten_takeSlot, State.ten_updTen_self,
    State.ten_charged, State.ten_updTen_self]
  rfl

theorem State.ten_accepted_ne (s : State) {t u : Nat} (hu : u ≠ t) (n cost : Nat) (b : List Byte) :
    (s.accepted t n cost b).ten u = s.ten u := by
  rw [State.ten_accepted, State.ten_histNew, State.ten_updTen_ne _ _ hu, State.ten_takeSlot, State.ten_updTen_ne _ _ hu,
    State.ten_charged, State.ten_updTen_ne _ _ hu]

/-- Beside tenants and the origin of CQ slots, acceptance changes the capacity, the count of runs and the runs. -/
theorem State.accepted_shape (s : State) (t n cost : Nat) (b : List Byte) :
    ∃ tens link, s.accepted t n cost b = { s with
      tens := tens, link := link, tick := { s.tick with capLeft := s.tick.capLeft - cost }, nextRun := s.nextRun + 1,
      runs := s.runs ++ [s.newRun t n b] } := by
  simp only [State.accepted, State.histNew, State.takeSlot, State.charged, State.updTen, State.updTick]
  exact ⟨_, _, rfl⟩

/-- A slot that is read without error, passes its CHECK and can be accepted is. -/
theorem State.turnSlot_accepts {s : State} {t : Nat} (hp : (s.ten t).pause = false)
    (hq : (s.ten t).cqCount ≠ 0) (hr : s.rqFree t ≠ 0) (hl : s.cqLink t (s.ten t).cqHead.toNat = none)
    (hh : s.sramHeld (cqAddr t (s.ten t).cqHead.toNat) = false)
    (good : ∀ i, i < 8 → s.eccOf (cqAddr t (s.ten t).cqHead.toNat + 8 * i) = .good) {b : List Byte}
    (hb : s.rdBytes (cqAddr t (s.ten t).cqHead.toNat) 64 = b) (check : rspChecks b = true) {m : State} {n : Nat}
    (acc : s.acceptSlot t n none b = some m) : s.turnSlot t n = (m, true) := by
  unfold State.turnSlot
  simp only [hl, State.sramRead_cqSlot good, hb, check, acc, hh]
  simp [hp, hq, hr]

end Sys2Proof.Machine

section
open Sys2Proof Sys2Proof.Machine

/-- Settles O19: a slot is served while commands start; a turn that serves nothing ends at once; and the slot at CQ_HEAD
is read, charged and accepted. -/
theorem slotAccepted : Obligations.SlotAccepted := by
  unfold Obligations.SlotAccepted
  refine ⟨fun s n hn => ⟨fun ht hb hp => ?_, fun ht => ?_⟩, fun s t n k h => ?_,
    fun s t n cost hd he hw hp hq hr hl hh good => ?_⟩
  · rw [exec_cmdSlot hn, State.atSlot_ticking ht]
    exact congrArg Host.Outcome.next
      (State.cmdSlot_starting (s := s.updTick fun k => { k with slot := n }) hb hp n)
  · rw [exec_cmdSlot hn, State.atSlot_still ht]
  · refine State.turns_ended ?_ k
    rcases h with door | ended | ⟨hw, idle⟩
    · exact State.turn_closed (.inr door) n
    · exact State.turn_closed (.inl ended) n
    · exact State.turn_idle hw idle n
  · generalize hb : s.rdBytes (cqAddr t (s.ten t).cqHead.toNat) 64 = b
    intro _ check new known fits sum cap
    obtain ⟨tens, link, rest⟩ := s.accepted_shape t n cost b
    refine ⟨s.accepted t n cost b, ?_, ?_, ?_, by rw [rest], ?_, by rw [rest], by rw [rest]; rfl,
      fun u hu => s.ten_accepted_ne hu n cost b, fun a => by rw [rest]; rfl⟩
    · rw [State.turn_open hd he hw]
      exact State.turnSlot_accepts hp hq hr hl hh good hb (beq_iff_eq.mpr check)
        (State.acceptSlot_new new known fits sum cap n)
    all_goals rw [State.ten_accepted_self]

end

namespace Sys2Proof.Machine

/-! ## Many cells changed (R45, R47) -/

/-- Cells changed one after the other, by a change that is the same made twice: exactly the cells named have changed. -/
theorem State.cell_eachUpd (s : State) (cells : List Nat) {f : Cell → Cell} (hf : ∀ x, f (f x) = f x) (c : Nat) :
    (s.each cells fun s c => s.updCell c f).cell c = if c ∈ cells then f (s.cell c) else s.cell c := by
  induction cells generalizing s with
  | nil => rfl
  | cons a cells ih =>
    rw [State.each, List.foldl_cons, ← State.each, ih, State.cell_updCell]
    by_cases ha : c = a
    · subst ha
      simp [hf]
    · simp [ha]

theorem State.eachUpdCell_shape (s : State) (cells : List Nat) (f : Cell → Cell) :
    (s.each cells fun s c => s.updCell c f) =
      { s with disp := { s.disp with cells := (s.each cells fun s c => s.updCell c f).disp.cells } } := by
  induction cells generalizing s with
  | nil => rfl
  | cons a cells ih => exact ih (s.updCell a f)

/-- Cells armed or unarmed: those named have changed, and nothing else of the part. -/
theorem State.eachUpdCell_effect (s : State) (cells : List Nat) {f : Cell → Cell} (hf : ∀ x, f (f x) = f x) :
    (∀ c, c ∈ cells → (s.each cells fun s c => s.updCell c f).cell c = f (s.cell c)) ∧
      (∀ c, c ∉ cells → (s.each cells fun s c => s.updCell c f).cell c = s.cell c) ∧
      (s.each cells fun s c => s.updCell c f) =
        { s with disp := { s.disp with cells := (s.each cells fun s c => s.updCell c f).disp.cells } } :=
  ⟨fun c h => by rw [s.cell_eachUpd cells hf, if_pos h], fun c h => by rw [s.cell_eachUpd cells hf, if_neg h],
    s.eachUpdCell_shape cells f⟩

/-! ## FLIP_ARM and FLIP_CANCEL (R306) -/

/-- Some cell of the map of a command is not its tenant's. -/
def State.foreignCell (s : State) (r : Run) : Bool := (mapCells r).any fun c => (s.under r).owner 0 c ≠ r.ten

theorem exec_flipArm {s : State} {t : Fin 32} {r : Run} (h : s.runOf t.val 0x20 = some r) :
    exec (.flipArm t) s = .next (s.runFlipArm r) := by
  have row : exec (.flipArm t) s = .next (s.withRun t.val 0x20 State.runFlipArm) := rfl
  rw [row, State.withRun, h]

theorem exec_flipCancel {s : State} {t : Fin 32} {r : Run} (h : s.runOf t.val 0x21 = some r) :
    exec (.flipCancel t) s = .next (s.runFlipCancel r) := by
  have row : exec (.flipCancel t) s = .next (s.withRun t.val 0x21 State.runFlipCancel) := rfl
  rw [row, State.withRun, h]

theorem State.runFlipArm_held {s : State} {r : Run} (h : s.mapHeld (mapCells r) = true) :
    s.runFlipArm r = s.hold (.run r.id) := if_pos h

theorem State.runFlipCancel_held {s : State} {r : Run} (h : s.mapHeld (mapCells r) = true) :
    s.runFlipCancel r = s.hold (.run r.id) := if_pos h

theorem State.runFlipArm_foreign {s : State} {r : Run} (h : s.mapHeld (mapCells r) = false)
    (own : s.foreignCell r = true) : s.runFlipArm r = s.finish r 2 [] :=
  (if_neg (ne_true_of_eq_false h)).trans (if_pos own)

theorem State.runFlipCancel_foreign {s : State} {r : Run} (h : s.mapHeld (mapCells r) = false)
    (own : s.foreignCell r = true) : s.runFlipCancel r = s.finish r 2 [] :=
  (if_neg (ne_true_of_eq_false h)).trans (if_pos own)

theorem State.runFlipArm_late {s : State} {r : Run} (h : s.mapHeld (mapCells r) = false)
    (own : s.foreignCell r = false) (late : s.tick.numValid = false ∨ s.armInTime (r.arg 4 6) = false ∨ s.up 8 = false) :
    s.runFlipArm r = s.finish r 10 [] :=
  (if_neg (ne_true_of_eq_false h)).trans <| (if_neg (ne_true_of_eq_false own)).trans (if_pos late)

theorem State.runFlipArm_arms {s : State} {r : Run} (h : s.mapHeld (mapCells r) = false)
    (own : s.foreignCell r = false) (num : s.tick.numValid = true) (time : s.armInTime (r.arg 4 6) = true)
    (up : s.up 8 = true) :
    s.runFlipArm r = (s.each (mapCells r) fun s c => s.updCell c fun x => { x with
      arm := some (BitVec.ofNat 48 (r.arg 4 6)), verdict := none }).finish r 0 [BitVec.ofNat 8 (mapCells r).length] :=
  (if_neg (ne_true_of_eq_false h)).trans <| (if_neg (ne_true_of_eq_false own)).trans (if_neg (by simp [num, time, up]))

theorem State.runFlipCancel_unarms {s : State} {r : Run} (h : s.mapHeld (mapCells r) = false)
    (own : s.foreignCell r = false) (up : s.up 8 = true) :
    s.runFlipCancel r = (s.each (mapCells r) fun s c => s.updCell c fun x => { x with
      arm := none, verdict := none }).finish r 0
        [BitVec.ofNat 8 ((mapCells r).filter fun c => (s.cell c).arm.isSome).length] :=
  (if_neg (ne_true_of_eq_false h)).trans <| (if_neg (ne_true_of_eq_false own)).trans (if_neg (by simp [up]))

end Sys2Proof.Machine

section
open Sys2Proof Sys2Proof.Machine

/-- Settles O23: the case of the command that the state and the map select, and what the cells of the map then are. -/
theorem flipCommands : Obligations.FlipCommands := by
  unfold Obligations.FlipCommands
  intro s t r
  refine ⟨fun held => ⟨fun h => ?_, fun h => ?_⟩, fun free h => ?_, fun free h => ?_⟩
  · rw [exec_flipArm h, State.runFlipArm_held held]
  · rw [exec_flipCancel h, State.runFlipCancel_held held]
  · rw [exec_flipArm h]
    refine ⟨fun own => ?_, fun own => ⟨fun late => ?_, fun num time up => ?_⟩⟩
    · rw [State.runFlipArm_foreign free own]
    · rw [State.runFlipArm_late free own late]
    · rw [State.runFlipArm_arms free own num time up]
      exact ⟨_, _, rfl, rfl, s.eachUpdCell_effect (mapCells r) fun _ => rfl⟩
  · rw [exec_flipCancel h]
    refine ⟨fun own => ?_, fun own up => ?_⟩
    · rw [State.runFlipCancel_foreign free own]
    · rw [State.runFlipCancel_unarms free own up]
      exact ⟨_, _, rfl, rfl, s.eachUpdCell_effect (mapCells r) fun _ => rfl⟩

end

namespace Sys2Proof.Machine

/-! ## GRANT_VIEW1 (R142) -/

/-- Two flags, and a base above them: bit 0 is the first flag, and bits [19:8] the low bits of the base. -/
theorem wordOf_view_fields (own routed : Bool) (b c : Nat) :
    (wordOf (bitNat own + 2 * bitNat routed + (256 * b + 2 ^ 20 * c))).bit 0 = own ∧
      (wordOf (bitNat own + 2 * bitNat routed + (256 * b + 2 ^ 20 * c))).fld 8 12 = b % 4096 := by
  have bits (x : Bool) : bitNat x ≤ 1 := by cases x <;> decide
  have ho := bits own
  have hr := bits routed
  have low : decide (bitNat own = 1) = own := by cases own <;> rfl
  constructor
  · rw [Word.bit, wordOf, BitVec.getLsbD_ofNat, Nat.testBit_zero]
    have : (bitNat own + 2 * bitNat routed + (256 * b + 2 ^ 20 * c)) % 2 = bitNat own := by omega
    rw [this, low]
    rfl
  · simp only [Word.fld, fieldOf, wordOf, BitVec.toNat_ofNat]
    omega

/-- GRANT_VIEW1 says whether the tenant owns the resource, and gives the base of an extent of its own. -/
theorem State.grantView_fields (s : State) (t cls i : Nat) (own : Bool) (hc : (s.ten t).gv.fld 12 4 = cls)
    (hi : (s.ten t).gv.fld 0 9 = i) (ho : s.grantOwned t cls i = own) :
    (s.grantView t).bit 0 = own ∧
      (s.grantView t).fld 8 12 = if own = true ∧ 8 ≤ cls then (s.grant cls i).base % 4096 else 0 := by
  unfold State.grantView
  simp only [hc, hi, ho, Bool.and_eq_true, decide_eq_true_eq]
  split
  · exact wordOf_view_fields own _ _ _
  · exact wordOf_view_fields own _ 0 0

/-! ## Reads of the time (R44, R143) -/

theorem exec_tickNumberRead_page (s : State) (t : Fin 32) :
    exec (.tickNumberRead (some t)) s = .next (s.pageRowRead t.val 0x1C) := rfl
theorem exec_tickNumberRead_cfg (s : State) : exec (.tickNumberRead none) s = .next (s.cfgRowRead 0 0x3001000C) := rfl
theorem exec_timeSubRead_page (s : State) (t : Fin 32) :
    exec (.timeSubRead (some t)) s = .next (s.pageRowRead t.val 0xB0) := rfl
theorem exec_timeSubRead_sys (s : State) : exec (.timeSubRead none) s = .next (s.pageRowRead 0 0x494) := rfl
theorem exec_grantViewRead (s : State) (t : Fin 32) :
    exec (.grantViewRead t) s = .next (s.pageRowRead t.val 0xA8) := rfl
theorem exec_tickNumSetLoad (s : State) (v : Word) :
    exec (.tickNumSetLoad v) s = .next (s.cfgRow 0 0x30010018 v 0xF#4) := rfl
theorem exec_rtcSecWrite (s : State) (v : Word) : exec (.rtcSecWrite v) s = .next (s.pageRow 0 0x490 v 0xF#4) := rfl
theorem exec_rtcSubWrite (s : State) (v : Word) : exec (.rtcSubWrite v) s = .next (s.pageRow 0 0x494 v 0xF#4) := rfl
theorem exec_rtcTrimWrite (s : State) (v : Word) : exec (.rtcTrimWrite v) s = .next (s.pageRow 0 0x49C v 0xF#4) := rfl

/-- The state after a read of a page register that returns `v` and changes the tenant by `f`. -/
def State.readTen (s : State) (t : Nat) (v : Word) (f : Tenant → Tenant) : State :=
  State.updTen { s with rdata := v } t f

/-- Such a read changes the tenant and the word on the bus alone. -/
theorem State.readTen_effect (s : State) (t : Nat) (v : Word) (f : Tenant → Tenant) :
    (s.readTen t v f).ten t = f (s.ten t) ∧ (∀ u, u ≠ t → (s.readTen t v f).ten u = s.ten u) ∧
      s.readTen t v f = { s with tens := (s.readTen t v f).tens, rdata := (s.readTen t v f).rdata } :=
  ⟨State.ten_updTen_self _ _ _, fun _ hu => State.ten_updTen_ne _ _ hu, rfl⟩

/-- PG_TICK latches the high bits beside the low word that it returns (R44). -/
theorem State.pageRowRead_tick {s : State} {t : Nat} (h : s.Serves t) :
    s.pageRowRead t 0x1C = s.readTen t (wordOf s.now) fun T => { T with tickHi := s.now / 2 ^ 32 } :=
  State.pageRowRead_of (State.pageReach_of_serves h rfl)

/-- TIME_SUB latches the seconds beside the count that it returns (R143). -/
theorem State.pageRowRead_timeSub {s : State} {t : Nat} (h : s.Serves t) :
    s.pageRowRead t 0xB0 = s.readTen t (wordOf s.sys.rtcSub) fun T => { T with timeSec := wordOf s.sys.rtcSec } :=
  State.pageRowRead_of (State.pageReach_of_serves h rfl)

/-- GRANT_VIEW1 steps INDEX after it has been read (R142). -/
theorem State.pageRowRead_grantView {s : State} {t : Nat} (h : s.Serves t) :
    s.pageRowRead t 0xA8 = s.readTen t (s.grantView t) fun T => { T with gv := gvNext T.gv } :=
  State.pageRowRead_of (State.pageReach_of_serves h rfl)

/-- TICK_NUM_LO latches the high bits beside the low word that it returns (R44). -/
theorem State.cfgRowRead_tickNum {s : State} (h : s.cfgReach 0 0x3001000C false = true) :
    s.cfgRowRead 0 0x3001000C =
      { s with rdata := wordOf s.now, tick := { s.tick with hiLatch := s.tick.num.toNat / 2 ^ 32 } } :=
  State.cfgRowRead_of h rfl

/-- SYS_RTC_SUB latches the seconds beside the count that it returns (R143). -/
theorem State.pageRowRead_rtcSub {s : State} (h : s.Serves 0) :
    s.pageRowRead 0 0x494 =
      { s with rdata := wordOf s.sys.rtcSub, sys := { s.sys with rtcLatch := wordOf s.sys.rtcSec } } :=
  State.pageRowRead_of (State.pageReach_of_serves h rfl)

/-- What a tenant finds in PG_TICK_HI and TIME_SEC. -/
theorem State.pageGet_tickHi (s : State) (t port : Nat) : s.pageGet t port 0x20 = wordOf (s.ten t).tickHi := rfl
theorem State.pageGet_timeSec (s : State) (t port : Nat) : s.pageGet t port 0xAC = (s.ten t).timeSec := rfl

/-! ## Writes of the time (R46, R150, R447) -/

/-- A whole write of TICK_NUM_SET_HI is the load that R46 judges. -/
theorem State.cfgRow_tickNumSet {s : State} (h : s.cfgReach 0 0x30010018 true = true) (v : Word) :
    s.cfgRow 0 0x30010018 v 0xF#4 = s.numSetLoad v := by
  have put (be : BitVec 4) : s.cfgPut none 0x30010018 v be = (s.numSetLoad (woBytes v be), 0) := rfl
  refine State.cfgRow_of h rfl ((put 0xF#4).trans ?_)
  rw [woBytes_all]

theorem State.numSetLoad_off {s : State} {v : Word} (h : v.bit 31 = false) : s.numSetLoad v = s := if_pos h

/-- A load is left aside while the link gives the tick number. -/
theorem State.numSetLoad_rejected {s : State} {v : Word} (h : v.bit 31 = true)
    (src : s.tick.srcF = 1 ∨ (s.tick.srcF = 0 ∧ s.tick.use = some false)) :
    s.numSetLoad v = { s with tick := { s.tick with loadRej := true } } := by
  unfold State.numSetLoad
  rw [if_neg (by simp [h]), if_pos src]
  rfl

theorem State.numSetLoad_taken {s : State} {v : Word} (h : v.bit 31 = true)
    (src : ¬(s.tick.srcF = 1 ∨ (s.tick.srcF = 0 ∧ s.tick.use = some false))) :
    s.numSetLoad v = { s with tick := { s.tick with
      load := some (BitVec.ofNat 48 (v.fld 0 16 * 2 ^ 32 + s.tick.setLo.toNat)), loadLink := false } } := by
  unfold State.numSetLoad
  rw [if_neg (by simp [h]), if_neg src]
  rfl

/-- A whole write of SYS_RTC_SEC. -/
theorem State.pageRow_rtcSec {s : State} (h : s.Serves 0) (v : Word) :
    s.pageRow 0 0x490 v 0xF#4 = s.rtcSecWrite v := by
  have put (be : BitVec 4) : s.regPut none 0 0x490 v be = (s.rtcSecWrite (mergeBytes s.sys.rtcStage v be), 0) := rfl
  refine State.pageRow_of (State.pageReach_of_serves h rfl) ((put 0xF#4).trans ?_)
  rw [mergeBytes_all]

/-- A whole write of SYS_RTC_SUB. -/
theorem State.pageRow_rtcSub {s : State} (h : s.Serves 0) (v : Word) :
    s.pageRow 0 0x494 v 0xF#4 = s.rtcSubWrite v := by
  have put (be : BitVec 4) : s.regPut none 0 0x494 v be =
    (s.rtcSubWrite (mergeBytes (wordOf s.sys.rtcSub) v be), 0) := rfl
  refine State.pageRow_of (State.pageReach_of_serves h rfl) ((put 0xF#4).trans ?_)
  rw [mergeBytes_all]

/-- A page register row that reaches its register has its effect, and counts its clamps. -/
theorem State.pageRow_put {s m : State} {t off k : Nat} {v : Word} {be : BitVec 4}
    (h : s.pageReach t (off / 4 * 4) true = true) (e : s.regPut none t (off / 4 * 4) v be = (m, k))
    (hb : m.sys.bootDone = true) : s.pageRow t off v be = m.clamps t (.host 0 (pageAddr t (off / 4 * 4))) k := by
  simp [State.pageRow, h, e, hb]

theorem State.sys_clamps (s : State) (t : Nat) (p : Path) (k : Nat) : (s.clamps t p k).sys = s.sys := by
  unfold State.clamps
  split
  · rfl
  · dsimp only
    split
    · exact State.raise_sys _ _ _ _
    · rfl

/-- SYS_RTC_TRIM takes the value held at -127, and counts the clamp when it holds. -/
theorem State.rtcTrimWrite_eq (s : State) (v : Word) :
    s.rtcTrimWrite v = if v.toNat % 256 = 128 then
        (s.updSys fun k => { k with rtcTrim := 0x81, rtcAcc := 0 }, 1)
      else (s.updSys fun k => { k with rtcTrim := BitVec.ofNat 8 v.toNat, rtcAcc := 0 }, 0) := by
  have least : BitVec.ofNat 8 v.toNat = 0x80 ↔ v.toNat % 256 = 128 := by
    rw [← BitVec.toNat_inj, BitVec.toNat_ofNat]; exact Iff.rfl
  unfold State.rtcTrimWrite
  simp only [least]
  split <;> rfl

theorem State.pageRow_rtcTrim {s : State} (h : s.Serves 0) (v : Word) :
    s.pageRow 0 0x49C v 0xF#4 = (s.rtcTrimWrite v).1.clamps 0 (.host 0 (pageAddr 0 0x49C)) (s.rtcTrimWrite v).2 := by
  have put (be : BitVec 4) : s.regPut none 0 0x49C v be =
    s.rtcTrimWrite (mergeBytes (s.sys.rtcTrim.setWidth 32) v be) := rfl
  have put := put 0xF#4
  rw [mergeBytes_all] at put
  exact State.pageRow_put (State.pageReach_of_serves h rfl) put h.1

end Sys2Proof.Machine

section
open Sys2Proof Sys2Proof.Machine

/-- Settles O34: each clause by the lemma about what the read or the write of its register does. -/
theorem timeRows : Obligations.TimeRows := by
  unfold Obligations.TimeRows
  intro s
  simp only [exec_tickNumberRead_page, exec_tickNumberRead_cfg, exec_timeSubRead_page, exec_timeSubRead_sys,
    exec_grantViewRead, exec_tickNumSetLoad, exec_rtcSecWrite, exec_rtcSubWrite, exec_rtcTrimWrite]
  refine ⟨fun t h => ⟨?_, ?_, ?_⟩, fun h => ?_, fun h v => ?_, fun h v => ⟨?_, ?_, ?_, fun ne => ?_, fun eq => ?_⟩⟩
  · rw [State.pageRowRead_tick h]
    obtain ⟨self, others, rest⟩ := s.readTen_effect t.val (wordOf s.now) fun T => { T with tickHi := s.now / 2 ^ 32 }
    exact ⟨_, rfl, rfl, by rw [State.pageGet_tickHi, self]; rfl, self, others, rest⟩
  · rw [State.pageRowRead_timeSub h]
    obtain ⟨self, others, rest⟩ :=
      s.readTen_effect t.val (wordOf s.sys.rtcSub) fun T => { T with timeSec := wordOf s.sys.rtcSec }
    exact ⟨_, rfl, rfl, by rw [State.pageGet_timeSec, self]; rfl, self, others, rest⟩
  · rw [State.pageRowRead_grantView h]
    obtain ⟨self, others, rest⟩ := s.readTen_effect t.val (s.grantView t.val) fun T => { T with gv := gvNext T.gv }
    obtain ⟨own, base⟩ := s.grantView_fields t.val _ _ _ rfl rfl rfl
    exact ⟨_, rfl, ⟨own, base, self⟩, others, rest⟩
  · rw [State.cfgRowRead_tickNum h]; rfl
  · rw [State.cfgRow_tickNumSet h]
    refine ⟨fun off => ?_, fun on src => ?_, fun on link auto => ?_⟩
    · rw [State.numSetLoad_off off]
    · rw [State.numSetLoad_rejected on src]
    · rw [State.numSetLoad_taken on (not_or.mpr ⟨link, auto⟩)]
  · rw [State.pageRowRead_rtcSub h]; rfl
  · rw [State.pageRow_rtcSec h]; rfl
  · have low : v.fld 0 15 = v.toNat % 32768 := by simp [Word.fld, fieldOf]
    rw [State.pageRow_rtcSub h, ← low]; rfl
  · rw [State.pageRow_rtcTrim h, State.rtcTrimWrite_eq, if_neg ne]; rfl
  · rw [State.pageRow_rtcTrim h, State.rtcTrimWrite_eq, if_pos eq]
    exact ⟨_, rfl, by rw [State.sys_clamps]; rfl, by rw [State.sys_clamps]; rfl, State.clampCount_clamps_one _ _ _⟩

end
end

section
/-! PROOFS. Every step keeps the part safe (O5); what reset leaves (O3, O4); the actions of SYS_DOOR_CTRL (O7, O8). -/

namespace Sys2Proof.Machine

/-! ## Every step keeps the part safe (R56) -/

/-- Every command keeps the keeper's door open, memory canonical and the queue as it is. -/
theorem exec_kept {pq : List Instr} {s n : State} (h : s.Kept pq) {c : Instr} (e : exec c s = .next n) : n.Kept pq := by
  cases c with
  | boundary => exact execBoundary_kept h e
  | tickSet => exact execTickSet_kept h e
  | dsyncEdge => exact execDsyncEdge_kept h e
  | dsyncClassify => exact execDsyncClassify_kept h e
  | windowEnd => exact execWindowEnd_kept h e
  | loopSlot => exact execLoopSlot_kept h e
  | flashSlot => exact execFlashSlot_kept h e
  | adcSlot => exact execAdcSlot_kept h e
  | cmdSlot => exact execCmdSlot_kept h e
  | sramScrubStep => exact execSramScrubStep_kept h e
  | flashScrubRead => exact execFlashScrubRead_kept h e
  | coalesceSweep => exact execCoalesceSweep_kept h e
  | guardSlot => exact execGuardSlot_kept h e
  | tickNumberRead => exact execTickNumberRead_kept h e
  | tickNumSetLoad => exact execTickNumSetLoad_kept h e
  | registerWrite => exact execRegisterWrite_kept h e
  | readClear => exact execReadClear_kept h e
  | grantStage => exact execGrantStage_kept h e
  | doorNone => exact execDoorNone_kept h e
  | doorOpen => exact execDoorOpen_kept h e
  | doorShut => exact execDoorShut_kept h e
  | doorOpenFlush => exact execDoorOpenFlush_kept h e
  | leakCountExpiry => exact execLeakCountExpiry_kept h e
  | secDoorCfgWrite => exact execSecDoorCfgWrite_kept h e
  | heartbeatWrite => exact execHeartbeatWrite_kept h e
  | heartbeatExpiry => exact execHeartbeatExpiry_kept h e
  | keyLoad => exact execKeyLoad_kept h e
  | keyErase => exact execKeyErase_kept h e
  | hostRead => exact execHostRead_kept h e
  | hostWrite => exact execHostWrite_kept h e
  | hostAccessComplete => exact execHostAccessComplete_kept h e
  | hostStrobeRelease => exact execHostStrobeRelease_kept h e
  | accessAbandon => exact execAccessAbandon_kept h e
  | waitGuardExpiry => exact execWaitGuardExpiry_kept h e
  | postedWriteDrain => exact execPostedWriteDrain_kept h e
  | fenceRead => exact execFenceRead_kept h e
  | pageMaskWrite => exact execPageMaskWrite_kept h e
  | doorbell => exact execDoorbell_kept h e
  | rqHeadWrite => exact execRqHeadWrite_kept h e
  | eqHeadWrite => exact execEqHeadWrite_kept h e
  | winCommitReg => exact execWinCommitReg_kept h e
  | windowConfigWrite => exact execWindowConfigWrite_kept h e
  | echo => exact execEcho_kept h e
  | cfgRead => exact execCfgRead_kept h e
  | cfgWrite => exact execCfgWrite_kept h e
  | cfgModify => exact execCfgModify_kept h e
  | pageRead => exact execPageRead_kept h e
  | pageWrite => exact execPageWrite_kept h e
  | eqRead => exact execEqRead_kept h e
  | winWrite => exact execWinWrite_kept h e
  | winCommit => exact execWinCommit_kept h e
  | flipArm => exact execFlipArm_kept h e
  | flipCancel => exact execFlipCancel_kept h e
  | flashRead => exact execFlashRead_kept h e
  | flashProg => exact execFlashProg_kept h e
  | sectorErase => exact execSectorErase_kept h e
  | store => exact execStore_kept h e
  | load => exact execLoad_kept h e
  | selfTest => exact execSelfTest_kept h e
  | selfTestEnd => exact execSelfTestEnd_kept h e
  | selfTestAbort => exact execSelfTestAbort_kept h e
  | grant => exact execGrant_kept h e
  | pwrReq => exact execPwrReq_kept h e
  | busyRetry => exact execBusyRetry_kept h e
  | commandComplete => exact execCommandComplete_kept h e
  | eventTest => exact execEventTest_kept h e
  | pwrReqOpen => exact execPwrReqOpen_kept h e
  | pwrReqAjar => exact execPwrReqAjar_kept h e
  | pwrReqLouvred => exact execPwrReqLouvred_kept h e
  | pwrReqLatched => exact execPwrReqLatched_kept h e
  | wakeHoldLapse => exact execWakeHoldLapse_kept h e
  | grantViewRead => exact execGrantViewRead_kept h e
  | timeSubRead => exact execTimeSubRead_kept h e
  | rtcSecWrite => exact execRtcSecWrite_kept h e
  | rtcSubWrite => exact execRtcSubWrite_kept h e
  | rtcTrimWrite => exact execRtcTrimWrite_kept h e
  | softReset => exact execSoftReset_kept h e
  | shutterRelease => exact execShutterRelease_kept h e
  | swing => exact execSwing_kept h e
  | swingEnd => exact execSwingEnd_kept h e
  | bootConfirm => exact execBootConfirm_kept h e
  | kstoreSave => exact execKstoreSave_kept h e
  | saveComplete => exact execSaveComplete_kept h e
  | serviceRestart => exact execServiceRestart_kept h e
  | fieldRepair => exact execFieldRepair_kept h e
  | protClear => exact execProtClear_kept h e
  | protInject => exact execProtInject_kept h e
  | flashSectorErase => exact execFlashSectorErase_kept h e
  | flashWordProgram => exact execFlashWordProgram_kept h e
  | eraseSuspend => exact execEraseSuspend_kept h e
  | resume => exact execResume_kept h e
  | statusRead => exact execStatusRead_kept h e
  | resetToRead => exact execResetToRead_kept h e
  | programStart => exact execProgramStart_kept h e
  | programEnd => exact execProgramEnd_kept h e
  | erasePulseEnd => exact execErasePulseEnd_kept h e
  | suspendLimit => exact execSuspendLimit_kept h e
  | borTrip => exact execBorTrip_kept h e
  | borRelease => exact execBorRelease_kept h e
  | resetAssert => exact execResetAssert_kept h e
  | resetRelease => exact execResetRelease_kept h e
  | ledgerRecovery => exact execLedgerRecovery_kept h e
  | bootComplete => exact execBootComplete_kept h e
  | frameReceive => exact execFrameReceive_kept h e
  | ackReceive => exact execAckReceive_kept h e
  | nakReceive _ _ hseq reason => exact execNakReceive_kept (_hseq := hseq) (_reason := reason) h e
  | retransmitTimeout => exact execRetransmitTimeout_kept h e
  | creditReceive => exact execCreditReceive_kept h e
  | receiverLock => exact execReceiverLock_kept h e
  | trainingTimeout => exact execTrainingTimeout_kept h e
  | symbolLoss => exact execSymbolLoss_kept h e
  | dlyReq => exact execDlyReq_kept h e
  | dlyRsp => exact execDlyRsp_kept h e
  | delayRemeasure => exact execDelayRemeasure_kept h e
  | linkctlBreak => exact execLinkctlBreak_kept h e
  | linkctlSleep => exact execLinkctlSleep_kept h e
  | cmd => exact execCmd_kept h e
  | win => exact execWin_kept h e
  | ticknum => exact execTicknum_kept h e
  | wake => exact execWake_kept h e
  | enum => exact execEnum_kept h e
  | cmdRspSend => exact execCmdRspSend_kept h e
  | wakeMessage => exact execWakeMessage_kept h e
  | wakeRepeat => exact execWakeRepeat_kept h e
  | pathHoldEnd => exact execPathHoldEnd_kept h e
  | wakeNTaken => exact execWakeNTaken_kept h e
  | rtcAlarm => exact execRtcAlarm_kept h e
  | keyRowWake => exact execKeyRowWake_kept h e
  | louvre => exact execLouvre_kept h e
  | entryComplete => exact execEntryComplete_kept h e
  | restoreStageDone => exact execRestoreStageDone_kept h e
  | vaoLoss => exact execVaoLoss_kept h e
  | vaoReconnect => exact execVaoReconnect_kept h e
  | powerUp => exact execPowerUp_kept h e
  | goUp => exact execGoUp_kept h e
  | goDown => exact execGoDown_kept h e
  | seqStepDelayEnd => exact execSeqStepDelayEnd_kept h e
  | seqPgChange => exact execSeqPgChange_kept h e
  | pgTimeout => exact execPgTimeout_kept h e
  | seqManWrite => exact execSeqManWrite_kept h e
  | batQWrite => exact execBatQWrite_kept h e
  | coinGo => exact execCoinGo_kept h e
  | coinPeriod => exact execCoinPeriod_kept h e
  | coinMeasureEnd => exact execCoinMeasureEnd_kept h e
  | switchingPeriod => exact execSwitchingPeriod_kept h e
  | dimmingPeriod => exact execDimmingPeriod_kept h e
  | targetWrite => exact execTargetWrite_kept h e
  | fadeEnd => exact execFadeEnd_kept h e
  | lampFaultClear => exact execLampFaultClear_kept h e
  | engineRun => exact execEngineRun_kept h e
  | engineStop => exact execEngineStop_kept h e
  | ramp => exact execRamp_kept h e
  | rotate => exact execRotate_kept h e
  | hold => exact execHold_kept h e
  | loop => exact execLoop_kept h e
  | event => exact execEvent_kept h e
  | peEnd => exact execPeEnd_kept h e
  | engineError => exact execEngineError_kept h e
  | keyColumnStep => exact execKeyColumnStep_kept h e
  | shelfRowDetect => exact execShelfRowDetect_kept h e
  | keyStuck => exact execKeyStuck_kept h e
  | keyMaskWrite => exact execKeyMaskWrite_kept h e
  | conversionEnd => exact execConversionEnd_kept h e
  | calibration => exact execCalibration_kept h e
  | sliceSwap => exact execSliceSwap_kept h e
  | refSelect => exact execRefSelect_kept h e
  | refSettled => exact execRefSettled_kept h e
  | inject => exact execInject_kept h e
  | tapReset => exact execTapReset_kept h e
  | extest => exact execExtest_kept h e
  | samplePreload => exact execSamplePreload_kept h e
  | idcode => exact execIdcode_kept h e
  | highz => exact execHighz_kept h e
  | clamp => exact execClamp_kept h e
  | bypass => exact execBypass_kept h e
  | flashAccWrite => exact execFlashAccWrite_kept h e
  | flashAccRead => exact execFlashAccRead_kept h e
  | flashAccStatus => exact execFlashAccStatus_kept h e
  | unlock => exact execUnlock_kept h e
  | challengeRead => exact execChallengeRead_kept h e
  | challengeResponse => exact execChallengeResponse_kept h e
  | relock => exact execRelock_kept h e
  | peepGroupWrite => exact execPeepGroupWrite_kept h e
  | dataModeSymbolsReceived => exact execDataModeSymbolsReceived_kept h e
  | bothSuppliesAbsent => exact execBothSuppliesAbsent_kept h e
  | tachEdge => exact execTachEdge_kept h e
  | tachSilence => exact execTachSilence_kept h e
  | rowWatchedAgain => exact execRowWatchedAgain_kept h e

/-- A step from a safe state leaves it safe, and takes no more than the front of the queue. -/
theorem State.StepsTo.kept {s n : State} (h : s.Safe) (e : s.StepsTo n) : n.Kept s.pending.tail := by
  unfold State.StepsTo step at e
  split at e
  · next empty =>
    injection e with e
    rw [← e, empty]
    exact State.idleStep_kept ⟨h, empty⟩
  · next c q front =>
    rw [front]
    exact exec_kept (s := { s with pending := q }) ⟨h, rfl⟩ e

end Sys2Proof.Machine

section
open Sys2Proof Sys2Proof.Machine

/-- Settles O5: a step is a command or a cycle of CK_RTC, and each of them keeps the part safe. -/
theorem stepKeepsSafe : Obligations.StepKeepsSafe := by
  unfold Obligations.StepKeepsSafe
  intro s n safe e
  exact (State.StepsTo.kept safe e).1

end
namespace Sys2Proof.Machine

/-! ## Reset (R57) -/

theorem State.door_reset (t : Nat) : State.reset.door t = if t = 0 then .opened else .shut := rfl
theorem State.ten_reset (t : Nat) : State.reset.ten t = Tenant.reset t := rfl
theorem State.cell_reset (c : Nat) : State.reset.cell c = Cell.reset := rfl
theorem State.lamp_reset (n : Nat) : State.reset.lamp n = Lamp.reset := rfl
theorem State.engine_reset (k : Nat) : State.reset.engine k = Engine.reset := rfl
theorem State.key_reset (k : Nat) : State.reset.key k = Key.reset := rfl

/-- After reset no queue of a tenant holds an entry. -/
theorem Tenant.reset_queues_empty (t : Nat) :
    (Tenant.reset t).cqCount = 0 ∧ (Tenant.reset t).rqCount = 0 ∧ (Tenant.reset t).eqCount = 0 := by
  simp [Tenant.cqCount, Tenant.rqCount, Tenant.eqCount, Tenant.reset]

theorem State.door_reset_shut {t : Nat} (h : t ≠ 0) : State.reset.door t = .shut := by
  rw [State.door_reset, if_neg h]

theorem State.reset_safe : State.reset.Safe := ⟨State.door_reset 0, rfl⟩

end Sys2Proof.Machine

section
open Sys2Proof Sys2Proof.Machine

/-- Settles O4: the doors that reset leaves, and the empty memory. -/
theorem resetDoors : Obligations.ResetDoors := by
  unfold Obligations.ResetDoors
  exact ⟨State.reset_safe, fun t ht => State.door_reset_shut (Fin.val_ne_of_ne ht)⟩

/-- Settles O3: every member of a family is as reset leaves one of its kind. -/
theorem resetLeaves : Obligations.ResetLeaves := by
  unfold Obligations.ResetLeaves
  simp only [State.ten_reset, State.cell_reset, State.lamp_reset, State.engine_reset, State.key_reset]
  refine ⟨State.door_reset 0, fun t ht => State.door_reset_shut ht, fun t => ?_, rfl, fun _ => rfl, fun _ => rfl,
    fun _ => rfl, fun _ => rfl, rfl, rfl, rfl, rfl⟩
  obtain ⟨cq, rq, eq⟩ := Tenant.reset_queues_empty t
  exact ⟨rfl, cq, rq, eq, rfl, rfl, rfl, rfl⟩

end

namespace Sys2Proof.Machine

/-! ## SYS_DOOR_CTRL (R67, R68, Table 3.12) -/

theorem exec_doorNone (s : State) (t : Fin 32) :
    exec (.doorNone t) s = .next (s.pageRow 0 0x424 (wordOf t.val) 0xF#4) := rfl
theorem exec_doorOpen (s : State) (t : Fin 32) :
    exec (.doorOpen t) s = .next (s.pageRow 0 0x424 (wordOf (t.val + 32)) 0xF#4) := rfl
theorem exec_doorShut (s : State) (t : Fin 32) :
    exec (.doorShut t) s = .next (s.pageRow 0 0x424 (wordOf (t.val + 64)) 0xF#4) := rfl
theorem exec_doorOpenFlush (s : State) (t : Fin 32) :
    exec (.doorOpenFlush t) s = .next (s.pageRow 0 0x424 (wordOf (t.val + 96)) 0xF#4) := rfl

/-- The word of SYS_DOOR_CTRL with TENANT and ACTION. -/
theorem wordOf_doorCtrl_fields (t : Fin 32) (act : Fin 4) :
    (wordOf (t.val + 32 * act.val)).fld 0 5 = t.val ∧ (wordOf (t.val + 32 * act.val)).fld 5 2 = act.val := by
  simp only [Word.fld, fieldOf, wordOf, BitVec.toNat_ofNat]
  omega

/-- A whole write of SYS_DOOR_CTRL is an action on a door. -/
theorem State.pageRow_doorCtrl {s : State} (h : s.Serves 0) (t : Fin 32) (act : Fin 4) :
    s.pageRow 0 0x424 (wordOf (t.val + 32 * act.val)) 0xF#4 = s.doorAct t.val act.val := by
  obtain ⟨tenant, action⟩ := wordOf_doorCtrl_fields t act
  have put (v : Word) : s.regPut none 0 0x424 v 0xF#4 = (s.doorAct (v.fld 0 5) (v.fld 5 2), 0) := rfl
  refine State.pageRow_of (State.pageReach_of_serves h rfl) ((put _).trans ?_)
  rw [tenant, action]

/-- The tenant that SYS_DOOR_CTRL names. -/
def State.selDoor (s : State) (t : Nat) : State := s.updSys fun k => { k with doorSel := t }

theorem execDoorNone_eq {s : State} (h : s.Serves 0) (t : Fin 32) : exec (.doorNone t) s = .next (s.selDoor t.val) :=
  congrArg _ (State.pageRow_doorCtrl h t 0)
theorem execDoorOpen_eq {s : State} (h : s.Serves 0) (t : Fin 32) :
    exec (.doorOpen t) s = .next ((s.selDoor t.val).askOpen t.val false) := congrArg _ (State.pageRow_doorCtrl h t 1)
theorem execDoorShut_eq {s : State} (h : s.Serves 0) (t : Fin 32) :
    exec (.doorShut t) s = .next ((s.selDoor t.val).shutDoor t.val) := congrArg _ (State.pageRow_doorCtrl h t 2)
theorem execDoorOpenFlush_eq {s : State} (h : s.Serves 0) (t : Fin 32) :
    exec (.doorOpenFlush t) s = .next ((s.selDoor t.val).askOpen t.val true) :=
  congrArg _ (State.pageRow_doorCtrl h t 3)

/-- OPEN and OPEN_FLUSH have no effect at an open door, nor at the keeper's. -/
theorem State.askOpen_open {s : State} {t : Nat} (h : t = 0 ∨ s.door t = .opened) (flush : Bool) :
    s.askOpen t flush = s := if_pos h

/-- At any other door they wait for slot 0. -/
theorem State.askOpen_waits {s : State} {t : Nat} (ht : t ≠ 0) (hd : s.door t ≠ .opened) (flush : Bool) :
    s.askOpen t flush = s.updTen t fun T => { T with doorPend := some flush } := if_neg (not_or.mpr ⟨ht, hd⟩)

/-! ## SHUT (R67) -/

theorem State.setDoor_shape (s : State) (t : Nat) (d : DoorSt) :
    s.setDoor t d = { s with doors := (s.setDoor t d).doors } := by
  unfold State.setDoor
  split <;> rfl

/-- The settling of a link buffer changes nothing but the link. -/
theorem State.bufSettle_shape (s : State) (b : Nat) : s.bufSettle b = { s with link := (s.bufSettle b).link } := by
  unfold State.bufSettle
  split
  · split <;> rfl
  · rfl

/-- Effects one after the other that change nothing but the link. -/
theorem State.each_link_shape {f : State → Nat → State} (hf : ∀ s n, f s n = { s with link := (f s n).link })
    (s : State) (ns : List Nat) : s.each ns f = { s with link := (s.each ns f).link } := by
  induction ns generalizing s with
  | nil => rfl
  | cons n ns ih =>
    exact (ih (f s n)).trans (congrArg (fun x : State => { x with link := (State.each (f s n) ns f).link }) (hf s n))

/-- Link slots that are dropped change nothing but the link. -/
theorem State.dropLinkSlots_shape (s : State) (t : Nat) :
    s.dropLinkSlots t = { s with link := (s.dropLinkSlots t).link } := by
  unfold State.dropLinkSlots
  exact State.each_link_shape (fun _ b => by exact State.bufSettle_shape _ b) _ _

theorem State.shutDoor_keeper (s : State) : s.shutDoor 0 = s := if_pos rfl

/-- SHUT of a door that is not SHUT. -/
theorem State.shutDoor_closes {s : State} {t : Nat} (ht : t ≠ 0) (hd : s.door t ≠ .shut) :
    s.shutDoor t = ((s.setDoor t .shut).updTen t Tenant.emptied).dropLinkSlots t := by
  rw [State.shutDoor, if_neg ht, if_neg hd]

/-- What SHUT of a door that is not SHUT leaves: the tenant emptied behind a door that is SHUT, all other tenants and
doors as they were, and beside them only the link changed. -/
theorem State.shutDoor_effect {s : State} {t : Nat} (ht : t ≠ 0) (hd : s.door t ≠ .shut) :
    (s.shutDoor t).door t = .shut ∧ (s.shutDoor t).ten t = (s.ten t).emptied ∧
      (∀ u, u ≠ t → (s.shutDoor t).ten u = s.ten u ∧ (s.shutDoor t).door u = s.door u) ∧
      s.shutDoor t = { s with
        doors := (s.shutDoor t).doors, tens := (s.shutDoor t).tens, link := (s.shutDoor t).link } := by
  have shape : s.shutDoor t = { s with
      doors := (s.setDoor t .shut).doors, tens := (s.updTen t Tenant.emptied).tens, link := (s.shutDoor t).link } := by
    have closed : (s.setDoor t .shut).updTen t Tenant.emptied =
        { s with doors := (s.setDoor t .shut).doors, tens := (s.updTen t Tenant.emptied).tens } := by
      conv_lhs => rw [State.setDoor_shape]
      rfl
    rw [State.shutDoor_closes ht hd, State.dropLinkSlots_shape, closed]
  have door (u : Nat) : (s.shutDoor t).door u = (s.setDoor t .shut).door u := by rw [shape]; rfl
  have ten (u : Nat) : (s.shutDoor t).ten u = (s.updTen t Tenant.emptied).ten u := by rw [shape]; rfl
  refine ⟨?_, ?_, fun u hu => ⟨?_, ?_⟩, ?_⟩
  · rw [door, State.door_setDoor, if_pos ⟨rfl, ht⟩]
  · rw [ten, State.ten_updTen_self]
  · rw [ten, State.ten_updTen_ne _ _ hu]
  · rw [door, State.door_setDoor, if_neg fun h => hu h.1]
  · rw [shape]

/-- Behind a door that is SHUT no interrupt is driven (R103). -/
theorem State.tirqLow_shut {s : State} {t : Nat} (h : s.door t = .shut) : s.tirqLow t = false := by
  simp [State.tirqLow, h]

end Sys2Proof.Machine

section
open Sys2Proof Sys2Proof.Machine

/-- Settles O7: each action by the lemma about the doors that it has an effect at. -/
theorem doorNoneOpenFlush : Obligations.DoorNoneOpenFlush := by
  unfold Obligations.DoorNoneOpenFlush
  intro s t h
  rw [execDoorNone_eq h, execDoorOpen_eq h, execDoorOpenFlush_eq h]
  refine ⟨rfl, fun ht hd => ⟨?_, ?_⟩, fun hd => ?_⟩
  · rw [State.askOpen_waits (s := s.selDoor t.val) (Fin.val_ne_of_ne ht) hd]
    have self := (s.selDoor t.val).ten_updTen_self t.val fun T => { T with doorPend := some false }
    exact ⟨_, rfl, by rw [self], self, fun u hu => State.ten_updTen_ne _ _ hu, rfl⟩
  · rw [State.askOpen_waits (s := s.selDoor t.val) (Fin.val_ne_of_ne ht) hd]
    exact ⟨_, rfl, State.ten_updTen_self _ _ _, fun u hu => State.ten_updTen_ne _ _ hu, rfl⟩
  · have hd : t.val = 0 ∨ (s.selDoor t.val).door t.val = .opened := hd.imp_left (congrArg Fin.val)
    exact ⟨congrArg _ (State.askOpen_open hd false), congrArg _ (State.askOpen_open hd true)⟩

/-- Settles O8: what SHUT leaves, and the registers of a tenant emptied. -/
theorem doorShut : Obligations.DoorShut := by
  unfold Obligations.DoorShut
  intro s t h
  rw [execDoorShut_eq h t, execDoorShut_eq h 0]
  refine ⟨fun ht hd => ?_, congrArg _ (State.shutDoor_keeper _)⟩
  obtain ⟨shut, self, others, rest⟩ := State.shutDoor_effect (s := s.selDoor t.val) (Fin.val_ne_of_ne ht) hd
  refine ⟨_, rfl, shut, ?_, ?_, ?_, ?_, ?_, ?_, ?_, fun w => ⟨?_, ?_⟩, ?_, State.tirqLow_shut shut, others,
    fun a => ?_, rest⟩
  any_goals rw [self]; rfl
  rw [rest]; rfl

end
end

section
/-! PROOFS. The leak count and the heartbeat (O9), SEC_DOOR_CFG and the keys (O10), and a staged grant (O11). -/

namespace Sys2Proof.Machine

/-! ## Leak counts and heartbeats (R69 to R71) -/

theorem exec_leakCountExpiry (s : State) (t : Fin 32) :
    exec (.leakCountExpiry t) s = .next (s.leakExpire t.val) := rfl
theorem exec_heartbeatWrite (s : State) (t : Fin 32) (v : Word) :
    exec (.heartbeatWrite t v) s = .next (s.pageRow t.val 0xB8 v 0xF#4) := rfl
theorem exec_heartbeatExpiry (s : State) (t : Fin 32) : exec (.heartbeatExpiry t) s = .next (s.hbExpire t.val) := rfl

theorem State.leakExpire_due {s : State} {t : Nat} (h : (s.ten t).leakTicks ≤ (s.ten t).leak) :
    s.leakExpire t = s.updTen t fun T => { T with leak := 0, chkCnt := T.chkCnt - 1, authCnt := T.authCnt - 1 } :=
  if_pos h

theorem State.leakExpire_early {s : State} {t : Nat} (h : (s.ten t).leak < (s.ten t).leakTicks) :
    s.leakExpire t = s := if_neg (Nat.not_le.mpr h)

/-- A whole write of HEARTBEAT of a served tenant. -/
theorem State.pageRow_heartbeat {s : State} {t : Nat} (h : s.Serves t) (v : Word) :
    s.pageRow t 0xB8 v 0xF#4 = s.heartbeat t v := by
  have put (be : BitVec 4) : s.regPut none t 0xB8 v be = (s.heartbeat t (mergeBytes (s.ten t).heartbeat v be), 0) := rfl
  refine State.pageRow_of (State.pageReach_of_serves h rfl) ((put 0xF#4).trans ?_)
  rw [mergeBytes_all]

end Sys2Proof.Machine

section
open Sys2Proof Sys2Proof.Machine

/-- Settles O9: one tenant changed in each clause, and the door of a supervisor that has run out. -/
theorem leakAndHeartbeat : Obligations.LeakAndHeartbeat := by
  unfold Obligations.LeakAndHeartbeat
  intro s t
  simp only [exec_leakCountExpiry, exec_heartbeatWrite, exec_heartbeatExpiry]
  refine ⟨fun due => ?_, fun early => ?_, fun h v => ?_, fun ht ticks left door pwr => ?_, fun h => ?_⟩
  · rw [State.leakExpire_due due]
    exact ⟨_, rfl, State.ten_updTen_self _ _ _, State.updTen_onlyTenant _ _ _⟩
  · rw [State.leakExpire_early early]
  · rw [State.pageRow_heartbeat h]
    exact ⟨_, rfl, State.ten_updTen_self _ _ _, State.updTen_onlyTenant _ _ _⟩
  · exact ⟨_, rfl, if_pos ⟨Fin.val_ne_of_ne ht, ticks, left, door, pwr⟩⟩
  · refine congrArg _ (if_neg fun ⟨ht, ticks, left, door, pwr⟩ => ?_)
    rcases h with h | h | h | h | h
    · exact ht (congrArg Fin.val h)
    · exact ticks h
    · exact h left
    · exact h door
    · exact h pwr

end

namespace Sys2Proof.Machine

/-! ## What counting clamps leaves unchanged (R137, R396) -/

/-- Clamps that are counted change tenants, memory with its check bits, and the events held; nothing else. -/
theorem State.clamps_shape (s : State) (t : Nat) (p : Path) (k : Nat) :
    s.clamps t p k = { s with
      tens := (s.clamps t p k).tens, mem := (s.clamps t p k).mem, ecc := (s.clamps t p k).ecc,
      held := (s.clamps t p k).held } := by
  unfold State.clamps
  split
  · rfl
  · dsimp only
    split
    · rw [State.raise_shape]; rfl
    · rfl

/-- Of a tenant they change the count and its flag, and what an event changes. -/
theorem State.ten_clamps_shape (s : State) (t : Nat) (p : Path) (k u : Nat) :
    (s.clamps t p k).ten u = { s.ten u with
      clamps := ((s.clamps t p k).ten u).clamps, irqClamp := ((s.clamps t p k).ten u).irqClamp,
      eqTail := ((s.clamps t p k).ten u).eqTail, pend := ((s.clamps t p k).ten u).pend } := by
  have counted (f : Tenant → Tenant) (hf : ∀ T, f T = { T with clamps := (f T).clamps, irqClamp := (f T).irqClamp }) :
      (s.updTen t f).ten u = { s.ten u with
        clamps := ((s.updTen t f).ten u).clamps, irqClamp := ((s.updTen t f).ten u).irqClamp } := by
    rw [State.ten_updTen]
    split
    · next h => rw [h]; exact hf _
    · rfl
  unfold State.clamps
  split
  · rfl
  · dsimp only
    split
    · rw [State.ten_raise_shape, counted]
      exact fun _ => rfl
    · rw [counted]
      exact fun _ => rfl

/-! ## Grants (R60, R62) -/

theorem exec_grantStage (s : State) (v : Word) : exec (.grantStage v) s = .next (s.pageRow 0 0x434 v 0xF#4) := rfl

/-- A whole write of SYS_GRANT_DATA stages an entry, and counts its clamps. -/
theorem State.pageRow_grantData {s : State} (h : s.Serves 0) (v : Word) :
    s.pageRow 0 0x434 v 0xF#4 =
      (s.grantStage v).1.clamps 0 (.host 0 (pageAddr 0 0x434)) (s.grantStage v).2.1 := by
  have put (be : BitVec 4) : s.regPut none 0 0x434 v be =
    ((s.grantStage (mergeBytes s.grantData v be)).1, (s.grantStage (mergeBytes s.grantData v be)).2.1) := rfl
  have put := put 0xF#4
  rw [mergeBytes_all] at put
  refine State.pageRow_put (State.pageReach_of_serves h rfl) put ?_
  unfold State.grantStage
  dsimp only
  split
  · exact h.1
  · split <;> exact h.1

/-- INDEX of SYS_GRANT_IDX after an access of SYS_GRANT_DATA. -/
def State.grantIdxNext (s : State) : Nat :=
  if s.grants.ainc then nextIndex s.grants.cls s.grants.idx else s.grants.idx

/-- The state with an entry staged at SYS_GRANT_IDX. -/
def State.stageEntry (s : State) (g : StagedGrant) : State :=
  { s with grants := { s.grants with
      staged := SMap.set (fun _ => none) s.grants.staged (512 * s.grants.cls + s.grants.idx) (some g),
      idx := s.grantIdxNext } }

theorem State.stagedOf_stageEntry (s : State) (g : StagedGrant) (c j : Nat) :
    (s.stageEntry g).stagedOf c j =
      if 512 * c + j = 512 * s.grants.cls + s.grants.idx then some g else s.stagedOf c j :=
  SMap.get_set (fun _ => none) s.grants.staged (512 * s.grants.cls + s.grants.idx) (512 * c + j) (some g)

theorem State.stagedOf_clamps (s : State) (t : Nat) (p : Path) (k c j : Nat) :
    (s.clamps t p k).stagedOf c j = s.stagedOf c j := by rw [State.clamps_shape]; rfl

theorem State.grants_clamps (s : State) (t : Nat) (p : Path) (k : Nat) : (s.clamps t p k).grants = s.grants := by
  rw [State.clamps_shape]

/-- An extent that overlaps another one of its class is refused (R62). -/
theorem State.grantStage_overlap {s : State} {v : Word} (hc : 8 ≤ s.grants.cls)
    (ho : s.overlaps s.grants.cls s.grants.idx (grantWrite s.grants.cls v).1 = true) :
    s.grantStage v = ({ s with grants := { s.grants with err := true, idx := s.grantIdxNext } }, 0, true) :=
  if_pos (by simp [hc, ho])

/-- A routed event takes no entry (R59). -/
theorem State.grantStage_routed {s : State} {v : Word} (hc : s.grants.cls = 7) (hr : evRouted s.grants.idx = true) :
    s.grantStage v = ({ s with grants := { s.grants with idx := s.grantIdxNext } }, 0, false) := by
  unfold State.grantStage
  dsimp only
  rw [if_neg (by simp [hc]), if_pos ⟨hc, hr⟩]
  rfl

/-- Any other entry is staged (R60). -/
theorem State.grantStage_stages {s : State} {v : Word}
    (ho : ¬(8 ≤ s.grants.cls ∧ s.overlaps s.grants.cls s.grants.idx (grantWrite s.grants.cls v).1 = true))
    (hr : ¬(s.grants.cls = 7 ∧ evRouted s.grants.idx = true)) :
    s.grantStage v =
      (s.stageEntry (grantWrite s.grants.cls v).1, (grantWrite s.grants.cls v).2, false) := by
  unfold State.grantStage
  dsimp only
  rw [if_neg (by simpa using ho), if_neg hr]
  rfl

end Sys2Proof.Machine

section
open Sys2Proof Sys2Proof.Machine

/-- Settles O11: the three ends of a write of SYS_GRANT_DATA; a clamp that is counted leaves the grants as they are. -/
theorem grantStageRow : Obligations.GrantStageRow := by
  unfold Obligations.GrantStageRow
  intro s v h
  dsimp only
  rw [exec_grantStage, State.pageRow_grantData h]
  refine ⟨fun hc ho => ?_, fun hc hr => ?_, fun ho hr => ?_⟩
  · rw [State.grantStage_overlap hc ho]; rfl
  · rw [State.grantStage_routed hc hr]; rfl
  · rw [State.grantStage_stages ho hr]
    refine ⟨_, rfl, ?_, fun c j away => ?_, ?_, ?_, fun unclamped => ?_⟩
    · rw [State.stagedOf_clamps, State.stagedOf_stageEntry, if_pos rfl]
    · rw [State.stagedOf_clamps, State.stagedOf_stageEntry, if_neg away]
    · rw [State.grants_clamps]; rfl
    · rw [State.grants_clamps]; rfl
    · rw [unclamped]; rfl

end

namespace Sys2Proof.Machine

/-! ## SEC registers (R69, R78, R79, Table 3.13) -/

theorem exec_secDoorCfgWrite (s : State) (v : Word) :
    exec (.secDoorCfgWrite v) s = .next (s.cfgRow 0 0x300D0004 v 0xF#4) := rfl
theorem exec_keyLoad (s : State) (persist : Bool) :
    exec (.keyLoad persist) s = .next (s.cfgRow 0 0x300D0040 (wordOf (1 + 2 * bitNat persist)) 0xF#4) := rfl
theorem exec_keyErase (s : State) (load : Bool) :
    exec (.keyErase load) s = .next (s.cfgRow 0 0x300D0040 (wordOf (4 + bitNat load)) 0xF#4) := rfl

/-- A limit of SEC_DOOR_CFG as written in a field. -/
theorem put_limit {lo w x m : Nat} (hx : x ≤ m) (hm : m < 2 ^ w) (h1 : 1 ≤ m) :
    (uf lo w 1 m).put (clampInt 1 m x) = max 1 x * 2 ^ lo := by
  have held : clampInt 1 m x = (max 1 x : Nat) := by unfold clampInt; split <;> omega
  have fits : max 1 x < 2 ^ w := by omega
  rw [held, Fld.put, twosOf]
  norm_cast
  exact congrArg (· * 2 ^ lo) (Nat.mod_eq_of_lt fits)

/-- The fields of SEC_DOOR_CFG (Table 3.13). -/
def limitFlds : List Fld := [uf 0 8 1 255, uf 8 8 1 255, uf 16 16 1 65535]

/-- SEC_DOOR_CFG as a write leaves it: each limit at least 1. -/
def heldLimits (v : Word) : Word :=
  wordOf (max 1 (v.fld 0 8) + max 1 (v.fld 8 8) * 2 ^ 8 + max 1 (v.fld 16 16) * 2 ^ 16)

theorem fld_lt (v : Word) (lo w : Nat) : v.fld lo w < 2 ^ w := Nat.mod_lt _ (Nat.two_pow_pos w)

theorem writeFields_limits_value (v : Word) : wordOf (writeFields limitFlds v).1 = heldLimits v := by
  have chk : v.fld 0 8 < 2 ^ 8 := fld_lt v 0 8
  have auth : v.fld 8 8 < 2 ^ 8 := fld_lt v 8 8
  have leak : v.fld 16 16 < 2 ^ 16 := fld_lt v 16 16
  have put0 := put_limit (lo := 0) (w := 8) (x := v.fld 0 8) (m := 255) (by omega) (by decide) (by decide)
  have put1 := put_limit (lo := 8) (w := 8) (x := v.fld 8 8) (m := 255) (by omega) (by decide) (by decide)
  have put2 := put_limit (lo := 16) (w := 16) (x := v.fld 16 16) (m := 65535) (by omega) (by decide) (by decide)
  refine congrArg wordOf (?_ : 0 + (uf 0 8 1 255).put (clampInt 1 255 (v.fld 0 8)) +
    (uf 8 8 1 255).put (clampInt 1 255 (v.fld 8 8)) + (uf 16 16 1 65535).put (clampInt 1 65535 (v.fld 16 16)) = _)
  norm_cast at put0 put1 put2 ⊢
  omega

/-- The limits that are written hold, each of at least 1. -/
theorem heldLimits_fields (v : Word) :
    (heldLimits v).fld 0 8 = max 1 (v.fld 0 8) ∧ (heldLimits v).fld 8 8 = max 1 (v.fld 8 8) ∧
      (heldLimits v).fld 16 16 = max 1 (v.fld 16 16) := by
  have chk : max 1 (v.fld 0 8) < 2 ^ 8 := max_lt (by decide) (fld_lt v 0 8)
  have auth : max 1 (v.fld 8 8) < 2 ^ 8 := max_lt (by decide) (fld_lt v 8 8)
  have leak : max 1 (v.fld 16 16) < 2 ^ 16 := max_lt (by decide) (fld_lt v 16 16)
  unfold heldLimits
  generalize max 1 (v.fld 0 8) = a at chk
  generalize max 1 (v.fld 8 8) = b at auth
  generalize max 1 (v.fld 16 16) = c at leak
  simp only [Word.fld, fieldOf, wordOf, BitVec.toNat_ofNat]
  omega

/-- Nothing is clamped where no limit is written as 0. -/
theorem limits_unclamped {v : Word} (chk : v.fld 0 8 ≠ 0) (auth : v.fld 8 8 ≠ 0) (leak : v.fld 16 16 ≠ 0) :
    heldLimits v = v ∧ (writeFields limitFlds v).2 = 0 := by
  have within {x m : Nat} (h : x ≠ 0) (hm : x ≤ m) : clampInt 1 m x = x := by unfold clampInt; split <;> omega
  constructor
  · apply BitVec.eq_of_toNat_eq
    have whole := v.isLt
    simp only [heldLimits, Word.fld, fieldOf, wordOf, BitVec.toNat_ofNat] at chk auth leak ⊢
    omega
  · have chk := within chk (Nat.le_of_lt_succ (fld_lt v 0 8))
    have auth := within auth (Nat.le_of_lt_succ (fld_lt v 8 8))
    have leak := within leak (Nat.le_of_lt_succ (fld_lt v 16 16))
    exact congrArg₂ (· + ·) (congrArg₂ (· + ·) (congrArg (0 + ·) (if_pos chk)) (if_pos auth)) (if_pos leak)

/-- The selected tenant with new limits and its leak count at 0. -/
def State.setLimits (s : State) (v : Word) : State := s.updTen s.secTen fun T => { T with doorCfg := v, leak := 0 }

/-- A whole write of SEC_DOOR_CFG, before its clamps are counted. -/
theorem State.cfgPut_secDoorCfg (s : State) (v : Word) :
    s.cfgPut none 0x300D0004 v 0xF#4 = (s.setLimits (heldLimits v), (writeFields limitFlds v).2) := by
  have put : s.cfgPut none 0x300D0004 v 0xF#4 = s.doorCfgWrite (mergeBytes (s.getSec 4) v 0xF#4) := rfl
  rw [put, mergeBytes_all, ← writeFields_limits_value]
  rfl

/-- SEC_DOOR_CFG sets the limits as held, and the leak count restarts (R69); beside the clamps nothing else changes. -/
theorem State.cfgRow_secDoorCfg {s n : State} (h : s.cfgReach 0 0x300D0004 true = true) (free : s.testing 3 = false)
    {v : Word} (hn : s.cfgRow 0 0x300D0004 v 0xF#4 = n) :
    ((writeFields limitFlds v).2 = 0 → n = s.setLimits (heldLimits v)) ∧
      (n.ten s.secTen).leak = 0 ∧ (n.ten s.secTen).doorCfg = heldLimits v := by
  have held : s.cfgHeld (0x300D0004 / 4 * 4) = false := free
  have put := s.cfgPut_secDoorCfg v
  have stored : (s.setLimits (heldLimits v)).ten s.secTen = { s.ten s.secTen with doorCfg := heldLimits v, leak := 0 } :=
    State.ten_updTen_self _ _ _
  by_cases unclamped : (writeFields limitFlds v).2 = 0
  · rw [unclamped] at put
    have row : n = s.setLimits (heldLimits v) := hn.symm.trans (State.cfgRow_of h held put)
    rw [row, stored]
    exact ⟨fun _ => rfl, rfl, rfl⟩
  · have booted : s.sys.bootDone = true := State.bootDone_of_cfgReach h
    have row := hn.symm.trans (State.cfgRow_clamped h held put unclamped booted)
    rw [row, State.ten_clamps_shape, State.ten_drawn, stored]
    exact ⟨fun h => absurd h unclamped, rfl, rfl⟩

/-! ## SEC_KEY_CTRL (R78, R79) -/

/-- A whole write of SEC_KEY_CTRL. -/
theorem State.cfgRow_keyCtrl {s : State} (h : s.cfgReach 0 0x300D0040 true = true) (free : s.testing 3 = false)
    (w : Word) : s.cfgRow 0 0x300D0040 w 0xF#4 = s.keyCtrl w := by
  have held : s.cfgHeld (0x300D0040 / 4 * 4) = false := free
  have put (be : BitVec 4) : s.cfgPut none 0x300D0040 w be = (s.keyCtrl (woBytes w be), 0) := rfl
  refine State.cfgRow_of h held ((put 0xF#4).trans ?_)
  rw [woBytes_all]

/-- LOAD without ERASE. -/
theorem State.keyCtrl_load (s : State) (persist : Bool) :
    s.keyCtrl (wordOf (1 + 2 * bitNat persist)) = s.keyLoad persist := by cases persist <;> rfl

/-- LOAD stages the key for one tenant, and clears the staging registers. -/
theorem State.keyLoad_effect (s : State) (persist : Bool) :
    (s.keyLoad persist).ten s.secTen = { s.ten s.secTen with keyNew := some (s.stagedKey, persist) } ∧
      (∀ u, u ≠ s.secTen → (s.keyLoad persist).ten u = s.ten u) ∧
      s.keyLoad persist = { s with tens := (s.keyLoad persist).tens, keyStage := 0 } :=
  let f (T : Tenant) : Tenant := { T with keyNew := some (s.stagedKey, persist) }
  ⟨s.ten_updTen_self s.secTen f, fun _ hu => s.ten_updTen_ne f hu, rfl⟩

/-- ERASE, alone or with LOAD. -/
theorem State.keyCtrl_erase (s : State) (load : Bool) : s.keyCtrl (wordOf (4 + bitNat load)) = s.keyErase load := by
  cases load <;> rfl

/-- The part of an ERASE that takes place at once: the keys of the selected tenant and its record, and with LOAD the
staging registers. -/
def State.keysCleared (s : State) (load : Bool) : State :=
  { s.updTen s.secTen fun T => { T with key := none, keyNew := none } with
    sealed := SMap.set (fun _ => none) s.sealed s.secTen none, keyStage := if load then 0 else s.keyStage }

theorem State.keysCleared_effect (s : State) (load : Bool) :
    (s.keysCleared load).ten s.secTen = { s.ten s.secTen with key := none, keyNew := none } ∧
      (∀ u, u ≠ s.secTen → (s.keysCleared load).ten u = s.ten u) ∧
      SMap.get (fun _ => none) (s.keysCleared load).sealed s.secTen = none :=
  let f (T : Tenant) : Tenant := { T with key := none, keyNew := none }
  ⟨s.ten_updTen_self s.secTen f, fun _ hu => s.ten_updTen_ne f hu,
    SMap.get_set_self (fun _ => none) s.sealed s.secTen none⟩

/-- ERASE of a tenant with a sealed record gives the flash controller a job. -/
theorem State.keyErase_held {s : State} (h : s.sealHeld s.secTen = true) (load : Bool) :
    s.keyErase load = (s.keysCleared load).sealJob s.secTen none := if_pos h

theorem State.keyErase_free {s : State} (h : s.sealHeld s.secTen = false) (load : Bool) :
    s.keyErase load = s.keysCleared load := if_neg (by simp [h])

/-- Operations newly asked for join the queue, or those that wait for the end of an entry. -/
theorem State.mem_enqueueNew (s : State) (ops : List FlashOp) (o : FlashOp) :
    o ∈ (s.enqueueNew ops).flash.queue ++ (s.enqueueNew ops).flash.wait ↔
      o ∈ s.flash.queue ++ s.flash.wait ∨ o ∈ ops := by
  unfold State.enqueueNew State.enqueue
  split <;> simp only [List.mem_append] <;> tauto

theorem State.enqueueNew_shape (s : State) (ops : List FlashOp) :
    s.enqueueNew ops = { s with flash := { s.flash with
      queue := (s.enqueueNew ops).flash.queue, wait := (s.enqueueNew ops).flash.wait } } := by
  unfold State.enqueueNew State.enqueue
  split <;> rfl

/-- A job on a sealed record changes nothing but the operations that wait and the count of free values. -/
theorem State.sealJob_shape (s : State) (t : Nat) (key : Option (BitVec 256)) :
    s.sealJob t key = { s with
      free := (s.sealJob t key).free
      flash := { s.flash with queue := (s.sealJob t key).flash.queue, wait := (s.sealJob t key).flash.wait } } := by
  unfold State.sealJob
  dsimp only
  rw [State.enqueueNew_shape]
  rfl

/-- Every operation of a job on a sealed record is of that job. -/
theorem State.job_of_mem_sealOps {s : State} {j : Job} {o : FlashOp} (h : o ∈ s.sealOps j) : o.job = j := by
  simp only [State.sealOps, List.mem_append, List.mem_map, List.mem_singleton] at h
  rcases h with (h | ⟨_, _, rfl⟩) | rfl
  · split at h
    · rw [List.mem_singleton.mp h]; rfl
    · cases h
  · rfl
  · rfl

/-- The job ends with its report. -/
theorem State.done_mem_sealOps (s : State) (j : Job) : ∃ k, FlashOp.done k 0 j ∈ s.sealOps j :=
  ⟨_, List.mem_append_right _ (List.mem_singleton.mpr rfl)⟩

/-- The job of a tenant's sealed record stands with those that wait. -/
theorem State.done_mem_sealJob (s : State) (t : Nat) (key : Option (BitVec 256)) :
    ∃ k, FlashOp.done k 0 (.sealing t key) ∈ (s.sealJob t key).flash.queue ++ (s.sealJob t key).flash.wait := by
  unfold State.sealJob
  dsimp only
  obtain ⟨k, mem⟩ := State.done_mem_sealOps _ (.sealing t key)
  exact ⟨k, (State.mem_enqueueNew _ _ _).mpr (.inr mem)⟩

/-- No other job for the same tenant stands with it: those that had not ended are void. -/
theorem State.root_of_mem_sealJob {s : State} {t : Nat} {key : Option (BitVec 256)} {o : FlashOp}
    (h : o ∈ (s.sealJob t key).flash.queue ++ (s.sealJob t key).flash.wait) {k : Option (BitVec 256)}
    (root : o.job.root = .sealing t k) : k = key := by
  unfold State.sealJob at h
  rcases (State.mem_enqueueNew _ _ _).mp h with old | new
  · simp [root] at old
  · rw [State.job_of_mem_sealOps new] at root
    injection root with _ e
    exact e.symm

/-- A tenant without a sealed record has no operation queued that writes one. -/
theorem State.root_of_sealHeld_false {s : State} {t : Nat} (h : s.sealHeld t = false) {o : FlashOp}
    (ho : o ∈ s.flash.queue ++ s.flash.wait) (k : BitVec 256) : o.job.root ≠ .sealing t (some k) := by
  intro root
  simp only [State.sealHeld, Bool.or_eq_false_iff, List.any_eq_false] at h
  have mem : o ∈ s.flash.running ++ s.flash.queue ++ s.flash.wait := by
    rw [List.append_assoc]
    exact List.mem_append_right _ ho
  refine h.2 o mem ?_
  simp [root]

end Sys2Proof.Machine

section
open Sys2Proof Sys2Proof.Machine

/-- Settles O10: the held rows; then the limits, the key staged, and the key erased with or without a record. -/
theorem secRows : Obligations.SecRows := by
  unfold Obligations.SecRows
  intro s
  simp only [exec_secDoorCfgWrite, exec_keyLoad, exec_keyErase]
  refine ⟨fun busy => ⟨fun h v => ?_, fun h persist => ?_, fun h load => ?_⟩, fun free h v => ?_,
    fun free h persist => ?_, fun free h load => ?_⟩
  · rw [State.cfgRow_held h (show s.cfgHeld (0x300D0004 / 4 * 4) = true from busy)]; rfl
  · rw [State.cfgRow_held h (show s.cfgHeld (0x300D0040 / 4 * 4) = true from busy)]; rfl
  · rw [State.cfgRow_held h (show s.cfgHeld (0x300D0040 / 4 * 4) = true from busy)]; rfl
  · obtain ⟨whole, leak, cfg⟩ := State.cfgRow_secDoorCfg h free (v := v) rfl
    refine ⟨_, rfl, fun c0 c1 c2 => ?_, leak, ?_⟩
    · obtain ⟨same, unclamped⟩ := limits_unclamped c0 c1 c2
      rw [whole unclamped, same]
      exact ⟨State.ten_updTen_self _ _ _, State.updTen_onlyTenant _ _ _⟩
    · rw [cfg]
      exact heldLimits_fields v
  · rw [State.cfgRow_keyCtrl h free, State.keyCtrl_load]
    exact ⟨_, rfl, s.keyLoad_effect persist⟩
  · rw [State.cfgRow_keyCtrl h free, State.keyCtrl_erase]
    obtain ⟨self, others, record⟩ := s.keysCleared_effect load
    cases held : s.sealHeld s.secTen with
    | true =>
      rw [State.keyErase_held held]
      have shape := (s.keysCleared load).sealJob_shape s.secTen none
      refine ⟨_, rfl, ?_, fun u hu => ?_, ?_, fun _ => State.done_mem_sealJob _ _ _, fun o ho k root => ?_, nofun, ?_⟩
      · rw [shape]; exact self
      · rw [shape]; exact others u hu
      · rw [shape]; exact record
      · cases State.root_of_mem_sealJob ho root
      · rw [shape]; rfl
    | false =>
      rw [State.keyErase_free held]
      exact ⟨_, rfl, self, others, record, nofun, fun o ho k => State.root_of_sealHeld_false held ho k,
        fun _ => ⟨rfl, rfl⟩, rfl⟩

end
end

section
/-! PROOFS. The host ports (O12 to O16): what an update of a port leaves unchanged, then one equation for each way in
which a sampled access, a waiting one or a posted write goes on, and then the rows. -/

namespace Sys2Proof.Machine

/-! ## A port and the rest of the state -/

theorem State.updPort_shape (s : State) (p : Nat) (f : HPort → HPort) :
    s.updPort p f = { s with portA := (s.updPort p f).portA, portB := (s.updPort p f).portB } := by
  unfold State.updPort
  split <;> rfl

@[simp] theorem State.port_updPort_self (s : State) (p : Nat) (f : HPort → HPort) :
    (s.updPort p f).port p = f (s.port p) := by
  rw [State.port_updPort, if_pos Iff.rfl]

theorem State.port_updPort_other (s : State) (p : Fin 2) (f : HPort → HPort) :
    (s.updPort p.val f).port (1 - p.val) = s.port (1 - p.val) := by
  rw [State.port_updPort, if_neg (by omega)]

/-! ## What decode and waits read: not the ports (R27, R84, R108) -/

section
variable (s : State) (p : Nat) (f : HPort → HPort)

@[simp] theorem State.winTarget_updPort : (s.updPort p f).winTarget = s.winTarget := by
  unfold State.updPort; split <;> rfl

@[simp] theorem State.reachCfg_updPort : (s.updPort p f).reachCfg = s.reachCfg := by
  have own : (s.updPort p f).owner = s.owner := by unfold State.updPort; split <;> rfl
  have fld : (s.updPort p f).fld = s.fld := by unfold State.updPort; split <;> rfl
  have disp : (s.updPort p f).reachDisp = s.reachDisp := by unfold State.updPort; split <;> rfl
  funext t a write
  unfold State.reachCfg
  rw [own, fld, disp]

@[simp] theorem State.targetErr_updPort : (s.updPort p f).targetErr = s.targetErr := by
  funext t tg write
  cases tg with
  | sram a => unfold State.updPort; split <;> rfl
  | flash o => unfold State.updPort; split <;> rfl
  | reg a =>
    have power : (s.updPort p f).cfgOffPower = s.cfgOffPower := by unfold State.updPort; split <;> rfl
    unfold State.targetErr State.cfgDoor
    dsimp only
    rw [State.reachCfg_updPort, power]

@[simp] theorem State.refErr_updPort : (s.updPort p f).refErr = s.refErr := by
  funext t ref write
  cases ref with
  | win w o =>
    unfold State.refErr State.winErr
    simp only [State.winTarget_updPort, State.targetErr_updPort]
  | _ => unfold State.updPort; split <;> rfl

@[simp] theorem State.testUnit_updPort : (s.updPort p f).testUnit = s.testUnit := by
  unfold State.updPort; split <;> rfl

@[simp] theorem State.sramHeld_updPort : (s.updPort p f).sramHeld = s.sramHeld := by
  funext a
  unfold State.sramHeld
  rw [State.testUnit_updPort]

@[simp] theorem State.doorServes_updPort : (s.updPort p f).doorServes = s.doorServes := by
  unfold State.updPort; split <;> rfl

@[simp] theorem State.behind_updPort : (s.updPort p f).behind = s.behind := by
  unfold State.updPort; split <;> rfl

@[simp] theorem State.eccOf_updPort : (s.updPort p f).eccOf = s.eccOf := by
  unfold State.updPort; split <;> rfl

end

/-! ## An access that ends (R93) -/

/-- A port once its access has ended, without an error or with one, with a read's data or, after a write, none. -/
def HPort.ending (h : HPort) (good : Bool) (data : Option Word) : HPort :=
  { h with acc := none, rdy := !h.sync, berrN := h.sync || good, dOut := data, ended := some ⟨good, data⟩ }

/-- A state that differs by nothing but the end of an access at a port. -/
structure State.EndsAs (s n : State) (p : Nat) (good : Bool) (data : Option Word) : Prop where
  port : n.port p = (s.port p).ending good data
  other : ∀ q, ¬(q = 0 ↔ p = 0) → n.port q = s.port q
  rdata : n.rdata = data.getD s.rdata
  rest : n = { s with portA := n.portA, portB := n.portB, rdata := n.rdata }

/-- The levels that the host samples at the end, by the port's mode (log entry 127). -/
theorem State.EndsAs.levels {s n : State} {p : Nat} {good : Bool} {data : Option Word} (h : s.EndsAs n p good data)
    {sync : Bool} (hs : (s.port p).sync = sync) :
    (n.port p).ended = some ⟨good, data⟩ ∧ (n.port p).rdy = !sync ∧ (n.port p).berrN = (sync || good) ∧
      (n.port p).dOut = data ∧ (n.port p).acc = none := by
  rw [h.port, ← hs]
  exact ⟨rfl, rfl, rfl, rfl, rfl⟩

theorem State.EndsAs.ten {s n : State} {p : Nat} {good : Bool} {data : Option Word} (h : s.EndsAs n p good data)
    (u : Nat) : n.ten u = s.ten u := by rw [h.rest]; rfl

theorem State.EndsAs.tens {s n : State} {p : Nat} {good : Bool} {data : Option Word} (h : s.EndsAs n p good data) :
    n.tens = s.tens := by rw [h.rest]

theorem State.EndsAs.rdByte {s n : State} {p : Nat} {good : Bool} {data : Option Word} (h : s.EndsAs n p good data)
    (x : Nat) : n.rdByte x = s.rdByte x := by rw [h.rest]; rfl

theorem State.updPort_ending (s : State) (p : Nat) (good : Bool) :
    s.EndsAs (s.updPort p fun h => h.ending good none) p good none where
  port := s.port_updPort_self p _
  other q hq := (s.port_updPort p _ q).trans (if_neg hq)
  rdata := s.updPort_rdata p _
  rest := by rw [State.updPort_shape]

theorem State.updPort_ending_read (s : State) (p : Nat) (good : Bool) (v : Word) :
    s.EndsAs { (s.updPort p fun h => h.ending good (some v)) with rdata := v } p good (some v) where
  port := s.port_updPort_self p _
  other q hq := (s.port_updPort p _ q).trans (if_neg hq)
  rdata := rfl
  rest := by rw [State.updPort_shape]

theorem State.portEnd_ok (s : State) (p : Nat) (a : Access) (v : Word) :
    s.EndsAs (s.portEnd p a (.ok v)) p true (if a.write then none else some v) := by
  unfold State.portEnd
  dsimp only
  split
  · exact s.updPort_ending p true
  · exact s.updPort_ending_read p true v

theorem State.portEnd_error (s : State) (p : Nat) (a : Access) (e : Err) :
    s.EndsAs (s.portEnd p a (.error e)) p false (if a.write then none else some 0) := by
  unfold State.portEnd
  dsimp only
  split
  · exact s.updPort_ending p false
  · exact s.updPort_ending_read p false 0

/-! ## A sampled access (R27, R88, R95) -/

/-- The state in which a port has sampled an access (log entry 81). -/
def State.sampled (s : State) (p : Nat) : State := s.updPort p fun h => { h with clkOk := h.sync }

theorem State.port_sampled (s : State) (p : Nat) :
    (s.sampled p).port p = { s.port p with clkOk := (s.port p).sync } := s.port_updPort_self p _

theorem State.sync_sampled (s : State) (p : Nat) : ((s.sampled p).port p).sync = (s.port p).sync := by
  rw [State.port_sampled]

theorem State.portErr_sampled (s : State) (p : Nat) : (s.sampled p).portErr p = s.portErr p := by
  funext page off write
  unfold State.portErr State.sampled
  simp only [State.refErr_updPort, State.doorServes_updPort, State.port_updPort_self]

/-- What passes decode: a target without an error, on a page that the mask and the door let through (R27). -/
theorem State.portErr_none {s : State} {p page off : Nat} {write : Bool} {ref : PageRef}
    (hr : pageRef page off = some ref) (he : s.refErr page ref write = none)
    (mask : (s.port p).pages.getLsbD page = true) (door : s.doorServes page ref write = true) :
    s.portErr p page off write = none := by
  simp [State.portErr, hr, he, mask, door]

theorem State.portAccess_fails {s : State} {p : Nat} {a : Access} {e : Err} (free : s.portFree p = true)
    (boot : s.sys.bootDone = true) (h : s.portErr p a.page a.off a.write = some e) :
    s.portAccess p a = (s.sampled p).portFail p a e := by
  rw [← State.portErr_sampled] at h
  unfold State.portAccess
  rw [if_neg (by simp [free])]
  dsimp only
  rw [if_neg (by simp [boot])]
  unfold State.sampled at h ⊢
  rw [h]

theorem State.portAccess_serves {s : State} {p : Nat} {a : Access} (free : s.portFree p = true)
    (boot : s.sys.bootDone = true) (h : s.portErr p a.page a.off a.write = none) :
    s.portAccess p a = (s.sampled p).portServe p a := by
  rw [← State.portErr_sampled] at h
  unfold State.portAccess
  rw [if_neg (by simp [free])]
  dsimp only
  rw [if_neg (by simp [boot])]
  unfold State.sampled at h ⊢
  rw [h]

/-! ## Serving an access (R85, R97, R99, R100, R182) -/

section
variable {s : State} {p : Nat} {a : Access} {ref : PageRef} (hr : pageRef a.page a.off = some ref)
include hr

/-- A write goes to its target at once when none waits before it and nothing holds the target (R97). -/
theorem State.accWaits_write (hw : a.write = true) (direct : s.posts p a = false) (empty : (s.port p).post = [])
    (ready : (s.refHeld a.page ref true || s.refBusy a.page ref true) = false) : s.accWaits p a = false := by
  simp only [State.accWaits, hr, hw, direct, empty, ready]
  rfl

/-- A posted write needs room alone (R99). -/
theorem State.accWaits_post (hw : a.write = true) (posted : s.posts p a = true) (room : (s.port p).post.length < 8) :
    s.accWaits p a = false := by
  simp [State.accWaits, hr, hw, posted, room]

variable (new : a.stepped = false) (go : s.accWaits p a = false)
include new go

theorem State.portServe_unselected (hw : a.write = true) (be : a.beN = 0xF#4) :
    s.portServe p a = s.portEnd p a (.ok 0) := by
  simp [State.portServe, hr, new, go, hw, be]

theorem State.portServe_post (hw : a.write = true) (be : a.beN ≠ 0xF#4) (posted : s.posts p a = true) :
    s.portServe p a = (s.updPort p fun h => { h with post := h.post ++ [a] }).portEnd p a (.ok 0) := by
  simp [State.portServe, hr, new, go, hw, be, posted]

theorem State.portServe_write (hw : a.write = true) (be : a.beN ≠ 0xF#4) (direct : s.posts p a = false) :
    s.portServe p a = s.portWrite p a ref := by
  simp [State.portServe, hr, new, go, hw, be, direct]

end

/-- A read of a register waits for posted writes to its place alone (R97). -/
theorem State.portServe_readReg {s : State} {p off : Nat} {a : Access} (hr : pageRef a.page a.off = some (.reg off))
    (new : a.stepped = false) (hw : a.write = false) (fence : off ≠ 0xC)
    (clear : ((s.port p).post.any fun q => s.behind q a) = false) :
    s.portServe p a = (s.regSide a.page off).portEnd p a (.ok (s.regGet a.page p off)) := by
  have go : s.accWaits p a = false := by
    simp only [State.accWaits, hr, hw, clear, PageRef.reg.injEq, fence]
    rfl
  simp [State.portServe, hr, new, go, hw, fence, State.refRead]

/-- A fence waits for the posted writes of its port (R100). -/
theorem State.portServe_fence {s : State} {p : Nat} {a : Access} (hr : pageRef a.page a.off = some (.reg 0xC))
    (new : a.stepped = false) (hw : a.write = false) (empty : (s.port p).post = []) :
    s.portServe p a = s.fenceEnd p a := by
  have go : s.accWaits p a = false := by simp [State.accWaits, hr, hw, empty]
  simp [State.portServe, hr, new, go, hw]

/-! ## A write at its target (R87, R98, R108, R158) -/

/-- What leaves the flash alone completes no flash command. -/
theorem State.winNew_of_flash {s m : State} (h : m.flash = s.flash) (p : Nat) : s.winNew m p = false := by
  have same : m.winOps p = s.winOps p := by unfold State.winOps; rw [h]
  simp [State.winNew, same]

theorem State.portWrite_done {s m : State} {p : Nat} {a : Access} {ref : PageRef} (h : s.refWrite p a ref = (m, none))
    (hf : m.flash = s.flash) : s.portWrite p a ref = m.portEnd p a (.ok 0) := by
  simp [State.portWrite, h, State.winNew_of_flash hf]

theorem State.refWrite_reg {s m : State} {p off k : Nat} {a : Access}
    (e : s.regPut (some p) a.page off a.val (~~~a.beN) = (m, k)) (boot : m.sys.bootDone = true) :
    s.refWrite p a (.reg off) = (m.clamps a.page (.host p (pageAddr a.page a.off)) k, none) := by
  simp [State.refWrite, e, boot]

/-- The enabled bytes of PG_SCRATCH replaced. -/
def State.putScratch (s : State) (t : Nat) (v : Word) (be : BitVec 4) : State :=
  s.updTen t fun T => { T with scratch := mergeBytes (s.ten t).scratch v be }

theorem State.ten_putScratch_self (s : State) (t : Nat) (v : Word) (be : BitVec 4) :
    (s.putScratch t v be).ten t = { s.ten t with scratch := mergeBytes (s.ten t).scratch v be } := s.ten_updTen_self t _

theorem State.ten_putScratch_ne (s : State) {t u : Nat} (hu : u ≠ t) (v : Word) (be : BitVec 4) :
    (s.putScratch t v be).ten u = s.ten u := s.ten_updTen_ne _ hu

theorem State.refWrite_scratch {s : State} (boot : s.sys.bootDone = true) (p : Nat) (a : Access) :
    s.refWrite p a (.reg 0xB4) = (s.putScratch a.page a.val (~~~a.beN), none) := State.refWrite_reg (k := 0) rfl boot

/-- With no byte enabled the old word stays. -/
theorem mergeBytes_none (old new : Word) : mergeBytes old new 0#4 = old := by
  simpa [mergeBytes] using mergeBytes_all old old

/-- Byte `i` of a word written to SRAM where its enable is high. -/
def State.wrLane (s : State) (a : Nat) (v : Word) (be : BitVec 4) (i : Nat) : State :=
  if be.getLsbD i then s.wrByte (a + i) (BitVec.ofNat 8 (fieldOf v.toNat (8 * i) 8)) else s

theorem State.rdByte_wrLane (s : State) (a : Nat) (v : Word) (be : BitVec 4) (i x : Nat) :
    (s.wrLane a v be i).rdByte x =
      if x = a + i ∧ be.getLsbD i = true then BitVec.ofNat 8 (fieldOf v.toNat (8 * i) 8) else s.rdByte x := by
  unfold State.wrLane
  split
  · next enabled => simp [State.rdByte_wrByte, enabled]
  · next disabled => simp [disabled]

theorem State.rdByte_lanes (s : State) (a : Nat) (v : Word) (be : BitVec 4) (k x : Nat) :
    (s.each (List.range k) fun s i => s.wrLane a v be i).rdByte x =
      if a ≤ x ∧ x < a + k ∧ be.getLsbD (x - a) = true then BitVec.ofNat 8 (fieldOf v.toNat (8 * (x - a)) 8)
      else s.rdByte x := by
  induction k with
  | zero => rw [if_neg (by omega)]; rfl
  | succ k ih =>
    simp only [State.each, List.range_succ, List.foldl_append, List.foldl_cons, List.foldl_nil] at ih ⊢
    rw [State.rdByte_wrLane, ih]
    rcases Nat.lt_trichotomy x (a + k) with before | rfl | behind
    · rw [if_neg (by omega)]
      simp only [before, show x < a + (k + 1) by omega]
    · simp
    · rw [if_neg (by omega), if_neg (by omega), if_neg (by omega)]

/-- A write under byte enables replaces the enabled bytes of its word. -/
theorem State.rdByte_wr32 (s : State) (a : Nat) (v : Word) (be : BitVec 4) (x : Nat) :
    (s.wr32 a v be).rdByte x =
      if a ≤ x ∧ x < a + 4 ∧ be.getLsbD (x - a) = true then BitVec.ofNat 8 (fieldOf v.toNat (8 * (x - a)) 8)
      else s.rdByte x := s.rdByte_lanes a v be 4 x

/-- Effects one after the other that change nothing but memory. -/
theorem State.each_mem_shape {f : State → Nat → State} (hf : ∀ s n, f s n = { s with mem := (f s n).mem })
    (s : State) (ns : List Nat) : s.each ns f = { s with mem := (s.each ns f).mem } := by
  induction ns generalizing s with
  | nil => rfl
  | cons n ns ih =>
    exact (ih (f s n)).trans (congrArg (fun x : State => { x with mem := (State.each (f s n) ns f).mem }) (hf s n))

theorem State.wr32_shape (s : State) (a : Nat) (v : Word) (be : BitVec 4) :
    s.wr32 a v be = { s with mem := (s.wr32 a v be).mem } :=
  State.each_mem_shape (fun n i => by split <;> rfl) s (List.range 4)

/-- A 32-bit word lies in one 64-bit word. -/
theorem State.sramRead_word {s : State} {a : Nat} (aligned : a % 4 = 0) (good : s.eccOf (a / 8 * 8) = .good) :
    s.sramRead a 4 = (s, false) := by
  have one : (a % 8 + 4 + 7) / 8 = 1 := by omega
  refine State.eccReadAll_good fun k hk => ?_
  simp only [wordKeys, one, List.range_one, List.map_cons, List.map_nil, List.mem_singleton, Nat.add_zero] at hk
  rw [hk, good]

theorem State.refWrite_cq {s : State} {p o : Nat} {a : Access} (aligned : (lbxBase + a.page * 0x1200 + o) % 4 = 0)
    (good : s.eccOf ((lbxBase + a.page * 0x1200 + o) / 8 * 8) = .good) :
    s.refWrite p a (.cq o) = (s.wr32 (lbxBase + a.page * 0x1200 + o) a.val (~~~a.beN), none) := by
  simp [State.refWrite, State.sramWrite32, State.sramRead_word aligned good]

/-! ## Bus errors (R94) -/

theorem State.ten_berrRecord_first {s : State} {page : Nat} (h : (s.ten page).berr.fld 0 3 = 0) (port addr : Nat)
    (write posted : Bool) (e : Err) :
    (s.berrRecord page port addr write posted e).ten page = { s.ten page with
      berr := wordOf (e.cause + 8 * port + 16 * bitNat write + 32 * bitNat posted),
      berrAddr := wordOf (addr / 4 % 2 ^ 19 * 4) } :=
  (s.ten_updTen_self page _).trans (if_pos h)

theorem State.ten_berrRecord_again {s : State} {page : Nat} (h : (s.ten page).berr.fld 0 3 ≠ 0) (port addr : Nat)
    (write posted : Bool) (e : Err) :
    (s.berrRecord page port addr write posted e).ten page =
      { s.ten page with berr := (s.ten page).berr ||| 0x40#32 } :=
  (s.ten_updTen_self page _).trans (if_neg h)

theorem State.portFail_ends (s : State) (p : Nat) (a : Access) (e : Err) :
    (s.berrRecord a.page p (pageAddr a.page a.off) a.write false e).EndsAs (s.portFail p a e) p false
      (if a.write then none else some 0) := State.portEnd_error _ p a e

/-! ## HOST_READ (R93, R94) -/

theorem exec_hostRead (s : State) (p : Fin 2) (page : Fin 32) (off : BitVec 16) :
    exec (.hostRead p page off) s = .next (s.portAccess p.val (readAcc page.val off.toNat)) := rfl

/-- Every page register and keeper system register is a target without an error. -/
theorem pageRef_reg {page off : Nat} (h : (isPageReg off || (page == 0 && isSysReg off)) = true) :
    pageRef page off = some (.reg off) := if_pos (by simpa using h)

/-- The read of a register changes no port and no memory. -/
theorem State.regSide_shape (s : State) (t off : Nat) :
    s.regSide t off = { s with
      tens := (s.regSide t off).tens, sys := (s.regSide t off).sys, dbg := (s.regSide t off).dbg,
      free := (s.regSide t off).free } := by
  unfold State.regSide
  split
  · unfold State.pageSide; split <;> rfl
  · unfold State.sysSide; split <;> rfl

theorem State.ten_berrRecord_sampled (s : State) (p page port addr : Nat) (write posted : Bool) (e : Err) (u : Nat) :
    ((s.sampled p).berrRecord page port addr write posted e).ten u =
      (s.berrRecord page port addr write posted e).ten u := by
  simp [State.berrRecord, State.ten_updTen, State.sampled]

theorem State.berrRecord_sampled_shape (s : State) (p page port addr : Nat) (write posted : Bool) (e : Err) :
    let m := (s.sampled p).berrRecord page port addr write posted e
    m = { s with tens := m.tens, portA := m.portA, portB := m.portB } := by
  unfold State.sampled
  rw [State.updPort_shape]
  rfl

/-- A read of a register that decode lets through, and that no posted write goes before (R93, R97). -/
theorem State.portAccess_readReg {s : State} {p page off : Nat} (free : s.portFree p = true)
    (boot : s.sys.bootDone = true) (reg : (isPageReg (off / 4 * 4) || (page == 0 && isSysReg (off / 4 * 4))) = true)
    (fence : off / 4 * 4 ≠ 0xC) (mask : (s.port p).pages.getLsbD page = true)
    (door : s.doorServes page (.reg (off / 4 * 4)) false = true)
    (clear : ((s.port p).post.any fun q => s.behind q (readAcc page off)) = false) :
    ((s.sampled p).regSide page (off / 4 * 4)).EndsAs (s.portAccess p (readAcc page off)) p true
      (some ((s.sampled p).regGet page p (off / 4 * 4))) := by
  have hr := pageRef_reg reg
  rw [State.portAccess_serves free boot (State.portErr_none hr rfl mask door),
    State.portServe_readReg (a := readAcc page off) hr rfl rfl fence
      (by rw [State.port_sampled, State.sampled, State.behind_updPort]; exact clear)]
  exact State.portEnd_ok _ p (readAcc page off) _

end Sys2Proof.Machine

section
open Sys2Proof Sys2Proof.Machine

/-- Settles O12: a read that fails at decode is its error recorded and the end of the access; one that is let through is
the read of its register and the end of the access. -/
theorem hostReadRow : Obligations.HostReadRow := by
  unfold Obligations.HostReadRow
  intro s p page off free boot
  dsimp only
  rw [exec_hostRead]
  refine ⟨fun e err => ?_, fun reg fence mask door clear => ?_⟩
  · rw [State.portAccess_fails free boot err]
    have fin :
        ((s.sampled p.val).berrRecord page.val p.val (pageAddr page.val (off.toNat / 4 * 4)) false false e).EndsAs _ p.val
          false (some 0) := (s.sampled p.val).portFail_ends p.val (readAcc page.val off.toNat) e
    have record := s.berrRecord_sampled_shape p.val page.val p.val (pageAddr page.val (off.toNat / 4 * 4)) false false e
    have ten (u : Nat) := (fin.ten u).trans (s.ten_berrRecord_sampled p.val page.val p.val _ false false e u)
    obtain ⟨ended, rdy, berrN, dOut, -⟩ := fin.levels (s.sync_sampled p.val)
    refine ⟨_, rfl, ended, rdy, berrN.trans (Bool.or_false _), dOut, fin.rdata, fun fresh => ?_, fun again => ?_, ?_,
      fun u hu => (ten u).trans (s.ten_updTen_ne _ hu), fun x => ?_, ?_⟩
    · rw [ten, State.ten_berrRecord_first fresh]
      exact ⟨rfl, rfl⟩
    · rw [ten, State.ten_berrRecord_again again]
      exact ⟨rfl, rfl⟩
    · rw [ten]
      rcases Decidable.em ((s.ten page.val).berr.fld 0 3 = 0) with fresh | again
      · rw [State.ten_berrRecord_first fresh]
      · rw [State.ten_berrRecord_again again]
    · rw [fin.rdByte, record]; rfl
    · rw [fin.rest, fin.rdata, record]; rfl
  · have fin := State.portAccess_readReg free boot reg fence mask door clear
    have port : ((s.sampled p.val).regSide page.val (off.toNat / 4 * 4)).port p.val = (s.sampled p.val).port p.val := by
      rw [State.regSide_shape]; rfl
    obtain ⟨ended, rdy, berrN, dOut, acc⟩ := fin.levels ((congrArg HPort.sync port).trans (s.sync_sampled p.val))
    refine ⟨_, rfl, rdy, berrN.trans (Bool.or_true _), acc, ended, dOut, fin.rdata, fun x => ?_, fin.rest⟩
    rw [fin.rdByte, State.regSide_shape]
    exact s.rdByte_updPort _ _ x

end

namespace Sys2Proof.Machine

/-! ## HOST_WRITE (R87, R97, R99, R108) -/

theorem exec_hostWrite (s : State) (p : Fin 2) (page : Fin 32) (off : BitVec 16) (v : Word) (beN : BitVec 4) :
    exec (.hostWrite p page off v beN) s = .next (s.portAccess p.val (writeAcc page.val off.toNat v beN)) := rfl

theorem State.posts_sampled (s : State) (p : Nat) (a : Access) : (s.sampled p).posts p a = s.posts p a := by
  simp only [State.posts, State.port_sampled]

section
variable {s : State} {p : Nat} {a : Access} {ref : PageRef} (free : s.portFree p = true) (boot : s.sys.bootDone = true)
  (decoded : s.portErr p a.page a.off a.write = none) (hr : pageRef a.page a.off = some ref) (new : a.stepped = false)
  (hw : a.write = true)
include free boot decoded hr new hw

/-- A write that is not posted and waits for nothing has its target's effect, or with no byte enabled none, and ends. -/
theorem State.portAccess_direct {m : State} (direct : s.posts p a = false) (empty : (s.port p).post = [])
    (ready : ((s.sampled p).refHeld a.page ref true || (s.sampled p).refBusy a.page ref true) = false)
    (effect : a.beN = 0xF#4 ∧ m = s.sampled p ∨
      a.beN ≠ 0xF#4 ∧ (s.sampled p).refWrite p a ref = (m, none) ∧ m.flash = s.flash) :
    m.EndsAs (s.portAccess p a) p true none := by
  rw [← State.posts_sampled] at direct
  have go := State.accWaits_write hr hw direct ((congrArg HPort.post (s.port_sampled p)).trans empty) ready
  have fin := m.portEnd_ok p a 0
  rw [if_pos hw] at fin
  rw [State.portAccess_serves free boot decoded]
  rcases effect with ⟨be, rfl⟩ | ⟨be, write, flash⟩
  · rwa [State.portServe_unselected hr new go hw be]
  · rwa [State.portServe_write hr new go hw be direct, State.portWrite_done write]
    exact flash.trans (s.updPort_flash p _).symm

/-- A posted write enters the buffer behind those before it, and ends (R99). -/
theorem State.portAccess_posts (posted : s.posts p a = true) (room : (s.port p).post.length < 8)
    (be : a.beN ≠ 0xF#4) :
    ((s.sampled p).updPort p fun h => { h with post := h.post ++ [a] }).EndsAs (s.portAccess p a) p true none := by
  rw [← State.posts_sampled] at posted
  have go := State.accWaits_post hr hw posted (by rw [State.port_sampled]; exact room)
  have fin := ((s.sampled p).updPort p fun h => { h with post := h.post ++ [a] }).portEnd_ok p a 0
  rw [if_pos hw] at fin
  rwa [State.portAccess_serves free boot decoded, State.portServe_post hr new go hw be posted]

end

theorem pageRef_cq {page off : Nat} (lo : 0x1000 ≤ off) (hi : off < 0x1800) :
    pageRef page off = some (.cq (off - 0x1000)) := by
  have noReg : ¬(isPageReg off = true ∨ page = 0 ∧ isSysReg off = true) := by simp [isPageReg, isSysReg]; omega
  rw [pageRef, if_neg noReg, if_pos ⟨lo, hi⟩]

theorem State.doorServes_open {s : State} {t : Nat} (h : s.door t = .opened) (ref : PageRef) (write : Bool) :
    s.doorServes t ref write = true := by simp [State.doorServes, h]

theorem State.posts_off {s : State} {p : Nat} (h : (s.port p).postEn = false) (a : Access) : s.posts p a = false := by
  simp [State.posts, h]

/-- With no byte enabled nothing is written. -/
theorem State.wr32_none (s : State) (a : Nat) (v : Word) : s.wr32 a v (~~~0xF#4) = s := rfl

/-- A write of PG_SCRATCH (R87). -/
theorem State.portAccess_scratch {s : State} {p page : Nat} (free : s.portFree p = true) (boot : s.sys.bootDone = true)
    (mask : (s.port p).pages.getLsbD page = true) (door : s.door page = .opened) (direct : (s.port p).postEn = false)
    (empty : (s.port p).post = []) (v : Word) (beN : BitVec 4) :
    ∃ m : State, m.EndsAs (s.portAccess p (writeAcc page 0xB4 v beN)) p true none ∧
      (m.port p).sync = (s.port p).sync ∧
      m.ten page = { s.ten page with scratch := mergeBytes (s.ten page).scratch v (~~~beN) } ∧
      (∀ u, u ≠ page → m.ten u = s.ten u) ∧ s.SameMemory m := by
  have hr : pageRef page 0xB4 = some (.reg 0xB4) := pageRef_reg rfl
  have decoded := State.portErr_none hr (write := true) rfl mask (State.doorServes_open door _ true)
  have ends {m : State} := State.portAccess_direct (m := m) (a := writeAcc page 0xB4 v beN) free boot decoded hr rfl rfl
    (State.posts_off direct _) empty rfl
  have ten (u : Nat) : (s.sampled p).ten u = s.ten u := s.ten_updPort p _ u
  have memory : s.SameMemory (s.sampled p) := s.rdByte_updPort p _
  by_cases be : beN = 0xF#4
  · refine ⟨_, ends (.inl ⟨be, rfl⟩), s.sync_sampled p, (ten page).trans ?_, fun u _ => ten u, memory⟩
    rw [be]
    exact congrArg (fun w => { s.ten page with scratch := w }) (mergeBytes_none _ v).symm
  · have write := (s.sampled p).refWrite_scratch ((congrArg Sys.bootDone (s.updPort_sys p _)).trans boot) p
      (writeAcc page 0xB4 v beN)
    refine ⟨(s.sampled p).putScratch page v (~~~beN), ends (.inr ⟨be, write, s.updPort_flash p _⟩), s.sync_sampled p, ?_,
      fun u hu => ?_, memory⟩
    · rw [State.ten_putScratch_self, ten]
    · rw [State.ten_putScratch_ne _ hu, ten]

/-- A write of a CQ slot that the host owns (R108). -/
theorem State.portAccess_cq {s : State} {p page off : Nat} {v : Word} {beN : BitVec 4} (free : s.portFree p = true)
    (boot : s.sys.bootDone = true) (mask : (s.port p).pages.getLsbD page = true) (door : s.door page = .opened)
    (direct : (s.port p).postEn = false) (empty : (s.port p).post = []) (lo : 0x1000 ≤ off) (hi : off < 0x1800)
    (host : s.cqOwned page ((off - 0x1000) / 64) = false)
    (good : s.eccOf ((lbxBase + page * 0x1200 + (off / 4 * 4 - 0x1000)) / 8 * 8) = .good)
    (ready : s.sramHeld (lbxBase + page * 0x1200 + (off / 4 * 4 - 0x1000)) = false) :
    ((s.sampled p).wr32 (lbxBase + page * 0x1200 + (off / 4 * 4 - 0x1000)) v (~~~beN)).EndsAs
      (s.portAccess p (writeAcc page off v beN)) p true none := by
  have hr : pageRef page (off / 4 * 4) = some (.cq (off / 4 * 4 - 0x1000)) := pageRef_cq (by omega) (by omega)
  have slot : (off / 4 * 4 - 0x1000) / 64 = (off - 0x1000) / 64 := by omega
  have target : s.refErr page (.cq (off / 4 * 4 - 0x1000)) true = none := by simp [State.refErr, slot, host]
  have decoded := State.portErr_none hr target mask (State.doorServes_open door _ true)
  refine State.portAccess_direct (a := writeAcc page off v beN) free boot decoded hr rfl rfl (State.posts_off direct _) empty
    ?_ ?_
  · exact (Bool.or_false _).trans ((congrFun (s.sramHeld_updPort p _) _).trans ready)
  · by_cases be : beN = 0xF#4
    · exact .inl ⟨be, be ▸ State.wr32_none _ _ _⟩
    · refine .inr ⟨be, State.refWrite_cq (a := writeAcc page off v beN) ?_ ?_, ?_⟩
      · show (lbxBase + page * 0x1200 + (off / 4 * 4 - 0x1000)) % 4 = 0
        unfold lbxBase
        omega
      · exact (congrFun (s.eccOf_updPort p _) _).trans good
      · rw [State.wr32_shape]
        exact s.updPort_flash p _

end Sys2Proof.Machine

section
open Sys2Proof Sys2Proof.Machine

/-- Settles O13: a write of PG_SCRATCH, of a CQ slot, and one that is posted, each by the lemma about it. -/
theorem hostWriteRow : Obligations.HostWriteRow := by
  unfold Obligations.HostWriteRow
  intro s p page v beN free boot mask door
  simp only [exec_hostWrite]
  refine ⟨fun direct empty => ?_, fun direct empty off lo hi host good ready => ?_,
    fun posting room be off decoded posted => ?_⟩
  · obtain ⟨m, fin, sync, page, others, memory⟩ := State.portAccess_scratch free boot mask door direct empty v beN
    obtain ⟨ended, rdy, berrN, -, -⟩ := fin.levels sync
    exact ⟨_, rfl, ended, rdy, berrN.trans (Bool.or_true _), (fin.ten _).trans page,
      fun u hu => (fin.ten u).trans (others u hu), fun x => (fin.rdByte x).trans (memory x)⟩
  · have fin := State.portAccess_cq (v := v) (beN := beN) free boot mask door direct empty lo hi host good ready
    set a := lbxBase + page.val * 0x1200 + (off.toNat / 4 * 4 - 0x1000)
    have rdByte (x : Nat) := (fin.rdByte x).trans ((s.sampled p.val).rdByte_wr32 a v (~~~beN) x)
    have before (x : Nat) : (s.sampled p.val).rdByte x = s.rdByte x := s.rdByte_updPort p.val _ x
    have port : ((s.sampled p.val).wr32 a v (~~~beN)).port p.val = (s.sampled p.val).port p.val := by
      rw [State.wr32_shape]; rfl
    obtain ⟨ended, rdy, berrN, -, -⟩ := fin.levels ((congrArg HPort.sync port).trans (s.sync_sampled p.val))
    refine ⟨_, rfl, ended, rdy, berrN.trans (Bool.or_true _), fun i hi => ?_, fun x away => ?_, ?_⟩
    · rw [rdByte, before, Nat.add_sub_cancel_left]
      cases enable : beN.getLsbD i <;> simp [BitVec.getLsbD_not, -BitVec.getLsbD_eq_getElem, enable, hi]
    · rw [rdByte, if_neg (by omega), before]
    · rw [fin.tens, State.wr32_shape]
      exact s.updPort_tens p.val _
  · obtain ⟨ref, hr⟩ : ∃ ref, pageRef page.val (off.toNat / 4 * 4) = some ref :=
      Option.ne_none_iff_exists'.mp fun unmapped => by simp [State.portErr, unmapped] at decoded
    have fin := State.portAccess_posts (a := writeAcc page.val off.toNat v beN) free boot decoded hr rfl rfl
      (by simp [State.posts, posting]; exact posted) room be
    obtain ⟨ended, rdy, berrN, -, -⟩ := fin.levels (sync := (s.port p.val).sync) (by
      rw [State.port_updPort_self]; exact s.sync_sampled p.val)
    refine ⟨_, rfl, ?_, ended, rdy, berrN.trans (Bool.or_true _), ?_⟩
    · rw [fin.port, State.port_updPort_self, State.port_sampled]; rfl
    · rw [fin.rest, fin.rdata, State.updPort_shape, State.sampled, State.updPort_shape]
      rfl

end

namespace Sys2Proof.Machine

/-! ## POSTED_WRITE_DRAIN and FENCE_READ (R99, R100) -/

theorem exec_postedWriteDrain (s : State) (p : Fin 2) : exec (.postedWriteDrain p) s = .next (s.postDrain p.val) := rfl

theorem exec_fenceRead (s : State) (p : Fin 2) (page : Fin 32) :
    exec (.fenceRead p page) s = .next (s.portAccess p.val (readAcc page.val 0x0C)) := rfl

theorem State.postDrain_empty {s : State} {p : Nat} (h : (s.port p).post = []) : s.postDrain p = s := by
  simp [State.postDrain, h]

/-- The state in which the oldest posted write has left the buffer. -/
def State.popped (s : State) (p : Nat) (q : List Access) : State := s.updPort p fun h => { h with post := q }

theorem State.port_popped (s : State) (p : Nat) (q : List Access) :
    (s.popped p q).port p = { s.port p with post := q } := s.port_updPort_self p _

section
variable {s : State} {p : Nat} {a : Access} {q : List Access} {ref : PageRef} (oldest : (s.port p).post = a :: q)
  (hr : pageRef a.page a.off = some ref) (new : a.stepped = false) (ready : s.refHeld a.page ref true = false)
include oldest hr new ready

/-- A posted write that meets no error has its target's effect. -/
theorem State.postDrain_takes {m : State} (he : s.refErr a.page ref true = none)
    (write : (s.popped p q).refWrite p a ref = (m, none)) (flash : m.flash = s.flash) : s.postDrain p = m := by
  have he : (s.popped p q).refErr a.page ref true = none := by rw [State.popped, State.refErr_updPort, he]
  have quiet := State.winNew_of_flash flash p
  unfold State.popped at he write
  simp [State.postDrain, oldest, hr, new, ready, he, write, quiet]

/-- A posted write that meets an error has no effect but its record (R100). -/
theorem State.postDrain_fails {e : Err} (he : s.refErr a.page ref true = some e) :
    s.postDrain p = (s.popped p q).postFail p a e := by
  have he : (s.popped p q).refErr a.page ref true = some e := by rw [State.popped, State.refErr_updPort, he]
  unfold State.popped at he ⊢
  simp [State.postDrain, oldest, hr, new, ready, he]

end

theorem State.ten_popped (s : State) (p : Nat) (q : List Access) (u : Nat) : (s.popped p q).ten u = s.ten u :=
  s.ten_updPort p _ u

theorem State.ten_postFail (s : State) (p : Nat) (a : Access) (e : Err) (u : Nat) :
    (s.postFail p a e).ten u = (s.berrRecord a.page p (pageAddr a.page a.off) true true e).ten u :=
  State.ten_updPort _ p _ u

/-- The fence keeps the cause of a page's first failure (R100). -/
theorem State.port_postFail_first {s : State} {p : Nat} {a : Access}
    (h : SMap.get (fun _ => 0) (s.port p).fence a.page = 0) (e : Err) :
    (s.postFail p a e).port p =
      { s.port p with fence := SMap.set (fun _ => 0) (s.port p).fence a.page e.cause } :=
  (State.port_updPort_self _ p _).trans (if_pos h)

theorem State.postFail_popped_shape (s : State) (p : Nat) (a : Access) (q : List Access) (e : Err) :
    let n := (s.popped p q).postFail p a e
    n = { s with tens := n.tens, portA := n.portA, portB := n.portB } := by
  unfold State.postFail
  dsimp only
  rw [State.updPort_shape, State.popped, State.updPort_shape]
  rfl

theorem State.doorServes_read {s : State} {t : Nat} (h : s.door t ≠ .shut) (ref : PageRef) :
    s.doorServes t ref false = true := by
  cases door : s.door t with
  | shut => exact absurd door h
  | _ => simp [State.doorServes, door]

/-- A fence returns 0 or, when a cause is kept, a bus error, and keeps none of the page any more (R100). -/
theorem State.fenceEnd_ends (s : State) (p : Nat) {a : Access} (hw : a.write = false) :
    (s.updPort p fun h => { h with fence := SMap.set (fun _ => 0) h.fence a.page 0 }).EndsAs (s.fenceEnd p a) p
      (decide (SMap.get (fun _ => 0) (s.port p).fence a.page = 0)) (some 0) := by
  have data : (if a.write = true then none else some (0 : Word)) = some 0 := if_neg (by simp [hw])
  unfold State.fenceEnd
  dsimp only
  split
  · next clean => rw [decide_eq_true clean, ← data]; exact State.portEnd_ok _ p a 0
  · next kept => rw [decide_eq_false kept, ← data]; exact State.portEnd_error _ p a _

/-- A fence read of a page that its mask and door let through, once no posted write waits. -/
theorem State.portAccess_fence {s : State} {p page : Nat} (free : s.portFree p = true) (boot : s.sys.bootDone = true)
    (mask : (s.port p).pages.getLsbD page = true) (door : s.door page ≠ .shut) (empty : (s.port p).post = []) :
    ((s.sampled p).updPort p fun h => { h with fence := SMap.set (fun _ => 0) h.fence page 0 }).EndsAs
      (s.portAccess p (readAcc page 0xC)) p (decide (SMap.get (fun _ => 0) (s.port p).fence page = 0)) (some 0) := by
  have hr : pageRef page 0xC = some (.reg 0xC) := pageRef_reg rfl
  have fin := (s.sampled p).fenceEnd_ends p (a := readAcc page 0xC) rfl
  rw [State.port_sampled] at fin
  rwa [State.portAccess_serves free boot (State.portErr_none hr rfl mask (State.doorServes_read door _)),
    State.portServe_fence (a := readAcc page 0xC) hr rfl rfl ((congrArg HPort.post (s.port_sampled p)).trans empty)]

end Sys2Proof.Machine

section
open Sys2Proof Sys2Proof.Machine

/-- Settles O15: the two ends of a posted write that drains, and the end of a fence. -/
theorem postAndFence : Obligations.PostAndFence := by
  unfold Obligations.PostAndFence
  intro s p
  simp only [exec_postedWriteDrain, exec_fenceRead]
  refine ⟨fun empty => ?_, fun a q oldest scratch new boot => ?_,
    fun a q ref e oldest hr ready new err berr fence => ?_, fun page free boot mask door empty => ?_⟩
  · rw [State.postDrain_empty empty]
  · have hr : pageRef a.page a.off = some (.reg 0xB4) := by rw [scratch]; exact pageRef_reg rfl
    have write :=
      (s.popped p.val q).refWrite_scratch ((congrArg Sys.bootDone (s.updPort_sys p.val _)).trans boot) p.val a
    rw [State.postDrain_takes oldest hr new rfl rfl write (s.updPort_flash p.val _)]
    refine ⟨_, rfl, congrArg HPort.post (s.port_popped p.val q), ?_, fun u hu => ?_, s.rdByte_updPort p.val _⟩
    · rw [State.ten_putScratch_self, State.ten_popped]
    · rw [State.ten_putScratch_ne _ hu, State.ten_popped]
  · rw [State.postDrain_fails oldest hr new ready err]
    have port := State.port_postFail_first (s := s.popped p.val q) (a := a) (by rw [State.port_popped]; exact fence) e
    rw [State.port_popped] at port
    refine ⟨_, rfl, congrArg HPort.post port, ?_, ?_, s.postFail_popped_shape p.val a q e⟩
    · rw [State.ten_postFail, State.ten_berrRecord_first (by rw [State.ten_popped]; exact berr)]
      rfl
    · rw [port]
      exact SMap.get_set_self (fun _ => 0) (s.port p.val).fence a.page e.cause
  · have fin := State.portAccess_fence free boot mask door empty
    obtain ⟨ended, rdy, -, -, -⟩ := fin.levels (sync := (s.port p.val).sync) (by
      rw [State.port_updPort_self]; exact s.sync_sampled p.val)
    refine ⟨_, rfl, rdy, fin.rdata, ended, ?_, ?_, ?_⟩
    · rw [fin.port, State.port_updPort_self]
      exact SMap.get_set_self (fun _ => 0) ((s.sampled p.val).port p.val).fence page.val 0
    · rw [fin.tens, State.updPort_tens]
      exact s.updPort_tens p.val _
    · rw [fin.rest, fin.rdata, State.updPort_shape, State.sampled, State.updPort_shape]
      rfl

end

namespace Sys2Proof.Machine

/-! ## Waits that end (R91, R92, R182) -/

theorem exec_hostStrobeRelease (s : State) (p : Fin 2) :
    exec (.hostStrobeRelease p) s = .next (s.strobeRelease p.val).resetTake := rfl

theorem exec_accessAbandon (s : State) (p : Fin 2) : exec (.accessAbandon p) s = .next (s.portAbandon p.val) := rfl

theorem exec_waitGuardExpiry (s : State) (p : Fin 2) : exec (.waitGuardExpiry p) s = .next (s.portStall p.val) := rfl

theorem exec_hostAccessComplete (s : State) (p : Fin 2) :
    exec (.hostAccessComplete p) s = .next (s.portComplete p.val) := rfl

/-- With no flash command that the controller has taken, nothing is acknowledged. -/
theorem State.ackPort_none {s : State} {p : Nat} (post : ((s.port p).post.any fun q => q.stepped) = false)
    (acc : ∀ a, (s.port p).acc = some a → (a.stepped && !s.winWaits p) = false) : s.ackPort p = s := by
  cases hp : (s.port p).post with
  | nil =>
    cases ha : (s.port p).acc with
    | none => simp [State.ackPort, ha, hp]
    | some a => simp [State.ackPort, ha, hp, acc a ha]
  | cons b q =>
    rw [hp, List.any_cons, Bool.or_eq_false_iff] at post
    cases ha : (s.port p).acc with
    | none => simp [State.ackPort, ha, hp, post.1]
    | some a => simp [State.ackPort, ha, hp, post.1, acc a ha]

/-- An access that still waits is not acknowledged. -/
theorem State.ackPort_waiting {s : State} {p : Nat} {a : Access} (acc : (s.port p).acc = some a)
    (waits : a.stepped = false ∨ s.winWaits p = true) (post : ((s.port p).post.any fun q => q.stepped) = false) :
    s.ackPort p = s := by
  refine State.ackPort_none post fun b hb => ?_
  obtain rfl : a = b := Option.some.inj (acc.symm.trans hb)
  rcases waits with h | h <;> simp [h]

section
variable {s : State} {p : Nat} (quiet : s.ackPort p = s)
include quiet

theorem State.portAbandon_waiting {a : Access} (h : (s.port p).acc = some a) : s.portAbandon p = s.portDrop p a := by
  simp [State.portAbandon, quiet, h]

theorem State.portStall_waiting {a : Access} (h : (s.port p).acc = some a) :
    s.portStall p = (s.portDrop p a).portFail p a .stall := by
  simp [State.portStall, quiet, h]

theorem State.portAbandon_none (h : (s.port p).acc = none) : s.portAbandon p = s := by
  simp [State.portAbandon, quiet, h]

theorem State.portStall_none (h : (s.port p).acc = none) : s.portStall p = s := by
  simp [State.portStall, quiet, h]

end

/-! ## A flash command that is void (R182) -/

/-- The last member with a property is taken out by taking out the first of the reversed list. -/
theorem dropLastOf_eq {α : Type} (f : α → Bool) (xs : List α) :
    dropLastOf f xs = (xs.reverse.eraseP f).reverse := by
  rw [List.eraseP_eq_eraseIdx, dropLastOf]
  cases xs.reverse.findIdx? f <;> simp

theorem length_filter_dropLastOf {α : Type} {f : α → Bool} {xs : List α} (h : xs.any f = true) :
    ((dropLastOf f xs).filter f).length + 1 = (xs.filter f).length := by
  obtain ⟨x, hx, fx⟩ := List.any_eq_true.mp h
  obtain ⟨y, l, r, -, fy, cut, erased⟩ := List.exists_of_eraseP (List.mem_reverse.mpr hx) fx
  have whole : xs = (l ++ y :: r).reverse := by rw [← cut, List.reverse_reverse]
  rw [dropLastOf_eq, erased, whole]
  simp [fy]
  omega

theorem State.winVoid_shape (s : State) (p : Nat) :
    s.winVoid p = { s with flash := { s.flash with
      queue := (s.winVoid p).flash.queue, wait := (s.winVoid p).flash.wait } } := by
  unfold State.winVoid
  split
  · dsimp only
    split <;> rfl
  · rfl

theorem State.winOps_of_winWaits {s : State} {p : Nat} (h : s.winWaits p = true) :
    ((s.flash.queue ++ s.flash.wait).any fun o => o.job == .window p) = true := by
  by_contra hn
  have empty : s.winOps p = [] := by simpa [State.winOps] using hn
  simp [State.winWaits, empty] at h

/-- Of the operations of a port's sequences one is taken out. -/
theorem State.winOps_winVoid {s : State} {p : Nat} (h : s.winWaits p = true) :
    ((s.winVoid p).winOps p).length + 1 = (s.winOps p).length := by
  have held := State.winOps_of_winWaits h
  rw [List.any_append, Bool.or_eq_true] at held
  unfold State.winVoid
  rw [if_pos h]
  dsimp only
  split
  · next waits =>
    have one := length_filter_dropLastOf waits
    simp only [State.winOps, List.filter_append, List.length_append]
    omega
  · next unwaited =>
    have one := length_filter_dropLastOf (held.resolve_right unwaited)
    simp only [State.winOps, List.filter_append, List.length_append]
    omega

/-- A dropped access leaves its port; beside the ports and what a self-test holds, a flash command of its may be void. -/
theorem State.portDrop_effect (s : State) (p : Nat) (a : Access) :
    (s.portDrop p a).port p = { s.port p with acc := none, dOut := none } ∧
      (s.portDrop p a).flash = (if a.stepped then s.winVoid p else s).flash ∧
      s.portDrop p a = { s with
        portA := (s.portDrop p a).portA, portB := (s.portDrop p a).portB, flash := (s.portDrop p a).flash,
        waiting := s.waiting.filter fun q => q != .access p } := by
  have void : (if a.stepped then s.winVoid p else s) =
      { s with flash := (if a.stepped then s.winVoid p else s).flash } := by
    split
    · rw [s.winVoid_shape p]
    · rfl
  unfold State.portDrop
  refine ⟨(State.port_updPort_self _ p _).trans ?_, State.updPort_flash _ p _, ?_⟩
  · rw [void]; rfl
  · rw [State.updPort_shape, void]

/-- An access that has completed no flash command leaves the flash as it is. -/
theorem State.portDrop_new (s : State) (p : Nat) {a : Access} (new : a.stepped = false) :
    s.portDrop p a = { s with
      portA := (s.portDrop p a).portA, portB := (s.portDrop p a).portB,
      waiting := s.waiting.filter fun q => q != .access p } := by
  obtain ⟨-, flash, rest⟩ := s.portDrop_effect p a
  rw [flash, new] at rest
  exact rest

/-- The host releases its strobes after completion (Tables 4.2 to 4.4). -/
theorem State.strobeRelease_ended {s : State} {p : Nat} (h : (s.port p).ended ≠ none) :
    s.strobeRelease p =
      s.updPort p fun h => { h with rdy := false, berrN := true, dOut := none, ended := none } :=
  if_pos (Option.isSome_iff_ne_none.mpr h)

theorem State.strobeRelease_early {s : State} {p : Nat} (h : (s.port p).ended = none) : s.strobeRelease p = s :=
  if_neg (by simp [h])

end Sys2Proof.Machine

section
open Sys2Proof Sys2Proof.Machine

/-- Settles O14: the release of the strobes; an access dropped, and recorded when the guard expires; and the access that
is served. -/
theorem hostWaits : Obligations.HostWaits := by
  unfold Obligations.HostWaits
  intro s p
  simp only [exec_hostStrobeRelease, exec_accessAbandon, exec_waitGuardExpiry, exec_hostAccessComplete]
  refine ⟨fun ended => ?_, fun early noReset => ?_, fun post => ⟨fun a acc new => ⟨?_, ?_⟩,
    fun a acc stepped waits => ?_, fun idle => ?_⟩, fun a acc up => ?_, fun idle => ?_⟩
  · have released := State.strobeRelease_ended ended
    refine ⟨s.strobeRelease p.val, ?_, ?_, ?_, ?_⟩
    · rw [released, State.port_updPort_self]
    · rw [released, State.port_updPort_other]
    · rw [released]
      exact s.updPort_shape p.val _
    · rw [State.resetTake, released, State.updPort_sys]
  · rw [State.strobeRelease_early early]
    exact congrArg Host.Outcome.next (if_neg (by simp [noReset]))
  · rw [State.portAbandon_waiting (State.ackPort_waiting acc (.inl new) post) acc]
    exact ⟨_, rfl, (s.portDrop_effect p.val a).1, s.portDrop_new p.val new⟩
  · rw [State.portStall_waiting (State.ackPort_waiting acc (.inl new) post) acc]
    have dropped := s.portDrop_new p.val new
    have fin := (s.portDrop p.val a).portFail_ends p.val a .stall
    obtain ⟨ended, rdy, berrN, -, -⟩ := fin.levels (congrArg HPort.sync (s.portDrop_effect p.val a).1)
    refine ⟨_, rfl, ?_, ended, rdy, berrN.trans (Bool.or_false _), fun fresh => ?_, ?_⟩
    · rw [fin.port]; rfl
    · have ten : (s.portDrop p.val a).ten a.page = s.ten a.page := by rw [dropped]; rfl
      rw [fin.ten, State.ten_berrRecord_first (by rw [ten]; exact fresh)]
      rfl
    · rw [fin.rest, State.berrRecord, dropped]
      rfl
  · rw [State.portAbandon_waiting (State.ackPort_waiting acc (.inr waits) post) acc]
    obtain ⟨port, flash, rest⟩ := s.portDrop_effect p.val a
    rw [stepped, if_pos rfl] at flash
    refine ⟨_, rfl, congrArg HPort.acc port, ?_, ?_⟩
    · rw [State.winOps, flash]
      exact State.winOps_winVoid waits
    · rw [flash, s.winVoid_shape p.val] at rest
      rw [flash]
      exact rest
  · have quiet := State.ackPort_none post (by simp [idle])
    rw [State.portAbandon_none quiet idle, State.portStall_none quiet idle]
    exact ⟨rfl, rfl⟩
  · simp [State.portComplete, acc, up]
  · simp [State.portComplete, idle]

end

namespace Sys2Proof.Machine

/-! ## PAGE_MASK_WRITE (R85) -/

theorem exec_pageMaskWrite_cmd (s : State) (which : Fin 2) (v : Word) :
    exec (.pageMaskWrite none which v 0#4) s = .next (s.pageRow 0 (0x438 + 4 * which.val) v 0xF#4) := rfl

theorem exec_pageMaskWrite_port (s : State) (p which : Fin 2) (v : Word) :
    exec (.pageMaskWrite (some p) which v 0#4) s =
      .next (s.portAccess p.val (writeAcc 0 (0x438 + 4 * which.val) v 0#4)) := rfl

/-- A whole write of a page mask: the mask, and a clamp where a port would lose bit 0 of its own. -/
theorem State.regPut_pageMask (s : State) (via : Option Nat) (which : Fin 2) (v : Word) :
    s.regPut via 0 (0x438 + 4 * which.val) v 0xF#4 = s.pageMask via which.val v := by
  have put (be : BitVec 4) : s.regPut via 0 (0x438 + 4 * which.val) v be =
      s.pageMask via which.val (mergeBytes (s.port which.val).pages v be) := by
    fin_cases which <;> rfl
  rw [put, mergeBytes_all]

theorem pageMask_isSysReg (which : Fin 2) : isSysReg (0x438 + 4 * which.val) = true := by fin_cases which <;> rfl

theorem neverPosted_pageMask (which : Fin 2) : neverPosted 0 (0x438 + 4 * which.val) = true := by
  fin_cases which <;> rfl

theorem pageMask_word (which : Fin 2) : (0x438 + 4 * which.val) / 4 * 4 = 0x438 + 4 * which.val := by omega

/-- A command sets the mask to the value written. -/
theorem State.pageRow_pageMask {s : State} (h : s.Serves 0) (which : Fin 2) (v : Word) :
    s.pageRow 0 (0x438 + 4 * which.val) v 0xF#4 = s.updPort which.val fun P => { P with pages := v } := by
  have word := pageMask_word which
  refine State.pageRow_of ?_ ?_
  · rw [word]
    exact State.pageReach_of_serves h (by simp [pageMask_isSysReg])
  · rw [word, State.regPut_pageMask]
    rfl

theorem State.port_clamps (s : State) (t : Nat) (path : Path) (k q : Nat) : (s.clamps t path k).port q = s.port q := by
  rw [State.clamps_shape]; rfl

theorem writeAcc_pageMask (which : Fin 2) (v : Word) :
    writeAcc 0 (0x438 + 4 * which.val) v 0#4 = ⟨0, 0x438 + 4 * which.val, true, v, 0#4, false⟩ := by
  simp [writeAcc, pageMask_word]

/-- Through a port the write has the mask's effect and, where bit 0 is kept against it, counts a clamp for the keeper. -/
theorem State.portAccess_pageMask {s : State} {p : Nat} (h : s.Serves 0) (free : s.portFree p = true)
    (mask : (s.port p).pages.getLsbD 0 = true) (empty : (s.port p).post = []) (which : Fin 2) (v : Word) :
    ∃ m : State, m.EndsAs (s.portAccess p (writeAcc 0 (0x438 + 4 * which.val) v 0#4)) p true none ∧
      ∀ q, m.port q = ((s.sampled p).pageMask (some p) which.val v).1.port q := by
  obtain ⟨boot, -, door⟩ := h
  rw [writeAcc_pageMask]
  set a : Access := ⟨0, 0x438 + 4 * which.val, true, v, 0#4, false⟩
  have hr : pageRef 0 (0x438 + 4 * which.val) = some (.reg (0x438 + 4 * which.val)) :=
    pageRef_reg (by simp [pageMask_isSysReg])
  have decoded := State.portErr_none hr (write := true) rfl mask (State.doorServes_open door _ true)
  have direct : s.posts p a = false := by simp [State.posts, a, neverPosted_pageMask]
  set masked := (s.sampled p).pageMask (some p) which.val v
  have sys : masked.1.sys = s.sys := (State.updPort_sys _ which.val _).trans (s.updPort_sys p _)
  have flash : masked.1.flash = s.flash := (State.updPort_flash _ which.val _).trans (s.updPort_flash p _)
  have put : (s.sampled p).regPut (some p) a.page (0x438 + 4 * which.val) a.val (~~~a.beN) = masked := by
    have enabled : ~~~a.beN = 0xF#4 := (by decide : ~~~(0#4) = 0xF#4)
    rw [enabled]
    exact (s.sampled p).regPut_pageMask (some p) which v
  have write : (s.sampled p).refWrite p a (.reg (0x438 + 4 * which.val)) =
      (masked.1.clamps 0 (.host p (pageAddr 0 (0x438 + 4 * which.val))) masked.2, none) :=
    State.refWrite_reg (m := masked.1) (k := masked.2) put (by rw [sys]; exact boot)
  have kept : (masked.1.clamps 0 (.host p (pageAddr 0 (0x438 + 4 * which.val))) masked.2).flash = s.flash := by
    rw [State.clamps_shape]
    exact flash
  exact ⟨_, State.portAccess_direct free boot decoded hr rfl rfl direct empty rfl
    (.inr ⟨(by decide : 0#4 ≠ 0xF#4), write, kept⟩), State.port_clamps _ _ _ _⟩

theorem State.port_congr (s : State) {p q : Nat} (h : q = 0 ↔ p = 0) : s.port q = s.port p := if_congr h rfl rfl

/-- The end of an access leaves both page masks as they are. -/
theorem State.EndsAs.pages {s n : State} {p : Nat} {good : Bool} {data : Option Word} (h : s.EndsAs n p good data)
    (q : Nat) : (n.port q).pages = (s.port q).pages := by
  by_cases hq : q = 0 ↔ p = 0
  · rw [n.port_congr hq, s.port_congr hq, h.port]
    rfl
  · rw [h.other q hq]

end Sys2Proof.Machine

section
open Sys2Proof Sys2Proof.Machine

/-- Settles O16: a command's write through the register row, a port's through the port. -/
theorem pageMaskRow : Obligations.PageMaskRow := by
  unfold Obligations.PageMaskRow
  intro s which v serves
  refine ⟨?_, fun p free mask empty => ?_⟩
  · rw [exec_pageMaskWrite_cmd, State.pageRow_pageMask serves]
    refine ⟨_, rfl, ?_, ?_, ?_, s.updPort_shape which.val _⟩
    · rw [State.port_updPort_self]
    · rw [State.port_updPort_self]
    · exact s.port_updPort_other which _
  · rw [exec_pageMaskWrite_port]
    obtain ⟨m, fin, ports⟩ := State.portAccess_pageMask serves free mask empty which v
    have sync : (m.port p.val).sync = (s.port p.val).sync := by
      rw [ports, State.pageMask, State.port_updPort]
      split <;> exact s.sync_sampled p.val
    obtain ⟨ended, rdy, -, -, -⟩ := fin.levels sync
    refine ⟨_, rfl, ?_, ended, rdy⟩
    rw [fin.pages, ports, State.pageMask, State.port_updPort_self]
    simp [Fin.ext_iff]

end
end

section
/-! PROOFS. The doorbell and the queue heads (O17), the registers of a window (O18), the register commands (O20), the
window commands (O22), the responses (O27), and slots 1, 3, 38 and 39 (O43). -/

namespace Sys2Proof.Machine

/-! ## The doorbell and the queue heads (R109, R110) -/

theorem exec_doorbell (s : State) (t : Fin 32) (v : BitVec 6) :
    exec (.doorbell t v) s = .next (s.pageRow t.val 0x2C (v.setWidth 32) 0xF#4) := rfl
theorem exec_rqHeadWrite (s : State) (t : Fin 32) (v : BitVec 6) :
    exec (.rqHeadWrite t v) s = .next (s.pageRow t.val 0x30 (v.setWidth 32) 0xF#4) := rfl
theorem exec_eqHeadWrite (s : State) (t : Fin 32) (v : BitVec 7) :
    exec (.eqHeadWrite t v) s = .next (s.pageRow t.val 0x38 (v.setWidth 32) 0xF#4) := rfl

/-- An index of a queue is read back from the register word that carries it. -/
theorem ofNat_toNat_setWidth {k : Nat} (h : k ≤ 32) (v : BitVec k) :
    BitVec.ofNat k (v.setWidth 32).toNat = v := by
  rw [BitVec.toNat_setWidth_of_le h, BitVec.ofNat_toNat, BitVec.setWidth_eq]

/-- A whole write of a page register of a served tenant has its effect `r.1` and counts the clamps `r.2`. -/
theorem State.pageRow_served {s : State} {t off : Nat} {v : Word} {r : State × Nat} (h : s.Serves t)
    (word : off % 4 = 0) (page : isPageReg off = true) (put : s.pagePut t off v 0xF#4 = r) (sys : r.1.sys = s.sys) :
    s.pageRow t off v 0xF#4 = r.1.clamps t (.host 0 (pageAddr t off)) r.2 := by
  have aligned : off / 4 * 4 = off := by omega
  have reach : s.pageReach t (off / 4 * 4) true = true := by
    rw [aligned]
    exact State.pageReach_of_serves h (by simp [page])
  have effect : s.regPut none t (off / 4 * 4) v 0xF#4 = (r.1, r.2) := by
    rw [aligned, State.regPut, if_pos page, put]
  rw [State.pageRow_put reach effect (by rw [sys]; exact h.1), aligned]

theorem State.doorbell_sys (s : State) (t : Nat) (v : BitVec 6) : (s.doorbell t v).1.sys = s.sys := by
  unfold State.doorbell
  dsimp only
  split
  · rfl
  · split <;> rfl

theorem State.rqHeadWrite_sys (s : State) (t : Nat) (v : BitVec 6) : (s.rqHeadWrite t v).1.sys = s.sys := by
  unfold State.rqHeadWrite
  split <;> rfl

theorem State.eqHeadWrite_sys (s : State) (t : Nat) (v : BitVec 7) : (s.eqHeadWrite t v).1.sys = s.sys := by
  unfold State.eqHeadWrite
  split <;> rfl

theorem State.pageRow_doorbell {s : State} {t : Nat} (h : s.Serves t) (v : BitVec 6) :
    s.pageRow t 0x2C (v.setWidth 32) 0xF#4 =
      (s.doorbell t v).1.clamps t (.host 0 (pageAddr t 0x2C)) (s.doorbell t v).2 := by
  have put (be : BitVec 4) (w : Word) : s.pagePut t 0x2C w be =
      s.doorbell t (BitVec.ofNat 6 (mergeBytes (wordOf (s.ten t).cqTail.toNat) w be).toNat) := rfl
  refine State.pageRow_served h rfl rfl ((put _ _).trans ?_) (s.doorbell_sys t v)
  rw [mergeBytes_all, ofNat_toNat_setWidth (by decide)]

theorem State.pageRow_rqHead {s : State} {t : Nat} (h : s.Serves t) (v : BitVec 6) :
    s.pageRow t 0x30 (v.setWidth 32) 0xF#4 =
      (s.rqHeadWrite t v).1.clamps t (.host 0 (pageAddr t 0x30)) (s.rqHeadWrite t v).2 := by
  have put (be : BitVec 4) (w : Word) : s.pagePut t 0x30 w be =
      s.rqHeadWrite t (BitVec.ofNat 6 (mergeBytes (wordOf (s.ten t).rqHead.toNat) w be).toNat) := rfl
  refine State.pageRow_served h rfl rfl ((put _ _).trans ?_) (s.rqHeadWrite_sys t v)
  rw [mergeBytes_all, ofNat_toNat_setWidth (by decide)]

theorem State.pageRow_eqHead {s : State} {t : Nat} (h : s.Serves t) (v : BitVec 7) :
    s.pageRow t 0x38 (v.setWidth 32) 0xF#4 =
      (s.eqHeadWrite t v).1.clamps t (.host 0 (pageAddr t 0x38)) (s.eqHeadWrite t v).2 := by
  have put (be : BitVec 4) (w : Word) : s.pagePut t 0x38 w be =
      s.eqHeadWrite t (BitVec.ofNat 7 (mergeBytes (wordOf (s.ten t).eqHead.toNat) w be).toNat) := rfl
  refine State.pageRow_served h rfl rfl ((put _ _).trans ?_) (s.eqHeadWrite_sys t v)
  rw [mergeBytes_all, ofNat_toNat_setWidth (by decide)]

/-- At an open door a doorbell that keeps the CQ within 32 slots hands the new slots beyond. -/
theorem State.doorbell_moves {s : State} {t : Nat} {v : BitVec 6} (door : s.door t = .opened)
    (fits : (v - (s.ten t).cqTail).toNat ≤ 32 - (s.ten t).cqCount) (new : v ≠ (s.ten t).cqTail) :
    s.doorbell t v = (s.updTen t fun T => { T with cqTail := v }, 0) := by
  rw [State.doorbell, if_neg (not_or.mpr ⟨not_not.mpr door, new⟩), if_pos fits]

theorem State.doorbell_same {s : State} {t : Nat} {v : BitVec 6} (same : v = (s.ten t).cqTail) :
    s.doorbell t v = (s, 0) := if_pos (.inr same)

theorem State.doorbell_clamped {s : State} {t : Nat} {v : BitVec 6} (door : s.door t = .opened)
    (beyond : 32 - (s.ten t).cqCount < (v - (s.ten t).cqTail).toNat) (new : v ≠ (s.ten t).cqTail) :
    s.doorbell t v = (s, 1) := by
  rw [State.doorbell, if_neg (not_or.mpr ⟨not_not.mpr door, new⟩), if_neg (Nat.not_le.mpr beyond)]

/-- One clamp counted: the count and its flag, with the indices of the queues that the part does not move as they were
(R137, R396). -/
theorem State.ten_clamps_one (s : State) (t : Nat) (p : Path) :
    ((s.clamps t p 1).ten t).clamps = satAdd 65535 (s.ten t).clamps 1 ∧ ((s.clamps t p 1).ten t).irqClamp = true ∧
      ((s.clamps t p 1).ten t).cqTail = (s.ten t).cqTail ∧ ((s.clamps t p 1).ten t).rqHead = (s.ten t).rqHead ∧
      ((s.clamps t p 1).ten t).eqHead = (s.ten t).eqHead := by
  refine ⟨?_, ?_, ?_, ?_, ?_⟩
  · rw [State.clampCount_clamps_one, satAdd_one]
  · unfold State.clamps
    dsimp only
    rw [if_neg Nat.one_ne_zero]
    split
    · rw [State.ten_raise_shape, State.ten_updTen_self]
    · rw [State.ten_updTen_self]
  all_goals rw [State.ten_clamps_shape]

end Sys2Proof.Machine

section
open Sys2Proof Sys2Proof.Machine

/-- Settles O17: each register's row is its write with its clamps, and the write moves the index or counts one. -/
theorem queueIndexRows : Obligations.QueueIndexRows := by
  unfold Obligations.QueueIndexRows
  intro s t h
  have door : s.door t.val = .opened := h.2.2
  simp only [exec_doorbell, exec_rqHeadWrite, exec_eqHeadWrite, State.pageRow_doorbell h, State.pageRow_rqHead h,
    State.pageRow_eqHead h]
  refine ⟨fun v => ⟨fun fits new => ?_, fun same => ?_, fun beyond new => ?_⟩,
    fun v => ⟨fun fits => ?_, fun beyond => ?_⟩, fun v => ⟨fun fits => ?_, fun beyond => ?_⟩⟩
  · rw [State.doorbell_moves door fits new]
    exact ⟨_, rfl, State.ten_updTen_self _ _ _, State.updTen_onlyTenant _ _ _⟩
  · rw [State.doorbell_same same, State.clamps_zero]
  · rw [State.doorbell_clamped door beyond new]
    obtain ⟨count, flag, cqTail, -, -⟩ := s.ten_clamps_one t.val (.host 0 (pageAddr t.val 0x2C))
    exact ⟨_, rfl, cqTail, count, flag⟩
  · rw [State.rqHeadWrite, if_pos fits]
    exact ⟨_, rfl, State.ten_updTen_self _ _ _, State.updTen_onlyTenant _ _ _⟩
  · rw [State.rqHeadWrite, if_neg (Nat.not_le.mpr beyond)]
    obtain ⟨count, flag, -, rqHead, -⟩ := s.ten_clamps_one t.val (.host 0 (pageAddr t.val 0x30))
    exact ⟨_, rfl, rqHead, count, flag⟩
  · rw [State.eqHeadWrite, if_pos fits]
    exact ⟨_, rfl, State.ten_updTen_self _ _ _, State.updTen_onlyTenant _ _ _⟩
  · rw [State.eqHeadWrite, if_neg (Nat.not_le.mpr beyond)]
    obtain ⟨count, flag, -, -, eqHead⟩ := s.ten_clamps_one t.val (.host 0 (pageAddr t.val 0x38))
    exact ⟨_, rfl, eqHead, count, flag⟩

end

namespace Sys2Proof.Machine

/-! ## The registers of a window (R123, R125, R129) -/

theorem exec_windowCtrl (s : State) (t : Fin 32) (w : Fin 4) (v : Word) :
    exec (.windowConfigWrite t w true v) s = .next (s.pageRow t.val (0x78 + 8 * w.val) v 0xF#4) := by
  have off : 0x74 + 8 * w.val + 4 * bitNat true = 0x78 + 8 * w.val := by simp only [bitNat, if_true]; omega
  rw [← off]
  rfl

theorem exec_windowBase (s : State) (t : Fin 32) (w : Fin 4) (v : Word) :
    exec (.windowConfigWrite t w false v) s = .next (s.pageRow t.val (0x74 + 8 * w.val) v 0xF#4) := rfl

theorem exec_winCommitReg (s : State) (t : Fin 32) (v : Word) :
    exec (.winCommitReg t v) s = .next (s.pageRow t.val 0x94 v 0xF#4) := rfl

theorem State.pageRow_winCtrl {s : State} {t : Nat} (h : s.Serves t) (w : Fin 4) (v : Word) :
    s.pageRow t (0x78 + 8 * w.val) v 0xF#4 = (s.winCtrlWrite t w.val v.toNat).1.clamps t
      (.host 0 (pageAddr t (0x78 + 8 * w.val))) (s.winCtrlWrite t w.val v.toNat).2 := by
  have put (be : BitVec 4) : s.pagePut t (0x78 + 8 * w.val) v be =
      s.winCtrlWrite t w.val (mergeBytes (s.pageGet t 0 (0x78 + 8 * w.val)) v be).toNat := by
    fin_cases w <;> rfl
  refine State.pageRow_served h (by omega) (by fin_cases w <;> rfl) ((put _).trans ?_) rfl
  rw [mergeBytes_all]

theorem State.pageRow_winBase {s : State} {t : Nat} (h : s.Serves t) (w : Fin 4) (v : Word) :
    s.pageRow t (0x74 + 8 * w.val) v 0xF#4 = (s.winBaseWrite t w.val v.toNat).1.clamps t
      (.host 0 (pageAddr t (0x74 + 8 * w.val))) (s.winBaseWrite t w.val v.toNat).2 := by
  have put (be : BitVec 4) : s.pagePut t (0x74 + 8 * w.val) v be =
      s.winBaseWrite t w.val (mergeBytes (s.pageGet t 0 (0x74 + 8 * w.val)) v be).toNat := by
    fin_cases w <;> rfl
  refine State.pageRow_served h (by omega) (by fin_cases w <;> rfl) ((put _).trans ?_) rfl
  rw [mergeBytes_all]

theorem State.winCommitWrite_sys (s : State) (t : Nat) (v : Word) : (s.winCommitWrite t v).1.sys = s.sys := by
  unfold State.winCommitWrite
  split <;> rfl

theorem State.pageRow_winCommit {s : State} {t : Nat} (h : s.Serves t) (v : Word) :
    s.pageRow t 0x94 v 0xF#4 =
      (s.winCommitWrite t v).1.clamps t (.host 0 (pageAddr t 0x94)) (s.winCommitWrite t v).2 := by
  have put (be : BitVec 4) : s.pagePut t 0x94 v be = s.winCommitWrite t (woBytes v be) := rfl
  refine State.pageRow_served h rfl rfl ((put _).trans ?_) (s.winCommitWrite_sys t v)
  rw [woBytes_all]

/-- A window discarded has no word staged (R124). -/
theorem Tenant.stagedIn_unstage (T : Tenant) (w : Nat) : (T.unstage w).stagedIn w = 0 := by
  unfold Tenant.stagedIn Tenant.unstage SMap.clear
  rw [List.length_eq_zero_iff, List.filter_eq_nil_iff]
  intro q hq
  have outside := (List.mem_filter.mp hq).2
  simp only [Bool.or_eq_true, decide_eq_true_eq] at outside
  have other : ¬ q.1 / 2048 = w := by omega
  simpa using other

/-! Of a window, clamps change nothing (R137). -/

theorem State.wType_clamps (s : State) (t : Nat) (p : Path) (k u : Nat) :
    ((s.clamps t p k).ten u).wType = (s.ten u).wType := by rw [State.ten_clamps_shape]; rfl
theorem State.wBase_clamps (s : State) (t : Nat) (p : Path) (k u : Nat) :
    ((s.clamps t p k).ten u).wBase = (s.ten u).wBase := by rw [State.ten_clamps_shape]; rfl
theorem State.stagedIn_clamps (s : State) (t : Nat) (p : Path) (k u : Nat) :
    ((s.clamps t p k).ten u).stagedIn = (s.ten u).stagedIn := by rw [State.ten_clamps_shape]; rfl
theorem State.winState_clamps (s : State) (t : Nat) (p : Path) (k u : Nat) :
    ((s.clamps t p k).ten u).winState = (s.ten u).winState := by rw [State.ten_clamps_shape]
theorem State.winReq_clamps (s : State) (t : Nat) (p : Path) (k u : Nat) :
    ((s.clamps t p k).ten u).winReq = (s.ten u).winReq := by rw [State.ten_clamps_shape]

/-- The tenant with a window's TYPE written, its staged words discarded (R123). -/
def Tenant.setType (T : Tenant) (w ty : Nat) : Tenant :=
  { T.unstage w with winType := SMap.set (fun _ => 0) T.winType w ty }

/-- The tenant with a window's BASE written, its staged words discarded (R123). -/
def Tenant.setBase (T : Tenant) (w b : Nat) : Tenant :=
  { T.unstage w with winBase := SMap.set (fun _ => 0) T.winBase w b }

theorem Tenant.setType_window (T : Tenant) (w ty : Nat) :
    (T.setType w ty).wType w = ty ∧ (T.setType w ty).wBase = T.wBase ∧ (T.setType w ty).stagedIn w = 0 :=
  ⟨SMap.get_set_self _ _ _ _, rfl, T.stagedIn_unstage w⟩

theorem Tenant.setBase_window (T : Tenant) (w b : Nat) :
    (T.setBase w b).wBase w = b ∧ (T.setBase w b).wType = T.wType ∧ (T.setBase w b).stagedIn w = 0 :=
  ⟨SMap.get_set_self _ _ _ _, rfl, T.stagedIn_unstage w⟩

/-- The TYPE that a write of Wn_CTRL selects (Table 5.9). -/
def selectedType (t x : Nat) : Nat := if 5 ≤ x ∨ (x = 4 ∧ t ≠ 0) then 0 else x

theorem State.winCtrlWrite_eq (s : State) (t w v : Nat) :
    s.winCtrlWrite t w v =
      (s.updTen t fun T => T.setType w (selectedType t (v % 8)), if selectedType t (v % 8) = v % 8 then 0 else 1) := rfl

theorem State.winBaseWrite_eq (s : State) (t w v : Nat) :
    s.winBaseWrite t w v =
      (s.updTen t fun T => T.setBase w (min (baseMax ((s.ten t).wType w)) (v % 1024)),
        if min (baseMax ((s.ten t).wType w)) (v % 1024) = v % 1024 then 0 else 1) := rfl

/-- While STATE is not BUSY a write of WIN_COMMIT requests a commit, with LEN held to the end of the window (R129). -/
theorem State.winCommitWrite_free {s : State} {t : Nat} (free : (s.ten t).winState ≠ 1) (v : Word) :
    s.winCommitWrite t v =
      (s.updTen t fun T => { T with
        winState := 1,
        winReq := some ⟨v.fld 22 2, 4 * v.fld 0 11, 4 * (min (v.fld 11 11) (2047 - v.fld 0 11) + 1), T.winCheck⟩ },
        if min (v.fld 11 11) (2047 - v.fld 0 11) = v.fld 11 11 then 0 else 1) := if_neg free

end Sys2Proof.Machine

section
open Sys2Proof Sys2Proof.Machine

/-- Settles O18: each register's row is its write with its clamps, and clamps leave the window as written. -/
theorem windowRegisterRows : Obligations.WindowRegisterRows := by
  unfold Obligations.WindowRegisterRows
  intro s t h
  simp only [exec_windowCtrl, exec_windowBase, exec_winCommitReg, State.pageRow_winCtrl h, State.pageRow_winBase h,
    State.pageRow_winCommit h, State.winCtrlWrite_eq, State.winBaseWrite_eq]
  refine ⟨fun w v => ⟨_, rfl, ?_⟩, fun w v => ⟨_, rfl, ?_⟩,
    fun v => ⟨fun busy => ?_, fun free => ⟨_, rfl, ?_⟩⟩⟩
  · obtain ⟨type, base, discarded⟩ := (s.ten t.val).setType_window w.val (selectedType t.val (v.toNat % 8))
    have keeper : t.val ≠ 0 ↔ t ≠ 0 := Fin.val_eq_zero_iff.not
    rw [State.wType_clamps, State.wBase_clamps, State.stagedIn_clamps, State.ten_updTen_self, type, base, discarded]
    refine ⟨by simp only [selectedType, keeper], rfl, rfl, fun legal => ?_⟩
    have same : selectedType t.val (v.toNat % 8) = v.toNat % 8 := if_neg (by rwa [keeper])
    rw [same, if_pos rfl, State.clamps_zero]
    exact ⟨s.updTen_onlyTenant _ _, by rw [State.ten_updTen_self]; rfl⟩
  · obtain ⟨base, type, discarded⟩ :=
      (s.ten t.val).setBase_window w.val (min (baseMax ((s.ten t.val).wType w.val)) (v.toNat % 1024))
    rw [State.wType_clamps, State.wBase_clamps, State.stagedIn_clamps, State.ten_updTen_self, type, base, discarded]
    refine ⟨rfl, rfl, rfl, fun legal => ?_⟩
    rw [if_pos (Nat.min_eq_right legal), State.clamps_zero]
    exact s.updTen_onlyTenant _ _
  · rw [State.winCommitWrite, if_pos busy]
    exact ⟨_, rfl, State.ten_updTen_self _ _ _, State.updTen_onlyTenant _ _ _⟩
  · rw [State.winCommitWrite_free free, State.winState_clamps, State.winReq_clamps, State.ten_updTen_self]
    refine ⟨rfl, rfl, fun fits => ?_⟩
    rw [if_pos (by omega), State.clamps_zero]
    exact s.updTen_onlyTenant _ _

end

namespace Sys2Proof.Machine

/-! ## Register commands (R119, R134) -/

theorem exec_echo (s : State) (t : Fin 32) : exec (.echo t) s = .next (s.withRun t.val 0x01 State.runEcho) := rfl
theorem exec_cfgRead (s : State) (t : Fin 32) :
    exec (.cfgRead t) s = .next (s.withRun t.val 0x02 State.runCfgRead) := rfl
theorem exec_cfgWrite (s : State) (t : Fin 32) :
    exec (.cfgWrite t) s = .next (s.withRun t.val 0x03 State.runCfgWrite) := rfl
theorem exec_cfgModify (s : State) (t : Fin 32) :
    exec (.cfgModify t) s = .next (s.withRun t.val 0x04 State.runCfgModify) := rfl
theorem exec_pageRead (s : State) (t : Fin 32) :
    exec (.pageRead t) s = .next (s.withRun t.val 0x05 State.runPageRead) := rfl
theorem exec_pageWrite (s : State) (t : Fin 32) :
    exec (.pageWrite t) s = .next (s.withRun t.val 0x06 State.runPageWrite) := rfl

theorem State.withRun_none {s : State} {t op : Nat} (h : s.runOf t op = none) (f : State → Run → State) :
    s.withRun t op f = s := by rw [State.withRun, h]

theorem State.withRun_some {s : State} {t op : Nat} {r : Run} (h : s.runOf t op = some r)
    (f : State → Run → State) : s.withRun t op f = f s r := by rw [State.withRun, h]

/-- No clamp of an argument is counted. -/
theorem State.argClamps_zero (s : State) (r : Run) : s.argClamps r 0 = s := by
  unfold State.argClamps
  split <;> rfl

theorem State.runCfgRead_held {s : State} {r : Run} (h : (cfgArgs r 14).1.any s.cfgHeld = true) :
    s.runCfgRead r = s.hold (.run r.id) := if_pos h

theorem State.runCfgRead_reaches {s : State} {r : Run} (free : (cfgArgs r 14).1.any s.cfgHeld = false)
    (reach : (s.under r).cfgErrs r.ten false (cfgArgs r 14).1 = none) :
    s.runCfgRead r =
      (((s.argClamps r (cfgArgs r 14).2).cfgReads r.ten (cfgArgs r 14).1).1).finish r 0
        ((s.argClamps r (cfgArgs r 14).2).cfgReads r.ten (cfgArgs r 14).1).2 := by
  simp only [State.runCfgRead, free, reach, State.ok, Bool.false_eq_true, if_false]

theorem State.runCfgRead_fails {s : State} {r : Run} {e : Err} (free : (cfgArgs r 14).1.any s.cfgHeld = false)
    (err : (s.under r).cfgErrs r.ten false (cfgArgs r 14).1 = some e) : s.runCfgRead r = s.finish r e.status [] := by
  simp only [State.runCfgRead, free, err, State.failed, Bool.false_eq_true, if_false]

theorem State.runCfgWrite_held {s : State} {r : Run} (h : (cfgArgs r 12).1.any s.cfgHeld = true) :
    s.runCfgWrite r = s.hold (.run r.id) := if_pos h

theorem State.runCfgWrite_reaches {s : State} {r : Run} (free : (cfgArgs r 12).1.any s.cfgHeld = false)
    (reach : (s.under r).cfgErrs r.ten true (cfgArgs r 12).1 = none) :
    s.runCfgWrite r =
      ((s.argClamps r (cfgArgs r 12).2).cfgWrites r ((cfgArgs r 12).1.zip (r.words 12))).finish r 0 [] := by
  simp only [State.runCfgWrite, free, reach, State.ok, Bool.false_eq_true, if_false]

theorem State.runCfgWrite_fails {s : State} {r : Run} {e : Err} (free : (cfgArgs r 12).1.any s.cfgHeld = false)
    (err : (s.under r).cfgErrs r.ten true (cfgArgs r 12).1 = some e) : s.runCfgWrite r = s.finish r e.status [] := by
  simp only [State.runCfgWrite, free, err, State.failed, Bool.false_eq_true, if_false]

theorem State.runCfgModify_held {s : State} {r : Run} (h : s.cfgHeld (r.arg 4 4 / 4 * 4) = true) :
    s.runCfgModify r = s.hold (.run r.id) := if_pos h

/-- A register that an access reaches, alone. -/
theorem State.cfgErrs_one {s : State} {t a : Nat} {write : Bool} (h : s.cfgCmdErr t a write = none) :
    s.cfgErrs t write [a] = none := by simp [State.cfgErrs, h]

/-- The word that CFG_MODIFY writes: the masked bits of VALUE, the others as they read. -/
def State.modified (s : State) (r : Run) (a : Nat) : Word :=
  (s.cfgGet r.ten a &&& ~~~wordOf (r.arg 8 4)) ||| (wordOf (r.arg 12 4) &&& wordOf (r.arg 8 4))

theorem State.runCfgModify_reaches {s : State} {r : Run} {a : Nat} (arg : a = r.arg 4 4) (word : a % 4 = 0)
    (free : s.cfgHeld a = false) (write : (s.under r).cfgCmdErr r.ten a true = none)
    (read : (s.under r).cfgCmdErr r.ten a false = none) :
    s.runCfgModify r = (s.cfgWrites r [(a, s.modified r a)]).finish r 0
      (leBytes 4 ((s.cfgWrites r [(a, s.modified r a)]).cfgGet r.ten a).toNat) := by
  have aligned : a / 4 * 4 = a := by omega
  have reach : ((s.under r).cfgErrs r.ten true [a] <|> (s.under r).cfgErrs r.ten false [a]) = none := by
    rw [State.cfgErrs_one write, State.cfgErrs_one read]
    rfl
  simp only [State.runCfgModify, ← arg, aligned, free, reach, if_true, State.argClamps_zero, State.ok, State.modified,
    Bool.false_eq_true, if_false]

/-! ## Page commands (R119, log entry 14) -/

theorem State.runPageRead_reaches {s : State} {r : Run} (h : (pageArgs r 14).2.2 = true) :
    s.runPageRead r =
      (((s.argClamps r (pageArgs r 14).2.1).pageReads r.ten (pageArgs r 14).1).1).finish r 0
        ((s.argClamps r (pageArgs r 14).2.1).pageReads r.ten (pageArgs r 14).1).2 := if_pos h

theorem State.runPageRead_fails {s : State} {r : Run} (h : (pageArgs r 14).2.2 = false) :
    s.runPageRead r = s.finish r 2 [] := if_neg (by simp [h])

theorem State.runPageWrite_reaches {s : State} {r : Run} (h : (pageArgs r 12).2.2 = true) :
    s.runPageWrite r =
      ((s.argClamps r (pageArgs r 12).2.1).pageWrites r ((pageArgs r 12).1.zip (r.words 12))).finish r 0 [] := if_pos h

theorem State.runPageWrite_fails {s : State} {r : Run} (h : (pageArgs r 12).2.2 = false) :
    s.runPageWrite r = s.finish r 2 [] := if_neg (by simp [h])

end Sys2Proof.Machine

section
open Sys2Proof Sys2Proof.Machine

/-- Settles O20: the command that the row finds, and its effect where it is held, reaches its registers or does not. -/
theorem registerCommands : Obligations.RegisterCommands := by
  unfold Obligations.RegisterCommands
  intro s t
  simp only [exec_echo, exec_cfgRead, exec_cfgWrite, exec_cfgModify, exec_pageRead, exec_pageWrite]
  refine ⟨fun none => ?_, fun r run => ?_, fun r run held => ?_, fun r run held => ?_, fun r run held => ?_,
    fun r run free => ?_, fun r run free => ?_, fun r a run arg word free write read => ?_, fun r run => ?_,
    fun r run => ?_⟩
  · simp only [State.withRun_none (none _), and_self]
  all_goals rw [State.withRun_some run]
  · rfl
  · rw [State.runCfgRead_held held]
  · rw [State.runCfgWrite_held held]
  · rw [State.runCfgModify_held held]
  · exact ⟨fun reach => ⟨_, rfl, State.runCfgRead_reaches free reach⟩,
      fun e err => congrArg _ (State.runCfgRead_fails free err)⟩
  · exact ⟨fun reach => congrArg _ (State.runCfgWrite_reaches free reach),
      fun e err => congrArg _ (State.runCfgWrite_fails free err)⟩
  · exact ⟨_, _, rfl, rfl, State.runCfgModify_reaches arg word free write read⟩
  · exact ⟨fun reach => ⟨_, rfl, State.runPageRead_reaches reach⟩,
      fun out => congrArg _ (State.runPageRead_fails out)⟩
  · exact ⟨fun reach => congrArg _ (State.runPageWrite_reaches reach),
      fun out => congrArg _ (State.runPageWrite_fails out)⟩

end

namespace Sys2Proof.Machine

/-! ## WIN_WRITE (R124, R125, log entry 13) -/

theorem exec_winWrite (s : State) (t : Fin 32) :
    exec (.winWrite t) s = .next (s.withRun t.val 0x10 State.runWinWrite) := rfl
theorem exec_winCommit (s : State) (t : Fin 32) :
    exec (.winCommit t) s = .next (s.withRun t.val 0x11 State.runWinCommit) := rfl

/-- WIN of WIN_WRITE, with its clamps. -/
def Run.writeWin (r : Run) : Nat × Nat := argClamp 0 3 (r.arg 4 1)

/-- The range of WIN_WRITE, with its clamps. -/
def Run.writeRange (r : Run) : Nat × Nat × Nat := winRange (r.arg 6 2) (r.arg 5 1) 1 48 1

/-- The words of WIN_WRITE. -/
def Run.writeWords (r : Run) : List (Nat × Word × BitVec 4) :=
  wordsOf r.writeRange.1 (bytesAt r.slot 8 r.writeRange.2.1)

theorem State.runWinWrite_reaches {s : State} {r : Run}
    (free : s.rangeHeld r.ten r.writeWin.1 r.writeRange.1 r.writeRange.2.1 = false)
    (reach : (s.under r).winErrs r.ten r.writeWin.1 true (r.writeWords.map fun q => q.1) = none) :
    s.runWinWrite r =
      ((s.argClamps r (r.writeWin.2 + r.writeRange.2.2)).winPutAll r.ten r.writeWin.1 r.path r.writeWords).finish
        r 0 [] := by
  unfold Run.writeWords Run.writeRange Run.writeWin at *
  simp only [State.runWinWrite, free, reach, State.ok, Bool.false_eq_true, if_false]

theorem State.runWinWrite_fails {s : State} {r : Run} {e : Err}
    (free : s.rangeHeld r.ten r.writeWin.1 r.writeRange.1 r.writeRange.2.1 = false)
    (err : (s.under r).winErrs r.ten r.writeWin.1 true (r.writeWords.map fun q => q.1) = some e) :
    s.runWinWrite r = s.finish r e.status [] := by
  unfold Run.writeWords Run.writeRange Run.writeWin at *
  simp only [State.runWinWrite, free, err, State.failed, Bool.false_eq_true, if_false]

/-! ## WIN_COMMIT (R126 to R128, R173) -/

/-- An access of SRAM or flash through a window fails, if at all, at a door. -/
theorem State.targetErr_door {s : State} {t : Nat} {tg : Target} {write : Bool} {e : Err} (reg : ∀ a, tg ≠ .reg a)
    (h : s.targetErr t tg write = some e) : e = .door := by
  cases tg with
  | sram a =>
    unfold State.targetErr at h
    dsimp only at h
    split at h
    · cases h
    · exact (Option.some.inj h).symm
  | reg a => exact absurd rfl (reg a)
  | flash o =>
    unfold State.targetErr at h
    dsimp only at h
    split at h
    · exact (Option.some.inj h).symm
    · cases h

/-- What stops a commit is a door, an address that nothing takes, or a domain that is off. -/
theorem State.commitErr_status {s : State} {t w : Nat} {os : List Nat} {e : Err} (h : s.commitErr t w os = some e) :
    e.status = 2 ∨ e.status = 10 := by
  unfold State.commitErr at h
  rcases Option.or_eq_some_iff.mp (Option.orElse_eq_or.symm.trans h) with reach | ⟨-, power⟩
  · obtain ⟨o, -, h⟩ := List.exists_of_findSome?_eq_some reach
    refine .inl ?_
    split at h
    · split at h
      · cases h; rfl
      · cases h
    · rw [State.targetErr_door (fun _ => Target.noConfusion) h]; rfl
    · next tg notReg _ _ =>
      rw [State.targetErr_door notReg h]; rfl
    · cases h; rfl
  · obtain ⟨o, -, h⟩ := List.exists_of_findSome?_eq_some power
    refine .inr ?_
    split at h
    · split at h
      · cases h; rfl
      · cases h
    · split at h
      · cases h
      · cases h; rfl
    · cases h

theorem State.winCommit_fails (s : State) (t w off len : Nat) (crc : Word) (path : Path) (e : Err) :
    s.winCommit t w off len crc path (some e) = (s, e.status, []) := rfl

/-- A commit of a range that needs no rounding out, whose words are all read, compares the CRC of the content to be. -/
theorem State.winCommit_reads {s : State} {t w off len : Nat}
    (whole : commitRange ((s.ten t).wType w) off len = (off, len)) {vs : List Word}
    (words : (s.commitWords t w (wordOffs off len)).2 = some vs) (crc : Word) (path : Path) :
    s.winCommit t w off len crc path none =
      let x := (s.commitWords t w (wordOffs off len)).1
      let c := crc32c (vs.flatMap fun v => leBytes 4 v.toNat)
      if c ≠ crc then (x.doorFail t false, 3, leBytes 4 c.toNat)
      else if (x.commitPart t w off len).2 then ((x.commitPart t w off len).1, 4, [])
      else ((x.commitPart t w off len).1.commitWrite t w off len path, 0, leBytes 4 c.toNat) := by
  simp only [State.winCommit, whole, if_true, State.clamps_zero, words]

section
variable {s : State} {r : Run} {w off len k : Nat} (args : commitArgs r.slot = (w, off, len, k))
  (free : s.rangeHeld r.ten w off len = false) (idle : s.rangeBusy r.ten w off len = false)
include args free idle

theorem State.runWinCommit_fails {e : Err}
    (err : (s.under r).commitErr r.ten w (s.commitOffs r.ten w off len) = some e) :
    s.runWinCommit r = s.finish r e.status [] := by
  simp only [State.runWinCommit, args, free, idle, err, State.winCommit_fails,
    if_pos (State.commitErr_status err), Bool.false_eq_true, if_false]

/-- A commit whose arguments are within their ranges finishes with what the commit answers. -/
theorem State.runWinCommit_unclamped (unclamped : k = 0)
    (reach : (s.under r).commitErr r.ten w (s.commitOffs r.ten w off len) = none) :
    s.runWinCommit r =
      let q := s.winCommit r.ten w off len (wordOf (r.arg 12 4)) r.path none
      q.1.finish r q.2.1 q.2.2 := by
  simp only [State.runWinCommit, args, free, idle, reach, unclamped, State.argClamps_zero, ite_self,
    Bool.false_eq_true, if_false]

end

end Sys2Proof.Machine

section
open Sys2Proof Sys2Proof.Machine

/-- Settles O22: WIN_WRITE by its reach; WIN_COMMIT by what stops it, by its CRC, and by the words it writes. -/
theorem windowCommands : Obligations.WindowCommands := by
  unfold Obligations.WindowCommands
  intro s t r
  rw [exec_winWrite, exec_winCommit]
  refine ⟨fun run => ?_, fun run => ?_⟩
  · rw [State.withRun_some run]
    exact fun free => ⟨fun reach => congrArg _ (State.runWinWrite_reaches free reach),
      fun e err => congrArg _ (State.runWinWrite_fails free err)⟩
  · rw [State.withRun_some run]
    rcases args : commitArgs r.slot with ⟨w, off, len, k⟩
    dsimp only
    refine fun free idle => ⟨fun e err => congrArg _ (State.runWinCommit_fails args free idle err),
      fun whole unclamped reach vs words => ?_⟩
    rw [State.runWinCommit_unclamped args free idle unclamped reach]
    rw [whole] at words ⊢
    rw [State.winCommit_reads whole words]
    refine ⟨fun wrong => ?_, fun right clean => ?_⟩
    · rw [if_pos wrong]
    · rw [if_neg (not_not.mpr right), if_neg (ne_true_of_eq_false clean)]

end

namespace Sys2Proof.Machine

/-! ## Responses (R114, R117) -/

theorem exec_busyRetry (s : State) (t : Fin 32) : exec (.busyRetry t) s = .next (s.busyRetry t.val) := rfl
theorem exec_commandComplete (s : State) (t : Fin 32) : exec (.commandComplete t) s = .next (s.complete t.val) := rfl

theorem leBytes_length (k n : Nat) : (leBytes k n).length = k := by
  induction k generalizing n with
  | zero => rfl
  | succ k ih => rw [leBytes, List.length_cons, ih]

/-- A response slot has 64 bytes (Table 5.3). -/
theorem rspSlot_length (op status tag : Nat) (res : List Byte) : (rspSlot op status tag res).length = 64 := by
  simp [rspSlot, withCrc, padTo, bytesAt_length, leBytes_length]

/-- `n` is `s` with bytes written to SRAM from an address on, and one tenant changed. -/
structure State.Puts (s n : State) (t a : Nat) (bs : List Byte) (f : Tenant → Tenant) : Prop where
  self : n.ten t = f (s.ten t)
  bytes : n.rdBytes a bs.length = bs
  elsewhere : ∀ x, x < a ∨ a + bs.length ≤ x → n.rdByte x = s.rdByte x
  others : ∀ u, u ≠ t → n.ten u = s.ten u
  shape : n = { s with tens := n.tens, mem := n.mem, ecc := n.ecc }

theorem State.wrWhole_updTen_puts (s : State) (t a : Nat) (bs : List Byte) (f : Tenant → Tenant) :
    s.Puts ((s.wrWhole a bs).updTen t f) t a bs f := by
  have ten (u : Nat) : (s.wrWhole a bs).ten u = s.ten u := by
    rw [State.wrWhole_shape]
    rfl
  refine ⟨?_, s.rdBytes_wrWhole_self a bs, fun x away => ?_, fun u hu => ?_, ?_⟩
  · rw [State.ten_updTen_self, ten]
  · rw [State.rdByte_updTen, State.rdByte_wrWhole, if_neg (by omega)]
  · rw [State.ten_updTen_ne _ _ hu, ten]
  · have whole := s.wrWhole_shape a bs
    generalize s.wrWhole a bs = x at whole
    rw [whole]
    rfl

/-- The tenant once a response stands at its RQ_TAIL. -/
def Tenant.answered (T : Tenant) : Tenant :=
  { T with rqTail := T.rqTail + 1, exitBad := T.exitBad &&& ~~~BitVec.ofNat 32 (2 ^ (T.rqTail.toNat % 32)) }

/-- A response is written at RQ_TAIL behind a door that is not SHUT (R65, R114). -/
theorem State.rqPut_puts {s : State} {t : Nat} (door : s.door t ≠ .shut) (resp : List Byte) :
    s.Puts (s.rqPut t resp) t (rqAddr t (s.ten t).rqTail.toNat) resp Tenant.answered := by
  rw [State.rqPut, if_neg door]
  exact s.wrWhole_updTen_puts _ _ _ _

/-- A response that no one asks to be notified of goes into the RQ alone. -/
theorem State.respond_plain (s : State) (t : Nat) (resp : List Byte) {b : List Byte} (quiet : slotFlags b % 2 = 0) :
    s.respond t none resp (slotFlags b % 2 == 1) = s.rqPut t resp := by
  simp [State.respond, quiet]

theorem State.busyRetry_none {s : State} (h : s.runs = []) (t : Nat) : s.busyRetry t = s := by
  simp [State.busyRetry, h]

theorem State.complete_none {s : State} (h : s.runs = []) (t : Nat) : s.complete t = s := by
  simp [State.complete, h, takeRun]

/-- A command that has been answered BUSY_RETRY. -/
def State.retried (s : State) (r : Run) : State := s.updRun r.id fun q => { q with busySent := true }

/-- A finished command gone from those that run, and its response in the tag history. -/
def State.completed (s : State) (r : Run) (rs : List Run) (resp : List Byte) : State :=
  State.updTen { s with runs := rs } r.ten fun T => { T with hist := histSet r.id resp T.hist }

theorem State.ten_completed_self (s : State) (r : Run) (rs : List Run) (resp : List Byte) :
    (s.completed r rs resp).ten r.ten =
      { s.ten r.ten with hist := histSet r.id resp (s.ten r.ten).hist } := State.ten_updTen_self _ _ _

theorem State.ten_completed_ne (s : State) {r : Run} {u : Nat} (hu : u ≠ r.ten) (rs : List Run) (resp : List Byte) :
    (s.completed r rs resp).ten u = s.ten u := State.ten_updTen_ne _ _ hu

/-- The BUSY_RETRY response of a command. -/
def State.retryRsp (s : State) (r : Run) : List Byte :=
  rspSlot (slotOp r.slot) 1 (slotTag r.slot) (leBytes 2 (s.retryAfter r.id))

theorem State.retryRsp_length (s : State) (r : Run) : (s.retryRsp r).length = 64 := rspSlot_length _ _ _ _

section
variable {s : State} {r : Run} {rs : List Run} (runs : s.runs = r :: rs) (link : r.link = none)
  (fresh : r.busySent = false) (quiet : slotFlags r.slot % 2 = 0)
include runs link fresh quiet

/-- The oldest command, running two ticks after its acceptance, is answered BUSY_RETRY. -/
theorem State.busyRetry_due (running : r.result = none) (old : 2 ≤ r.age) :
    s.busyRetry r.ten = (s.retried r).rqPut r.ten (s.retryRsp r) := by
  have found : (s.runs.find? fun q => q.ten == r.ten && q.result.isNone && !q.busySent && decide (2 ≤ q.age)) =
      some r := by
    rw [runs]
    exact List.find?_cons_of_pos (by simp [running, fresh, old])
  simp only [State.busyRetry, found, link]
  exact State.respond_plain _ _ _ quiet

/-- The oldest finished command gets its final response. -/
theorem State.complete_due {status : Nat} {res : List Byte} (done : r.st = .finished status res)
    (free : s.sramHeld (rqAddr r.ten (s.ten r.ten).rqTail.toNat) = false) :
    s.complete r.ten =
      (s.completed r rs (rspSlot (slotOp r.slot) status (slotTag r.slot) res)).rqPut r.ten
        (rspSlot (slotOp r.slot) status (slotTag r.slot) res) := by
  have result : r.result = some (status, res) := by rw [Run.result, done]
  have taken : takeRun (fun q => q.ten == r.ten && q.result.isSome) s.runs = some (r, rs) := by
    rw [runs]
    simp [takeRun, result]
  simp only [State.complete, taken, link, free, result, fresh, Option.isNone_none, Option.getD_some, Bool.and_false,
    Bool.false_eq_true, if_false]
  exact State.respond_plain _ _ _ quiet

end

end Sys2Proof.Machine

section
open Sys2Proof Sys2Proof.Machine

/-- Settles O27: the command that is due, and the response written at RQ_TAIL. -/
theorem responseRows : Obligations.ResponseRows := by
  unfold Obligations.ResponseRows
  intro s t
  rw [exec_busyRetry, exec_commandComplete]
  refine ⟨fun none => ?_, fun r rs runs ten link fresh quiet door => ?_⟩
  · rw [State.busyRetry_none none, State.complete_none none]
    exact ⟨rfl, rfl⟩
  · rw [← ten] at door ⊢
    refine ⟨fun running old => ?_, fun status res done free => ?_⟩
    · rw [State.busyRetry_due runs link fresh quiet running old]
      have put := State.rqPut_puts (s := s.retried r) door (s.retryRsp r)
      have bytes := put.bytes
      have elsewhere := put.elsewhere
      rw [s.retryRsp_length] at bytes elsewhere
      refine ⟨_, rfl, ?_, bytes, elsewhere, put.others, ?_⟩
      · rw [put.self]; rfl
      · rw [put.shape]; rfl
    · rw [State.complete_due runs link fresh quiet done free]
      dsimp only
      have len := rspSlot_length (slotOp r.slot) status (slotTag r.slot) res
      generalize rspSlot (slotOp r.slot) status (slotTag r.slot) res = resp at len
      have put := State.rqPut_puts (s := s.completed r rs resp) door resp
      have self := put.self
      have bytes := put.bytes
      have elsewhere := put.elsewhere
      rw [s.ten_completed_self] at self bytes elsewhere
      rw [len] at bytes elsewhere
      refine ⟨_, rfl, ?_, ?_, ⟨bytes, ?_⟩, elsewhere, fun u hu => ?_, ?_⟩
      · rw [put.shape]; rfl
      · rw [self]; rfl
      · rw [self]; rfl
      · rw [put.others u hu, s.ten_completed_ne hu]
      · rw [put.shape]; rfl

end

namespace Sys2Proof.Machine

/-! ## Effects one after the other -/

/-- What each of some effects leaves as it was, all of them do. -/
theorem State.each_keeps {α : Type} {view : State → α} {f : State → Nat → State} {ns : List Nat}
    (hf : ∀ s, ∀ n ∈ ns, view (f s n) = view s) (s : State) : view (s.each ns f) = view s := by
  induction ns generalizing s with
  | nil => rfl
  | cons n ns ih =>
    exact (ih (fun s k hk => hf s k (List.mem_cons_of_mem _ hk)) (f s n)).trans (hf s n List.mem_cons_self)

theorem State.each_range_succ (s : State) (f : State → Nat → State) (m : Nat) :
    s.each (List.range (m + 1)) f = f (s.each (List.range m) f) m := by
  simp only [State.each, List.range_succ, List.foldl_append, List.foldl_cons, List.foldl_nil]

/-- What only the `i`-th of some effects changes is changed by it alone. -/
theorem State.each_range_once {α : Type} {view : State → α} {f : State → Nat → State} {i : Nat}
    (other : ∀ s k, k ≠ i → view (f s k) = view s) (s : State) {m : Nat} (h : i < m) :
    ∃ x : State, view x = view s ∧ view (s.each (List.range m) f) = view (f x i) := by
  induction m with
  | zero => exact absurd h (Nat.not_lt_zero i)
  | succ m ih =>
    rw [State.each_range_succ]
    rcases Nat.lt_succ_iff_lt_or_eq.mp h with lt | rfl
    · obtain ⟨x, before, after⟩ := ih lt
      exact ⟨x, before, (other _ m (by omega)).trans after⟩
    · exact ⟨_, State.each_keeps (fun s k hk => other s k (by simp only [List.mem_range] at hk; omega)) s, rfl⟩

/-! ## Slot 1: what it leaves as it was -/

/-- What of the part slot 1 leaves as it was, with one sensor beside. -/
def State.loopView (i : Nat) (s : State) : SMap DoorSt × SMap Word × Tick × Adc × Sensor :=
  (s.doors, s.regs, s.tick, s.adc, s.sensor i)

theorem State.sensor_of_loopView {s n : State} {i : Nat} (h : n.loopView i = s.loopView i) :
    n.sensor i = s.sensor i := congrArg (fun q => q.2.2.2.2) h

theorem State.loopView_each {i : Nat} {f : State → Nat → State} {ns : List Nat}
    (hf : ∀ s, ∀ n ∈ ns, (f s n).loopView i = s.loopView i) (s : State) :
    (s.each ns f).loopView i = s.loopView i := State.each_keeps hf s

section
variable (s : State) (i : Nat)

theorem State.loopView_raise (e : Nat) (d : Dest) (v : Word) :
    (s.raise e d v).loopView i = s.loopView i := by simp [State.loopView]
theorem State.loopView_drawn : s.drawn.loopView i = s.loopView i := rfl
theorem State.loopView_updLamp (n : Nat) (f : Lamp → Lamp) : (s.updLamp n f).loopView i = s.loopView i := rfl
theorem State.loopView_updZone (n : Nat) (f : Zone → Zone) : (s.updZone n f).loopView i = s.loopView i := rfl
theorem State.loopView_updFan (n : Nat) (f : Fan → Fan) : (s.updFan n f).loopView i = s.loopView i := rfl
theorem State.loopView_updSeqr (f : Seq → Seq) : (s.updSeqr f).loopView i = s.loopView i := rfl

theorem State.sensor_updSensor (k : Nat) (f : Sensor → Sensor) :
    (s.updSensor k f).sensor i = if i = k then f (s.sensor k) else s.sensor i := SMap.get_upd _ _ _ _ _

theorem State.loopView_setSensor {k : Nat} (other : k ≠ i) (t : Int) (kind : Nat) :
    (s.setSensor k t kind).loopView i = s.loopView i := by
  have upd (f : Sensor → Sensor) : (s.updSensor k f).loopView i = s.loopView i := by
    simp [State.loopView, State.sensor_updSensor, Ne.symm other]
  unfold State.setSensor
  dsimp only
  split
  · rw [State.loopView_raise, upd]
  · rw [upd]

/-- A sensor updated has its temperature and kind (R388). -/
theorem State.sensor_setSensor_self (t : Int) (kind : Nat) :
    (s.setSensor i t kind).sensor i = { s.sensor i with t := t, kind := kind } := by
  unfold State.setSensor
  dsimp only
  split
  · rw [State.sensor_raise, State.sensor_updSensor, if_pos rfl]
  · rw [State.sensor_updSensor, if_pos rfl]

theorem State.loopView_dieUpdate (die : List Int) {k : Nat} (other : k ≠ i) :
    (s.dieUpdate die k).loopView i = s.loopView i := by
  unfold State.dieUpdate
  split <;> exact s.loopView_setSensor i other _ _

theorem State.loopView_extUpdate {j : Nat} (other : 4 + j ≠ i) : (s.extUpdate j).loopView i = s.loopView i := by
  unfold State.extUpdate
  dsimp only
  split
  · exact s.loopView_setSensor i other _ _
  · split
    · exact s.loopView_setSensor i other _ _
    · exact (s.drawn.loopView_setSensor i other _ _).trans rfl

theorem State.loopView_critUpdate : s.critUpdate.loopView i = s.loopView i := by
  unfold State.critUpdate
  dsimp only
  rw [apply_ite (State.loopView i), State.loopView_raise]
  exact ite_self (s.loopView i)

theorem State.loopView_zoneUpdate (k : Nat) : (s.zoneUpdate k).loopView i = s.loopView i := by
  unfold State.zoneUpdate
  dsimp only
  rw [apply_ite (State.loopView i), State.loopView_raise]
  exact ite_self _

theorem State.loopView_stallCheck (n : Nat) : (s.stallCheck n).loopView i = s.loopView i := by
  unfold State.stallCheck
  dsimp only
  rw [apply_ite (State.loopView i), State.loopView_raise]
  exact ite_self (s.loopView i)

/-- Behind the die sensors the slot 1 update of THERM/FAN changes external sensors, zones and fans (R383). -/
theorem State.loopView_thermalRest {i : Nat} (die : i < 4 ∨ 16 ≤ i) :
    (((((s.each (List.range 12) State.extUpdate).critUpdate).each (List.range 8) State.zoneUpdate).each
      (List.range 8) State.fanDuty).each (List.range 8) State.stallCheck).loopView i = s.loopView i := by
  rw [State.loopView_each fun s n _ => s.loopView_stallCheck i n,
    State.loopView_each fun s n _ => by exact s.loopView_updFan i n _,
    State.loopView_each fun s n _ => s.loopView_zoneUpdate i n, State.loopView_critUpdate,
    State.loopView_each fun s n hn => s.loopView_extUpdate i (by simp only [List.mem_range] at hn; omega)]

/-- The update of THERM/FAN is that of the die sensors and what follows it. -/
theorem State.loopView_thermalUpdate {i : Nat} (die : List Int) (outside : 16 ≤ i) :
    (s.thermalUpdate die).loopView i = s.loopView i := by
  unfold State.thermalUpdate
  split
  · rfl
  · dsimp only
    rw [State.loopView_thermalRest _ (.inr outside)]
    exact State.loopView_each (fun s n hn => s.loopView_dieUpdate i die (by simp only [List.mem_range] at hn; omega)) s

end

/-- A die sensor that its self-test left good is updated within its range (R377, R380). -/
theorem State.sensor_thermalUpdate {s : State} (on : s.up 12 = true) (die : List Int) {i : Nat} (hi : i < 4)
    (good : (s.sensor i).testBad = false) :
    (s.thermalUpdate die).sensor i =
      { s.sensor i with t := clampInt (-400) 1500 (die.getD i 0), kind := 0 } := by
  obtain ⟨x, before, after⟩ := State.each_range_once (view := State.loopView i) (f := fun s i => s.dieUpdate die i)
    (fun s k hk => s.loopView_dieUpdate i die hk) s hi
  have before := State.sensor_of_loopView before
  have same : (s.thermalUpdate die).sensor i = (x.dieUpdate die i).sensor i := by
    rw [State.thermalUpdate, if_neg (by simp [on])]
    exact State.sensor_of_loopView ((State.loopView_thermalRest _ (.inl hi)).trans after)
  rw [same, State.dieUpdate, before, if_neg (by simp [good]), State.sensor_setSensor_self, before]

end Sys2Proof.Machine

namespace Sys2Proof.Machine

/-! ## Slot 1: lamps and battery (R290, R291, R323 to R325, R336) -/

theorem State.lampClose_shape (s : State) : s.lampClose = { s with lamps := s.lampClose.lamps } := by
  unfold State.lampClose
  generalize List.range 16 = ns
  induction ns generalizing s with
  | nil => rfl
  | cons n ns ih => exact ih (s.updLamp n fun l => { l.rest with pf := 0, pfFade := none })

/-- The closing of banks changes the ports, the lamps and the shutters alone (R274). -/
theorem State.closeBanks_shape (s : State) (m : BitVec 6) :
    ∃ a b l, s.closeBanks m = { s with
      portA := a, portB := b, lamps := l, pwr := { s.pwr with closed := s.pwr.closed ||| m } } := by
  have port (n : State) (p : Nat) (c : Bool) : ∃ a b, (if c = true then n.updPort p HPort.hold else n) =
      { n with portA := a, portB := b } := by
    cases c
    · exact ⟨_, _, rfl⟩
    · unfold State.updPort
      rw [if_pos rfl]
      split <;> exact ⟨_, _, rfl⟩
  unfold State.closeBanks
  dsimp only
  obtain ⟨a, b, h⟩ := port { s with pwr := { s.pwr with closed := s.pwr.closed ||| m } } 0 (m.getLsbD 0)
  rw [h]
  obtain ⟨a, b, h⟩ := port { s with
    portA := a, portB := b, pwr := { s.pwr with closed := s.pwr.closed ||| m } } 1 (m.getLsbD 1)
  rw [h]
  split
  · rw [State.lampClose_shape]
    exact ⟨_, _, _, rfl⟩
  · exact ⟨_, _, _, rfl⟩

section
variable (s : State) (i : Nat)

theorem State.loopView_closeBanks (m : BitVec 6) : (s.closeBanks m).loopView i = s.loopView i := by
  obtain ⟨a, b, l, h⟩ := s.closeBanks_shape m
  rw [h]
  rfl

theorem State.loopView_lampFault (n : Nat) (bit : BitVec 5) (pins : BitVec 3) :
    (s.lampFault n bit pins).loopView i = s.loopView i := by
  unfold State.lampFault
  dsimp only
  rw [State.loopView_raise, State.loopView_updLamp]

theorem State.loopView_lampCurrent (n : Nat) : (s.lampCurrent n).loopView i = s.loopView i := by
  unfold State.lampCurrent
  dsimp only
  rw [apply_ite (State.loopView i), State.loopView_raise]
  exact ite_self _

theorem State.loopView_lampFault_if (c : Prop) [Decidable c] (n : Nat) (bit : BitVec 5) (pins : BitVec 3) :
    (if c then s.lampFault n bit pins else s).loopView i = s.loopView i := by
  rw [apply_ite (State.loopView i), State.loopView_lampFault, ite_self]

theorem State.loopView_lampChecks (n : Nat) : (s.lampChecks n).loopView i = s.loopView i := by
  unfold State.lampChecks
  split
  · rfl
  · dsimp only
    rw [State.loopView_lampFault_if, State.loopView_lampFault_if, State.loopView_lampFault_if, State.loopView_updLamp]

theorem State.loopView_lampUpdate : s.lampUpdate.loopView i = s.loopView i := by
  unfold State.lampUpdate
  split
  · rfl
  · refine State.loopView_each (fun s n _ => ?_) s
    split
    · rw [State.loopView_lampChecks, State.loopView_lampCurrent]
    · rfl

theorem State.loopView_setCharge (q : Int) : (s.setCharge q).loopView i = s.loopView i := by
  unfold State.setCharge
  split <;> rfl

theorem State.loopView_ev252 (kind : Nat) : (s.ev252 kind).loopView i = s.loopView i := s.loopView_raise i _ _ _

theorem State.loopView_seqFinish : s.seqFinish.loopView i = s.loopView i := by
  unfold State.seqFinish
  split <;> rw [State.loopView_ev252, State.loopView_updSeqr]

theorem State.loopView_seqDrive : s.seqDrive.loopView i = s.loopView i := by
  unfold State.seqDrive
  dsimp only
  split <;> rfl

theorem State.loopView_seqRun (k from_ : Nat) : (State.seqRun k from_ s).loopView i = s.loopView i := by
  induction k generalizing s from_ with
  | zero => rfl
  | succ k ih =>
    unfold State.seqRun
    split
    · exact s.loopView_seqFinish i
    · dsimp only
      split
      · rfl
      · split
        · rw [ih, State.loopView_seqDrive, State.loopView_updSeqr]
        · rw [State.loopView_seqDrive, State.loopView_updSeqr]

theorem State.loopView_railRecord (kind : Nat → Nat) (ns : BitVec 24) :
    (s.railRecord kind ns).loopView i = s.loopView i := by
  unfold State.railRecord
  refine State.loopView_each (fun s n _ => ?_) s
  dsimp only
  rw [State.loopView_raise, State.loopView_updSeqr]

theorem State.loopView_dropUpDone : s.dropUpDone.loopView i = s.loopView i := by
  unfold State.dropUpDone
  split
  · rw [State.loopView_updSeqr, State.loopView_closeBanks]
  · rfl

theorem State.loopView_seqDown (st : Nat) : (s.seqDown st).loopView i = s.loopView i := by
  unfold State.seqDown
  dsimp only
  rw [State.loopView_railRecord, State.loopView_seqRun, State.loopView_updSeqr, State.loopView_dropUpDone]

theorem State.loopView_batSkip (k : Nat) : (s.batSkip k).loopView i = s.loopView i := rfl

theorem State.loopView_batLimits (k : Nat) (low high : Bool) (value : Nat) :
    (s.batLimits k low high value).loopView i = s.loopView i := by
  unfold State.batLimits
  dsimp only
  rw [apply_ite (State.loopView i), State.loopView_seqDown, ite_self, apply_ite (State.loopView i),
    State.loopView_raise, ite_self, State.loopView_updSeqr]

theorem State.loopView_batUpdate : s.batUpdate.loopView i = s.loopView i := by
  unfold State.batUpdate
  split
  · rfl
  · dsimp only
    rw [apply_ite (State.loopView i), State.loopView_batLimits, State.loopView_batSkip, ite_self,
      apply_ite (State.loopView i), State.loopView_batLimits, State.loopView_batSkip, ite_self,
      apply_ite (State.loopView i), State.loopView_batLimits, State.loopView_batSkip, ite_self,
      apply_ite (State.loopView i), State.loopView_setCharge, ite_self, State.loopView_updSeqr]

end

/-! ## Slot 1: the ages of results (R290) -/

/-- Every converter result one tick older. -/
def State.aged (s : State) : State :=
  s.each (List.range 32) fun s n => s.updChan n fun c => { c with age := satAdd 17 c.age 1 }

theorem State.chan_eachUpd (s : State) (f : Chan → Chan) (k i : Nat) :
    (s.each (List.range k) fun s n => s.updChan n f).chan i = if i < k then f (s.chan i) else s.chan i := by
  induction k with
  | zero => rfl
  | succ k ih =>
    rw [State.each_range_succ, State.chan_updChan]
    by_cases h : i = k
    · subst h
      rw [if_pos rfl, ih, if_neg (Nat.lt_irrefl i), if_pos (Nat.lt_succ_self i)]
    · rw [if_neg h, ih]
      exact if_congr (by omega) rfl rfl

/-- The ages are the converter's. -/
theorem State.aged_shape (s : State) : ∃ a, s.aged = { s with adc := a } := by
  unfold State.aged
  generalize List.range 32 = ns
  induction ns generalizing s with
  | nil => exact ⟨_, rfl⟩
  | cons n ns ih => exact ih (s.updChan n fun c => { c with age := satAdd 17 c.age 1 })

theorem satAdd_seventeen (n : Nat) : satAdd 17 n 1 = min 17 (n + 1) := by
  unfold satAdd
  split <;> omega

theorem State.chan_aged (s : State) {i : Nat} (hi : i < 32) :
    s.aged.chan i = { s.chan i with age := min 17 ((s.chan i).age + 1) } := by
  rw [← satAdd_seventeen]
  exact (s.chan_eachUpd _ 32 i).trans (if_pos hi)

/-! ## Slot 1 -/

theorem exec_loopSlot {die : List Int} (h : die.length = 4) (s : State) :
    exec (.loopSlot die) s = .next (s.atSlot 1 fun s => s.loopSlot die) := by
  have ok : (Instr.loopSlot die).WellFormed = true := beq_iff_eq.mpr h
  have row : exec (.loopSlot die) s = onlyIf (Instr.loopSlot die).WellFormed s (s.atSlot 1 fun s => s.loopSlot die) :=
    rfl
  rw [row, ok]
  rfl

/-- Behind the ages slot 1 leaves doors, registers, the tick and the converter as they were. -/
theorem State.loopSlot_keeps (s : State) (die : List Int) :
    (s.loopSlot die).doors = s.doors ∧ (s.loopSlot die).regs = s.regs ∧ (s.loopSlot die).tick = s.tick ∧
      (s.loopSlot die).chan = s.aged.chan := by
  have view : (s.loopSlot die).loopView 16 = s.aged.loopView 16 := by
    unfold State.loopSlot
    rw [State.loopView_batUpdate, State.loopView_lampUpdate]
    exact State.loopView_thermalUpdate s.aged die (Nat.le_refl 16)
  simp only [State.loopView, Prod.mk.injEq] at view
  obtain ⟨doors, regs, tick, adc, -⟩ := view
  have chan : (s.loopSlot die).chan = s.aged.chan := by
    unfold State.chan
    rw [adc]
  obtain ⟨a, shape⟩ := s.aged_shape
  exact ⟨by rw [doors, shape], by rw [regs, shape], by rw [tick, shape], chan⟩

theorem State.sensor_loopSlot {s : State} (on : s.up 12 = true) (die : List Int) {i : Nat} (hi : i < 4)
    (good : (s.sensor i).testBad = false) :
    (s.loopSlot die).sensor i = { s.sensor i with t := clampInt (-400) 1500 (die.getD i 0), kind := 0 } := by
  have last : (s.loopSlot die).sensor i = (s.aged.thermalUpdate die).sensor i := by
    refine State.sensor_of_loopView ?_
    unfold State.loopSlot
    rw [State.loopView_batUpdate, State.loopView_lampUpdate]
    rfl
  obtain ⟨a, shape⟩ := s.aged_shape
  have up : s.aged.up 12 = s.up 12 := by rw [shape]; rfl
  have sensor : s.aged.sensor i = s.sensor i := by rw [shape]; rfl
  rw [last, State.sensor_thermalUpdate (up.trans on) die hi (by rw [sensor]; exact good), sensor]

end Sys2Proof.Machine

namespace Sys2Proof.Machine

/-! ## Slots -/

/-- The state in which a slot has started. -/
def State.inSlot (s : State) (n : Nat) : State := s.updTick fun k => { k with slot := n }

/-- A slot's work is done in the state in which it has started, while the tick counts. -/
theorem State.atSlot_inSlot {s : State} (h : s.ticking = true) (n : Nat) (f : State → State) :
    s.atSlot n f = f (s.inSlot n) := State.atSlot_ticking h n f

/-! ## Slot 3 (R365) -/

theorem exec_adcSlot (s : State) : exec .adcSlot s = .next (s.atSlot 3 State.adcSlot) := rfl

/-- A sequence that is cut no more. -/
def SeqRun.uncut (q : SeqRun) : SeqRun := { q with cut := false }

/-- A pair with nothing to convert starts nothing. -/
theorem State.pairGo_idle {s : State} {b : Bool} (requests : s.adc.inj = []) (left : (s.seqOf b).left = [])
    (t : Instant) : s.pairGo b t = s := by
  have noInj : s.injGo b t = s := by simp [State.injGo, State.injNext, requests]
  have noSeq : s.seqGo b t = s := if_pos (.inr (by rw [left]; rfl))
  unfold State.pairGo
  split
  · rfl
  · simp only [noInj, noSeq, ite_self]

theorem State.seqOf_updSeq (s : State) (b c : Bool) (f : SeqRun → SeqRun) :
    (s.updSeq b f).seqOf c = if c = b then f (s.seqOf c) else s.seqOf c := by
  cases b <;> cases c <;> rfl

/-- With DIV 0, nothing left of its sequence and no request, a sequencer starts nothing. -/
theorem State.adcSlotSeq_idle {s : State} {b : Bool} (div : s.fld (seqCtrl b) 0 8 = 0) (requests : s.adc.inj = [])
    (left : (s.seqOf b).left = []) : s.adcSlotSeq b = s.updSeq b SeqRun.uncut := by
  have idle : (s.updSeq b SeqRun.uncut).pairGo b (6 * s.periodUs, true) = s.updSeq b SeqRun.uncut := by
    refine State.pairGo_idle ?_ ?_ _
    · cases b <;> exact requests
    · rw [State.seqOf_updSeq, if_pos rfl]
      exact left
  unfold State.adcSlotSeq
  simp only [div, if_true]
  exact idle

theorem State.adcSlot_idle {s : State} (on : s.up 10 = true) (divA : s.fld 0x300A0014 0 8 = 0)
    (divB : s.fld 0x300A001C 0 8 = 0) (requests : s.adc.inj = []) (leftA : s.adc.seqA.left = [])
    (leftB : s.adc.seqB.left = []) :
    s.adcSlot = (s.updSeq false SeqRun.uncut).updSeq true SeqRun.uncut := by
  unfold State.adcSlot
  rw [if_neg (by simp [on]), State.adcSlotSeq_idle (b := false) divA requests leftA]
  exact State.adcSlotSeq_idle (s := s.updSeq false SeqRun.uncut) (b := true) divB requests leftB

theorem State.adcSlot_off {s : State} (off : s.up 10 = false) : s.adcSlot = s := if_pos off

/-! ## Slot 38 (R122, R403) -/

theorem exec_coalesceSweep (s : State) : exec .coalesceSweep s = .next (s.atSlot 38 State.sweepSlot) := rfl

theorem State.releaseAfter_none {s : State} (h : s.after = []) : s.releaseAfter = s := by
  unfold State.releaseAfter
  rw [h]
  exact congrArg (fun a => { s with after := a }) h.symm

theorem State.sweepTen_none {s : State} {t : Nat} (h : (s.ten t).pend = []) : s.sweepTen t = s := by
  rw [State.sweepTen, h]
  rfl

/-- Effects of which none changes anything. -/
theorem State.each_same {s : State} {f : State → Nat → State} {ns : List Nat} (h : ∀ n ∈ ns, f s n = s) :
    s.each ns f = s := by
  induction ns with
  | nil => rfl
  | cons n ns ih =>
    have first : s.each (n :: ns) f = (f s n).each ns f := rfl
    rw [first, h n List.mem_cons_self]
    exact ih fun k hk => h k (List.mem_cons_of_mem _ hk)

theorem State.sweepSlot_none {s : State} (after : s.after = []) (none : ∀ t, t < 32 → (s.ten t).pend = []) :
    s.sweepSlot = s := by
  have sweeps : s.each (List.range 32) State.sweepTen = s :=
    State.each_same fun t ht => State.sweepTen_none (none t (List.mem_range.mp ht))
  rw [State.sweepSlot, sweeps, State.releaseAfter_none after]

/-- The tenant once an entry stands at its EQ_TAIL for its one pending event. -/
def Tenant.swept (T : Tenant) : Tenant := { T with eqTail := T.eqTail + 1, pend := [] }

theorem State.updTen_updTen (s : State) (t : Nat) (f g : Tenant → Tenant) :
    (s.updTen t f).updTen t g = s.updTen t fun T => g (f T) :=
  congrArg (fun x => { s with tens := x }) (SMap.upd_upd Tenant.reset s.tens t f g)

/-- A change of a tenant is what it does to that tenant. -/
theorem State.updTen_congr {s : State} {t : Nat} {f g : Tenant → Tenant} (h : f (s.ten t) = g (s.ten t)) :
    s.updTen t f = s.updTen t g :=
  congrArg (fun x => { s with tens := SMap.set Tenant.reset s.tens t x }) h

/-- One pending event with room in the EQ is written at EQ_TAIL with COALESCED and its count. -/
theorem State.sweepTen_one {s : State} {t e : Nat} {p : PendEv} (one : (s.ten t).pend = [(e, p)])
    (room : (s.ten t).eqCount < 64) :
    s.sweepTen t = (s.wrWhole (eqAddr t (s.ten t).eqTail.toNat)
      (eventEntry e (1 + 2 * p.count) p.tick p.data)).updTen t Tenant.swept := by
  have ten (a : Nat) (bs : List Byte) : ((s.wrWhole a bs).ten t).pend = [(e, p)] := by
    rw [State.wrWhole_shape]
    exact one
  have cleared : SMap.set (fun _ => (⟨0, 0, 0⟩ : PendEv)) [(e, p)] e ⟨0, 0, 0⟩ = [] := by
    simp [SMap.set, SMap.erase]
  rw [State.sweepTen, one]
  refine (if_pos room).trans ?_
  rw [State.eqPut, State.updTen_updTen]
  refine State.updTen_congr ?_
  simp only [Tenant.swept, ten, cleared]

/-- Where of several effects one alone changes anything, all of them do what it does. -/
theorem State.each_range_only {s : State} {f : State → Nat → State} {t m : Nat} (h : t < m)
    (before : ∀ k, k < m → k ≠ t → f s k = s) (after : ∀ k, k < m → k ≠ t → f (f s t) k = f s t) :
    s.each (List.range m) f = f s t := by
  induction m with
  | zero => exact absurd h (Nat.not_lt_zero t)
  | succ m ih =>
    rw [State.each_range_succ]
    rcases Nat.lt_succ_iff_lt_or_eq.mp h with lt | rfl
    · rw [ih lt (fun k hk => before k (by omega)) (fun k hk => after k (by omega))]
      exact after m (by omega) (by omega)
    · rw [State.each_same fun k hk => before k (by simp only [List.mem_range] at hk; omega)
        (by simp only [List.mem_range] at hk; omega)]

/-- Slot 38 with one pending event in all. -/
theorem State.sweepSlot_one {s : State} {t e : Nat} {p : PendEv} (after : s.after = []) (ht : t < 32)
    (others : ∀ u, u < 32 → u ≠ t → (s.ten u).pend = []) (one : (s.ten t).pend = [(e, p)])
    (room : (s.ten t).eqCount < 64) :
    s.Puts s.sweepSlot t (eqAddr t (s.ten t).eqTail.toNat) (eventEntry e (1 + 2 * p.count) p.tick p.data)
      Tenant.swept := by
  have put := s.wrWhole_updTen_puts t (eqAddr t (s.ten t).eqTail.toNat)
    (eventEntry e (1 + 2 * p.count) p.tick p.data) Tenant.swept
  rw [← State.sweepTen_one one room] at put
  have sweeps : s.each (List.range 32) State.sweepTen = s.sweepTen t := by
    refine State.each_range_only ht (fun k hk ne => State.sweepTen_none (others k hk ne)) fun k hk ne => ?_
    refine State.sweepTen_none ?_
    rw [put.others k ne]
    exact others k hk ne
  have still : (s.sweepTen t).after = [] := by rw [put.shape]; exact after
  rw [State.sweepSlot, sweeps, State.releaseAfter_none still]
  exact put

theorem eventEntry_length (e flags tick : Nat) (data : Word) : (eventEntry e flags tick data).length = 8 := by
  simp [eventEntry, leBytes_length]

end Sys2Proof.Machine

namespace Sys2Proof.Machine

/-! ## Slot 39: what comes before the power controller (R54, R309, R365) -/

theorem exec_guardSlot (s : State) : exec .guardSlot s = .next (s.atSlot 39 State.guardSlot) := rfl

/-- What the work of slot 39 before the power controller leaves as it was: doors, power, the slot, and the votes that
tenants hold. -/
def State.guardView (s : State) : SMap DoorSt × Pwr × Nat × (Nat → Bool) :=
  (s.doors, s.pwr, s.tick.slot, fun t => (s.ten t).wakeHold)

section
variable (s : State)

theorem State.guardView_raise (e : Nat) (d : Dest) (v : Word) : (s.raise e d v).guardView = s.guardView := by
  have votes (t : Nat) : ((s.raise e d v).ten t).wakeHold = (s.ten t).wakeHold := by rw [State.ten_raise_shape]
  simp only [State.guardView, votes, State.raise_doors, State.raise_pwr, State.raise_tick]

theorem State.guardView_drawn : s.drawn.guardView = s.guardView := rfl
theorem State.guardView_setEcc (k : Nat) (e : EccSt) : (s.setEcc k e).guardView = s.guardView := rfl
theorem State.guardView_updCell (c : Nat) (f : Cell → Cell) : (s.updCell c f).guardView = s.guardView := rfl
theorem State.guardView_updLamp (n : Nat) (f : Lamp → Lamp) : (s.updLamp n f).guardView = s.guardView := rfl
theorem State.guardView_updEngine (n : Nat) (f : Engine → Engine) : (s.updEngine n f).guardView = s.guardView := rfl

theorem State.guardView_enqueueWaiting : s.enqueueWaiting.guardView = s.guardView := rfl

theorem State.guardView_wrBytes (a : Nat) (bs : List Byte) : (s.wrBytes a bs).guardView = s.guardView := by
  rw [State.wrBytes_shape]
  rfl

theorem State.guardView_updSeq (b : Bool) (f : SeqRun → SeqRun) : (s.updSeq b f).guardView = s.guardView := by
  cases b <;> rfl

theorem State.guardView_setInj (b : Bool) (q : Option Inj) : (s.setInj b q).guardView = s.guardView := by
  cases b <;> rfl

/-! The verification of armed cells. -/

theorem State.guardView_ceReached (i n : Nat) : (s.ceReached i n).guardView = s.guardView := by
  unfold State.ceReached
  split
  · rw [State.guardView_raise]
    rfl
  · rfl

theorem State.guardView_countCe : s.countCe.guardView = s.guardView := by
  unfold State.countCe
  rw [State.guardView_ceReached]
  rfl

theorem State.guardView_poison (k : Nat) : (s.poison k).guardView = s.guardView := by
  unfold State.poison
  dsimp only
  rw [State.guardView_raise]
  rfl

theorem State.guardView_wrongData (k : Nat) (v : DWord) : (s.wrongData k v).guardView = s.guardView := by
  unfold State.wrongData
  split
  · rw [State.guardView_setEcc, State.guardView_wrBytes]
  · rfl

theorem State.guardView_eccRead (k : Nat) : (s.eccRead k).1.guardView = s.guardView := by
  unfold State.eccRead
  split
  · rfl
  · rfl
  · rfl
  · rw [State.guardView_countCe, State.guardView_setEcc]
  · rw [State.guardView_poison]
  · split
    · rw [State.guardView_poison, State.guardView_drawn]
    · rw [State.guardView_countCe, State.guardView_drawn, State.guardView_wrongData]
    · rw [State.guardView_drawn, State.guardView_wrongData]

theorem State.guardView_eccReadAll (ks : List Nat) : (s.eccReadAll ks).1.guardView = s.guardView := by
  induction ks generalizing s with
  | nil => rfl
  | cons k ks ih => exact (ih _).trans (s.guardView_eccRead k)

theorem State.guardView_verifyCell (c : Nat) : (s.verifyCell c).1.guardView = s.guardView := by
  have read : ((s.sramRead (cellAddr (s.backBank c) c) 1024).1.eccRead (chkKey (s.backBank c) c)).1.guardView =
      s.guardView := by
    rw [State.guardView_eccRead]
    exact s.guardView_eccReadAll _
  unfold State.verifyCell
  dsimp only
  split
  · exact read
  · split <;> exact read

theorem State.guardView_verifyArmed : s.verifyArmed.guardView = s.guardView := by
  unfold State.verifyArmed
  refine State.each_keeps (view := State.guardView) (fun s c _ => ?_) s
  dsimp only
  rw [State.guardView_updCell, State.guardView_verifyCell]

/-! The sequences of the converter, and the commands that are cut. -/

theorem State.guardView_adcGuardSeq (b : Bool) : (s.adcGuardSeq b).guardView = s.guardView := by
  unfold State.adcGuardSeq State.ev237
  dsimp only
  split
  · rw [State.guardView_raise, State.guardView_updSeq, State.guardView_updSeq]
  · rw [State.guardView_updSeq]

theorem State.guardView_adcGuard : s.adcGuard.guardView = s.guardView := by
  unfold State.adcGuard
  split
  · rfl
  · rw [State.guardView_adcGuardSeq, State.guardView_adcGuardSeq]

theorem State.guardView_overruns : s.overruns.guardView = s.guardView := by
  unfold State.overruns
  generalize s.runs.filter (fun r => r.st == .accepted || r.st == .working) = rs
  induction rs generalizing s with
  | nil => rfl
  | cons r rs ih =>
    rw [List.foldl_cons, ih, State.guardView_raise]
    rfl

/-- The part as the power controller finds it at slot 39. -/
def State.guarded : State := s.adcGuard.verifyArmed.overruns

theorem State.guardView_guarded : s.guarded.guardView = s.guardView := by
  unfold State.guarded
  rw [State.guardView_overruns, State.guardView_verifyArmed, State.guardView_adcGuard]

/-! What the power controller asks of lamps, engines and the converter (R332, R367). -/

theorem State.guardView_pfTo (n v : Nat) : (s.pfTo n v).guardView = s.guardView := rfl

theorem State.guardView_lampAsk : s.lampAsk.guardView = s.guardView := by
  unfold State.lampAsk
  rw [State.each_keeps (view := State.guardView) (fun s k _ => by exact s.guardView_updEngine k _),
    State.each_keeps (view := State.guardView) (fun s n _ => by exact s.guardView_pfTo n 0)]

theorem State.guardView_lampResume : s.lampResume.guardView = s.guardView := by
  unfold State.lampResume
  rw [State.each_keeps (view := State.guardView) (fun s k _ => by exact s.guardView_updEngine k _),
    State.each_keeps (view := State.guardView) (fun s n _ => by exact s.guardView_pfTo n 4096)]

theorem State.guardView_fits (t : Instant) (cycles : Nat) : (s.fits t cycles).1.guardView = s.guardView := by
  unfold State.fits
  split
  · rfl
  · split <;> rfl

theorem State.guardView_injGo (b : Bool) (t : Instant) : (s.injGo b t).guardView = s.guardView := by
  unfold State.injGo
  split
  · rfl
  · split
    · rfl
    · dsimp only
      split
      · unfold State.injStart
        rw [State.guardView_updSeq, State.guardView_setInj]
        exact s.guardView_fits _ _
      · exact s.guardView_fits _ _

theorem State.guardView_seqEnd (b : Bool) : (s.seqEnd b).guardView = s.guardView := by
  unfold State.seqEnd
  split
  · rw [State.guardView_raise]
  · rfl

theorem State.guardView_seqGo (b : Bool) (t : Instant) : (s.seqGo b t).guardView = s.guardView := by
  unfold State.seqGo
  dsimp only
  split
  · rfl
  · split
    · rw [State.guardView_seqEnd, State.guardView_updSeq]
    · split <;> rw [State.guardView_updSeq, State.guardView_fits]

theorem State.guardView_pairGo (b : Bool) (t : Instant) : (s.pairGo b t).guardView = s.guardView := by
  unfold State.pairGo
  split
  · rfl
  · dsimp only
    split
    · rw [State.guardView_injGo]
    · rw [State.guardView_seqGo, State.guardView_injGo]

theorem State.guardView_pairsGo : s.pairsGo.guardView = s.guardView := by
  unfold State.pairsGo
  rw [State.guardView_pairGo, State.guardView_pairGo]

end

end Sys2Proof.Machine

namespace Sys2Proof.Machine

/-! ## Slot 39: the power controller (R263, R264, R266 to R268) -/

theorem State.guardView_eq {s n : State} (h : n.guardView = s.guardView) :
    n.doors = s.doors ∧ n.pwr = s.pwr ∧ n.tick.slot = s.tick.slot ∧
      ∀ t, (n.ten t).wakeHold = (s.ten t).wakeHold := by
  simp only [State.guardView, Prod.mk.injEq] at h
  obtain ⟨doors, pwr, slot, votes⟩ := h
  exact ⟨doors, pwr, slot, congrFun votes⟩

theorem State.votes_of_guardView {s n : State} (h : n.guardView = s.guardView) : n.votes = s.votes := by
  obtain ⟨doors, -, -, wake⟩ := State.guardView_eq h
  have vote (t : Nat) : n.vote t = s.vote t := by
    unfold State.vote State.door
    rw [doors, wake]
  simp only [State.votes, vote]

/-- A change of the power controller is seen alike in states that look alike. -/
theorem State.guardView_updPwr {s n : State} (h : n.guardView = s.guardView) (f : Pwr → Pwr) :
    (n.updPwr f).guardView = (s.updPwr f).guardView := by
  simp only [State.guardView, Prod.mk.injEq] at h
  obtain ⟨doors, pwr, slot, votes⟩ := h
  exact Prod.ext doors (Prod.ext (congrArg f pwr) (Prod.ext slot votes))

/-- An entry that ends leaves the power controller idle with its RESULT and REFUSER (R267 to R269). -/
theorem State.guardView_entryEnd (s : State) (result refuser : Nat) :
    (s.entryEnd result refuser).guardView =
      (s.updPwr fun p => { p with phase := .idle, result := result, refuser := refuser }).guardView := by
  have resumed : (if s.pwr.phase = .delayed then s.lampResume else s).guardView = s.guardView := by
    split
    · exact s.guardView_lampResume
    · rfl
  unfold State.entryEnd State.ev80
  dsimp only
  rw [State.guardView_pairsGo, State.guardView_raise, State.guardView_enqueueWaiting]
  exact State.guardView_updPwr resumed _

/-- The commit point closes shutters and lets TICK_OUT fall; doors and the slot stay (R271). -/
theorem State.commit_keeps (s : State) : s.commit.doors = s.doors ∧ s.commit.tick.slot = s.tick.slot := by
  unfold State.commit
  obtain ⟨a, b, l, h⟩ := State.closeBanks_shape
    (s.updPwr fun p => { p with phase := .committed, wakeLatch := 0, unwatched := Config.rowsLow s.free }) 0x1F
  rw [h]
  exact ⟨rfl, rfl⟩

/-- A query begun: the answers taken, and the lamps asked. -/
def State.asked (s : State) : State :=
  (s.updPwr fun p => { p with
    ans := wordOf ((s.answers.zipIdx.map fun q => q.1 * 4 ^ q.2).sum), phase := .delayed,
    queries := p.queries + 1 }).lampAsk

/-- A query ends the entry, commits it, or leaves it to a later one. -/
theorem State.query_cases (s : State) :
    (∃ result refuser, s.query = s.asked.entryEnd result refuser) ∨ s.query = s.asked.commit ∨
      s.query = s.asked := by
  unfold State.query
  dsimp only
  split
  · exact .inl ⟨_, _, rfl⟩
  · split
    · exact .inr (.inl rfl)
    · split
      · exact .inl ⟨_, _, rfl⟩
      · exact .inr (.inr rfl)

theorem State.asked_keeps (s : State) :
    s.asked.doors = s.doors ∧ s.asked.tick.slot = s.tick.slot ∧ s.asked.pwr.st = s.pwr.st := by
  obtain ⟨doors, pwr, slot, -⟩ := State.guardView_eq (State.guardView_lampAsk (s.updPwr fun p => { p with
    ans := wordOf ((s.answers.zipIdx.map fun q => q.1 * 4 ^ q.2).sum), phase := .delayed,
    queries := p.queries + 1 }))
  have st := congrArg Pwr.st pwr
  exact ⟨doors, slot, st⟩

theorem State.entryEnd_effect (s : State) (result refuser : Nat) :
    (s.entryEnd result refuser).doors = s.doors ∧ (s.entryEnd result refuser).tick.slot = s.tick.slot ∧
      (s.entryEnd result refuser).pwr =
        { s.pwr with phase := .idle, result := result, refuser := refuser } := by
  obtain ⟨doors, pwr, slot, -⟩ := State.guardView_eq (s.guardView_entryEnd result refuser)
  exact ⟨doors, slot, pwr⟩

theorem State.query_keeps (s : State) : s.query.doors = s.doors ∧ s.query.tick.slot = s.tick.slot := by
  obtain ⟨doors, slot, -⟩ := s.asked_keeps
  rcases s.query_cases with ⟨result, refuser, h⟩ | h | h
  · obtain ⟨d, k, -⟩ := s.asked.entryEnd_effect result refuser
    rw [h, d, k]
    exact ⟨doors, slot⟩
  · obtain ⟨d, k⟩ := s.asked.commit_keeps
    rw [h, d, k]
    exact ⟨doors, slot⟩
  · rw [h]
    exact ⟨doors, slot⟩

/-- A counted vote ends the entry at its first query with RESULT 3 (R266, R268). -/
theorem State.query_voted {s : State} (first : s.pwr.queries = 0) (force : s.pwr.force = false) (vote : s.votes ≠ 0) :
    s.query.pwr.phase = .idle ∧ s.query.pwr.result = 3 ∧ s.query.pwr.st = s.pwr.st := by
  have refuses : s.voteRefuses = true := by simp [State.voteRefuses, first, force, vote]
  have agent : s.agent 1 = 3 := if_pos refuses
  have refused : s.answers.contains 3 = true := by
    rw [List.contains_iff_mem, ← agent]
    exact List.mem_map_of_mem (List.mem_range.mpr (by decide))
  have ends : s.query = s.asked.entryEnd 3 (s.answers.findIdx fun x => x == 3) := by
    have q : s.query = s.asked.entryEnd (if s.voteRefuses then 3 else 2) (s.answers.findIdx fun x => x == 3) :=
      if_pos refused
    rw [q, if_pos refuses]
  obtain ⟨-, -, st⟩ := s.asked_keeps
  obtain ⟨-, -, pwr⟩ := s.asked.entryEnd_effect 3 (s.answers.findIdx fun x => x == 3)
  rw [ends, pwr]
  exact ⟨rfl, rfl, st⟩

theorem State.guardSlot_eq (s : State) : s.guardSlot = s.guarded.powerGuard := rfl

theorem State.powerGuard_ajar {s : State} (h : s.pwr.ajarPend = true) :
    s.powerGuard = s.updPwr fun p => { p with st := .ajar, ajarPend := false, result := 1 } := if_pos h

theorem State.powerGuard_idle {s : State} (ajar : s.pwr.ajarPend = false) (query : s.pwr.phase ≠ .query)
    (delayed : s.pwr.phase ≠ .delayed) : s.powerGuard = s := by
  unfold State.powerGuard
  rw [if_neg (by simp [ajar])]
  split
  · next h => exact absurd h query
  · next h => exact absurd h delayed
  · rfl

theorem State.powerGuard_query {s : State} (ajar : s.pwr.ajarPend = false)
    (phase : s.pwr.phase = .query ∨ s.pwr.phase = .delayed) : s.powerGuard = s.query := by
  unfold State.powerGuard
  rw [if_neg (by simp [ajar])]
  rcases phase with h | h <;> rw [h]

theorem State.powerGuard_keeps (s : State) :
    s.powerGuard.doors = s.doors ∧ s.powerGuard.tick.slot = s.tick.slot := by
  by_cases ajar : s.pwr.ajarPend = true
  · rw [State.powerGuard_ajar ajar]
    exact ⟨rfl, rfl⟩
  · have ajar := eq_false_of_ne_true ajar
    by_cases phase : s.pwr.phase = .query ∨ s.pwr.phase = .delayed
    · rw [State.powerGuard_query ajar phase]
      exact s.query_keeps
    · obtain ⟨query, delayed⟩ := not_or.mp phase
      rw [State.powerGuard_idle ajar query delayed]
      exact ⟨rfl, rfl⟩

/-- Slot 39 leaves doors and the slot as they are. -/
theorem State.guardSlot_keeps (s : State) :
    s.guardSlot.doors = s.doors ∧ s.guardSlot.tick.slot = s.tick.slot := by
  obtain ⟨doors, -, slot, -⟩ := State.guardView_eq s.guardView_guarded
  obtain ⟨kept, same⟩ := s.guarded.powerGuard_keeps
  exact ⟨kept.trans doors, same.trans slot⟩

theorem State.guarded_pwr (s : State) : s.guarded.pwr = s.pwr := (State.guardView_eq s.guardView_guarded).2.1

/-- A request for Ajar comes into force (R263). -/
theorem State.guardSlot_ajar {s : State} (ajar : s.pwr.ajarPend = true) :
    s.guardSlot.pwr = { s.pwr with st := .ajar, ajarPend := false, result := 1 } := by
  rw [← s.guarded_pwr] at ajar ⊢
  rw [State.guardSlot_eq, State.powerGuard_ajar ajar]
  rfl

/-- Without a request the power controller does nothing. -/
theorem State.guardSlot_idle {s : State} (ajar : s.pwr.ajarPend = false) (query : s.pwr.phase ≠ .query)
    (delayed : s.pwr.phase ≠ .delayed) : s.guardSlot.pwr = s.pwr := by
  rw [← s.guarded_pwr] at ajar query delayed ⊢
  rw [State.guardSlot_eq, State.powerGuard_idle ajar query delayed]

/-- A first query with a counted vote and no FORCE ends the entry (R266, R268). -/
theorem State.guardSlot_voted {s : State} (ajar : s.pwr.ajarPend = false) (query : s.pwr.phase = .query)
    (first : s.pwr.queries = 0) (force : s.pwr.force = false) (vote : s.votes ≠ 0) :
    s.guardSlot.pwr.phase = .idle ∧ s.guardSlot.pwr.result = 3 ∧ s.guardSlot.pwr.st = s.pwr.st := by
  have pwr := s.guarded_pwr
  have votes := State.votes_of_guardView s.guardView_guarded
  rw [State.guardSlot_eq]
  generalize s.guarded = m at *
  rw [← pwr] at ajar query first force ⊢
  rw [State.powerGuard_query ajar (.inl query)]
  exact State.query_voted first force (by rwa [votes])

end Sys2Proof.Machine

section
open Sys2Proof Sys2Proof.Machine

/-- Settles O43: what each slot does while the tick counts, by the lemmas about its work; none otherwise. -/
theorem slotRows : Obligations.SlotRows := by
  unfold Obligations.SlotRows
  intro s
  simp only [exec_adcSlot, exec_coalesceSweep, exec_guardSlot]
  refine ⟨fun still => ⟨fun die len => ?_, ?_, ?_, ?_⟩, fun ticks => ?_⟩
  · rw [exec_loopSlot len, State.atSlot_still still]
  any_goals rw [State.atSlot_still still]
  simp only [State.atSlot_inSlot ticks]
  refine ⟨fun die len => ?_, fun off => ?_, fun on divA divB requests leftA leftB => ?_,
    fun after => ⟨fun none => ?_, fun t e p ht others one room => ?_⟩, ?_⟩
  · rw [exec_loopSlot len, State.atSlot_inSlot ticks]
    obtain ⟨doors, regs, tick, chan⟩ := (s.inSlot 1).loopSlot_keeps die
    refine ⟨_, rfl, tick, fun i hi => ?_, doors, regs, fun on i hi good => ?_⟩
    · rw [chan, State.chan_aged _ hi]
      rfl
    · rw [State.sensor_loopSlot (s := s.inSlot 1) on die hi good]
      exact ⟨rfl, rfl⟩
  · exact congrArg _ (State.adcSlot_off (s := s.inSlot 3) off)
  · exact congrArg _ (State.adcSlot_idle (s := s.inSlot 3) on divA divB requests leftA leftB)
  · exact congrArg _ (State.sweepSlot_none (s := s.inSlot 38) after none)
  · have put := State.sweepSlot_one (s := s.inSlot 38) after ht others one room
    generalize (s.inSlot 38).sweepSlot = n at put ⊢
    obtain ⟨self, bytes, elsewhere, same, shape⟩ := put
    rw [eventEntry_length] at bytes elsewhere
    refine ⟨_, rfl, bytes, ?_, ?_, elsewhere, same, shape⟩
    all_goals rw [self]; rfl
  · obtain ⟨doors, slot⟩ := (s.inSlot 39).guardSlot_keeps
    have entered := State.guardSlot_ajar (s := s.inSlot 39)
    have idle := State.guardSlot_idle (s := s.inSlot 39)
    have voted := State.guardSlot_voted (s := s.inSlot 39)
    generalize (s.inSlot 39).guardSlot = n at *
    exact ⟨n, rfl, slot, doors, entered, idle, voted⟩

end

end

section
/-! PROOFS. The keeper's rows of events, power, shutters, leaves and the keeper store (O33, O35, O39, O40), and the
wake sources (O49). -/

namespace Sys2Proof.Machine

/-! ## Rows of keeper system registers (R6, R29) -/

theorem exec_eventTest (s : State) (v : Word) : exec (.eventTest v) s = .next (s.pageRow 0 0x4BC v 0xF#4) := rfl
theorem exec_pwrReqOpen (s : State) (force : Bool) :
    exec (.pwrReqOpen force) s = .next (s.pageRow 0 0x400 (wordOf (0 + 8 * bitNat force)) 0xF#4) := rfl
theorem exec_pwrReqAjar (s : State) (force : Bool) :
    exec (.pwrReqAjar force) s = .next (s.pageRow 0 0x400 (wordOf (1 + 8 * bitNat force)) 0xF#4) := rfl
theorem exec_pwrReqLouvred (s : State) (force : Bool) :
    exec (.pwrReqLouvred force) s = .next (s.pageRow 0 0x400 (wordOf (2 + 8 * bitNat force)) 0xF#4) := rfl
theorem exec_pwrReqLatched (s : State) (force : Bool) :
    exec (.pwrReqLatched force) s = .next (s.pageRow 0 0x400 (wordOf (3 + 8 * bitNat force)) 0xF#4) := rfl
theorem exec_shutterRelease (s : State) (v : Word) :
    exec (.shutterRelease v) s = .next (s.pageRow 0 0x41C v 0xF#4) := rfl
theorem exec_swing (s : State) : exec .swing s = .next (s.pageRow 0 0x464 1 0xF#4) := rfl
theorem exec_kstoreSave (s : State) : exec .kstoreSave s = .next (s.pageRow 0 0x4A8 1 0xF#4) := rfl

/-- A whole write of a keeper system register that counts no clamp has the register's effect. -/
theorem State.pageRow_sys {s n : State} {off : Nat} {v : Word} (h : s.Serves 0) (word : off % 4 = 0)
    (page : isPageReg off = false) (sys : isSysReg off = true) (put : s.sysPut none off v 0xF#4 = (n, 0)) :
    s.pageRow 0 off v 0xF#4 = n := by
  have aligned : off / 4 * 4 = off := by omega
  refine State.pageRow_of ?_ ?_
  · rw [aligned]
    exact State.pageReach_of_serves h (by simp [sys])
  · rw [aligned, State.regPut, if_neg (by simp [page]), put]

theorem State.pageRow_evTest {s : State} (h : s.Serves 0) (v : Word) : s.pageRow 0 0x4BC v 0xF#4 = s.evTest v := by
  have put (be : BitVec 4) : s.sysPut none 0x4BC v be = (s.evTest (woBytes v be), 0) := rfl
  refine State.pageRow_sys h rfl rfl rfl ((put _).trans ?_)
  rw [woBytes_all]

theorem State.pageRow_pwrReq {s : State} (h : s.Serves 0) {v : Word} (legal : v.fld 0 3 < 4) :
    s.pageRow 0 0x400 v 0xF#4 = s.pwrRequest (v.fld 0 3) (v.bit 3) := by
  have put : s.sysPut none 0x400 v 0xF#4 = s.pwrReqWrite v := rfl
  refine State.pageRow_sys h rfl rfl rfl (put.trans (Prod.ext ?_ (if_neg (by omega))))
  exact congrArg (s.pwrRequest · (v.bit 3)) (by omega)

theorem State.pageRow_shutterRel {s : State} (h : s.Serves 0) (v : Word) :
    s.pageRow 0 0x41C v 0xF#4 =
      (s.updPwr fun p => { p with
        autoHA := v.bit 8, autoHB := v.bit 9 }).shutterRelease (BitVec.ofNat 6 (v.fld 0 6)) := by
  have put (be : BitVec 4) : s.sysPut none 0x41C v be =
      ((s.updPwr fun p => { p with
          autoHA := (mergeBytes (s.sysGet 0x41C) v be).bit 8, autoHB := (mergeBytes (s.sysGet 0x41C) v be).bit 9
        }).shutterRelease (BitVec.ofNat 6 ((woBytes v be).fld 0 6)), 0) := rfl
  refine State.pageRow_sys h rfl rfl rfl ((put _).trans ?_)
  rw [mergeBytes_all, woBytes_all]

theorem State.pageRow_swing {s : State} (h : s.Serves 0) : s.pageRow 0 0x464 1 0xF#4 = s.swingStart := by
  have put (be : BitVec 4) : s.sysPut none 0x464 1 be = (s.leafWrite (woBytes 1 be), 0) := rfl
  refine State.pageRow_sys h rfl rfl rfl ((put _).trans ?_)
  rw [woBytes_all]
  rfl

theorem State.pageRow_kstore {s : State} (h : s.Serves 0) : s.pageRow 0 0x4A8 1 0xF#4 = s.kstoreSave := by
  have put (be : BitVec 4) : s.sysPut none 0x4A8 1 be =
      (if (woBytes 1 be).bit 0 then s.kstoreSave else s, 0) := rfl
  refine State.pageRow_sys h rfl rfl rfl ((put _).trans ?_)
  rw [woBytes_all]
  rfl

/-! ## An event delivered (R121, R140, R151, R398, R400, R402) -/

/-- The owner of a test occurrence (R151). -/
theorem State.resolve_testDest (s : State) (e : Nat) : s.resolve e (testDest e) =
    if evNever e then 0 else if evRouted e then (if 32 ≤ e ∧ e < 64 then e - 32 else 0) else s.owner 7 e := by
  unfold testDest
  split
  · rfl
  · split
    · split <;> rfl
    · rfl

/-- While registers are served an event is delivered when it arises. -/
theorem State.raise_served {s : State} {t : Nat} (h : s.Serves t) (e : Nat) (d : Dest) (data : Word) :
    s.raise e d data = s.deliver (s.resolve e d) e data := by
  obtain ⟨boot, fab, -⟩ := h
  exact if_neg (by simp [State.holding, boot, fab])

theorem State.deliver_discarded {s : State} {t e : Nat} (h : s.door t = .shut ∨ s.masked t e = true) (data : Word) :
    s.deliver t e data = s := if_pos h

theorem State.deliver_placed {s : State} {t e : Nat} (door : s.door t ≠ .shut) (mask : s.masked t e = false)
    (data : Word) : s.deliver t e data = s.place t e (s.now % 65536) data :=
  if_neg (by simp [door, mask])

/-- An occurrence that finds room: its entry at EQ_TAIL, which advances (R121). -/
theorem State.place_fits {s : State} {t : Nat} (room : (s.ten t).eqCount < 64) (none : (s.ten t).eqPending = 0)
    (e tick : Nat) (data : Word) :
    s.Puts (s.place t e tick data) t (eqAddr t (s.ten t).eqTail.toNat) (eventEntry e 2 tick data)
      fun T => { T with eqTail := T.eqTail + 1 } := by
  have put : s.place t e tick data = s.eqPut t e 2 tick data := if_pos ⟨room, none⟩
  rw [put]
  exact s.wrWhole_updTen_puts t _ _ _

/-- Counting one more of 7 bits stops at 127. -/
theorem satAdd_127_one (n : Nat) : satAdd 127 n 1 = min 127 (n + 1) := by
  unfold satAdd; split <;> omega

/-- One that finds no room, or others before it: its pending bit, whose count saturates (R121, R402). -/
theorem State.place_coalesces {s : State} {t : Nat} (full : ¬((s.ten t).eqCount < 64 ∧ (s.ten t).eqPending = 0))
    (e tick : Nat) (data : Word) :
    s.place t e tick data = s.updTen t fun T =>
      let was : PendEv := SMap.get (fun _ => ⟨0, 0, 0⟩) T.pend e
      { T with pend := SMap.set (fun _ => ⟨0, 0, 0⟩) T.pend e ⟨min 127 (was.count + 1), tick, data⟩ } := by
  have put : s.place t e tick data = s.pendAdd t e 1 tick data := if_neg full
  simp only [put, State.pendAdd, SMap.upd, satAdd_127_one]

theorem State.evTest_idle {s : State} {v : Word} (h : v.bit 31 = false) : s.evTest v = s := if_neg (by simp [h])

theorem State.evTest_raises {s : State} {v : Word} (h : v.bit 31 = true) :
    s.evTest v = s.raise (v.fld 0 8) (testDest (v.fld 0 8)) 0xFFFFFFFF#32 := if_pos h

end Sys2Proof.Machine

section
open Sys2Proof Sys2Proof.Machine

/-- Settles O33: a test occurrence that its owner does not take, one that finds room, and one that becomes a pending
bit. -/
theorem eventTestRow : Obligations.EventTestRow := by
  unfold Obligations.EventTestRow
  intro s v h
  dsimp only
  rw [exec_eventTest, State.pageRow_evTest h, ← State.resolve_testDest]
  generalize owner : s.resolve (v.fld 0 8) (testDest (v.fld 0 8)) = t
  have goes (go : v.bit 31 = true) : s.evTest v = s.deliver t (v.fld 0 8) 0xFFFFFFFF#32 := by
    rw [State.evTest_raises go, State.raise_served h, owner]
  refine ⟨fun off => ?_, fun go door mask => ⟨fun room none => ?_, fun full => ?_⟩⟩
  · cases go : v.bit 31 with
    | false => rw [State.evTest_idle go]
    | true =>
      rw [goes go, State.deliver_discarded (off.resolve_left (by simp [go]))]
  · rw [goes go, State.deliver_placed door mask]
    have put := State.place_fits room none (v.fld 0 8) (s.now % 65536) 0xFFFFFFFF#32
    have bytes := put.bytes
    have elsewhere := put.elsewhere
    rw [eventEntry_length] at bytes elsewhere
    exact ⟨_, rfl, bytes, elsewhere, put.self, put.others, put.shape⟩
  · rw [goes go, State.deliver_placed door mask, State.place_coalesces full]
    exact ⟨_, rfl, s.ten_updTen_self _ _, s.updTen_onlyTenant _ _⟩

end

namespace Sys2Proof.Machine

/-! ## Shutters released (R146, R274, R332) -/

/-- The bits of a set written as the sum of the powers of its members, all below a bound. -/
theorem testBit_sum_powers (f : Nat → Bool) (n b : Nat) :
    (((List.range n).map fun i => if f i then 2 ^ i else 0).sum).testBit b = (decide (b < n) && f b) := by
  have below (n : Nat) : (((List.range n).map fun i => if f i then 2 ^ i else 0).sum) < 2 ^ n := by
    induction n with
    | zero => simp
    | succ n ih =>
      rw [List.range_succ, List.map_append, List.sum_append, List.map_singleton, List.sum_singleton, Nat.pow_succ]
      split <;> omega
  induction n with
  | zero => simp
  | succ n ih =>
    have top : (if f n then 2 ^ n else 0) = 2 ^ n * (f n).toNat := by cases f n <;> simp
    rw [List.range_succ, List.map_append, List.sum_append, List.map_singleton, List.sum_singleton, top, Nat.add_comm,
      Nat.testBit_two_pow_mul_add _ (below n), ih]
    rcases Nat.lt_trichotomy b n with lt | rfl | gt
    · simp [lt, Nat.lt_succ_of_lt lt]
    · cases f b <;> simp
    · have high : (f n).toNat < 2 ^ (b - n) := (f n).toNat_lt.trans_le (Nat.le_self_pow (by omega) 2)
      rw [if_neg (by omega), Nat.testBit_lt_two_pow high, decide_eq_false (by omega), Bool.false_and]

/-- The low six bits of a register. -/
theorem getLsbD_low_six (v : Word) (b : Nat) :
    (BitVec.ofNat 6 (v.fld 0 6)).getLsbD b = (decide (b < 6) && v.bit b) := by
  rw [BitVec.getLsbD_ofNat, Word.fld, fieldOf, Nat.pow_zero, Nat.div_one, Nat.testBit_mod_two_pow]
  cases decide (b < 6) <;> rfl

/-- The banks of a mask that may be released. -/
def State.readyIn (s : State) (m : BitVec 6) : BitVec 6 :=
  BitVec.ofNat 6 (((List.range 6).map fun b => if m.getLsbD b && s.bankReady b then 2 ^ b else 0).sum)

/-- The banks of a mask that stay closed, as EV83 names them (R282). -/
def State.refusedIn (s : State) (m : BitVec 6) : Word := (m &&& ~~~s.readyIn m).setWidth 32

/-- The banks of a mask released where they may be, before EV83. -/
def State.released (s : State) (m : BitVec 6) : State :=
  (s.openBanks (s.readyIn m)).updPwr fun p => { p with shutRej := p.shutRej || decide (s.readyIn m ≠ m) }

theorem State.getLsbD_readyIn (s : State) (m : BitVec 6) (b : Nat) :
    (s.readyIn m).getLsbD b = (m.getLsbD b && s.bankReady b) := by
  rw [State.readyIn, BitVec.getLsbD_ofNat, testBit_sum_powers fun b => m.getLsbD b && s.bankReady b]
  by_cases h : b < 6
  · simp [h]
  · simp [h, BitVec.getLsbD_of_ge m b (by omega)]

theorem State.getLsbD_refusedIn (s : State) (m : BitVec 6) (b : Nat) :
    (s.refusedIn m).getLsbD b = (m.getLsbD b && !s.bankReady b) := by
  by_cases h : b < 6
  · have wide : b < 32 := by omega
    simp only [State.refusedIn, BitVec.getLsbD_setWidth, BitVec.getLsbD_and, BitVec.getLsbD_not, s.getLsbD_readyIn, h,
      wide, decide_true, Bool.true_and]
    cases m.getLsbD b <;> simp
  · have high : (s.refusedIn m).getLsbD b = (decide (b < 32) && (m &&& ~~~s.readyIn m).getLsbD b) := by
      simp only [State.refusedIn, BitVec.getLsbD_setWidth]
    rw [high, BitVec.getLsbD_of_ge m b (by omega), BitVec.getLsbD_of_ge _ b (by omega), Bool.and_false, Bool.false_and]

/-- No bank is refused just when every one of the mask may be released. -/
theorem State.refusedIn_eq_zero (s : State) (m : BitVec 6) : s.refusedIn m = 0 ↔ s.readyIn m = m := by
  constructor
  · intro none
    apply BitVec.eq_of_getLsbD_eq
    intro b _
    have bit := s.getLsbD_refusedIn m b
    rw [none, BitVec.ofNat_eq_ofNat, BitVec.getLsbD_zero] at bit
    rw [s.getLsbD_readyIn]
    revert bit
    cases m.getLsbD b <;> cases s.bankReady b <;> decide
  · intro all
    rw [State.refusedIn, all, BitVec.and_not_self]
    rfl

theorem State.shutterRelease_eq (s : State) (m : BitVec 6) : s.shutterRelease m =
    if s.refusedIn m = 0 then s.released m else (s.released m).raise 83 .granted (s.refusedIn m) :=
  if_congr (s.refusedIn_eq_zero m).symm rfl rfl

theorem State.lampResume_shape (s : State) : ∃ l e, s.lampResume = { s with lamps := l, engines := e } := by
  have fades (ns : List Nat) (s : State) :
      ∃ l, s.each ns (fun s n => s.pfTo n 4096) = { s with lamps := l } := by
    induction ns generalizing s with
    | nil => exact ⟨_, rfl⟩
    | cons n ns ih =>
      obtain ⟨l, h⟩ := ih (s.pfTo n 4096)
      exact ⟨l, h⟩
  have resumes (ns : List Nat) (s : State) :
      ∃ e, s.each ns (fun s k => s.updEngine k fun e => if e.st = 2 then { e with st := 1 } else e) =
        { s with engines := e } := by
    induction ns generalizing s with
    | nil => exact ⟨_, rfl⟩
    | cons k ns ih =>
      obtain ⟨e, h⟩ := ih (s.updEngine k fun e => if e.st = 2 then { e with st := 1 } else e)
      exact ⟨e, h⟩
  unfold State.lampResume
  obtain ⟨l, faded⟩ := fades (List.range 16) s
  rw [faded]
  obtain ⟨e, resumed⟩ := resumes (List.range 4) { s with lamps := l }
  exact ⟨l, e, resumed⟩

/-- Banks opened: the shutters, and with bank LC the lamps and the engines (R332). -/
theorem State.openBanks_shape (s : State) (m : BitVec 6) : ∃ l e,
    s.openBanks m = { s with lamps := l, engines := e, pwr := { s.pwr with closed := s.pwr.closed &&& ~~~m } } ∧
      (m.getLsbD 3 = false → l = s.lamps ∧ e = s.engines) := by
  unfold State.openBanks
  dsimp only
  split
  · next fades =>
    obtain ⟨l, e, h⟩ := State.lampResume_shape { s with pwr := { s.pwr with closed := s.pwr.closed &&& ~~~m } }
    exact ⟨l, e, h, fun dark => absurd fades.2 (by rw [dark]; exact Bool.false_ne_true)⟩
  · exact ⟨_, _, rfl, fun _ => ⟨rfl, rfl⟩⟩

theorem State.released_shape (s : State) (m : BitVec 6) : ∃ l e,
    s.released m = { s with lamps := l, engines := e, pwr := { s.pwr with
      closed := s.pwr.closed &&& ~~~s.readyIn m, shutRej := s.pwr.shutRej || decide (s.readyIn m ≠ m) } } ∧
      (m.getLsbD 3 = false → l = s.lamps ∧ e = s.engines) := by
  obtain ⟨l, e, shape, dark⟩ := s.openBanks_shape (s.readyIn m)
  refine ⟨l, e, ?_, fun unnamed => dark (by rw [s.getLsbD_readyIn, unnamed, Bool.false_and])⟩
  rw [State.released, shape]
  rfl

end Sys2Proof.Machine

section
open Sys2Proof Sys2Proof.Machine

/-- Settles O40: the banks released, read bit by bit, with EV83 for those refused. -/
theorem shutterReleaseRow : Obligations.ShutterReleaseRow := by
  unfold Obligations.ShutterReleaseRow
  intro s v h
  dsimp only
  rw [exec_shutterRelease, State.pageRow_shutterRel h, State.shutterRelease_eq]
  have named := getLsbD_low_six v
  generalize BitVec.ofNat 6 (v.fld 0 6) = m at named
  have ready (b : Nat) : (s.updPwr fun p => { p with autoHA := v.bit 8, autoHB := v.bit 9 }).bankReady b =
      ((bankDomains b).all s.up && (!(b == 2 || b == 3) || s.seq.upDone)) := rfl
  generalize start : (s.updPwr fun p => { p with autoHA := v.bit 8, autoHB := v.bit 9 }) = s0 at ready
  obtain ⟨l, e, shape, dark⟩ := s0.released_shape m
  refine ⟨s0.released m, s0.refusedIn m, rfl, fun b => ?_, fun b hb => ?_, ?_, ?_, ?_, fun unnamed => ?_, ?_⟩
  · rw [s0.getLsbD_refusedIn, named, ready]
  · have bit : (s0.released m).pwr.closed = s0.pwr.closed &&& ~~~s0.readyIn m := by rw [shape]
    rw [bit, BitVec.getLsbD_and, BitVec.getLsbD_not, s0.getLsbD_readyIn, named, ready, ← start]
    simp [hb]
  · have rej : (s0.released m).pwr.shutRej = (s0.pwr.shutRej || decide (s0.readyIn m ≠ m)) := by rw [shape]
    have before : s0.pwr.shutRej = s.pwr.shutRej := by rw [← start]; rfl
    rw [rej, before, Bool.or_eq_true, decide_eq_true_eq]
    exact or_congr_right (s0.refusedIn_eq_zero m).not.symm
  · rw [shape, ← start]; rfl
  · rw [shape, ← start]; rfl
  · obtain ⟨lamps, engines⟩ := dark (by rw [named, unnamed, Bool.and_false])
    rw [shape, lamps, engines, ← start]
    exact ⟨rfl, rfl⟩
  · rw [shape, ← start]; rfl

end

namespace Sys2Proof.Machine

/-! ## What an event, a fade, a pair of the converter and a read leave as they were -/

/-- Doors, plain registers, SYS, the power controller and the keeper-store snapshots. -/
def State.rowView (s : State) : SMap DoorSt × SMap Word × Sys × Pwr × SMap (Option KSnap) :=
  (s.doors, s.regs, s.sys, s.pwr, s.ksnap)

theorem State.rowView_eq {s n : State} (h : n.rowView = s.rowView) :
    n.doors = s.doors ∧ n.regs = s.regs ∧ n.sys = s.sys ∧ n.pwr = s.pwr ∧ n.ksnap = s.ksnap := by
  simpa only [State.rowView, Prod.mk.injEq] using h

/-- A change of the power controller is seen alike in states that look alike. -/
theorem State.rowView_updPwr {s n : State} (h : n.rowView = s.rowView) (f : Pwr → Pwr) :
    (n.updPwr f).rowView = (s.updPwr f).rowView := by
  obtain ⟨doors, regs, sys, pwr, snap⟩ := State.rowView_eq h
  exact Prod.ext doors (Prod.ext regs (Prod.ext sys (Prod.ext (congrArg f pwr) snap)))

section
variable (s : State)

theorem State.rowView_raise (e : Nat) (d : Dest) (v : Word) : (s.raise e d v).rowView = s.rowView := by
  simp only [State.rowView, State.raise_doors, State.raise_regs, State.raise_sys, State.raise_pwr, State.raise_ksnap]

theorem State.rowView_drawn : s.drawn.rowView = s.rowView := rfl
theorem State.rowView_updTen (t : Nat) (f : Tenant → Tenant) : (s.updTen t f).rowView = s.rowView := rfl
theorem State.rowView_enqueueWaiting : s.enqueueWaiting.rowView = s.rowView := rfl

theorem State.rowView_raiseAfter (e : Nat) (v : Word) : (s.raiseAfter e v).rowView = s.rowView := by
  unfold State.raiseAfter
  dsimp only
  split
  · rfl
  · split
    · rw [State.place_shape]
      rfl
    · rfl

theorem State.rowView_lampResume : s.lampResume.rowView = s.rowView := by
  obtain ⟨l, e, h⟩ := s.lampResume_shape
  rw [h]
  rfl

theorem State.rowView_updSeq (b : Bool) (f : SeqRun → SeqRun) : (s.updSeq b f).rowView = s.rowView := by
  cases b <;> rfl

theorem State.rowView_setInj (b : Bool) (q : Option Inj) : (s.setInj b q).rowView = s.rowView := by
  cases b <;> rfl

theorem State.rowView_fits (t : Instant) (cycles : Nat) : (s.fits t cycles).1.rowView = s.rowView := by
  unfold State.fits
  split
  · rfl
  · split <;> rfl

theorem State.rowView_injGo (b : Bool) (t : Instant) : (s.injGo b t).rowView = s.rowView := by
  unfold State.injGo
  split
  · rfl
  · split
    · rfl
    · dsimp only
      split
      · unfold State.injStart
        rw [State.rowView_updSeq, State.rowView_setInj]
        exact s.rowView_fits _ _
      · exact s.rowView_fits _ _

theorem State.rowView_seqEnd (b : Bool) : (s.seqEnd b).rowView = s.rowView := by
  unfold State.seqEnd
  split
  · exact s.rowView_raise _ _ _
  · rfl

theorem State.rowView_seqGo (b : Bool) (t : Instant) : (s.seqGo b t).rowView = s.rowView := by
  unfold State.seqGo
  dsimp only
  split
  · rfl
  · split
    · rw [State.rowView_seqEnd, State.rowView_updSeq]
    · split <;> rw [State.rowView_updSeq, State.rowView_fits]

theorem State.rowView_pairGo (b : Bool) (t : Instant) : (s.pairGo b t).rowView = s.rowView := by
  unfold State.pairGo
  split
  · rfl
  · dsimp only
    split
    · rw [State.rowView_injGo]
    · rw [State.rowView_seqGo, State.rowView_injGo]

theorem State.rowView_pairsGo : s.pairsGo.rowView = s.rowView := by
  unfold State.pairsGo
  rw [State.rowView_pairGo, State.rowView_pairGo]

/-! ## An entry that ends, and Ajar left for Open (R71, R263, R267 to R269) -/

theorem State.rowView_entryEnd (result refuser : Nat) : (s.entryEnd result refuser).rowView =
    (s.updPwr fun p => { p with phase := .idle, result := result, refuser := refuser }).rowView := by
  have resumed : (if s.pwr.phase = .delayed then s.lampResume else s).rowView = s.rowView := by
    split
    · exact s.rowView_lampResume
    · rfl
  unfold State.entryEnd State.ev80
  dsimp only
  rw [State.rowView_pairsGo, State.rowView_raise, State.rowView_enqueueWaiting]
  exact State.rowView_updPwr resumed _

theorem State.rowView_hbRestart : s.hbRestart.rowView = s.rowView :=
  State.each_keeps (view := State.rowView) (fun s t _ => s.rowView_updTen t _) s

theorem State.rowView_ajarExit :
    s.ajarExit.rowView = (s.updPwr fun p => { p with left := 1, st := .opened }).rowView := by
  unfold State.ajarExit State.ev81 State.ajarEnd
  rw [State.rowView_raiseAfter, State.rowView_hbRestart]
  rfl

/-- A wake ends an entry with RESULT 4, and one asked for in Ajar returns to Open (R269). -/
theorem State.rowView_wakeEnds : s.wakeEnds.rowView = (s.updPwr fun p => { p with
    phase := .idle, result := 4, left := if s.pwr.st = .ajar then 1 else s.pwr.left,
    st := if s.pwr.st = .ajar then .opened else s.pwr.st }).rowView := by
  have ended := s.rowView_entryEnd 4 s.pwr.refuser
  obtain ⟨-, -, -, pwr, -⟩ := State.rowView_eq ended
  have st : (s.entryEnd 4 s.pwr.refuser).pwr.st = s.pwr.st := by rw [pwr]; rfl
  unfold State.wakeEnds
  dsimp only
  rw [st]
  split
  · rw [State.rowView_ajarExit]
    exact State.rowView_updPwr ended _
  · exact ended

end

end Sys2Proof.Machine

namespace Sys2Proof.Machine

/-! ## Requests for a state (R71, R147, R263) -/

/-- The word of a request, read back. -/
theorem pwrReq_word {want : Nat} (h : want < 4) (force : Bool) :
    (wordOf (want + 8 * bitNat force)).fld 0 3 = want ∧ (wordOf (want + 8 * bitNat force)).bit 3 = force := by
  interval_cases want <;> cases force <;> decide

theorem State.pageRow_request {s : State} (h : s.Serves 0) {want : Nat} (legal : want < 4) (force : Bool) :
    s.pageRow 0 0x400 (wordOf (want + 8 * bitNat force)) 0xF#4 = s.pwrRequest want force := by
  obtain ⟨state, bit⟩ := pwrReq_word legal force
  rw [State.pageRow_pwrReq h (by omega), state, bit]

/-- What a request in force has been asked for, and whether one was rejected. -/
def State.request (s : State) : Nat × Bool × Bool := (s.pwr.reqState, s.pwr.force, s.pwr.rej)

theorem State.request_of_rowView {s n : State} (h : n.rowView = s.rowView) : n.request = s.request := by
  obtain ⟨-, -, -, pwr, -⟩ := State.rowView_eq h
  rw [State.request, pwr]
  rfl

/-- A wake source changes nothing of what was asked for. -/
theorem State.request_takeWake (s : State) (src : Nat) : (s.takeWake src).request = s.request := by
  unfold State.takeWake
  dsimp only
  split
  · rfl
  · split
    · rfl
    · rfl
    · exact (State.request_of_rowView (State.rowView_wakeEnds _)).trans rfl
    · exact (State.request_of_rowView (State.rowView_wakeEnds _)).trans rfl
    · split
      · rfl
      · rfl
      · exact (State.request_of_rowView (State.rowView_ajarExit _)).trans rfl
      · split <;> rfl
      · rfl

theorem State.request_wakeNHeld (s : State) : s.wakeNHeld.request = s.request := by
  unfold State.wakeNHeld
  split
  · rfl
  · split
    · rfl
    · exact s.drawn.request_takeWake 4

theorem State.wakeNHeld_high {s : State} (h : s.pwr.wakeLow = false) : s.wakeNHeld = s := if_pos h

theorem State.hbRestart_shape (s : State) : s.hbRestart = { s with tens := s.hbRestart.tens } := by
  unfold State.hbRestart
  generalize List.range 32 = ts
  induction ts generalizing s with
  | nil => rfl
  | cons t ts ih => exact ih (s.updTen t fun T => { T with hbLeft := T.hbTicks })

/-- Every heartbeat supervisor starts again (R71). -/
theorem State.ten_hbRestart (s : State) {t : Nat} (h : t < 32) :
    s.hbRestart.ten t = { s.ten t with hbLeft := (s.ten t).hbTicks } := by
  obtain ⟨x, before, after⟩ := State.each_range_once (view := fun s => s.ten t)
    (f := fun s t => s.updTen t fun T => { T with hbLeft := T.hbTicks })
    (fun s k other => s.ten_updTen_ne _ (Ne.symm other)) s h
  rw [State.hbRestart, after, State.ten_updTen_self, before]

theorem State.request_ajarEnd (s : State) : s.ajarEnd.request = s.request :=
  (State.request_of_rowView (State.rowView_hbRestart (s.updPwr fun p => { p with st := .opened }))).trans rfl

theorem State.request_entered (s : State) (r : Nat) :
    (s.updPwr fun p => { p with result := r }).request = s.request := rfl

/-- A request taken: its state and FORCE, in place of an Ajar that waits. -/
def State.asks (s : State) (want : Nat) (force : Bool) : State :=
  s.updPwr fun p => { p with reqState := want, force := force, ajarPend := false }

section
variable {s : State} {want : Nat} {force : Bool}

theorem State.pwrRequest_busy (h : s.pwr.phase ≠ .idle) :
    s.pwrRequest want force = s.updPwr fun p => { p with rej := true } := if_pos h

theorem State.pwrRequest_same (idle : s.pwr.phase = .idle) (same : want = s.pwr.st.code) :
    s.pwrRequest want force = (s.asks want force).updPwr fun p => { p with result := 1 } := by
  unfold State.pwrRequest
  rw [if_neg (not_not.mpr idle)]
  exact if_pos same

theorem State.pwrRequest_open (idle : s.pwr.phase = .idle) (other : 0 ≠ s.pwr.st.code) :
    s.pwrRequest 0 force = (s.asks 0 force).ajarEnd.updPwr fun p => { p with result := 1 } := by
  unfold State.pwrRequest
  rw [if_neg (not_not.mpr idle)]
  exact if_neg other

theorem State.pwrRequest_ajar (idle : s.pwr.phase = .idle) (other : 1 ≠ s.pwr.st.code) :
    s.pwrRequest 1 force = ((s.asks 1 force).updPwr fun p => { p with ajarPend := true }).wakeNHeld := by
  unfold State.pwrRequest
  rw [if_neg (not_not.mpr idle)]
  exact if_neg other

theorem State.pwrRequest_entry (idle : s.pwr.phase = .idle) (other : want ≠ s.pwr.st.code) (low : 2 ≤ want) :
    s.pwrRequest want force =
      ((s.asks want force).updPwr fun p => { p with phase := .query, queries := 0, taken := 0 }).wakeNHeld := by
  have zero : want ≠ 0 := by omega
  have one : want ≠ 1 := by omega
  unfold State.pwrRequest
  rw [if_neg (not_not.mpr idle)]
  dsimp only
  rw [if_neg other, if_neg zero, if_neg one]
  rfl

/-- Outside an entry and a restore a request is taken with its FORCE, and REJ stays. -/
theorem State.request_pwrRequest (idle : s.pwr.phase = .idle) :
    (s.pwrRequest want force).request = (want, force, s.pwr.rej) := by
  by_cases same : want = s.pwr.st.code
  · rw [State.pwrRequest_same idle same]; rfl
  · match want, same with
    | 0, other =>
      rw [State.pwrRequest_open idle other, State.request_entered, State.request_ajarEnd]; rfl
    | 1, other =>
      rw [State.pwrRequest_ajar idle other, State.request_wakeNHeld]; rfl
    | k + 2, other =>
      rw [State.pwrRequest_entry idle other (by omega), State.request_wakeNHeld]; rfl

end

end Sys2Proof.Machine

section
open Sys2Proof Sys2Proof.Machine

/-- Settles O35: a request rejected; one taken, whatever a WAKE_N held low does then; and each state asked for. -/
theorem powerRequestRows : Obligations.PowerRequestRows := by
  unfold Obligations.PowerRequestRows
  intro s h force c want row
  have run : exec c s = .next (s.pwrRequest want force) := by
    simp only [List.mem_cons, Prod.mk.injEq, List.not_mem_nil, or_false] at row
    rcases row with ⟨rfl, rfl⟩ | ⟨rfl, rfl⟩ | ⟨rfl, rfl⟩ | ⟨rfl, rfl⟩
    · rw [exec_pwrReqOpen, State.pageRow_request h (by decide)]
    · rw [exec_pwrReqAjar, State.pageRow_request h (by decide)]
    · rw [exec_pwrReqLouvred, State.pageRow_request h (by decide)]
    · rw [exec_pwrReqLatched, State.pageRow_request h (by decide)]
  rw [run]
  refine ⟨fun busy => ?_, fun idle => ⟨⟨_, rfl, ?_⟩, fun same => ?_, fun other => ⟨?_, ?_, fun low high => ?_⟩⟩⟩
  · rw [State.pwrRequest_busy busy]; rfl
  · have taken := State.request_pwrRequest (want := want) (force := force) idle
    simpa only [State.request, Prod.mk.injEq] using taken
  · rw [State.pwrRequest_same idle same]; rfl
  · rintro rfl
    have start (t : Nat) : ((s.asks 0 force).updPwr fun p => { p with st := .opened }).ten t = s.ten t := rfl
    rw [State.pwrRequest_open idle other, State.ajarEnd]
    have left := ((s.asks 0 force).updPwr fun p => { p with st := .opened }).hbRestart_shape
    have fresh (t : Nat) (ht : t < 32) := ((s.asks 0 force).updPwr fun p => { p with st := .opened }).ten_hbRestart ht
    generalize ((s.asks 0 force).updPwr fun p => { p with st := .opened }).hbRestart = m at left fresh
    refine ⟨_, rfl, fun t ht => ?_, ?_⟩
    · rw [State.ten_updPwr, fresh t ht, start]
    · rw [left]; rfl
  · rintro rfl high
    rw [State.pwrRequest_ajar idle other]
    exact congrArg Host.Outcome.next (State.wakeNHeld_high high)
  · rw [State.pwrRequest_entry idle other low]
    exact congrArg Host.Outcome.next (State.wakeNHeld_high high)

end

namespace Sys2Proof.Machine

/-! ## Wake sources (R141, R260, R261, R269, R270, R397) -/

theorem exec_wakeNTaken (s : State) : exec .wakeNTaken s = .next s.wakeN := rfl
theorem exec_rtcAlarm (s : State) : exec .rtcAlarm s = .next s.rtcAlarm := rfl
theorem exec_keyRowWake (s : State) (row : Fin 24) : exec (.keyRowWake row) s = .next (s.rowWake row.val) := rfl
theorem exec_rowWatchedAgain (s : State) (row : Fin 24) :
    exec (.rowWatchedAgain row) s = .next (s.rowAgain row.val) := rfl
theorem exec_wakeHoldLapse (s : State) (t : Fin 32) : exec (.wakeHoldLapse t) s = .next (s.voteLapse t.val) := rfl

section
variable {s : State} {src : Nat}

theorem State.takeWake_off (pad : src < 5) (off : s.pwr.wakeEn.getLsbD src = false) : s.takeWake src = s :=
  if_pos ⟨pad, off⟩

variable (on : s.pwr.wakeEn.getLsbD src = true)
include on

/-- From the commit point on a source is latched (R270). -/
theorem State.takeWake_committed (phase : s.pwr.phase = .committed) : s.takeWake src = s.updPwr fun p => { p with
    wakeLatch := p.wakeLatch ||| srcBit src, taken := p.taken ||| srcBit src } := by
  unfold State.takeWake
  rw [if_neg (by simp [on]), phase]

/-- A source joins those of an exit in progress. -/
theorem State.takeWake_restoring (phase : s.pwr.phase = .restoring) :
    s.takeWake src = s.updPwr fun p => { p with wakeSrc := p.wakeSrc ||| srcBit src } := by
  unfold State.takeWake
  rw [if_neg (by simp [on]), phase]

/-- Before the commit point a source ends the entry (R269). -/
theorem State.takeWake_entry (phase : s.pwr.phase = .query ∨ s.pwr.phase = .delayed) :
    s.takeWake src =
      (s.updPwr fun p => { p with wakeSrc := srcBit src, replayed := false, taken := srcBit src }).wakeEnds := by
  unfold State.takeWake
  rw [if_neg (by simp [on])]
  rcases phase with phase | phase <;> rw [phase]

/-- In Louvred and in Latched a source starts an exit (R270). -/
theorem State.takeWake_asleep (phase : s.pwr.phase = .idle) (st : s.pwr.st = .louvred ∨ s.pwr.st = .latched) :
    s.takeWake src = s.exitStart (srcBit src) false := by
  unfold State.takeWake
  rw [if_neg (by simp [on]), phase]
  rcases st with st | st <;> rw [st]

end

/-- The part with WAKE_N seen low. -/
def State.padLow (s : State) : State := s.updPwr fun p => { p with wakeLow := true }

theorem State.wakeN_dead {s : State} (h : s.awakeAble = false) : s.wakeN = s := if_neg (by simp [h])

theorem State.wakeN_able {s : State} (h : s.awakeAble = true) : s.wakeN = s.padLow.takeWake 4 := if_pos h

/-- What WAKE_N leaves where it ends an entry. -/
theorem State.wakeN_entry {s : State} (able : s.awakeAble = true) (on : s.pwr.wakeEn.getLsbD 4 = true)
    (phase : s.pwr.phase = .query ∨ s.pwr.phase = .delayed) :
    s.wakeN.rowView = (s.updPwr fun p => { p with
      wakeLow := true, wakeSrc := srcBit 4, replayed := false, taken := srcBit 4, phase := .idle, result := 4,
      left := if s.pwr.st = .ajar then 1 else s.pwr.left,
      st := if s.pwr.st = .ajar then .opened else s.pwr.st }).rowView := by
  rw [State.wakeN_able able, State.takeWake_entry (s := s.padLow) on phase, State.rowView_wakeEnds]
  rfl

theorem State.awakeAble_of_awake {s : State} (h : s.Awake) (released : s.sys.resetN = true) : s.awakeAble = true := by
  obtain ⟨st, -, -⟩ := h
  simp [State.awakeAble, st, released]

theorem State.rtcAlarm_idle {s : State} (h : s.awakeAble = false ∨ s.sys.rtcSec = 0 ∨
    BitVec.ofNat 32 s.sys.rtcSec ≠ s.sys.rtcAlarm ∨ s.sys.alarmDone = true) : s.rtcAlarm = s := by
  refine if_neg fun ⟨able, running, equal, first⟩ => ?_
  rcases h with h | h | h | h
  · rw [able] at h; cases h
  · exact running h
  · exact h equal
  · rw [first] at h; cases h

/-- In Open the alarm raises EV11, and wakes nothing (R397). -/
theorem State.rtcAlarm_awake {s : State} (awake : s.Awake) (released : s.sys.resetN = true) (running : s.sys.rtcSec ≠ 0)
    (equal : BitVec.ofNat 32 s.sys.rtcSec = s.sys.rtcAlarm) (first : s.sys.alarmDone = false) :
    s.rtcAlarm = { s with sys := { s.sys with alarmDone := true } }.raise 11 .granted (wordOf s.sys.rtcSec) := by
  have still : ({ s with sys := { s.sys with alarmDone := true } }.raise 11 .granted (wordOf s.sys.rtcSec)).Awake := by
    simpa only [State.Awake, State.raise_pwr] using awake
  have due : s.rtcAlarm =
      ({ s with sys := { s.sys with alarmDone := true } }.raise 11 .granted (wordOf s.sys.rtcSec)).takeWake 1 :=
    if_pos ⟨State.awakeAble_of_awake awake released, running, equal, first⟩
  rw [due, State.takeWake_awake still]

theorem State.rowWake_unwatched {s : State} {row : Nat}
    (h : s.rowWatch = false ∨ s.pwr.unwatched.getLsbD row = true) : s.rowWake row = s := by
  refine if_neg fun ⟨watch, watched⟩ => ?_
  rcases h with h | h
  · rw [watch] at h; cases h
  · rw [watched] at h; cases h

/-- With no entry in progress the watch runs in Louvred and in Latched alone (R261). -/
theorem State.asleep_of_rowWatch {s : State} (watch : s.rowWatch = true) (idle : s.pwr.phase = .idle) :
    s.pwr.st = .louvred ∨ s.pwr.st = .latched := by
  simp only [State.rowWatch, idle, Bool.and_eq_true, Bool.or_eq_true, beq_iff_eq] at watch
  obtain ⟨-, (st | st) | committed⟩ := watch
  · exact .inl st
  · exact .inr st
  · cases committed

theorem State.rowAgain_off {s : State} (h : s.rowWatch = false) (row : Nat) : s.rowAgain row = s := if_neg (by simp [h])

/-- A row that was high is watched again, and no other (R261). -/
theorem State.rowAgain_watched {s : State} (h : s.rowWatch = true) (row : Nat) : s.rowAgain row =
    s.updPwr fun p => { p with unwatched := p.unwatched &&& ~~~BitVec.ofNat 24 (2 ^ row) } := if_pos h

theorem getLsbD_without_row (m : BitVec 24) (row : Nat) {i : Nat} (hi : i < 24) :
    (m &&& ~~~BitVec.ofNat 24 (2 ^ row)).getLsbD i = (m.getLsbD i && i != row) := by
  have one : (BitVec.ofNat 24 (2 ^ row)).getLsbD i = (i == row) := by
    rw [BitVec.getLsbD_ofNat, Nat.testBit_two_pow, decide_eq_true hi, Bool.true_and]
    by_cases h : row = i
    · simp [h]
    · simp [h, Ne.symm h]
  rw [BitVec.getLsbD_and, BitVec.getLsbD_not, one, decide_eq_true hi, Bool.true_and, bne]

theorem State.voteLapse_due {s : State} {t : Nat} (h : (s.ten t).wakeLapse = true) :
    s.voteLapse t = s.updTen t fun T => { T with wakeHold := false, wakeTicks := 0, wakeLapse := false } := if_pos h

theorem State.voteLapse_early {s : State} {t : Nat} (h : (s.ten t).wakeLapse = false) : s.voteLapse t = s :=
  if_neg (by simp [h])

end Sys2Proof.Machine

section
open Sys2Proof Sys2Proof.Machine

/-- Settles O49: WAKE_N by the phase and the state it finds, then the alarm, the rows, and the votes. -/
theorem wakeSourceRows : Obligations.WakeSourceRows := by
  unfold Obligations.WakeSourceRows
  intro s
  simp only [exec_wakeNTaken, exec_rtcAlarm, exec_keyRowWake, exec_rowWatchedAgain, exec_wakeHoldLapse]
  refine ⟨fun dead => ?_, fun able off => ?_,
    fun able on => ⟨fun phase => ?_, fun phase => ?_, fun phase => ⟨_, rfl, ?_⟩, fun phase st => ?_⟩,
    fun able awake => ?_, fun awake released running equal first => ?_, fun idle => ?_,
    fun row => ⟨fun off => ⟨?_, ?_⟩, fun unwatched => ?_, fun watch watched on phase => ?_, fun watch => ⟨_, rfl, ?_⟩⟩,
    fun t => ⟨fun due => ⟨_, rfl, ?_⟩, fun early => ?_⟩⟩
  · rw [State.wakeN_dead dead]
  · rw [State.wakeN_able able, State.takeWake_off (s := s.padLow) (by decide) off]; rfl
  · rw [State.wakeN_able able, State.takeWake_committed (s := s.padLow) on phase]; rfl
  · rw [State.wakeN_able able, State.takeWake_restoring (s := s.padLow) on phase]; rfl
  · obtain ⟨doors, regs, -, pwr, -⟩ := State.rowView_eq (State.wakeN_entry able on phase)
    rw [pwr, doors, regs]
    exact ⟨rfl, rfl, rfl, rfl, rfl, fun ajar => if_pos ajar, fun other => if_neg other⟩
  · rw [State.wakeN_able able, State.takeWake_asleep (s := s.padLow) on phase st]; rfl
  · rw [State.wakeN_able able, State.takeWake_awake (s := s.padLow) awake]; rfl
  · rw [State.rtcAlarm_awake awake released running equal first]
  · rw [State.rtcAlarm_idle idle]
  · rw [State.rowWake_unwatched (.inl off)]
  · rw [State.rowAgain_off off]
  · rw [State.rowWake_unwatched (.inr unwatched)]
  · have wake : s.rowWake row.val = s.takeWake 2 := if_pos ⟨watch, watched⟩
    rw [wake, State.takeWake_asleep on phase (State.asleep_of_rowWatch watch phase)]; rfl
  · rw [State.rowAgain_watched watch]
    exact ⟨fun i hi => getLsbD_without_row _ _ hi, rfl⟩
  · rw [State.voteLapse_due due]
    exact ⟨s.ten_updTen_self _ _, s.updTen_onlyTenant _ _⟩
  · rw [State.voteLapse_early early]

end

namespace Sys2Proof.Machine

/-! ## Reads of flash: what they leave as it was (R159, R164, R166, R204) -/

section
variable (s : State)

theorem State.rowView_setFword (w : Nat) (v : FWord) : (s.setFword w v).rowView = s.rowView := rfl
theorem State.rowView_setFlashSeq (n : Nat) : { s with flash := { s.flash with seq := n } }.rowView = s.rowView := rfl
theorem State.rowView_enqueueFront (ops : List FlashOp) : (s.enqueueFront ops).rowView = s.rowView := rfl

theorem State.rowView_enqueueNew (ops : List FlashOp) : (s.enqueueNew ops).rowView = s.rowView := by
  rw [State.enqueueNew_shape]
  rfl

theorem State.rowView_ledgerFail (p : Nat) : (s.ledgerFail p).rowView = s.rowView := by
  unfold State.ledgerFail
  rw [State.rowView_raise]
  rfl

theorem State.rowView_putRecordIn (type sector aux : Nat) (ws : List Nat) :
    (s.putRecordIn type sector aux ws).1.rowView = s.rowView := by
  induction ws generalizing s with
  | nil => rfl
  | cons w ws ih =>
    unfold State.putRecordIn
    generalize recWord type sector aux s.flash.seq = d
    dsimp only
    split
    · rw [ih, State.rowView_ledgerFail, State.rowView_setFword, State.rowView_drawn]
    · rw [State.rowView_setFlashSeq, State.rowView_setFword, State.rowView_drawn]

theorem State.rowView_grownWait (type sector aux : Nat) : (s.grownWait type sector aux).rowView = s.rowView := by
  unfold State.grownWait
  dsimp only
  split
  · rw [State.rowView_enqueueFront]; rfl
  · rfl

theorem State.rowView_putGrown (type sector aux : Nat) : (s.putGrown type sector aux).rowView = s.rowView := by
  unfold State.putGrown
  dsimp only
  split
  · split
    · rw [State.rowView_putRecordIn]
    · rw [State.rowView_grownWait, State.rowView_putRecordIn]
  · rw [State.rowView_grownWait]

theorem State.rowView_flashUe (w : Nat) : (s.flashUe w).rowView = s.rowView := by
  unfold State.flashUe
  dsimp only
  split
  · rfl
  · rw [State.rowView_raise]
    split
    · rfl
    · rw [State.rowView_putGrown]; rfl

theorem State.rowView_ceReached (i n : Nat) : (s.ceReached i n).rowView = s.rowView := by
  unfold State.ceReached
  split
  · rw [State.rowView_raise]; rfl
  · rfl

theorem State.rowView_flashCe (w : Nat) (two : Bool) : (s.flashCe w two).rowView = s.rowView := by
  unfold State.flashCe
  split
  · rw [State.rowView_raise, State.rowView_ceReached]; rfl
  · rw [State.rowView_ceReached]; rfl

theorem State.rowView_flashDecode (w : Nat) : (s.flashDecode w).1.rowView = s.rowView := by
  unfold State.flashDecode
  dsimp only
  split
  · rfl
  · rw [State.rowView_flashCe]
  · rw [State.rowView_flashCe]
  · rw [State.rowView_flashUe]
  · split
    · rw [State.rowView_flashUe, State.rowView_drawn]
    · rw [State.rowView_flashCe, State.rowView_drawn]
    · rw [State.rowView_drawn]

theorem State.rowView_flashRead (w : Nat) : (s.flashRead w).1.rowView = s.rowView := by
  unfold State.flashRead
  split
  · rfl
  · exact s.rowView_flashDecode w

theorem State.rowView_flashReads (ws : List Nat) : (s.flashReads ws).1.rowView = s.rowView := by
  induction ws generalizing s with
  | nil => rfl
  | cons w ws ih => exact (ih _).trans (s.rowView_flashRead w)

theorem State.rowView_readEach (ws : List Nat) : (s.readEach ws).1.rowView = s.rowView := by
  induction ws generalizing s with
  | nil => rfl
  | cons w ws ih => exact (ih _).trans (s.rowView_flashRead w)

theorem State.rowView_flashBytes (off n : Nat) : (s.flashBytes off n).1.rowView = s.rowView :=
  s.rowView_flashReads (flashWords off n)

theorem State.rowView_readRecord (first kind ten cap : Nat) :
    (s.readRecord first kind ten cap).1.rowView = s.rowView := by
  have head := s.rowView_flashReads [first, first + 1]
  unfold State.readRecord
  dsimp only
  split
  · exact head
  · split
    · split
      · exact (State.rowView_flashBytes _ _ _).trans head
      · split <;> exact (State.rowView_flashBytes _ _ _).trans head
    · exact head

theorem State.rowView_inForce (keeper : Bool) (t : Nat) : (s.inForce keeper t).1.rowView = s.rowView :=
  (State.rowView_readRecord _ _ _ _ _).trans (s.rowView_readRecord _ _ _ _)

theorem State.rowView_readBack (keeper : Bool) (t slot gen : Nat) :
    (s.readBack keeper t slot gen).1.rowView = s.rowView := s.rowView_readRecord _ _ _ _

theorem State.rowView_leafVerify (leaf : Bool) : (s.leafVerify leaf).1.rowView = s.rowView := by
  have head := s.rowView_flashBytes (8 * leafWord leaf) 256
  unfold State.leafVerify
  generalize s.flashBytes (8 * leafWord leaf) 256 = h at head
  dsimp only
  split
  · exact head
  · split
    · split
      · exact (State.rowView_flashBytes _ _ _).trans head
      · split <;> exact (State.rowView_flashBytes _ _ _).trans head
    · exact head

theorem State.rowView_selectors (sect : Nat) : (s.selectors sect).1.rowView = s.rowView :=
  s.rowView_readEach (s.sectorWords sect)

theorem State.rowView_selector : s.selector.1.rowView = s.rowView := by
  have both : ((s.selectors 512).1.selectors 513).1.rowView = s.rowView := by
    rw [State.rowView_selectors, State.rowView_selectors]
  unfold State.selector
  dsimp only
  generalize (s.selectors 512).1.selectors 513 = b at both ⊢
  split
  · exact both
  · exact both
  · exact both
  · split <;> exact both

end

end Sys2Proof.Machine

namespace Sys2Proof.Machine

/-! ## The swing (R148, R219) -/

theorem exec_swingEnd (s : State) : exec .swingEnd s = .next s.swingVerify.swingFinish := rfl
theorem exec_saveComplete (s : State) : exec .saveComplete s = .next s.saveEnd := rfl

/-- A change of SYS is seen alike in states that look alike. -/
theorem State.rowView_updSys {s n : State} (h : n.rowView = s.rowView) (f : Sys → Sys) :
    (n.updSys f).rowView = (s.updSys f).rowView := by
  obtain ⟨doors, regs, sys, pwr, snap⟩ := State.rowView_eq h
  exact Prod.ext doors (Prod.ext regs (Prod.ext (congrArg f sys) (Prod.ext pwr snap)))

/-- A swing asked for: BUSY, its verification due. -/
def State.swingAsked (s : State) : State :=
  s.updSys fun k => { k with leafSt := 1, swingDue := true, swingBad := false }

/-- The leaf that the selector does not name, verified. -/
def State.otherLeaf (s : State) : State × Option (List Byte × List Byte) := s.leafVerify !s.sys.selLeaf

/-- The verdict on it noted. -/
def State.swingJudged (s : State) : State :=
  s.otherLeaf.1.updSys fun k => { k with swingDue := false, swingBad := s.otherLeaf.2.isNone }

theorem State.swingStart_busy {s : State} (h : s.sys.leafSt = 1) : s.swingStart = s := if_pos h

theorem State.swingStart_idle {s : State} (h : s.sys.leafSt ≠ 1) : s.swingStart = s.swingAsked.swingVerify := if_neg h

theorem State.swingVerify_settled {s : State} (h : s.sys.swingDue = false) : s.swingVerify = s := if_pos (.inl h)

theorem State.swingVerify_waits {s : State} (h : s.leafBusy (!s.sys.selLeaf) = true) : s.swingVerify = s :=
  if_pos (.inr h)

section
variable {s : State} (due : s.sys.swingDue = true) (free : s.leafBusy (!s.sys.selLeaf) = false)
include due free

/-- A leaf that fails verification: nothing is queued for it. -/
theorem State.swingVerify_fails (bad : s.otherLeaf.2 = none) : s.swingVerify = s.swingJudged := by
  unfold State.swingVerify
  rw [if_neg (by simp [due, free])]
  exact if_pos (congrArg Option.isNone bad)

/-- One that verifies: the word that names it joins the flash queue. -/
theorem State.swingVerify_queues (good : s.otherLeaf.2.isSome = true) : ∃ w g ops,
    s.swingVerify = s.swingJudged.selector.1.enqueueNew ops ∧ .prog w (selWord (!s.sys.selLeaf) g) .swing ∈ ops := by
  have verified : ¬s.otherLeaf.2.isNone = true := fun none =>
    Option.isSome_iff_ne_none.mp good (Option.isNone_iff_eq_none.mp none)
  unfold State.swingVerify
  rw [if_neg (by simp [due, free])]
  exact ⟨_, _, _, if_neg verified, List.mem_append_right _ List.mem_cons_self⟩

/-- What a verification that takes place leaves of the part. -/
theorem State.rowView_swingVerify : s.swingVerify.rowView =
    (s.updSys fun k => { k with swingDue := false, swingBad := s.otherLeaf.2.isNone }).rowView := by
  have judged : s.swingJudged.rowView =
      (s.updSys fun k => { k with swingDue := false, swingBad := s.otherLeaf.2.isNone }).rowView :=
    State.rowView_updSys (s.rowView_leafVerify _) _
  rw [← judged]
  cases verdict : s.otherLeaf.2 with
  | none => rw [State.swingVerify_fails due free verdict]
  | some x =>
    obtain ⟨w, g, ops, queued, -⟩ := State.swingVerify_queues due free (by rw [verdict]; rfl)
    rw [queued, State.rowView_enqueueNew, State.rowView_selector]

end

/-- A swing begun, whether its leaf can be read yet or not. -/
theorem State.swingAsked_effect (s : State) :
    let n := s.swingAsked.swingVerify
    let v := s.swingAsked.leafVerify !s.sys.selLeaf
    n.sys.leafSt = 1 ∧ n.sys.selLeaf = s.sys.selLeaf ∧ n.sys.bootCnt = s.sys.bootCnt ∧ n.doors = s.doors ∧
      n.regs = s.regs ∧ (s.leafBusy (!s.sys.selLeaf) = true → n = s.swingAsked) ∧
      (s.leafBusy (!s.sys.selLeaf) = false → n.sys.swingDue = false ∧ n.sys.swingBad = v.2.isNone ∧
        (v.2 = none → n = { v.1 with sys := n.sys }) ∧
        (v.2.isSome = true →
          ∃ w g, .prog w (selWord (!s.sys.selLeaf) g) .swing ∈ n.flash.queue ++ n.flash.wait)) := by
  dsimp only
  cases busy : s.leafBusy (!s.sys.selLeaf) with
  | true =>
    rw [State.swingVerify_waits (s := s.swingAsked) busy]
    exact ⟨rfl, rfl, rfl, rfl, rfl, fun _ => rfl, nofun⟩
  | false =>
    have due : s.swingAsked.sys.swingDue = true := rfl
    obtain ⟨doors, regs, sys, -, -⟩ := State.rowView_eq (State.rowView_swingVerify due busy)
    refine ⟨by rw [sys]; rfl, by rw [sys]; rfl, by rw [sys]; rfl, doors, regs, nofun, fun _ =>
      ⟨by rw [sys]; rfl, by rw [sys]; rfl, fun bad => ?_, fun good => ?_⟩⟩
    · rw [State.swingVerify_fails due busy bad]; rfl
    · obtain ⟨w, g, ops, queued, mem⟩ := State.swingVerify_queues due busy good
      rw [queued]
      exact ⟨w, g, (State.mem_enqueueNew _ _ _).mpr (.inr mem)⟩

/-! ## The end of a job of several operations (R190, R193) -/

theorem Job.eq_of_order {j k : Job} (h : j.order = some k) : j = k := by
  cases j with
  | window p => cases h
  | sys => cases h
  | _ => exact Option.some.inj h

/-- The report of a job at the front of the queue is ready when nothing of the job is under way. -/
theorem State.ready_done {s : State} {j : Job} {a b : Nat} {q : List FlashOp} (root : j.root = j)
    (order : j.order = some j) (idle : ∀ o ∈ s.flash.running, o.job.root ≠ j)
    (queue : s.flash.queue = .done a b j :: q) : ∃ rest, s.ready = .done a b j :: rest := by
  have none : j ∉ s.flash.running.filterMap fun o => o.job.root.order := by
    rw [List.mem_filterMap]
    rintro ⟨o, under, same⟩
    exact idle o under (Job.eq_of_order same)
  have job : (FlashOp.done a b j).job.root.order = some j := by rw [FlashOp.job, root, order]
  unfold State.ready
  rw [queue, eligible, job]
  exact ⟨_, if_pos (by simpa [FlashOp.sect] using none)⟩

theorem State.ready_empty {s : State} (h : s.flash.queue = []) : s.ready = [] := by
  unfold State.ready
  rw [h]
  rfl

theorem dropOp_head (o : FlashOp) (q : List FlashOp) : dropOp o (o :: q) = q := if_pos rfl

theorem State.swingFinish_idle {s : State} (h : s.sys.leafSt ≠ 1) : s.swingFinish = s := if_pos h

theorem State.swingFinish_failed {s : State} (busy : s.sys.leafSt = 1) (bad : s.sys.swingBad = true) :
    s.swingFinish = (s.updSys fun k => { k with leafSt := 3, swingBad := false }).ev9 2 := by
  unfold State.swingFinish
  rw [if_neg (not_not.mpr busy), if_pos bad]

/-- The selector word programmed: the other leaf is named, with the next GEN (R219). -/
theorem State.swingFinish_done {s : State} {a b : Nat} {q : List FlashOp} (busy : s.sys.leafSt = 1)
    (good : s.sys.swingBad = false) (idle : ∀ o ∈ s.flash.running, o.job.root ≠ .swing)
    (queue : s.flash.queue = .done a b .swing :: q) :
    s.swingFinish = State.ev9 { s with
      flash := { s.flash with queue := q },
      sys := { s.sys with leafSt := 2, selLeaf := !s.sys.selLeaf, selGen := s.sys.selGen + 1 } } 1 := by
  obtain ⟨rest, ready⟩ := State.ready_done rfl rfl idle queue
  unfold State.swingFinish
  rw [if_neg (not_not.mpr busy), if_neg (by simp [good]), ready]
  dsimp only [List.find?]
  rw [queue, dropOp_head]

/-! ## The keeper-store SAVE (R149, R221) -/

theorem State.kstoreSave_busy {s : State} (h : s.sys.kstSt = 1) : s.kstoreSave = s := if_pos h

/-- The operations that write a record end with its report. -/
theorem State.done_mem_recordOps (s : State) (keeper : Bool) (t slot gen : Nat) (body : List Byte) (reason : Nat)
    (j : Job) : .done slot gen j ∈ s.recordOps keeper t slot gen body reason j :=
  List.mem_append_right _ (List.mem_cons_of_mem _ (List.mem_cons_of_mem _ List.mem_cons_self))

/-- What was put at each number below a bound. -/
theorem SMap.get_foldl_set {α : Type} [DecidableEq α] (d : Nat → α) (f : Nat → α) (m : SMap α) {n t : Nat} (h : t < n) :
    SMap.get d ((List.range n).foldl (fun m t => SMap.set d m t (f t)) m) t = f t := by
  induction n with
  | zero => exact absurd h (Nat.not_lt_zero t)
  | succ n ih =>
    rw [List.range_succ, List.foldl_append, List.foldl_cons, List.foldl_nil, SMap.get_set]
    split
    · next same => rw [same]
    · exact ih (by omega)

/-- A snapshot keeps which doors are OPEN. -/
theorem State.snapshot_doors (s : State) {t : Nat} (h : t < 32) :
    SMap.get (fun _ => false) s.snapshot.doors t = (s.door t == .opened) :=
  SMap.get_foldl_set (fun _ => false) (fun t => s.door t == .opened) [] h

/-- A SAVE begun: its snapshot under the GEN of the record to come, BUSY, and RESULT clear. -/
def State.saving (s : State) (gen : Nat) (k : KSnap) : State :=
  ((s.setSnap gen k).updSys fun x => { x with kstSt := 1, kstResult := 0 }).drawn

/-- The record of a SAVE joins the flash queue. -/
theorem State.kstoreSave_queues {s : State} (h : s.sys.kstSt ≠ 1) : ∃ slot gen ops,
    s.kstoreSave = ((s.inForce true 0).1.saving gen s.snapshot).enqueueNew ops ∧ .done slot gen .save ∈ ops := by
  unfold State.kstoreSave
  rw [if_neg h]
  exact ⟨_, _, _, rfl, State.done_mem_recordOps _ _ _ _ _ _ _ _⟩

/-- What a SAVE leaves of the part, its snapshot apart. -/
theorem State.kstoreSave_effect {s : State} (h : s.sys.kstSt ≠ 1) :
    s.kstoreSave.sys.kstSt = 1 ∧ s.kstoreSave.sys.kstResult = 0 ∧ s.kstoreSave.doors = s.doors ∧
      s.kstoreSave.regs = s.regs ∧ ∃ slot gen,
        .done slot gen .save ∈ s.kstoreSave.flash.queue ++ s.kstoreSave.flash.wait ∧
          s.kstoreSave.snapOf gen = some s.snapshot := by
  obtain ⟨slot, gen, ops, save, done⟩ := State.kstoreSave_queues h
  obtain ⟨doors, regs, -, -, -⟩ := State.rowView_eq (s.rowView_inForce true 0)
  rw [save]
  generalize (s.inForce true 0).1 = m at doors regs
  obtain ⟨doors', regs', sys', -, snap'⟩ := State.rowView_eq ((m.saving gen s.snapshot).rowView_enqueueNew ops)
  have snap : (m.saving gen s.snapshot).snapOf gen = some s.snapshot := SMap.get_set_self _ _ gen (some s.snapshot)
  rw [sys', doors', regs']
  refine ⟨rfl, rfl, doors, regs, slot, gen, (State.mem_enqueueNew _ _ _).mpr (.inr done), ?_⟩
  rw [State.snapOf, snap']
  exact snap

/-- The part with a report taken out of the flash queue. -/
def State.unqueued (s : State) (q : List FlashOp) : State := { s with flash := { s.flash with queue := q } }

theorem State.saveEnd_none {s : State} (h : s.flash.queue = []) : s.saveEnd = s := by
  unfold State.saveEnd
  rw [State.ready_empty h]
  rfl

section
variable {s : State} {slot gen : Nat} {q : List FlashOp} (idle : ∀ o ∈ s.flash.running, o.job.root ≠ .save)
  (queue : s.flash.queue = .done slot gen .save :: q)
include idle queue

/-- The report of a SAVE: FAILED where a RESULT has been noted; else the read-back decides (R221). -/
theorem State.saveEnd_done : s.saveEnd =
    if s.sys.kstResult ≠ 0 then (s.unqueued q).updSys fun k => { k with kstSt := 3 }
    else
      let r := (s.unqueued q).readBack true 0 slot gen
      if r.2 then r.1.updSys fun k => { k with kstSt := 2, kstGen := gen }
      else r.1.updSys fun k => { k with kstSt := 3, kstResult := 5 } := by
  obtain ⟨rest, ready⟩ := State.ready_done rfl rfl idle queue
  unfold State.saveEnd
  rw [ready]
  dsimp only [List.find?]
  rw [queue, dropOp_head]
  rfl

theorem State.saveEnd_good (ok : s.sys.kstResult = 0) (back : ((s.unqueued q).readBack true 0 slot gen).2 = true) :
    s.saveEnd = ((s.unqueued q).readBack true 0 slot gen).1.updSys fun k => { k with kstSt := 2, kstGen := gen } := by
  rw [State.saveEnd_done idle queue, if_neg (not_not.mpr ok)]
  exact if_pos back

theorem State.saveEnd_bad (ok : s.sys.kstResult = 0) (back : ((s.unqueued q).readBack true 0 slot gen).2 = false) :
    s.saveEnd = ((s.unqueued q).readBack true 0 slot gen).1.updSys fun k => { k with kstSt := 3, kstResult := 5 } := by
  rw [State.saveEnd_done idle queue, if_neg (not_not.mpr ok)]
  exact if_neg (by simp [back])

end

end Sys2Proof.Machine

section
open Sys2Proof Sys2Proof.Machine

/-- Settles O39: the swing as its verification leaves it, the snapshot of a SAVE, and the end of each. -/
theorem swingAndSaveRows : Obligations.SwingAndSaveRows := by
  unfold Obligations.SwingAndSaveRows
  intro s
  simp only [exec_swingEnd, exec_saveComplete, exec_swing, exec_kstoreSave]
  refine ⟨fun h => ?_, fun settled => ?_, fun empty => ?_, fun slot gen q idle queue => ⟨fun noted => ?_, fun ok => ?_⟩⟩
  · rw [State.pageRow_swing h, State.pageRow_kstore h]
    refine ⟨fun busy => ?_, fun free => ⟨_, rfl, ?_⟩, fun busy => ?_, fun free => ⟨_, rfl, ?_⟩⟩
    · rw [State.swingStart_busy busy]
    · rw [State.swingStart_idle free]
      exact s.swingAsked_effect
    · rw [State.kstoreSave_busy busy]
    · obtain ⟨busy, clear, doors, regs, slot, gen, queued, snap⟩ := State.kstoreSave_effect free
      exact ⟨busy, clear, doors, regs, slot, gen, s.snapshot, queued, snap, rfl, rfl, rfl, rfl,
        fun t ht => s.snapshot_doors ht⟩
  · rw [State.swingVerify_settled settled]
    refine ⟨fun free => ?_, fun busy bad => ?_, fun a b q busy good idle queue => ?_⟩
    · rw [State.swingFinish_idle free]
    · rw [State.swingFinish_failed busy bad]; rfl
    · rw [State.swingFinish_done busy good idle queue]; rfl
  · rw [State.saveEnd_none empty]
  · rw [State.saveEnd_done idle queue, if_pos noted]; rfl
  · obtain ⟨doors, regs, sys, -, snap⟩ := State.rowView_eq ((s.unqueued q).rowView_readBack true 0 slot gen)
    have good := State.saveEnd_good idle queue ok
    have bad := State.saveEnd_bad idle queue ok
    refine ⟨_, rfl, ?_⟩
    cases back : ((s.unqueued q).readBack true 0 slot gen).2 with
    | true =>
      rw [good back]
      exact ⟨doors, regs, snap, fun _ => ⟨rfl, rfl⟩, fun no => absurd (back.symm.trans no) nofun⟩
    | false =>
      rw [bad back]
      exact ⟨doors, regs, snap, fun yes => absurd (back.symm.trans yes) nofun, fun _ => ⟨rfl, rfl⟩⟩

end
end

namespace Sys2Proof.Machine

/-! ## The check of a word of SRAM (R158, R165, R168) -/

theorem exec_protClear (s : State) (v : Word) : exec (.protClear v) s = .next (s.cfgRow 0 0x30040020 v 0xF#4) := rfl
theorem exec_protInject (s : State) (v : Word) : exec (.protInject v) s = .next (s.cfgRow 0 0x30040024 v 0xF#4) := rfl
theorem exec_sramScrubStep (s : State) : exec .sramScrubStep s = .next (s.atSlot 36 State.sramScrub) := rfl
theorem exec_flashScrubRead (s : State) : exec .flashScrubRead s = .next (s.atSlot 36 State.flashScrub) := rfl
theorem exec_fieldRepair (s : State) (sect : Fin 128) (fails : Bool) (line : Bool × Nat) :
    exec (.fieldRepair sect fails line) s = .next (s.fieldRepair sect.val fails line) := rfl

theorem State.eccOf_setEcc (s : State) (k : Nat) (e : EccSt) (x : Nat) :
    (s.setEcc k e).eccOf x = if x = k then e else s.eccOf x := SMap.get_set _ _ _ _ _

/-- Words from `a` on that are made good are good, and the others are as they were. -/
theorem State.eccOf_each_good (s : State) (a m x : Nat) :
    (s.each (List.range m) fun s i => s.setEcc ((a / 8 + i) * 8) .good).eccOf x =
      if x % 8 = 0 ∧ a / 8 ≤ x / 8 ∧ x / 8 < a / 8 + m then .good else s.eccOf x := by
  induction m with
  | zero => rw [if_neg (by omega)]; rfl
  | succ m ih =>
    rw [State.each_range_succ, State.eccOf_setEcc, ih]
    by_cases last : x = (a / 8 + m) * 8
    · rw [if_pos last, if_pos (by omega)]
    · rw [if_neg last]
      exact if_congr (by omega) rfl rfl

theorem State.eccOf_wrBytes (s : State) (a : Nat) (bs : List Byte) (x : Nat) :
    (s.wrBytes a bs).eccOf x = s.eccOf x := by
  rw [State.wrBytes_shape]
  rfl

theorem State.eccOf_wrWhole (s : State) (a : Nat) (bs : List Byte) (x : Nat) :
    (s.wrWhole a bs).eccOf x =
      if x % 8 = 0 ∧ a / 8 ≤ x / 8 ∧ x / 8 < a / 8 + (bs.length + 7) / 8 then .good else s.eccOf x := by
  unfold State.wrWhole
  rw [State.eccOf_each_good, State.eccOf_wrBytes]

/-- An event leaves a word as it was, or writes it whole. -/
theorem State.eccOf_raise_or (s : State) (e : Nat) (d : Dest) (v : Word) (x : Nat) :
    (s.raise e d v).eccOf x = s.eccOf x ∨ (s.raise e d v).eccOf x = .good := by
  unfold State.raise
  split
  · split
    · split <;> exact .inl rfl
    · exact .inl rfl
  · unfold State.deliver
    split
    · exact .inl rfl
    · unfold State.place
      split
      · have whole := s.eccOf_wrWhole (eqAddr (s.resolve e d) (s.ten (s.resolve e d)).eqTail.toNat)
          (eventEntry e 2 (s.now % 65536) v) x
        split at whole
        · exact .inr whole
        · exact .inl whole
      · exact .inl rfl

/-! A good word stays good, whatever is read, recorded or reported. -/

section
variable {s : State} {x : Nat} (good : s.eccOf x = .good)
include good

theorem State.setEcc_keeps_good (k : Nat) : (s.setEcc k .good).eccOf x = .good := by
  rw [State.eccOf_setEcc, good, ite_self]

theorem State.wrWhole_keeps_good (a : Nat) (bs : List Byte) : (s.wrWhole a bs).eccOf x = .good := by
  rw [State.eccOf_wrWhole, good, ite_self]

theorem State.raise_keeps_good (e : Nat) (d : Dest) (v : Word) : (s.raise e d v).eccOf x = .good :=
  (s.eccOf_raise_or e d v x).elim (·.trans good) id

theorem State.countCe_keeps_good : s.countCe.eccOf x = .good := by
  unfold State.countCe State.ceReached
  split
  · exact State.raise_keeps_good (by exact good) _ _ _
  · exact good

theorem State.poison_keeps_good {k : Nat} (other : x ≠ k) : (s.poison k).eccOf x = .good := by
  have kept : (s.setEcc k .poisoned).eccOf x = .good := by rw [State.eccOf_setEcc, if_neg other, good]
  unfold State.poison
  exact State.raise_keeps_good (by exact kept) _ _ _

theorem State.wrongData_keeps_good (k : Nat) (v : DWord) : (s.wrongData k v).eccOf x = .good := by
  unfold State.wrongData
  split
  · exact State.setEcc_keeps_good ((s.eccOf_wrBytes _ _ x).trans good) _
  · exact State.setEcc_keeps_good (by exact good) _

theorem State.eccRead_keeps_good (k : Nat) : (s.eccRead k).1.eccOf x = .good := by
  by_cases same : x = k
  · rw [same] at good ⊢
    simp only [State.eccRead, good]
  · unfold State.eccRead
    split
    · exact good
    · exact good
    · exact State.setEcc_keeps_good good k
    · exact State.countCe_keeps_good (State.setEcc_keeps_good good k)
    · exact State.poison_keeps_good good same
    · split
      · exact State.poison_keeps_good (s := s.drawn) good same
      · exact State.countCe_keeps_good (by exact State.wrongData_keeps_good good k _)
      · exact State.wrongData_keeps_good good k _

end

/-- A read corrects a word with one stored bit in error (R158). -/
theorem State.eccRead_corrects {s : State} {k : Nat} (one : s.eccOf k = .bits 1) : (s.eccRead k).1.eccOf k = .good := by
  have fixed : (s.setEcc k .good).eccOf k = .good := (s.eccOf_setEcc k .good k).trans (if_pos rfl)
  simp only [State.eccRead, one]
  exact State.countCe_keeps_good fixed

/-! ## PROT_CLEAR and PROT_INJECT (R168, R177) -/

theorem State.cfgRow_protClear {s : State} (h : s.cfgReach 0 0x30040020 true = true) (v : Word) :
    s.cfgRow 0 0x30040020 v 0xF#4 = s.protClear v := by
  have put (be : BitVec 4) : s.cfgPut none 0x30040020 v be = (s.protClear (woBytes v be), 0) := rfl
  refine State.cfgRow_of h rfl ((put 0xF#4).trans ?_)
  rw [woBytes_all]

/-- A whole write of PROT_INJECT that clamps nothing. -/
theorem State.cfgRow_protInject {s n : State} (h : s.cfgReach 0 0x30040024 true = true) {v : Word}
    (e : s.protInject v = (n, 0)) : s.cfgRow 0 0x30040024 v 0xF#4 = n := by
  have put (be : BitVec 4) : s.cfgPut none 0x30040024 v be = s.protInject (woBytes v be) := rfl
  refine State.cfgRow_of h rfl ((put 0xF#4).trans ?_)
  rw [woBytes_all, e]

/-- What is noted of a write that touches a cell is noted of the display. -/
theorem State.cellWritten_shape (s : State) (a : Nat) :
    s.cellWritten a = { s with disp := (s.cellWritten a).disp } := by
  unfold State.cellWritten
  split
  · split
    · dsimp only
      split <;> rfl
    · rfl
  · rfl

theorem State.eccOf_cellWritten (s : State) (a x : Nat) : (s.cellWritten a).eccOf x = s.eccOf x := by
  rw [State.cellWritten_shape]
  rfl

theorem State.rdByte_cellWritten (s : State) (a x : Nat) : (s.cellWritten a).rdByte x = s.rdByte x := by
  rw [State.cellWritten_shape]
  rfl

/-- A word of SRAM written as zero, with a valid check. -/
def State.zeroWord (s : State) (a : Nat) : State := (s.wrWhole a (List.replicate 8 0)).cellWritten a

theorem State.rdByte_zeroWord (s : State) (a x : Nat) :
    (s.zeroWord a).rdByte x = if a ≤ x ∧ x < a + 8 then 0 else s.rdByte x := by
  unfold State.zeroWord
  rw [State.rdByte_cellWritten, State.rdByte_wrWhole, List.length_replicate]
  by_cases inside : a ≤ x ∧ x < a + 8
  · rw [if_pos inside, if_pos inside, List.getD_replicate _ (by omega)]
  · rw [if_neg inside, if_neg inside]

theorem State.eccOf_zeroWord (s : State) {a : Nat} (aligned : a % 8 = 0) (x : Nat) :
    (s.zeroWord a).eccOf x = if x = a then .good else s.eccOf x := by
  unfold State.zeroWord
  rw [State.eccOf_cellWritten, State.eccOf_wrWhole, List.length_replicate]
  exact if_congr (by omega) rfl rfl

theorem State.zeroWord_shape (s : State) (a : Nat) :
    s.zeroWord a = { s with mem := (s.zeroWord a).mem, ecc := (s.zeroWord a).ecc, disp := (s.zeroWord a).disp } := by
  unfold State.zeroWord
  rw [State.cellWritten_shape, State.wrWhole_shape]

/-- The word at ADDR of PROT_CLEAR and PROT_INJECT. -/
def wordAddr (v : Word) : Nat := v.toNat / 8 * 8

theorem wordAddr_aligned (v : Word) : wordAddr v % 8 = 0 := Nat.mul_mod_left _ _

/-- What a word written as zero changes. -/
theorem State.zeroWord_effect (s : State) {a : Nat} (aligned : a % 8 = 0) :
    (∀ i, i < 8 → (s.zeroWord a).rdByte (a + i) = 0) ∧
      (∀ x, x < a ∨ a + 8 ≤ x → (s.zeroWord a).rdByte x = s.rdByte x) ∧ (s.zeroWord a).eccOf a = .good ∧
      (∀ k, k ≠ a → (s.zeroWord a).eccOf k = s.eccOf k) ∧
      s.zeroWord a = { s with
        mem := (s.zeroWord a).mem, ecc := (s.zeroWord a).ecc, disp := (s.zeroWord a).disp } := by
  refine ⟨fun i hi => ?_, fun x away => ?_, ?_, fun k other => ?_, s.zeroWord_shape a⟩
  · rw [State.rdByte_zeroWord, if_pos (by omega)]
  · rw [State.rdByte_zeroWord, if_neg (by omega)]
  · rw [State.eccOf_zeroWord _ aligned, if_pos rfl]
  · rw [State.eccOf_zeroWord _ aligned, if_neg other]

/-- A word of SRAM with so many stored bits in error. -/
def State.inject (s : State) (a n : Nat) : State := (s.setEcc a (.bits n)).cellWritten a

/-- What an injected error changes. -/
theorem State.inject_effect (s : State) (a n : Nat) :
    (s.inject a n).eccOf a = .bits n ∧ (∀ x, x ≠ a → (s.inject a n).eccOf x = s.eccOf x) ∧
      s.inject a n = { s with ecc := (s.inject a n).ecc, disp := (s.inject a n).disp } := by
  have word (x : Nat) : (s.inject a n).eccOf x = if x = a then .bits n else s.eccOf x :=
    (State.eccOf_cellWritten _ _ _).trans (s.eccOf_setEcc a _ x)
  refine ⟨(word a).trans (if_pos rfl), fun x other => (word x).trans (if_neg other), ?_⟩
  unfold State.inject
  rw [State.cellWritten_shape]
  rfl

section
variable {s : State} {v : Word}

theorem State.protClear_go (go : v.bit 0 = true) (sram : (sramRegion (wordAddr v)).isSome = true) :
    s.protClear v = s.zeroWord (wordAddr v) := if_pos ⟨go, sram⟩

theorem State.protClear_idle (h : v.bit 0 = false ∨ (sramRegion (wordAddr v)).isNone = true) : s.protClear v = s := by
  refine if_neg fun ⟨go, sram⟩ => ?_
  have inside : (sramRegion (wordAddr v)).isNone = false := by rw [← Option.not_isSome]; exact congrArg (!·) sram
  rcases h with off | out
  · exact absurd (off.symm.trans go) nofun
  · exact absurd (inside.symm.trans out) nofun

theorem State.protInject_idle (h : s.sys.locked = true ∨ (sramRegion (wordAddr v)).isNone = true ∨
    s.eccOf (wordAddr v) = .poisoned) : s.protInject v = (s, 0) := if_pos h

/-- Injected bits add to those of a word that is not poisoned. -/
theorem State.flipBits_adds {key k : Nat} (held : s.eccOf key = if k = 0 then .good else .bits k) (more : Nat) :
    s.flipBits key more = s.setEcc key (.bits (k + more)) := by
  unfold State.flipBits
  by_cases none : k = 0
  · rw [held, if_pos none, none, Nat.zero_add]
  · rw [held, if_neg none]

theorem State.protInject_injects (unlocked : s.sys.locked = false) (sram : (sramRegion (wordAddr v)).isSome = true)
    {kind k : Nat} (asked : v.fld 0 2 = kind) (one : kind = 1 ∨ kind = 2)
    (held : s.eccOf (wordAddr v) = if k = 0 then .good else .bits k) :
    s.protInject v = (s.inject (wordAddr v) (k + kind), 0) := by
  have sound : s.eccOf (wordAddr v) ≠ .poisoned := by rw [held]; split <;> nofun
  have inside : (sramRegion (wordAddr v)).isNone = false := by rw [← Option.not_isSome, sram]; rfl
  have may : ¬(s.sys.locked = true ∨ (sramRegion (wordAddr v)).isNone = true ∨ s.eccOf (wordAddr v) = .poisoned) := by
    simp [unlocked, inside, sound]
  refine (if_neg may).trans ?_
  unfold State.inject
  rw [← State.flipBits_adds held]
  rcases one with rfl | rfl <;> rw [asked] <;> rfl

end

/-! ## The scrubber of SRAM (R162, R163) -/

/-- The pass with this tick counted, and EV70 when it has become late (R163). -/
def State.scrubTimed (s : State) : State :=
  let s1 := s.updProt fun p => { p with passUs := p.passUs + s.periodUs }
  if 8000000 < s1.prot.passUs ∧ s1.prot.lateS = false then
    (s1.updProt fun p => { p with lateS := true }).raise 70 .granted 1
  else s1

/-- The work of slots 36 and 37 beside the words read. -/
def State.scrubWords (s : State) (m : Nat) : State := s.each (List.range m) fun s _ => s.scrubWord

theorem State.sramScrub_off {s : State} (h : s.sys.scrubSram = false) : s.sramScrub = s := if_pos h

theorem State.sramScrub_on {s : State} (h : s.sys.scrubSram = true) :
    s.sramScrub = s.scrubTimed.scrubWords (scrubQuota s.periodUs) := if_neg (by simp [h])

theorem State.scrubTimed_early {s : State} (early : s.prot.passUs + s.periodUs ≤ 8000000) :
    s.scrubTimed = s.updProt fun p => { p with passUs := p.passUs + s.periodUs } :=
  if_neg fun late => Nat.not_lt.mpr early late.1

/-- A word without an error is read, and the pass moves on. -/
theorem State.scrubWord_clean {s : State} (clean : s.ecc = []) (more : s.prot.pos + 1 < 262144) :
    s.scrubWord = s.updProt fun p => { p with pos := p.pos + 1 } := by
  have good : s.eccOf (sramWordAddr s.prot.pos) = .good := by rw [State.eccOf, clean]; rfl
  simp only [State.scrubWord, State.eccRead, good]
  exact if_neg (Nat.not_le.mpr more)

theorem State.scrubWords_clean {s : State} (clean : s.ecc = []) {m : Nat} (more : s.prot.pos + m < 262144) :
    s.scrubWords m = s.updProt fun p => { p with pos := p.pos + m } := by
  induction m with
  | zero => rfl
  | succ m ih =>
    have before : s.scrubWords m = s.updProt fun p => { p with pos := p.pos + m } := ih (by omega)
    unfold State.scrubWords at before ⊢
    rw [State.each_range_succ, before, State.scrubWord_clean (by exact clean) (by exact more)]
    rfl

theorem State.ecc_scrubWord (s : State) : s.scrubWord.ecc = (s.eccRead (sramWordAddr s.prot.pos)).1.ecc := by
  unfold State.scrubWord
  dsimp only
  generalize s.eccRead (sramWordAddr s.prot.pos) = r
  split
  · split <;> rfl
  · split <;> rfl

/-- A word that a pass finds good stays good. -/
theorem State.scrubWord_keeps_good {s : State} {x : Nat} (good : s.eccOf x = .good) : s.scrubWord.eccOf x = .good := by
  rw [State.eccOf, State.ecc_scrubWord]
  exact State.eccRead_keeps_good good _

/-- A word at the position of the pass that is good or correctable is good once it has been read. -/
theorem State.scrubWord_corrects {s : State} {a : Nat} (here : sramWordAddr s.prot.pos = a)
    (state : s.eccOf a = .bits 1 ∨ s.eccOf a = .good) : s.scrubWord.eccOf a = .good := by
  rcases state with one | good
  · rw [State.eccOf, State.ecc_scrubWord, here]
    exact State.eccRead_corrects one
  · exact State.scrubWord_keeps_good good

/-- The first of the words of a tick is at the position of the pass; those after it leave it good. -/
theorem State.scrubWords_corrects {s : State} {a : Nat} (here : sramWordAddr s.prot.pos = a)
    (state : s.eccOf a = .bits 1 ∨ s.eccOf a = .good) (m : Nat) : (s.scrubWords (m + 1)).eccOf a = .good := by
  induction m with
  | zero => exact State.scrubWord_corrects here state
  | succ m ih =>
    unfold State.scrubWords at ih ⊢
    rw [State.each_range_succ]
    exact State.scrubWord_keeps_good ih


/-- A tick of a pass that meets no error and does not end. -/
theorem State.sramScrub_clean {s : State} (on : s.sys.scrubSram = true) (clean : s.ecc = [])
    (more : s.prot.pos + scrubQuota s.periodUs < 262144) (early : s.prot.passUs + s.periodUs ≤ 8000000) :
    s.sramScrub = s.updProt fun p => { p with
      pos := p.pos + scrubQuota s.periodUs, passUs := p.passUs + s.periodUs } := by
  rw [State.sramScrub_on on, State.scrubTimed_early early, State.scrubWords_clean (by exact clean) (by exact more)]
  rfl

theorem State.eccOf_scrubTimed_or (s : State) (x : Nat) :
    s.scrubTimed.eccOf x = s.eccOf x ∨ s.scrubTimed.eccOf x = .good := by
  unfold State.scrubTimed
  dsimp only
  split
  · exact State.eccOf_raise_or _ _ _ _ _
  · exact .inl rfl

theorem State.pos_scrubTimed (s : State) : s.scrubTimed.prot.pos = s.prot.pos := by
  unfold State.scrubTimed
  dsimp only
  split
  · rw [State.raise_prot]; rfl
  · rfl

/-- A tick that has counted reads at least one word. -/
theorem scrubQuota_pos {us : Nat} (h : 0 < us) : 0 < scrubQuota us := by unfold scrubQuota; omega

/-- A correctable word at the position of the pass is good after the tick. -/
theorem State.sramScrub_corrects {s : State} (on : s.sys.scrubSram = true) (counts : 0 < s.periodUs)
    (one : s.eccOf (sramWordAddr s.prot.pos) = .bits 1) : s.sramScrub.eccOf (sramWordAddr s.prot.pos) = .good := by
  rw [State.sramScrub_on on, ← Nat.succ_pred_eq_of_pos (scrubQuota_pos counts)]
  refine State.scrubWords_corrects (congrArg sramWordAddr s.pos_scrubTimed) ?_ _
  exact (s.eccOf_scrubTimed_or _).imp_left (·.trans one)

/-! ## The scrubber of flash (R163) -/

/-- What the flash pass leaves as it was: the tick, plain registers, cells, lamps and grants; with the position of the
pass. -/
def State.scrubView (s : State) : Tick × SMap Word × SMap Cell × SMap Lamp × Grants × Nat :=
  (s.tick, s.regs, s.disp.cells, s.lamps, s.grants, s.prot.fpos)

section
variable (s : State)

theorem State.scrubView_raise (e : Nat) (d : Dest) (v : Word) : (s.raise e d v).scrubView = s.scrubView := by
  simp only [State.scrubView, State.raise_tick, State.raise_regs, State.raise_disp, State.raise_lamps,
    State.raise_grants, State.raise_prot]

theorem State.scrubView_drawn : s.drawn.scrubView = s.scrubView := rfl
theorem State.scrubView_setFword (w : Nat) (v : FWord) : (s.setFword w v).scrubView = s.scrubView := rfl
theorem State.scrubView_setFlashSeq (n : Nat) : { s with flash := { s.flash with seq := n } }.scrubView = s.scrubView :=
  rfl

theorem State.scrubView_ledgerFail (p : Nat) : (s.ledgerFail p).scrubView = s.scrubView := by
  unfold State.ledgerFail
  rw [State.scrubView_raise]
  rfl

theorem State.scrubView_putRecordIn (type sector aux : Nat) (ws : List Nat) :
    (s.putRecordIn type sector aux ws).1.scrubView = s.scrubView := by
  induction ws generalizing s with
  | nil => rfl
  | cons w ws ih =>
    unfold State.putRecordIn
    generalize recWord type sector aux s.flash.seq = d
    dsimp only
    split
    · rw [ih, State.scrubView_ledgerFail, State.scrubView_setFword, State.scrubView_drawn]
    · rw [State.scrubView_setFlashSeq, State.scrubView_setFword, State.scrubView_drawn]

theorem State.scrubView_grownWait (type sector aux : Nat) : (s.grownWait type sector aux).scrubView = s.scrubView := by
  unfold State.grownWait
  dsimp only
  split <;> rfl

theorem State.scrubView_putGrown (type sector aux : Nat) : (s.putGrown type sector aux).scrubView = s.scrubView := by
  have put := s.scrubView_putRecordIn type sector aux (s.halfFree s.halfNo)
  unfold State.putGrown
  dsimp only
  split
  · split
    · exact put
    · exact (State.scrubView_grownWait _ _ _ _).trans put
  · exact s.scrubView_grownWait _ _ _

theorem State.scrubView_flashUe (w : Nat) : (s.flashUe w).scrubView = s.scrubView := by
  unfold State.flashUe
  dsimp only
  split
  · rfl
  · rw [State.scrubView_raise]
    split
    · rfl
    · exact State.scrubView_putGrown _ _ _ _

theorem State.scrubView_ceReached (i n : Nat) : (s.ceReached i n).scrubView = s.scrubView := by
  unfold State.ceReached
  split
  · exact State.scrubView_raise _ _ _ _
  · rfl

theorem State.scrubView_flashCe (w : Nat) (two : Bool) : (s.flashCe w two).scrubView = s.scrubView := by
  unfold State.flashCe
  split
  · exact (State.scrubView_raise _ _ _ _).trans (State.scrubView_ceReached _ _ _)
  · exact State.scrubView_ceReached _ _ _

theorem State.scrubView_flashDecode (w : Nat) : (s.flashDecode w).1.scrubView = s.scrubView := by
  unfold State.flashDecode
  dsimp only
  split
  · rfl
  · exact s.scrubView_flashCe w false
  · exact s.scrubView_flashCe w true
  · exact s.scrubView_flashUe w
  · split
    · exact s.drawn.scrubView_flashUe w
    · exact s.drawn.scrubView_flashCe w _
    · rfl

theorem State.scrubView_flashRead (w : Nat) : (s.flashRead w).1.scrubView = s.scrubView := by
  unfold State.flashRead
  split
  · rfl
  · exact s.scrubView_flashDecode w

theorem State.flashPassTime_keeps (us : Nat) :
    (s.flashPassTime us).scrubView = s.scrubView ∧ (s.flashPassTime us).flash = s.flash := by
  unfold State.flashPassTime
  dsimp only
  split
  · exact ⟨State.scrubView_raise _ _ _ _, State.raise_flash _ _ _ _⟩
  · exact ⟨rfl, rfl⟩

/-- A tick of the flash pass in which a read is due, before the read. -/
def State.readDue : State :=
  (s.flashPassTime (scrubEvery s.periodUs * s.periodUs)).updTick fun t => { t with fscrub := scrubEvery s.periodUs }

/-- The read of the flash pass, where it is not skipped. -/
def State.passRead : State := match s.scrubFlashWord s.prot.fpos with
  | some w => (s.flashRead w).1
  | none => s

theorem State.scrubView_passRead : s.passRead.scrubView = s.scrubView := by
  unfold State.passRead
  split
  · exact s.scrubView_flashRead _
  · rfl

end

theorem State.scrubWaits_of_free {s : State}
    (h : ∀ w, s.scrubFlashWord s.prot.fpos = some w → s.flashWaits (w / 256) = false) : s.scrubWaits = false := by
  unfold State.scrubWaits
  split
  · next w found => exact h w found
  · rfl

theorem State.scrubWaits_of_busy {s : State}
    (h : ∃ w, s.scrubFlashWord s.prot.fpos = some w ∧ s.flashWaits (w / 256) = true) : s.scrubWaits = true := by
  obtain ⟨w, found, busy⟩ := h
  unfold State.scrubWaits
  rw [found]
  exact busy

theorem State.flashScrub_idle {s : State} (h : s.sys.scrubFlash = false ∨ 0 < s.tick.fscrub) : s.flashScrub = s :=
  if_pos h

section
variable {s : State} (on : s.sys.scrubFlash = true) (due : s.tick.fscrub = 0)
include on due

theorem State.flashScrub_waits (wait : s.scrubWaits = true) : s.flashScrub = s.flashPassTime s.periodUs := by
  have runs : ¬(s.sys.scrubFlash = false ∨ 0 < s.tick.fscrub) := by simp [on, due]
  exact (if_neg runs).trans (if_pos wait)

/-- A read that can be made advances the position, and the next is due K ticks later. -/
theorem State.flashScrub_reads (may : s.scrubWaits = false) (more : s.prot.fpos + 1 < 1048576) :
    s.flashScrub.scrubView =
      ({ s.tick with fscrub := scrubEvery s.periodUs }, s.regs, s.disp.cells, s.lamps, s.grants, s.prot.fpos + 1) := by
  have runs : ¬(s.sys.scrubFlash = false ∨ 0 < s.tick.fscrub) := by simp [on, due]
  have read := s.readDue.scrubView_passRead
  have timed := (s.flashPassTime_keeps (scrubEvery s.periodUs * s.periodUs)).1
  simp only [State.scrubView, Prod.mk.injEq] at timed
  obtain ⟨tick, regs, cells, lamps, grants, fpos⟩ := timed
  have view : s.readDue.scrubView =
      ({ s.tick with fscrub := scrubEvery s.periodUs }, s.regs, s.disp.cells, s.lamps, s.grants, s.prot.fpos) := by
    simp only [State.scrubView, State.readDue, State.updTick, tick, regs, cells, lamps, grants, fpos]
  have seen := read.trans view
  have here : s.readDue.passRead.prot.fpos = s.prot.fpos := congrArg (·.2.2.2.2.2) seen
  have moved : s.flashScrub = s.readDue.passRead.updProt fun p => { p with fpos := p.fpos + 1 } :=
    (if_neg runs).trans ((if_neg (by simp [may])).trans (if_pos (by exact here ▸ more)))
  rw [moved]
  simp only [State.scrubView, Prod.mk.injEq] at seen ⊢
  obtain ⟨tick, regs, cells, lamps, grants, -⟩ := seen
  exact ⟨tick, regs, cells, lamps, grants, congrArg (· + 1) here⟩

end

/-! ## Field repair (R174) -/

section
variable {s : State} {sect : Nat} {line : Bool × Nat}

/-- The section forgotten, as its test has begun. -/
def State.forget (s : State) (sect : Nat) : State :=
  s.updProt fun p => { p with fixed := p.fixed.filter fun q => sectionOf q.1 != some sect }

theorem State.fieldRepair_untested (once : s.twiceFixed sect = false) (fails : Bool) :
    s.fieldRepair sect fails line = s := if_pos once

variable (twice : s.twiceFixed sect = true)
include twice

theorem State.fieldRepair_passes : s.fieldRepair sect false line = s.forget sect :=
  (if_neg (by simp [twice])).trans (if_pos rfl)

theorem State.fieldRepair_blows (room : s.prot.fieldUsed < 32 ∧ s.prot.spareFits sect line.1 = true) :
    s.fieldRepair sect true line =
      ((s.forget sect).updProt fun p => { p with fuses := p.fuses ++ [⟨sect, line.1, line.2, true, false⟩] }).ev69 sect
        1 :=
  (if_neg (by simp [twice])).trans ((if_neg nofun).trans (if_pos room))

theorem State.fieldRepair_full (full : ¬(s.prot.fieldUsed < 32 ∧ s.prot.spareFits sect line.1 = true)) :
    s.fieldRepair sect true line = (s.forget sect).ev69 sect 2 :=
  (if_neg (by simp [twice])).trans ((if_neg nofun).trans (if_neg full))

end

end Sys2Proof.Machine

section
open Sys2Proof Sys2Proof.Machine

/-- Settles O32: the word written or injected; what a scrub of SRAM and one of flash advance, or leave; and the ends of
a section's test. -/
theorem protectRows : Obligations.ProtectRows := by
  unfold Obligations.ProtectRows
  intro s
  simp only [exec_protClear, exec_protInject, exec_sramScrubStep, exec_flashScrubRead, exec_fieldRepair]
  refine ⟨fun reach v => ⟨fun go sram => ⟨s.zeroWord (wordAddr v), ?_⟩, fun idle => ?_⟩,
    fun reach v => ⟨fun idle => ?_, fun unlocked sram kind asked one k held => ⟨s.inject (wordAddr v) (k + kind), ?_⟩⟩,
    fun ticks => ⟨fun off => ?_, fun on => ⟨fun clean more early => ?_, fun counts one => ⟨_, rfl, ?_⟩⟩,
      fun on due => ⟨fun may more => ⟨_, rfl, ?_⟩, fun wait => ⟨_, rfl, ?_⟩⟩, fun idle => ?_⟩,
    fun sect fails line => ⟨fun once => ?_, fun twice => ⟨fun pass => ?_, fun fail room left => ?_,
      fun fail full => ?_⟩⟩⟩
  · rw [State.cfgRow_protClear reach, State.protClear_go go sram]
    exact ⟨rfl, s.zeroWord_effect (wordAddr_aligned v)⟩
  · rw [State.cfgRow_protClear reach, State.protClear_idle idle]
  · rw [State.cfgRow_protInject reach (State.protInject_idle idle)]
  · rw [State.cfgRow_protInject reach (State.protInject_injects unlocked sram asked one held)]
    exact ⟨rfl, s.inject_effect (wordAddr v) (k + kind)⟩
  · rw [State.atSlot_ticking ticks, State.sramScrub_off (by exact off)]; rfl
  · have scrub := State.sramScrub_clean (s := s.updTick fun k => { k with slot := 36 }) on clean more early
    rw [State.atSlot_ticking ticks, scrub]
    rfl
  · rw [State.atSlot_ticking ticks]
    exact State.sramScrub_corrects (s := s.updTick _) on counts one
  · rw [State.atSlot_ticking ticks]
    have seen := State.flashScrub_reads (s := s.updTick fun k => { k with slot := 36 }) on due
      (State.scrubWaits_of_free may) more
    simp only [State.scrubView, Prod.mk.injEq] at seen
    obtain ⟨tick, regs, cells, lamps, grants, fpos⟩ := seen
    exact ⟨fpos, congrArg Tick.fscrub tick, regs, cells, lamps, grants⟩
  · rw [State.atSlot_ticking ticks, State.flashScrub_waits (by exact on) (by exact due)
      (State.scrubWaits_of_busy (by exact wait))]
    obtain ⟨seen, flash⟩ := State.flashPassTime_keeps (s.updTick fun k => { k with slot := 36 }) s.periodUs
    exact ⟨congrArg (·.2.2.2.2.2) seen, (congrArg (·.1.fscrub) seen).trans due, flash⟩
  · rw [State.atSlot_ticking ticks, State.flashScrub_idle (by exact idle)]; rfl
  · rw [State.fieldRepair_untested once]
  · rw [pass, State.fieldRepair_passes twice]; rfl
  · have fits : s.prot.spareFits sect.val line.1 = true := decide_eq_true room
    rw [fail, State.fieldRepair_blows twice ⟨left, fits⟩]; rfl
  · have unfit : ¬(s.prot.fieldUsed < 32 ∧ s.prot.spareFits sect.val line.1 = true) := fun ⟨left, fits⟩ =>
      full.elim (Nat.not_le.mpr (of_decide_eq_true fits)) (Nat.not_le.mpr left)
    rw [fail, State.fieldRepair_full twice unfit]; rfl

end

namespace Sys2Proof.Machine

/-! ## CMD_RSP (R172, R238) -/

theorem exec_cmdRspSend (s : State) : exec .cmdRspSend s = .next s.rspSend := rfl
theorem exec_wakeMessage (s : State) (line : List (Bool × Nat)) :
    exec (.wakeMessage line) s = .next (s.wakeMessage line) := rfl
theorem exec_wakeRepeat (s : State) : exec .wakeRepeat s = .next s.wakeRepeat := rfl
theorem exec_pathHoldEnd (s : State) : exec .pathHoldEnd s = .next s.pathHoldEnd := rfl

/-- A frame waits at a port to be sent, or has been sent and is not acknowledged. -/
def State.Carries (s : State) (dn : Bool) (b : List Byte) : Prop :=
  b ∈ (s.sending dn).queue.map (fun q => q.2) ++ (s.sending dn).unacked.map fun q => q.bytes

theorem State.sending_updSending (s : State) (dn : Bool) (f : LinkCls → LinkCls) :
    (s.updSending dn f).sending dn = f (s.sending dn) := by cases dn <;> rfl

theorem State.sending_emit (s : State) (dn : Bool) (i : LinkItem) : (s.emit dn i).sending dn = s.sending dn := by
  unfold State.emit
  split
  · cases dn <;> rfl
  · rfl

/-- A frame that is sent moves from those that wait to those not acknowledged. -/
theorem State.trySend_carries (n : Nat) {s : State} {dn : Bool} {b : List Byte} (h : s.Carries dn b) :
    (State.trySend n dn s).Carries dn b := by
  induction n generalizing s with
  | zero => exact h
  | succ n ih =>
    unfold State.trySend
    dsimp only
    split
    · exact h
    · next relay first q queue =>
      split
      · refine ih ?_
        unfold State.Carries at h ⊢
        rw [State.sending_emit, State.sending_updSending]
        rw [queue] at h
        simp only [List.map_cons, List.map_append, List.map_nil, List.mem_append, List.mem_cons, List.not_mem_nil,
          or_false] at h ⊢
        tauto
      · exact h

/-- A response of this device is sent, or waits for credit, while the UP hop is UP (R233, R234). -/
theorem State.sendUp_carries {s : State} (up : s.hopIsUp false = true) (b : List Byte) :
    (s.sendUp b).Carries false b := by
  have goes : s.sendUp b = s.sendOn false false b := if_pos up
  rw [goes]
  refine State.trySend_carries _ ?_
  unfold State.Carries
  rw [State.sending_updSending]
  simp

theorem State.linkBufRead_clean {s : State} (clean : s.linkBufErrors = []) : s.linkBufRead = (s, false) := by
  unfold State.linkBufRead
  rw [clean]
  rfl

theorem State.rspSend_idle {s : State} (h : s.hopIsUp false = false ∨ s.rspDue = none) : s.rspSend = s := by
  unfold State.rspSend
  rcases h with down | none
  · exact if_pos down
  · rw [none, ite_self]

/-- The CHECK of a response fails. -/
def rspFails (x : List Byte) : Bool := wordOf (natAt x 60 4) != crc32c (x.take 60)

theorem rspFails_eq_false {x : List Byte} : rspFails x = false ↔ wordOf (natAt x 60 4) = crc32c (x.take 60) :=
  bne_eq_false_iff_eq

section
variable {s : State} {i : Nat} {b : RspBuf} {slots : List (List Byte)} (up : s.hopIsUp false = true)
  (due : s.rspDue = some (i, b, slots)) (clean : s.linkBufErrors = [])
include up due clean

/-- A frame whose buffer can be read: its CMD_RSP, or the responses whose CHECK fails counted. -/
theorem State.rspSend_due : s.rspSend =
    if (slots.filter rspFails).isEmpty then
      ((s.setBuf i none).rspFrame 0x81 b.ten b.ftag b.tagged slots.flatten).1.sendUp
        ((s.setBuf i none).rspFrame 0x81 b.ten b.ftag b.tagged slots.flatten).2
    else (slots.filter rspFails).foldl (fun s x => s.rspBad b.ten x) (s.setBuf i none) := by
  have read : (s.setBuf i none).linkBufRead = (s.setBuf i none, false) := State.linkBufRead_clean clean
  unfold State.rspSend
  rw [if_neg (by simp [up]), due]
  dsimp only
  rw [read]
  rfl

theorem State.rspSend_sends (good : ∀ x ∈ slots, wordOf (natAt x 60 4) = crc32c (x.take 60))
    (untagged : b.tagged = false) : s.rspSend =
      (s.setBuf i none).sendUp (withCrc (frHead 0x81 0 0 s.ownAddr b.ten b.ftag 0 slots.flatten)) := by
  have none : slots.filter rspFails = [] :=
    List.filter_eq_nil_iff.mpr fun x hx => by rw [rspFails_eq_false.mpr (good x hx)]; nofun
  rw [State.rspSend_due up due clean, none, untagged]
  rfl

theorem State.rspSend_bad {x : List Byte} (one : slots = [x]) (bad : wordOf (natAt x 60 4) ≠ crc32c (x.take 60)) :
    s.rspSend = (s.setBuf i none).rspBad b.ten x := by
  have fails : rspFails x = true := bne_iff_ne.mpr bad
  have all : slots.filter rspFails = [x] := by rw [one]; exact List.filter_cons_of_pos fails
  rw [State.rspSend_due up due clean, all]
  rfl

end

theorem State.rspBuf_setBuf_self (s : State) (i : Nat) (v : Option RspBuf) :
    SMap.get (fun _ => none) (s.setBuf i v).link.bufs i = v := SMap.get_set_self _ _ _ _

/-- The frame's buffer is free, its response is on its way, and nothing but the link changes. -/
theorem State.sendUp_setBuf_effect {s : State} (up : s.hopIsUp false = true) (i : Nat) (f : List Byte) :
    SMap.get (fun _ => none) ((s.setBuf i none).sendUp f).link.bufs i = none ∧
      ((s.setBuf i none).sendUp f).Carries false f ∧
      (s.setBuf i none).sendUp f = { s with link := ((s.setBuf i none).sendUp f).link } := by
  have sent : ((s.setBuf i none).sendUp f).Carries false f := State.sendUp_carries (by exact up) f
  obtain ⟨u, d, ports⟩ := (s.setBuf i none).sendUp_onlyPorts f
  rw [ports] at sent ⊢
  exact ⟨s.rspBuf_setBuf_self i none, sent, rfl⟩

/-- What a response whose CHECK fails leaves (R172). -/
theorem State.rspBad_effect (s : State) (t : Nat) (x : List Byte) :
    (s.rspBad t x).link = s.link ∧ (s.rspBad t x).prot.exitFail = min 65535 (s.prot.exitFail + 1) := by
  unfold State.rspBad State.ev71Link
  rw [State.raise_link, State.raise_prot]
  exact ⟨rfl, satAdd_one _⟩

/-! ## The cells of a wake message (R248, R249) -/

/-- A line of cells, each so many ns positive and so many negative. -/
def cellLine (cells : List (Nat × Nat)) : List (Bool × Nat) := cells.flatMap fun c => [(true, c.1), (false, c.2)]

/-- The number whose bits are those of the cells. -/
def cellNumber (cells : List (Nat × Nat)) : Nat := cells.foldl (fun n c => 2 * n + bitNat (decide (c.2 < c.1))) 0

/-- A cell has a length and a ratio that are accepted. -/
def CellFits (c : Nat × Nat) : Prop :=
  2000 ≤ c.1 + c.2 ∧ c.1 + c.2 ≤ 20000 ∧ (3 * c.2 ≤ 2 * c.1 ∨ 3 * c.1 ≤ 2 * c.2)

/-- A pulse of 500 ns or more stays apart from those after it, where they begin with the other polarity. -/
theorem wakePulses_cons {p : Bool × Nat} {ps : List (Bool × Nat)} (long : 500 ≤ p.2)
    (other : ∀ q ∈ (wakePulses ps).head?, q.1 ≠ p.1) : wakePulses (p :: ps) = p :: wakePulses ps := by
  unfold wakePulses at other ⊢
  rw [List.filter_cons_of_pos (by simpa using long), List.foldr_cons]
  generalize (List.filter (fun p => decide (500 ≤ p.2)) ps).foldr _ [] = qs at other ⊢
  cases qs with
  | nil => rfl
  | cons q qs => exact if_neg (other q rfl)

/-- Where each pulse is 500 ns or more, a line of cells is seen as it is. -/
theorem wakePulses_cellLine {cells : List (Nat × Nat)} (long : ∀ c ∈ cells, 500 ≤ c.1 ∧ 500 ≤ c.2) :
    wakePulses (cellLine cells) = cellLine cells := by
  induction cells with
  | nil => rfl
  | cons c cs ih =>
    obtain ⟨pos, neg⟩ := long c List.mem_cons_self
    have rest := ih fun d hd => long d (List.mem_cons_of_mem c hd)
    have starts : ∀ q ∈ (wakePulses (cellLine cs)).head?, q.1 ≠ false := by
      rw [rest]
      cases cs with
      | nil => nofun
      | cons d ds => rintro q ⟨⟩; nofun
    have second : wakePulses ((false, c.2) :: cellLine cs) = (false, c.2) :: wakePulses (cellLine cs) :=
      wakePulses_cons neg starts
    have first : wakePulses ((true, c.1) :: (false, c.2) :: cellLine cs) =
        (true, c.1) :: wakePulses ((false, c.2) :: cellLine cs) := by
      refine wakePulses_cons pos ?_
      rw [second]
      rintro q ⟨⟩
      nofun
    rw [second, rest] at first
    exact first

theorem cellBit_fits {c : Nat × Nat} (pos : 0 < c.1) (neg : 0 < c.2) (fits : CellFits c) :
    cellBit c.1 c.2 = some (decide (c.2 < c.1)) := by
  obtain ⟨low, high, ratio⟩ := fits
  unfold cellBit
  rw [if_neg (by omega)]
  by_cases one : 3 * c.2 ≤ 2 * c.1
  · rw [if_pos one, decide_eq_true (by omega)]
  · rw [if_neg one, if_pos (by omega), decide_eq_false (by omega)]

theorem cellBit_unfit {c : Nat × Nat} (unfit : ¬CellFits c) : cellBit c.1 c.2 = none := by
  unfold CellFits at unfit
  unfold cellBit
  split
  · rfl
  · rw [if_neg (by omega), if_neg (by omega)]

theorem cellBits_fits {cells : List (Nat × Nat)} (long : ∀ c ∈ cells, 500 ≤ c.1 ∧ 500 ≤ c.2)
    (fits : ∀ c ∈ cells, CellFits c) : cellBits (cellLine cells) = some (cells.map fun c => decide (c.2 < c.1)) := by
  induction cells with
  | nil => rfl
  | cons c cs ih =>
    obtain ⟨pos, neg⟩ := long c List.mem_cons_self
    have bit := cellBit_fits (by omega) (by omega) (fits c List.mem_cons_self)
    have rest := ih (fun d hd => long d (List.mem_cons_of_mem c hd)) fun d hd => fits d (List.mem_cons_of_mem c hd)
    have line : cellLine (c :: cs) = (true, c.1) :: (false, c.2) :: cellLine cs := rfl
    rw [line, cellBits, bit, rest]
    rfl

/-- One cell that is not accepted spoils the line. -/
theorem cellBits_unfit {cells : List (Nat × Nat)} {c : Nat × Nat} (among : c ∈ cells) (unfit : ¬CellFits c) :
    cellBits (cellLine cells) = none := by
  induction cells with
  | nil => exact absurd among List.not_mem_nil
  | cons d ds ih =>
    have line : cellLine (d :: ds) = (true, d.1) :: (false, d.2) :: cellLine ds := rfl
    rw [line, cellBits]
    rcases List.mem_cons.mp among with rfl | later
    · rw [cellBit_unfit unfit]
    · rw [ih later]
      cases cellBit d.1 d.2 <;> rfl

section
variable {cells : List (Nat × Nat)} (long : ∀ c ∈ cells, 500 ≤ c.1 ∧ 500 ≤ c.2)
include long

theorem wakeDecode_fits (sixteen : cells.length = 16) (fits : ∀ c ∈ cells, CellFits c) :
    wakeDecode (cellLine cells) = some (BitVec.ofNat 16 (cellNumber cells)) := by
  unfold wakeDecode cellNumber
  rw [wakePulses_cellLine long, cellBits_fits long fits]
  dsimp only
  rw [if_pos ((List.length_map _).trans sixteen), List.foldl_map]

theorem wakeDecode_unfit (unfit : ¬(cells.length = 16 ∧ ∀ c ∈ cells, CellFits c)) :
    wakeDecode (cellLine cells) = none := by
  unfold wakeDecode
  rw [wakePulses_cellLine long]
  by_cases fits : ∀ c ∈ cells, CellFits c
  · rw [cellBits_fits long fits]
    exact if_neg fun sixteen => unfit ⟨(List.length_map _).symm.trans sixteen, fits⟩
  · obtain ⟨c, among, bad⟩ : ∃ c ∈ cells, ¬CellFits c := by simpa using fits
    rw [cellBits_unfit among bad]

end

/-! ## A message at the front end (R248 to R251) -/

/-- The address of a message, from its number. -/
theorem fieldOf_wakeNumber (n : Nat) : fieldOf (BitVec.ofNat 16 n).toNat 4 8 = n / 16 % 256 := by
  simp only [fieldOf, BitVec.toNat_ofNat]
  omega

/-- A wake message noted to be repeated on DN. -/
def State.toRepeat (s : State) (bits : BitVec 16) : State :=
  s.updLink fun k => { k with wakeRpt := k.wakeRpt ++ [bits] }

section
variable {s : State}

theorem State.wakeMessage_deaf (h : s.frontEnd = false) (line : List (Bool × Nat)) : s.wakeMessage line = s := if_pos h

theorem State.wakeMessage_none {line : List (Bool × Nat)} (h : wakeDecode line = none) : s.wakeMessage line = s := by
  unfold State.wakeMessage
  rw [h, ite_self]

theorem State.wakeMessage_heard (front : s.frontEnd = true) {line : List (Bool × Nat)} {bits : BitVec 16}
    (h : wakeDecode line = some bits) : s.wakeMessage line = s.wakeBitsIn bits := by
  unfold State.wakeMessage
  rw [h]
  exact if_neg (by simp [front])

theorem State.wakeBitsIn_wrong {n : Nat} (wrong : BitVec.ofNat 16 n ≠ wakeBits (n / 16 % 256)) :
    s.wakeBitsIn (BitVec.ofNat 16 n) = s := by
  unfold State.wakeBitsIn
  rw [fieldOf_wakeNumber]
  exact if_pos wrong

/-- A message with a wrong KIND or CHK has no effect. -/
theorem State.wakeMessage_wrong {cells : List (Nat × Nat)} (long : ∀ c ∈ cells, 500 ≤ c.1 ∧ 500 ≤ c.2)
    (wrong : BitVec.ofNat 16 (cellNumber cells) ≠ wakeBits (cellNumber cells / 16 % 256)) :
    s.wakeMessage (cellLine cells) = s := by
  by_cases fit : cells.length = 16 ∧ ∀ c ∈ cells, CellFits c
  · cases front : s.frontEnd with
    | false => exact State.wakeMessage_deaf front _
    | true =>
      obtain ⟨sixteen, fits⟩ := fit
      rw [State.wakeMessage_heard front (wakeDecode_fits long sixteen fits), State.wakeBitsIn_wrong wrong]
  · exact State.wakeMessage_none (wakeDecode_unfit long fit)

theorem State.wakeBitsIn_own {n : Nat} (right : BitVec.ofNat 16 n = wakeBits (n / 16 % 256))
    (own : s.ownDst (n / 16 % 256) = true) : s.wakeBitsIn (BitVec.ofNat 16 n) = s.fullWake [none] := by
  unfold State.wakeBitsIn
  rw [fieldOf_wakeNumber]
  exact (if_neg (not_not.mpr right)).trans (if_pos own)

theorem State.wakeBitsIn_other {n : Nat} (right : BitVec.ofNat 16 n = wakeBits (n / 16 % 256))
    (foreign : s.ownDst (n / 16 % 256) = false) (one : n / 16 % 256 ≠ 255) (alone : s.inGroup (n / 16 % 256) = false) :
    s.wakeBitsIn (BitVec.ofNat 16 n) = (s.toRepeat (wakeBits (n / 16 % 256))).pathHoldStart := by
  unfold State.wakeBitsIn
  rw [fieldOf_wakeNumber]
  refine (if_neg (not_not.mpr right)).trans ((if_neg (by simp [foreign])).trans ((if_neg ?_).trans ?_))
  · simp [one, alone]
  · rw [right]; rfl

/-- Where the front end listens, the part is in Louvred or Latched with PD_LINK off. -/
theorem State.frontEnd_listens (front : s.frontEnd = true) :
    (s.pwr.st = .louvred ∨ s.pwr.st = .latched) ∧ s.up 4 = false := by
  simp only [State.frontEnd, Bool.and_eq_true, Bool.or_eq_true, beq_iff_eq, Bool.not_eq_true'] at front
  obtain ⟨⟨⟨off, -⟩, -⟩, st⟩ := front
  exact ⟨st, by rw [State.up, off, Bool.false_and]⟩

/-- A NOTICE AWAKE is owed for a wake by message. -/
theorem State.owe_message (s : State) : ∃ a, s.owe none = { s with link := { s.link with awake := a } } ∧ none ∈ a := by
  unfold State.owe
  split
  · next had => exact ⟨s.link.awake, rfl, List.contains_iff_mem.mp had.2⟩
  · exact ⟨s.link.awake ++ [none], rfl, List.mem_append_right _ List.mem_cons_self⟩

variable (asleep : s.pwr.st = .louvred ∨ s.pwr.st = .latched)
include asleep

theorem State.asleep_not_awake : ¬(s.pwr.st = .opened ∨ s.pwr.st = .ajar) := by
  rcases asleep with st | st <;> rw [st] <;> simp

/-- No NOTICE AWAKE goes out before the part is awake. -/
theorem State.awakeSend_asleep : s.awakeSend = s := if_neg fun ⟨awake, _⟩ => State.asleep_not_awake asleep awake

/-- A message for this device starts an exit, and the NOTICE is owed (R250, R251). -/
theorem State.fullWake_exits (idle : s.pwr.phase = .idle) (on : s.pwr.wakeEn.getLsbD 0 = true) :
    ∃ a, none ∈ a ∧ s.fullWake [none] =
      State.exitStart { s with link := { s.link with awake := a } } (srcBit 0) false := by
  obtain ⟨a, owed, among⟩ := s.owe_message
  have wake : (s.owe none).takeWake 0 =
      State.exitStart { s with link := { s.link with awake := a } } (srcBit 0) false := by
    rw [owed]
    exact State.takeWake_asleep (by exact on) (by exact idle) (by exact asleep)
  refine ⟨a, among, ?_⟩
  unfold State.fullWake
  rw [if_pos on]
  exact (congrArg State.awakeSend wake).trans (State.awakeSend_asleep (by exact asleep))

/-- With its enable bit 0 a message gives path hold alone (R250). -/
theorem State.fullWake_holds (off : s.pwr.wakeEn.getLsbD 0 = false) (owed : List (Option Nat)) :
    s.fullWake owed = s.pathHoldStart := by
  have still : ¬((s.pwr.st = .opened ∨ s.pwr.st = .ajar) ∧ s.pwr.phase ≠ .committed) := fun ⟨awake, _⟩ =>
    State.asleep_not_awake asleep awake
  exact (if_neg (by rw [off]; nofun)).trans (if_neg still)

end

/-! ## What a port that trains or goes off leaves as it was (R230, R231, R253) -/

/-- Doors and power, and of the link the wake messages to repeat, the frames received and the count of path holds. -/
def State.holdView (s : State) : SMap DoorSt × Pwr × List (BitVec 16) × List (List Byte) × Nat :=
  (s.doors, s.pwr, s.link.wakeRpt, s.link.loc, s.link.pholdCnt)

/-- The states of the hops UP and DN. -/
def State.hops (s : State) : HopSt × HopSt := (s.link.up.st, s.link.dn.st)

theorem State.holdView_eq {s n : State} (h : n.holdView = s.holdView) :
    n.doors = s.doors ∧ n.pwr = s.pwr ∧ n.link.wakeRpt = s.link.wakeRpt ∧ n.link.loc = s.link.loc ∧
      n.link.pholdCnt = s.link.pholdCnt := by
  simpa only [State.holdView, Prod.mk.injEq] using h

theorem State.OnlyPorts.holdView {s n : State} (h : s.OnlyPorts n) : n.holdView = s.holdView := by
  obtain ⟨_, _, rfl⟩ := h
  rfl

section
variable (s : State) (dn : Bool)

theorem State.holdView_raise (e : Nat) (d : Dest) (v : Word) : (s.raise e d v).holdView = s.holdView := by
  simp only [State.holdView, State.raise_doors, State.raise_pwr, State.raise_link]

theorem State.hops_raise (e : Nat) (d : Dest) (v : Word) : (s.raise e d v).hops = s.hops := by
  simp only [State.hops, State.raise_link]

theorem State.holdView_setHop (st : HopSt) : (s.setHop dn st).holdView = s.holdView := by
  unfold State.setHop
  split
  · rfl
  · rw [State.holdView_raise, (s.updLport_onlyPorts dn _).holdView]

theorem State.hops_setHop (st : HopSt) :
    (s.setHop dn st).hops = if dn then (s.link.up.st, st) else (st, s.link.dn.st) := by
  unfold State.setHop
  split
  · next same => rw [← same]; cases dn <;> rfl
  · rw [State.hops_raise]; cases dn <;> rfl

theorem State.updCls_onlyPorts (rsp : Bool) (f : LinkCls → LinkCls) : s.OnlyPorts (s.updCls dn rsp f) :=
  s.updLport_onlyPorts dn _

theorem State.hops_updCls (rsp : Bool) (f : LinkCls → LinkCls) : (s.updCls dn rsp f).hops = s.hops := by
  cases dn <;> cases rsp <;> rfl

theorem State.hops_emit (i : LinkItem) : (s.emit dn i).hops = s.hops := by
  unfold State.emit
  split
  · cases dn <;> rfl
  · rfl

theorem State.freeRelay_keeps (k : Nat) :
    (s.freeRelay dn k).holdView = s.holdView ∧ (s.freeRelay dn k).hops = s.hops := by
  unfold State.freeRelay State.sendCredit
  split
  · exact ⟨rfl, rfl⟩
  · exact ⟨((s.updCls_onlyPorts dn dn _).trans (State.emit_onlyPorts _ _ _)).holdView,
      (State.hops_emit _ _ _).trans (s.hops_updCls dn dn _)⟩

theorem State.dropFrames_keeps : (s.dropFrames dn).holdView = s.holdView ∧ (s.dropFrames dn).hops = s.hops := by
  unfold State.dropFrames
  dsimp only
  split
  · exact ⟨rfl, rfl⟩
  · rw [(State.freeRelay_keeps _ _ _).1, (State.freeRelay_keeps _ _ _).2, State.holdView_raise, State.hops_raise]
    exact ⟨(s.updSending_onlyPorts dn _).holdView, s.hops_updCls dn _ _⟩

theorem State.holdView_hopOff : (s.hopOff dn).holdView = s.holdView := by
  unfold State.hopOff
  rw [(State.updLport_onlyPorts _ dn _).holdView, State.holdView_setHop, (s.dropFrames_keeps dn).1]

theorem State.hops_hopOff :
    (s.hopOff dn).hops = if dn then (s.link.up.st, .off) else (.off, s.link.dn.st) := by
  have shown : (s.hopOff dn).hops = ((s.dropFrames dn).setHop dn .off).hops := by cases dn <;> rfl
  have kept := (s.dropFrames_keeps dn).2
  simp only [State.hops, Prod.mk.injEq] at kept
  obtain ⟨up, down⟩ := kept
  rw [shown, State.hops_setHop, up, down]

/-- SLEEP is sent before a port goes off, but the port's own state is all that changes. -/
theorem State.sleepPort_keeps : (s.sleepPort dn).holdView = s.holdView ∧
    (s.sleepPort dn).hops = if dn then (s.link.up.st, .off) else (.off, s.link.dn.st) := by
  unfold State.sleepPort
  dsimp only
  rw [State.holdView_hopOff, State.hops_hopOff]
  split
  · exact ⟨rfl, rfl⟩
  · have sleep : s.OnlyPorts (((s.emit dn .sleepSet).emit dn .sleepSet).emit dn .sleepSet) :=
      ((s.emit_onlyPorts dn _).trans (State.emit_onlyPorts _ dn _)).trans (State.emit_onlyPorts _ dn _)
    have still : (((s.emit dn .sleepSet).emit dn .sleepSet).emit dn .sleepSet).hops = s.hops := by
      rw [State.hops_emit, State.hops_emit, State.hops_emit]
    simp only [State.hops, Prod.mk.injEq] at still
    obtain ⟨up, down⟩ := still
    rw [sleep.holdView, up, down]
    exact ⟨rfl, rfl⟩

theorem State.holdView_dropped (rsp : Bool) (n : Nat) : (s.dropped rsp n).holdView = s.holdView := by
  unfold State.dropped
  split
  · rfl
  · rw [State.holdView_raise]; rfl

theorem State.holdView_dropLocal :
    s.dropLocal.holdView = (s.updLink fun k => { k with loc := [] }).holdView := by
  unfold State.dropLocal
  dsimp only
  rw [State.holdView_dropped, State.holdView_dropped]
  rfl

/-- With PD_LINK both ports go off, and the frames received are dropped (R252, R253). -/
theorem State.linkOff_effect :
    s.linkOff.holdView = (s.updLink fun k => { k with loc := [] }).holdView ∧ s.linkOff.hops = (.off, .off) := by
  unfold State.linkOff
  obtain ⟨dnView, dnHops⟩ := s.dropLocal.sleepPort_keeps true
  generalize s.dropLocal.sleepPort true = m at dnView dnHops ⊢
  obtain ⟨view, hops⟩ := m.sleepPort_keeps false
  have off : m.link.dn.st = .off := congrArg Prod.snd dnHops
  rw [off] at hops
  exact ⟨view.trans (dnView.trans s.holdView_dropLocal), hops⟩

/-- Training leaves what the port has sent. -/
theorem State.train_keeps :
    (s.train dn).holdView = s.holdView ∧ ((s.train dn).lport dn).sent = (s.lport dn).sent := by
  have sent (n : State) (st : HopSt) : ((n.setHop dn st).lport dn).sent = (n.lport dn).sent := by
    unfold State.setHop
    split
    · rfl
    · rw [State.lport, State.raise_link]; cases dn <;> rfl
  unfold State.train
  split
  · exact ⟨rfl, rfl⟩
  · dsimp only
    rw [State.holdView_setHop, (State.updLport_onlyPorts _ dn _).holdView, sent]
    exact ⟨rfl, by cases dn <;> rfl⟩

end

/-! ## Path hold, and the repeat of a wake message (R248, R251, R252) -/

/-- PD_LINK comes on alone for path hold. -/
theorem State.pathHoldStart_effect {s : State} (off : s.up 4 = false) (idle : s.pwr.phase = .idle) :
    s.pathHoldStart.holdView = (s.updPwr fun p => { p with
      pathHold := true, domOn := p.domOn ||| 0x0010, domReady := p.domReady ||| 0x0010 }).holdView := by
  have may : ¬(s.up 4 = true ∨ s.pwr.phase = .restoring) := by simp [off, idle]
  refine (congrArg State.holdView (if_neg may)).trans ?_
  exact (State.train_keeps _ true).1.trans (State.train_keeps _ false).1

theorem State.wakeRepeat_none {s : State} (h : s.link.wakeRpt = []) : s.wakeRepeat = s := by
  unfold State.wakeRepeat
  rw [h]

section
variable {s : State} {bits : BitVec 16} {rest : List (BitVec 16)} (due : s.link.wakeRpt = bits :: rest)
include due

theorem State.wakeRepeat_dropped (h : s.pwr.vao = false ∨ s.hopIsUp true = true) :
    s.wakeRepeat = s.updLink fun k => { k with wakeRpt := rest } := by
  unfold State.wakeRepeat
  rw [due]
  exact if_pos h

theorem State.wakeRepeat_sent (supplied : s.pwr.vao = true) (down : s.hopIsUp true = false) :
    s.wakeRepeat.holdView = (s.updLink fun k => { k with wakeRpt := rest }).holdView ∧
      (s.link.dn.en = true → s.wakeRepeat.link.dn.sent.head? = some (.wakeMsg bits)) := by
  have goes : s.wakeRepeat =
      ((s.updLink fun k => { k with wakeRpt := rest }).emit true (.wakeMsg bits)).train true := by
    unfold State.wakeRepeat
    rw [due]
    exact if_neg (by simp [supplied, down])
  obtain ⟨view, sent⟩ := ((s.updLink fun k => { k with wakeRpt := rest }).emit true (.wakeMsg bits)).train_keeps true
  rw [goes]
  refine ⟨view.trans (State.emit_onlyPorts _ true _).holdView, fun enabled => ?_⟩
  have emitted : (s.updLink fun k => { k with wakeRpt := rest }).emit true (.wakeMsg bits) =
      (s.updLink fun k => { k with wakeRpt := rest }).updLport true fun p =>
        { p with sent := .wakeMsg bits :: p.sent } := if_pos enabled
  rw [emitted] at sent ⊢
  exact congrArg List.head? sent

end

theorem State.pathHoldEnd_none {s : State} (h : s.pwr.pathHold = false) : s.pathHoldEnd = s := if_neg (by simp [h])

/-- PD_LINK goes off and both ports with it, and one more path hold is counted (R252). -/
theorem State.pathHoldEnd_effect {s : State} (h : s.pwr.pathHold = true) :
    s.pathHoldEnd.holdView = (s.doors,
      { s.pwr with pathHold := false, domOn := s.pwr.domOn &&& 0xFFEF, domReady := s.pwr.domReady &&& 0xFFEF },
      s.link.wakeRpt, [], min 65535 (s.link.pholdCnt + 1)) ∧
    s.pathHoldEnd.hops = (.off, .off) := by
  obtain ⟨view, hops⟩ := s.linkOff_effect
  obtain ⟨doors, pwr, rpt, loc, count⟩ := State.holdView_eq view
  have ends : s.pathHoldEnd = (s.linkOff.updPwr fun p => { p with
      pathHold := false, domOn := p.domOn &&& 0xFFEF, domReady := p.domReady &&& 0xFFEF }).updLink fun k =>
      { k with pholdCnt := sat16 k.pholdCnt } := if_pos h
  rw [ends]
  generalize s.linkOff = m at hops doors pwr rpt loc count
  refine ⟨?_, hops⟩
  simp only [State.holdView, State.updLink, State.updPwr, doors, pwr, rpt, loc, count, Prod.mk.injEq, true_and]
  exact satAdd_one _

end Sys2Proof.Machine

section
open Sys2Proof Sys2Proof.Machine

/-- Settles O48: CMD_RSP by what is due and whether its responses check; a wake message by its cells, its bits and its
address; its repeat; and the end of path hold. -/
theorem linkAnswerRows : Obligations.LinkAnswerRows := by
  unfold Obligations.LinkAnswerRows
  intro s
  simp only [exec_cmdRspSend, exec_wakeMessage, exec_wakeRepeat, exec_pathHoldEnd]
  refine ⟨fun idle => ?_,
    fun i b slots up due clean => ⟨fun good untagged => ⟨_, rfl, ?_⟩, fun x one bad => ⟨_, rfl, ?_⟩⟩,
    fun deaf line => ?_, fun cells long => ⟨fun unfit => ?_, fun wrong => ?_, fun front fit right idle => ?_⟩,
    fun none => ?_, fun bits rest due => ⟨fun dropped => ?_, fun supplied down => ⟨_, rfl, ?_⟩⟩, fun none => ?_,
    fun held => ⟨_, rfl, ?_⟩⟩
  · rw [State.rspSend_idle idle]
  · rw [State.rspSend_sends up due clean good untagged]
    exact State.sendUp_setBuf_effect up i _
  · rw [State.rspSend_bad up due clean one bad]
    obtain ⟨link, count⟩ := (s.setBuf i none).rspBad_effect b.ten x
    refine ⟨?_, count, ?_⟩
    · rw [link]
      exact s.rspBuf_setBuf_self i none
    · unfold State.sending State.lport
      rw [link]
      rfl
  · rw [State.wakeMessage_deaf deaf]
  · exact congrArg Host.Outcome.next (State.wakeMessage_none (wakeDecode_unfit long unfit))
  · exact congrArg Host.Outcome.next (State.wakeMessage_wrong long wrong)
  · obtain ⟨sixteen, fits⟩ := fit
    have heard := State.wakeMessage_heard front (wakeDecode_fits long sixteen fits)
    obtain ⟨asleep, off⟩ := State.frontEnd_listens front
    refine ⟨fun own => ?_, fun foreign one alone =>
      ⟨_, congrArg Host.Outcome.next (heard.trans (State.wakeBitsIn_other right foreign one alone)), ?_⟩⟩
    · have taken := heard.trans (State.wakeBitsIn_own right own)
      refine ⟨fun on => ⟨_, congrArg Host.Outcome.next taken, ?_⟩,
        fun unheard => ⟨_, congrArg Host.Outcome.next taken, ?_⟩⟩
      · obtain ⟨a, among, wake⟩ := State.fullWake_exits asleep idle on
        rw [wake]
        exact ⟨rfl, rfl, among, rfl, rfl, rfl⟩
      · rw [State.fullWake_holds asleep unheard]
        obtain ⟨-, pwr, -⟩ := State.holdView_eq (State.pathHoldStart_effect off idle)
        rw [pwr]
        exact ⟨rfl, rfl, idle, rfl⟩
    · have holds := State.pathHoldStart_effect (s := s.toRepeat (wakeBits (cellNumber cells / 16 % 256))) off idle
      obtain ⟨doors, pwr, rpt, -⟩ := State.holdView_eq holds
      exact ⟨rpt, congrArg Pwr.pathHold pwr, (congrArg Pwr.st pwr).trans rfl, doors⟩
  · rw [State.wakeRepeat_none none]
  · rw [State.wakeRepeat_dropped due dropped]; rfl
  · obtain ⟨view, sent⟩ := State.wakeRepeat_sent due supplied down
    obtain ⟨doors, -, rpt, -⟩ := State.holdView_eq view
    exact ⟨rpt, sent, doors⟩
  · rw [State.pathHoldEnd_none none]
  · obtain ⟨view, hops⟩ := State.pathHoldEnd_effect held
    simp only [State.holdView, State.hops, Prod.mk.injEq] at view hops
    obtain ⟨doors, pwr, -, loc, count⟩ := view
    obtain ⟨up, down⟩ := hops
    rw [pwr]
    exact ⟨rfl, rfl, up, down, loc, count, rfl, doors⟩

end
section
/-! PROOFS. The flash controller: its command sequences (O28), suspends (O29), programs and pulses (O30) and the
comparator (O31); the flash commands (O24); ledger recovery at boot (O38). -/

namespace Sys2Proof.Machine

/-! ## What waits for the controller (R182, R219) -/

/-- What says whether a swing or a port waits for the controller. -/
def State.flashWaiters (s : State) : Sys × HPort × HPort := (s.sys, s.portA, s.portB)

theorem State.flashWaiters_raise (s : State) (e : Nat) (d : Dest) (v : Word) :
    (s.raise e d v).flashWaiters = s.flashWaiters := by
  simp only [State.flashWaiters, State.raise_sys, State.raise_portA, State.raise_portB]

theorem State.ackPort_settled {s : State} (h : s.Settled) (p : Fin 2) : s.ackPort p.val = s := by
  obtain ⟨-, ports⟩ := h
  obtain ⟨acc, post⟩ := ports p
  refine State.ackPort_none post fun a waits => ?_
  rw [waits, Option.any_some] at acc
  rw [acc, Bool.false_and]

theorem State.ackPorts_settled {s : State} (h : s.Settled) : s.ackPorts = s := by
  have portA : s.ackPort 0 = s := State.ackPort_settled h 0
  have portB : s.ackPort 1 = s := State.ackPort_settled h 1
  rw [State.ackPorts, portA, portB]

theorem State.settle_settled {s : State} (h : s.Settled) : s.settle = s := by
  rw [State.settle, State.swingVerify_settled h.1, State.ackPorts_settled h]

theorem State.Settled.of_waiters {s n : State} (h : s.Settled) (same : n.flashWaiters = s.flashWaiters) : n.Settled := by
  simp only [State.flashWaiters, Prod.mk.injEq] at same
  obtain ⟨sys, portA, portB⟩ := same
  have port (p : Nat) : n.port p = s.port p := by rw [State.port, State.port, portA, portB]
  unfold State.Settled
  simp only [sys, port]
  exact h

/-- A step of the controller that keeps what waits for it as it was lets nothing go on. -/
theorem State.settle_of_waiters {s n : State} (h : s.Settled) (same : n.flashWaiters = s.flashWaiters) : n.settle = n :=
  State.settle_settled (h.of_waiters same)

/-- The same, for a row that ends with what may go on. -/
theorem State.settle_to {s m n : State} (h : s.Settled) (step : m = n) (same : n.flashWaiters = s.flashWaiters) :
    Host.Outcome.next m.settle = (.next n : Host.Outcome State Fault Refusal) := by
  rw [step, State.settle_of_waiters h same]

/-! ## Command sequences (R179, R181, R218) -/

theorem exec_flashSectorErase (s : State) (sys : Bool) (sect : BitVec 12) :
    exec (.flashSectorErase sys sect) s = .next (s.sequenceDone sys sect.toNat 0xE5 sect.toNat 0) := rfl
theorem exec_flashWordProgram (s : State) (sys : Bool) (word : BitVec 20) (data : DWord) :
    exec (.flashWordProgram sys word data) s =
      .next (s.sequenceDone sys (word.toNat / 256) 0x70 word.toNat data) := rfl
theorem exec_eraseSuspend (s : State) : exec .eraseSuspend s = .next (s.sequenceDone false 0 0xB0 0 0) := rfl
theorem exec_resume (s : State) : exec .resume s = .next (s.sequenceDone false 0 0xD0 0 0) := rfl
theorem exec_statusRead (s : State) : exec .statusRead s = .next (s.sequenceDone false 0 0x90 0 0) := rfl
theorem exec_resetToRead (s : State) : exec .resetToRead s = .next (s.sequenceDone false 0 0xF0 0 0) := rfl

theorem State.flashServes_iff (s : State) : s.flashServes = true ↔ s.up 5 = true ∧ s.testing 2 = false := by
  simp [State.flashServes]

section
variable {s : State} {sys : Bool} {sect code place : Nat} {data : DWord}

theorem State.seqReach_unpowered (off : s.up 5 = false) : s.seqReach sys sect code = false := by
  simp [State.seqReach, off]

theorem State.seqReach_sys (on : s.up 5 = true) : s.seqReach true sect code = !s.sys.halted := by
  simp [State.seqReach, on]

theorem State.seqReach_leafHeld (write : code = 0xE5 ∨ code = 0x70) (held : s.leafHeld sect = true) :
    s.seqReach false sect code = false := by
  rcases write with rfl | rfl <;> simp [State.seqReach, held]

theorem State.seqReach_window (on : s.up 5 = true) (boot : s.sys.bootDone = true) (reach : s.flashReach 0 sect = true)
    (free : s.leafHeld sect = false) : s.seqReach false sect code = true := by
  simp [State.seqReach, on, boot, reach, free]

/-- The codes that name no sector's content. -/
theorem State.seqReach_plain (on : s.up 5 = true) (boot : s.sys.bootDone = true) (erase : code ≠ 0xE5)
    (prog : code ≠ 0x70) : s.seqReach false sect code = true := by
  simp [State.seqReach, on, boot, erase, prog]

theorem State.sequenceDone_stray (h : s.seqReach sys sect code = false) :
    s.sequenceDone sys sect code place data = s := if_pos h

theorem State.sequenceDone_held (reach : s.seqReach sys sect code = true) (test : s.testing 2 = true) :
    s.sequenceDone sys sect code place data = s.holdRow (.sequence sys sect code place data) := by
  unfold State.sequenceDone
  rw [if_neg (by simp [reach]), if_pos test]

/-- A sequence that reaches the controller while nothing waits for it has its effect and no other. -/
theorem State.sequenceDone_acts {n : State} (h : s.Settled) (reach : s.seqReach sys sect code = true)
    (free : s.testing 2 = false) (act : s.seqAct sys code place data = n) (same : n.flashWaiters = s.flashWaiters) :
    s.sequenceDone sys sect code place data = n := by
  unfold State.sequenceDone
  rw [if_neg (by simp [reach]), if_neg (by simp [free]), act, State.settle_of_waiters h same]

end

theorem State.enqueueNew_now {s : State} (h : s.inEntry = false) (ops : List FlashOp) :
    s.enqueueNew ops = { s with flash := { s.flash with queue := s.flash.queue ++ ops } } := if_neg (by simp [h])

theorem State.enqueueNew_entry {s : State} (h : s.inEntry = true) (ops : List FlashOp) :
    s.enqueueNew ops = { s with flash := { s.flash with wait := s.flash.wait ++ ops } } := if_pos h

/-- The controller has taken the sequence of a path. -/
def State.seqTaken (s : State) (sys : Bool) : State :=
  { s with flash := { s.flash with
      seqSys := if sys then none else s.flash.seqSys, seqWin := if sys then s.flash.seqWin else none } }

section
variable {s : State} {sys : Bool} {sect code place : Nat} {data : DWord} {op : FlashOp}
  (h : s.Settled) (reach : s.seqReach sys sect code = true) (free : s.testing 2 = false)
  (asks : s.seqAct sys code place data = (s.seqTaken sys).enqueueNew [op])
include h reach free asks

/-- The operation that a sequence asks for joins the queue. -/
theorem State.sequenceDone_queues (idle : s.inEntry = false) : s.sequenceDone sys sect code place data =
    { s with flash := { (s.seqTaken sys).flash with queue := s.flash.queue ++ [op] } } :=
  State.sequenceDone_acts h reach free (asks.trans (State.enqueueNew_now (s := s.seqTaken sys) idle _)) rfl

/-- While a power entry runs it waits for the entry's end (R265). -/
theorem State.sequenceDone_waits (entry : s.inEntry = true) : s.sequenceDone sys sect code place data =
    { s with flash := { (s.seqTaken sys).flash with wait := s.flash.wait ++ [op] } } :=
  State.sequenceDone_acts h reach free (asks.trans (State.enqueueNew_entry (s := s.seqTaken sys) entry _)) rfl

end

end Sys2Proof.Machine
end
section
open Sys2Proof Sys2Proof.Machine

/-- Settles O28: a sequence by its path, what it reaches and what holds it. -/
theorem flashSequenceRows : Obligations.FlashSequenceRows := by
  unfold Obligations.FlashSequenceRows
  intro s h
  simp only [exec_flashSectorErase, exec_flashWordProgram, exec_statusRead, exec_resetToRead]
  refine ⟨fun serves sect word data => ?_, fun on test run sect word data => ?_, fun off sys sect word data => ?_⟩
  · obtain ⟨on, free⟩ := s.flashServes_iff.mp serves
    have path (sect code : Nat) : s.seqReach true sect code = !s.sys.halted := State.seqReach_sys on
    refine ⟨fun halted => ?_, fun run idle => ?_, fun run entry => ?_, fun leaf => ?_, fun boot => ⟨?_, ?_⟩⟩
    · simp only [halted, Bool.not_true] at path
      rw [State.sequenceDone_stray (path _ _), State.sequenceDone_stray (path _ _)]
      exact ⟨rfl, rfl⟩
    · simp only [run, Bool.not_false] at path
      exact ⟨congrArg Host.Outcome.next (State.sequenceDone_queues h (path _ _) free rfl idle),
        congrArg Host.Outcome.next (State.sequenceDone_queues h (path _ _) free rfl idle),
        fun boot reach leaf => congrArg Host.Outcome.next
          (State.sequenceDone_queues h (State.seqReach_window on boot reach leaf) free rfl idle),
        fun boot reach leaf => congrArg Host.Outcome.next
          (State.sequenceDone_queues h (State.seqReach_window on boot reach leaf) free rfl idle)⟩
    · simp only [run, Bool.not_false] at path
      exact ⟨congrArg Host.Outcome.next (State.sequenceDone_waits h (path _ _) free rfl entry),
        congrArg Host.Outcome.next (State.sequenceDone_waits h (path _ _) free rfl entry)⟩
    · rw [State.sequenceDone_stray (State.seqReach_leafHeld (.inl rfl) leaf)]
    · exact congrArg Host.Outcome.next (State.sequenceDone_acts h
        (State.seqReach_plain on boot (by decide) (by decide)) free rfl rfl)
    · exact congrArg Host.Outcome.next (State.sequenceDone_acts h
        (State.seqReach_plain on boot (by decide) (by decide)) free rfl rfl)
  · have reach (sect code : Nat) : s.seqReach true sect code = true := by rw [State.seqReach_sys on, run]; rfl
    rw [State.sequenceDone_held (reach _ _) test, State.sequenceDone_held (reach _ _) test]
    exact ⟨rfl, rfl⟩
  · have stray (sys : Bool) (sect code place : Nat) (data : DWord) : s.sequenceDone sys sect code place data = s :=
      State.sequenceDone_stray (State.seqReach_unpowered off)
    simp only [stray, and_self]

end
section
namespace Sys2Proof.Machine

/-! ## Suspend and resume of a pulse (R187, R189, R198) -/

theorem exec_suspendLimit (s : State) : exec .suspendLimit s = .next s.suspendLimit.settle := rfl
theorem exec_borTrip (s : State) : exec .borTrip s = .next s.borTrip.settle := rfl
theorem exec_borRelease (s : State) :
    exec .borRelease s = .next ({ s with flash := { s.flash with bor := false } } : State).settle := rfl

section
variable {s : State}

theorem State.suspend_stops (h : s.flash.st = .erasePulse ∧ s.flash.suspCnt < 8 ∧ s.flash.suspUs < 1000) :
    s.suspend = { s with flash := { s.flash with st := .eraseSusp, suspCnt := s.flash.suspCnt + 1 } } := if_pos h

theorem State.suspend_rejected (h : ¬(s.flash.st = .erasePulse ∧ s.flash.suspCnt < 8 ∧ s.flash.suspUs < 1000)) :
    s.suspend = { s with flash := { s.flash with suspRej := true } } := if_neg h

/-- A pulse cut, or failing its verify, before the last: its erase goes behind the others. -/
theorem State.pulseEnd_fails {e : EraseRun} {es : List EraseRun} (first : s.flash.erases = e :: es)
    (more : e.pulses < 24) :
    s.pulseEnd false = { s with flash := { s.flash with erases := es ++ [e], st := .eraseGap } } := by
  unfold State.pulseEnd State.pulseOff
  rw [first]
  exact (if_neg Bool.false_ne_true).trans (if_neg (by omega))

theorem State.pulseOn_released (h : s.flash.bor = false) :
    s.pulseOn = { s with flash := { s.flash with st := .erasePulse } } := if_neg (by simp [h])

theorem State.pulseOn_tripped (h : s.flash.bor = true) : s.pulseOn = s.pulseEnd false := if_pos h

theorem clampNat_within {lo hi v : Nat} (h : lo ≤ hi) : lo ≤ clampNat lo hi v ∧ clampNat lo hi v ≤ hi := by
  unfold clampNat
  split
  · omega
  · split <;> omega

theorem State.suspTime_within {most : Nat} (h : s.flash.suspUs ≤ most) :
    s.flash.suspUs ≤ (s.suspTime most).flash.suspUs ∧ (s.suspTime most).flash.suspUs ≤ most := clampNat_within h

theorem State.resumePulse_suspended (h : s.flash.st = .eraseSusp) : s.resumePulse = (s.suspTime 999).pulseOn := by
  unfold State.resumePulse
  rw [h]

theorem State.resumePulse_program (h : s.flash.st = .suspProg) :
    s.resumePulse = { s with flash := { s.flash with resumeDue := true } } := by
  unfold State.resumePulse
  rw [h]

theorem State.resumePulse_idle (h : s.flash.st = .idle) :
    s.resumePulse = { s with flash := { s.flash with suspRej := true } } := by
  unfold State.resumePulse
  rw [h]

theorem State.resumePulse_unlisted (idle : s.flash.st ≠ .idle) (susp : s.flash.st ≠ .eraseSusp)
    (prog : s.flash.st ≠ .suspProg) : s.resumePulse = s := by
  unfold State.resumePulse
  split
  · next st => exact absurd st susp
  · next st => exact absurd st prog
  · next st => exact absurd st idle
  · rfl

/-- The pulse goes on from a suspend that the controller is told to end: what it lasted is counted. -/
def State.resumed (s : State) : State :=
  { s.suspTime 999 with flash := { (s.suspTime 999).flash with st := .erasePulse } }

theorem State.resumed_shape (s : State) : s.resumed = { s with
    free := s.resumed.free, flash := { s.flash with st := .erasePulse, suspUs := s.resumed.flash.suspUs } } := rfl

theorem State.flashWaiters_resumed (s : State) : s.resumed.flashWaiters = s.flashWaiters := rfl

theorem State.resumePulse_resumes (st : s.flash.st = .eraseSusp) (released : s.flash.bor = false) :
    s.resumePulse = s.resumed :=
  (State.resumePulse_suspended st).trans (State.pulseOn_released released)

/-- The suspended time used up. -/
def State.suspSpent (s : State) : State := { s with flash := { s.flash with suspUs := 1000 } }

theorem State.suspendLimit_suspended (h : s.flash.st = .eraseSusp) : s.suspendLimit = s.suspSpent.pulseOn := by
  unfold State.suspendLimit
  rw [h]
  rfl

theorem State.suspendLimit_program (h : s.flash.st = .suspProg) :
    s.suspendLimit = { s with flash := { s.flash with resumeDue := true, suspUs := 1000 } } := by
  unfold State.suspendLimit
  rw [h]

theorem State.suspendLimit_unsuspended (susp : s.flash.st ≠ .eraseSusp) (prog : s.flash.st ≠ .suspProg) :
    s.suspendLimit = s := by
  unfold State.suspendLimit
  split
  · next st => exact absurd st susp
  · next st => exact absurd st prog
  · rfl

end

end Sys2Proof.Machine
end
section
open Sys2Proof Sys2Proof.Machine

/-- Settles O29: a suspend by its limits, a resume and the limit by the controller's state and the comparator. -/
theorem flashSuspendRows : Obligations.FlashSuspendRows := by
  unfold Obligations.FlashSuspendRows
  intro s h
  simp only [exec_eraseSuspend, exec_resume, exec_suspendLimit]
  refine ⟨fun serves boot => ?_, fun susp tripped e es first more => ?_, fun susp released => ?_, fun prog => ?_,
    fun susp prog => ?_⟩
  · obtain ⟨on, free⟩ := s.flashServes_iff.mp serves
    have acts {code : Nat} {n : State} (erase : code ≠ 0xE5) (prog : code ≠ 0x70) :=
      State.sequenceDone_acts (n := n) (place := 0) (data := 0) h
        (State.seqReach_plain (sect := 0) on boot erase prog) free
    refine ⟨fun st count time => ?_, fun limit => ?_, fun st released => ?_, fun st => ?_, fun st => ?_,
      fun idle susp prog => ?_⟩
    · exact congrArg Host.Outcome.next (acts (by decide) (by decide)
        (State.suspend_stops (s := s.seqTaken false) ⟨st, count, time⟩) rfl)
    · exact congrArg Host.Outcome.next (acts (by decide) (by decide)
        (State.suspend_rejected (s := s.seqTaken false) limit) rfl)
    · have acted : s.sequenceDone false 0 0xD0 0 0 = (s.seqTaken false).resumed :=
        acts (by decide) (by decide) (State.resumePulse_resumes (s := s.seqTaken false) st released)
          (s.seqTaken false).flashWaiters_resumed
      exact ⟨_, congrArg Host.Outcome.next acted, rfl,
        fun below => State.suspTime_within (s := s.seqTaken false) below, (s.seqTaken false).resumed_shape⟩
    · exact congrArg Host.Outcome.next (acts (by decide) (by decide)
        (State.resumePulse_program (s := s.seqTaken false) st) rfl)
    · exact congrArg Host.Outcome.next (acts (by decide) (by decide)
        (State.resumePulse_idle (s := s.seqTaken false) st) rfl)
    · have unlisted : (s.seqTaken false).resumePulse = s.seqTaken false := State.resumePulse_unlisted idle susp prog
      exact congrArg Host.Outcome.next (acts (code := 0xD0) (by decide) (by decide) unlisted rfl)
  · have cut : s.suspSpent.pulseOn = s.suspSpent.pulseEnd false := State.pulseOn_tripped tripped
    exact State.settle_to h ((State.suspendLimit_suspended susp).trans (cut.trans (State.pulseEnd_fails first more))) rfl
  · exact State.settle_to h ((State.suspendLimit_suspended susp).trans (State.pulseOn_released released)) rfl
  · exact State.settle_to h (State.suspendLimit_program prog) rfl
  · exact State.settle_to h (State.suspendLimit_unsuspended susp prog) rfl

end
section
namespace Sys2Proof.Machine

/-! ## The comparator (R198) -/

/-- BOR and BOR_SEEN set and the trip counted. -/
def State.tripped (s : State) : State :=
  { s with flash := { s.flash with bor := true, borSeen := true, borCnt := min 65535 (s.flash.borCnt + 1) } }

section
variable {s : State}

theorem sat16_eq_min (n : Nat) : sat16 n = min 65535 (n + 1) := satAdd_one n

/-- A second trip, or one without power. -/
theorem State.borTrip_ignored (h : s.flash.bor = true ∨ s.up 5 = false) : s.borTrip = s := if_pos h

section
variable (released : s.flash.bor = false) (on : s.up 5 = true)
include released on

/-- A trip that cuts a program names its sector. -/
theorem State.borTrip_program (st : s.flash.st = .prog ∨ s.flash.st = .suspProg) :
    s.borTrip = s.tripped.raise 75 .granted (wordOf (s.flash.sector % 4096 + 65536)) := by
  unfold State.borTrip State.tripped
  rw [if_neg (by simp [released, on]), ← sat16_eq_min]
  rcases st with st | st <;> simp [st]

/-- With no operation to cut EV75 carries 0. -/
theorem State.borTrip_rest (st : s.flash.st = .idle ∨ s.flash.st = .eraseGap ∨ s.flash.st = .eraseSusp) :
    s.borTrip = s.tripped.raise 75 .granted 0 := by
  unfold State.borTrip State.tripped
  rw [if_neg (by simp [released, on]), ← sat16_eq_min]
  rcases st with st | st | st <;> simp [st, wordOf]

theorem State.borTrip_pulse (st : s.flash.st = .erasePulse) :
    s.borTrip = (s.tripped.raise 75 .granted (wordOf (s.flash.sector % 4096 + 65536))).pulseEnd false := by
  unfold State.borTrip State.tripped
  rw [if_neg (by simp [released, on]), ← sat16_eq_min]
  simp [st]

end

end

end Sys2Proof.Machine
end
section
open Sys2Proof Sys2Proof.Machine

/-- Settles O31: a trip by the operation it cuts. -/
theorem comparatorRows : Obligations.ComparatorRows := by
  unfold Obligations.ComparatorRows
  intro s h
  simp only [exec_borTrip, exec_borRelease]
  refine ⟨fun released on => ⟨fun st => ?_, fun st => ?_, fun st e es first more => ?_⟩, fun ignored => ?_, ?_⟩
  · exact State.settle_to h (State.borTrip_program released on st) (State.flashWaiters_raise s.tripped _ _ _)
  · exact State.settle_to h (State.borTrip_rest released on st) (State.flashWaiters_raise s.tripped _ _ _)
  · have running : (s.tripped.raise 75 .granted (wordOf (s.flash.sector % 4096 + 65536))).flash.erases = e :: es := by
      rw [State.raise_flash]
      exact first
    exact State.settle_to h ((State.borTrip_pulse released on st).trans (State.pulseEnd_fails running more))
      (State.flashWaiters_raise s.tripped _ _ _)
  · exact State.settle_to h (State.borTrip_ignored ignored) rfl
  · exact State.settle_to h rfl rfl

end
section
namespace Sys2Proof.Machine

/-! ## Flash commands (R184, R191, R218, R265) -/

theorem exec_flashRead (s : State) (t : Fin 32) :
    exec (.flashRead t) s = .next (s.withRun t.val 0x30 State.runFlashRead) := rfl
theorem exec_flashProg (s : State) (t : Fin 32) :
    exec (.flashProg t) s = .next (s.withRun t.val 0x31 State.runFlashProg) := rfl
theorem exec_sectorErase (s : State) (t : Fin 32) :
    exec (.sectorErase t) s = .next (s.withRun t.val 0x32 State.runSectorErase) := rfl

theorem State.enqueueNew_eq (s : State) (ops : List FlashOp) : s.enqueueNew ops = { s with flash := { s.flash with
    queue := if s.inEntry then s.flash.queue else s.flash.queue ++ ops,
    wait := if s.inEntry then s.flash.wait ++ ops else s.flash.wait } } := by
  cases entry : s.inEntry with
  | false => exact State.enqueueNew_now entry ops
  | true => exact State.enqueueNew_entry entry ops

section
variable {s : State} {r : Run}

theorem State.runFlashRead_held (test : s.testing 2 = true) : s.runFlashRead r = s.hold (.run r.id) := if_pos test
theorem State.runFlashProg_held (test : s.testing 2 = true) : s.runFlashProg r = s.hold (.run r.id) :=
  if_pos (.inl test)
theorem State.runSectorErase_held (test : s.testing 2 = true) : s.runSectorErase r = s.hold (.run r.id) := if_pos test

/-- Sectors that no pulse, erase or self-test keeps busy are read at once (R184). -/
theorem State.flashFor_now {sects : List Nat} (free : s.testing 2 = false) (still : sects.any s.erasing = false)
    (quiet : s.flashBusy = false) (f : State → State) : s.flashFor sects f = f s := by
  unfold State.flashFor
  rw [if_neg (by simp only [free, still, Bool.false_eq_true, or_self, not_false_eq_true]), if_neg (by simp [quiet])]

variable (free : s.testing 2 = false)
include free

omit free in
/-- The reach of FLASH_READ, as its check has it. -/
theorem State.reads_inside {n : Nat} (inside : r.arg 4 4 + n ≤ 0x800000)
    (reach : ((rangeSectors (r.arg 4 4) n).any fun x => !(s.under r).flashOk r.ten x false) = false) :
    ¬(0x800000 < r.arg 4 4 + n ∨
      ((rangeSectors (r.arg 4 4) n).any fun x => !(s.under r).flashOk r.ten x false) = true) := by
  rw [reach]
  simp only [Bool.false_eq_true, or_false]
  omega

section
variable {n k : Nat} (len : argClamp 1 48 (r.arg 8 1) = (n, k))
include len

theorem State.runFlashRead_denied (out : 0x800000 < r.arg 4 4 + n ∨
    ((rangeSectors (r.arg 4 4) n).any fun x => !(s.under r).flashOk r.ten x false) = true) :
    s.runFlashRead r = s.finish r 2 [] := by
  unfold State.runFlashRead
  rw [len]
  exact (if_neg (by simp [free])).trans (if_pos out)

variable (inside : r.arg 4 4 + n ≤ 0x800000)
  (reach : ((rangeSectors (r.arg 4 4) n).any fun x => !(s.under r).flashOk r.ten x false) = false)
include inside reach

theorem State.runFlashRead_unpowered (off : s.up 5 = false) : s.runFlashRead r = s.finish r 10 [] := by
  have allowed := State.reads_inside inside reach
  unfold State.runFlashRead
  rw [len]
  exact (if_neg (by simp [free])).trans ((if_neg allowed).trans (if_pos off))

/-- With nothing that keeps its sectors busy the bytes read are the results. -/
theorem State.runFlashRead_reads (on : s.up 5 = true) (still : (rangeSectors (r.arg 4 4) n).any s.erasing = false)
    (quiet : s.flashBusy = false) (unclamped : k = 0) {bs : List Byte}
    (read : (s.flashBytes (r.arg 4 4) n).2 = some bs) :
    s.runFlashRead r = (s.flashBytes (r.arg 4 4) n).1.finish r 0 bs := by
  have allowed := State.reads_inside inside reach
  unfold State.runFlashRead
  rw [len, unclamped]
  refine (if_neg (by simp [free])).trans ((if_neg allowed).trans ((if_neg (by simp [on])).trans
    ((State.flashFor_now free still quiet _).trans ?_)))
  rw [State.argClamps_zero]
  dsimp only
  rw [read]
  rfl

end

section
variable {n k : Nat} (sect : argClamp 0 4095 (r.arg 4 2) = (n, k))
include sect

theorem State.runSectorErase_denied (reach : (s.under r).flashOk r.ten n true = false) :
    s.runSectorErase r = s.finish r 2 [] := by
  unfold State.runSectorErase
  rw [sect]
  exact (if_neg (by simp [free])).trans (if_pos reach)

variable (reach : (s.under r).flashOk r.ten n true = true)
include reach

theorem State.runSectorErase_unpowered (off : s.up 5 = false) : s.runSectorErase r = s.finish r 10 [] := by
  unfold State.runSectorErase
  rw [sect]
  exact (if_neg (by simp [free])).trans ((if_neg (by simp [reach])).trans (if_pos off))

theorem State.runSectorErase_queues (on : s.up 5 = true) (unclamped : k = 0) : s.runSectorErase r =
    (s.setRun r.id .working).enqueueNew [.erase n 1 (.cmd r.id), .done 0 0 (.cmd r.id)] := by
  unfold State.runSectorErase
  rw [sect, unclamped]
  refine (if_neg (by simp [free])).trans ((if_neg (by simp [reach])).trans ((if_neg (by simp [on])).trans ?_))
  rw [State.argClamps_zero]

end

section
variable {off n w wo k : Nat} (args : progArgs r = (off, n, w, wo, k))
  (unheld : s.rangeHeld r.ten w wo (8 * n) = false)
include args unheld

theorem State.runFlashProg_denied (reach : (s.under r).flashOk r.ten (off / 2048) true = false) :
    s.runFlashProg r = s.finish r 2 [] := by
  unfold State.runFlashProg
  rw [args]
  exact (if_neg (by simp [free, unheld])).trans (if_pos (.inr reach))

variable (inside : off < 0x800000) (reach : (s.under r).flashOk r.ten (off / 2048) true = true)
include inside reach

/-- A window through which its tenant may not read ends the command with the first error. -/
theorem State.runFlashProg_fails {e : Err}
    (err : (s.under r).winErrs r.ten w false (wordOffs wo (8 * n)) = some e) :
    s.runFlashProg r = s.finish r e.status [] := by
  unfold State.runFlashProg
  rw [args]
  refine (if_neg (by simp [free, unheld])).trans ((if_neg (by simp [reach]; omega)).trans ?_)
  rw [err]
  rfl

variable (clean : (s.under r).winErrs r.ten w false (wordOffs wo (8 * n)) = none)
include clean

theorem State.runFlashProg_unpowered (dark : s.up 5 = false) : s.runFlashProg r = s.finish r 10 [] := by
  unfold State.runFlashProg
  rw [args]
  refine (if_neg (by simp [free, unheld])).trans ((if_neg (by simp [reach]; omega)).trans ?_)
  rw [clean]
  exact if_pos dark

/-- The operations of a FLASH_PROG: a program for each word, then the job's end (R191). -/
def progOps (off n id : Nat) (bs : List Byte) : List FlashOp :=
  (List.range n).map (fun i => FlashOp.prog (off / 8 + i) (BitVec.ofNat 64 (natAt bs (8 * i) 8)) (.cmd id)) ++
    [.done 0 n (.cmd id)]

theorem State.runFlashProg_queues (on : s.up 5 = true) (idle : s.rangeBusy r.ten w wo (8 * n) = false)
    (unclamped : k = 0) {x : State} {bs : List Byte}
    (read : s.committedBytes r.ten w wo (8 * n) = (x, some bs)) (alone : x.suspendable = false) :
    s.runFlashProg r = (x.setRun r.id .working).enqueueNew (progOps off n r.id bs) := by
  have stays : (x.setRun r.id .working).suspendable = false := alone
  unfold State.runFlashProg
  rw [args]
  refine (if_neg (by simp [free, unheld])).trans ((if_neg (by simp [reach]; omega)).trans ?_)
  rw [clean]
  refine (if_neg (by simp [on])).trans ((if_neg (by simp [idle])).trans ?_)
  rw [read, unclamped]
  dsimp only
  rw [State.argClamps_zero, if_neg (by simp [stays])]
  rfl

end

end

end Sys2Proof.Machine
end
section
open Sys2Proof Sys2Proof.Machine

/-- Settles O24: each command held, denied, without power, or carried out. -/
theorem flashCommands : Obligations.FlashCommands := by
  unfold Obligations.FlashCommands
  intro s t r
  simp only [exec_flashRead, exec_flashProg, exec_sectorErase]
  refine ⟨fun test => ⟨fun run => ?_, fun run => ?_, fun run => ?_⟩, fun run free => ?_, fun run free => ?_,
    fun run free => ?_⟩
  · rw [State.withRun_some run, State.runFlashRead_held test]
  · rw [State.withRun_some run, State.runFlashProg_held test]
  · rw [State.withRun_some run, State.runSectorErase_held test]
  · rw [State.withRun_some run]
    obtain ⟨n, k, len⟩ : ∃ n k, argClamp 1 48 (r.arg 8 1) = (n, k) := ⟨_, _, rfl⟩
    rw [len]
    refine ⟨fun out => ?_, fun inside reach => ⟨fun off => ?_, fun on still quiet unclamped bs read => ?_⟩⟩
    · rw [State.runFlashRead_denied free len out]
    · rw [State.runFlashRead_unpowered free len inside reach off]
    · rw [State.runFlashRead_reads free len inside reach on still quiet unclamped read]
  · rw [State.withRun_some run]
    obtain ⟨n, k, sect⟩ : ∃ n k, argClamp 0 4095 (r.arg 4 2) = (n, k) := ⟨_, _, rfl⟩
    rw [sect]
    refine ⟨fun reach => ?_, fun reach off => ?_, fun reach on unclamped => ?_⟩
    · rw [State.runSectorErase_denied free sect reach]
    · rw [State.runSectorErase_unpowered free sect reach off]
    · rw [State.runSectorErase_queues free sect reach on unclamped, State.enqueueNew_eq]
      exact ⟨_, rfl, rfl, rfl, rfl⟩
  · rw [State.withRun_some run]
    obtain ⟨off, n, w, wo, k, args⟩ : ∃ off n w wo k, progArgs r = (off, n, w, wo, k) := ⟨_, _, _, _, _, rfl⟩
    rw [args]
    intro unheld inside
    refine ⟨fun reach => ?_, fun reach => ⟨fun e err => ?_, fun clean => ⟨fun dark => ?_,
      fun on idle unclamped x bs read alone => ?_⟩⟩⟩
    · rw [State.runFlashProg_denied free args unheld reach]
    · rw [State.runFlashProg_fails free args unheld inside reach err]
    · rw [State.runFlashProg_unpowered free args unheld inside reach clean dark]
    · rw [State.runFlashProg_queues free args unheld inside reach clean on idle unclamped read alone]
      rfl

end
section
namespace Sys2Proof.Machine

/-! ## Steps that change flash alone -/

/-- Flash and the count of free values alone differ. -/
def State.FlashOnly (s n : State) : Prop := n = { s with flash := n.flash, free := n.free }

theorem State.FlashOnly.trans {s m n : State} (first : s.FlashOnly m) (second : m.FlashOnly n) : s.FlashOnly n := by
  unfold State.FlashOnly at *
  rw [second, first]

theorem State.FlashOnly.waiters {s n : State} (h : s.FlashOnly n) : n.flashWaiters = s.flashWaiters := by
  rw [h]
  rfl

theorem State.FlashOnly.sealed {s n : State} (h : s.FlashOnly n) : n.sealed = s.sealed := by rw [h]

theorem State.FlashOnly.of_flash {s n : State} {f : Flash} (h : n = { s with flash := f }) : s.FlashOnly n := by
  rw [h]
  rfl

theorem State.flashOnly_flash (s : State) (f : Flash) : s.FlashOnly { s with flash := f } := rfl
theorem State.flashOnly_drawn (s : State) : s.FlashOnly s.drawn := rfl
theorem State.flashOnly_setFword (s : State) (w : Nat) (v : FWord) : s.FlashOnly (s.setFword w v) := rfl

/-! ## Operations that may start, and marks that may act (R190, R193, R194) -/

theorem mem_cons_of_mem_ite {o p : FlashOp} {q : List FlashOp} {c : Prop} [Decidable c]
    (h : o ∈ if c then p :: q else q) : o = p ∨ o ∈ q := by
  split at h
  · exact List.mem_cons.mp h
  · exact .inr h

theorem mem_of_mem_eligible {jobs : List Job} {sects : List Nat} {q : List FlashOp} {o : FlashOp}
    (h : o ∈ eligible jobs sects q) : o ∈ q := by
  induction q generalizing jobs sects with
  | nil => exact h
  | cons p q ih =>
    rw [eligible] at h
    rcases mem_cons_of_mem_ite h with rfl | h
    · exact List.mem_cons_self
    · exact List.mem_cons_of_mem _ (ih h)

/-- The first operation of the queue may start when nothing of its job or on its sector is under way. -/
theorem eligible_head {jobs : List Job} {sects : List Nat} {o : FlashOp} (job : ∀ j, o.job.root.order = some j → j ∉ jobs)
    (sect : ∀ n, o.sect = some n → n ∉ sects) (q : List FlashOp) : eligible jobs sects (o :: q) =
      o :: eligible (o.job.root.order.toList ++ jobs) (o.sect.toList ++ o.job.kept ++ sects) q := by
  refine if_pos ?_
  rw [Bool.and_eq_true]
  constructor
  · cases order : o.job.root.order with
    | none => rfl
    | some j => simpa using job j order
  · cases place : o.sect with
    | none => rfl
    | some n => simpa using sect n place

section
variable {s : State}

/-- With no mark in the queue that the controller may act on, it acts on none. -/
theorem State.pump_quiet (quiet : s.flash.queue.any FlashOp.acts = false) (n : Nat) : State.pump n s = s := by
  cases n with
  | zero => rfl
  | succ n =>
    have none : s.ready.find? FlashOp.acts = none := by
      rw [List.find?_eq_none]
      intro o ready
      exact List.any_eq_false.mp quiet o (mem_of_mem_eligible ready)
    rw [State.pump, none]

/-! ## Programs (R185, R186, R190, R198) -/

theorem exec_programStart (us : Nat) : exec (.programStart us) s = .next (s.programStart us).settle := rfl

theorem exec_programEnd {pulses : Nat} (h : pulses ≤ 16) (pass : Bool) :
    exec (.programEnd pulses pass) s = .next (s.progEnd pulses pass).settle :=
  congrArg Host.Outcome.next (if_pos (decide_eq_true h))

/-- The first waiting word, with no erase of its sector or of its job under way, may be programmed. -/
theorem State.nextProg_first {w : Nat} {d : DWord} {j : Job} {q : List FlashOp} (first : s.flash.queue = .prog w d j :: q)
    (idle : s.flash.prog = none)
    (clear : ∀ e ∈ s.flash.erases, e.sect ≠ w / 256 ∧ e.job.root ≠ j.root ∧ w / 256 ∉ e.job.kept) :
    s.nextProg = some (.prog w d j) := by
  obtain ⟨rest, ready⟩ : ∃ rest, s.ready = .prog w d j :: rest := by
    unfold State.ready Flash.running
    rw [first, idle]
    refine ⟨_, eligible_head (fun k order under => ?_) (fun n sect under => ?_) q⟩
    · obtain ⟨o, erase, same⟩ := List.mem_filterMap.mp under
      obtain ⟨e, run, rfl⟩ := List.mem_map.mp erase
      exact (clear e run).2.1 ((Job.eq_of_order same).trans (Job.eq_of_order order).symm)
    · obtain ⟨o, erase, inside⟩ := List.mem_flatMap.mp under
      obtain ⟨e, run, rfl⟩ := List.mem_map.mp erase
      obtain ⟨other, -, kept⟩ := clear e run
      cases sect
      rcases List.mem_append.mp inside with same | held
      · exact other (List.mem_singleton.mp same).symm
      · exact kept held
  rw [State.nextProg, ready]
  rfl

theorem State.nextProg_empty (h : s.flash.queue = []) : s.nextProg = none := by
  rw [State.nextProg, State.ready_empty h]
  rfl

theorem State.progStart_eq (s : State) (w : Nat) (d : DWord) (j : Job) :
    s.progStart (.prog w d j) = { s with
      free := (s.progStart (.prog w d j)).free
      flash := { s.flash with
        queue := dropOp (.prog w d j) s.flash.queue, prog := some (.prog w d j),
        progBad := s.notErased (s.fword (s.physWord w)) d,
        st := if s.flash.st = .eraseSusp then .suspProg else .prog,
        pulses := 0, sector := s.phys (w / 256), fail := false, cause := 0 } } := by
  unfold State.progStart
  dsimp only
  split <;> rfl

theorem State.programStart_starts {us : Nat} {o : FlashOp} (ticks : s.ticking = true) (serves : s.flashServes = true)
    (early : 2 ≤ s.tick.slot) (late : s.tick.slot ≤ 37) (time : 144 ≤ us) (released : s.flash.bor = false)
    (st : s.flash.st = .idle ∨ s.flash.st = .eraseGap ∨ s.flash.st = .eraseSusp) (next : s.nextProg = some o) :
    s.programStart us = s.progStart o := by
  unfold State.programStart
  rw [if_pos ⟨ticks, serves, early, late, time, released, st⟩, next]

theorem State.programStart_waits {us : Nat} (h : s.ticking = false ∨ s.flashServes = false ∨ s.tick.slot < 2 ∨
    37 < s.tick.slot ∨ us < 144 ∨ s.flash.bor = true ∨ s.flash.queue = []) : s.programStart us = s := by
  unfold State.programStart
  split
  · next may =>
    obtain ⟨ticks, serves, early, late, time, released, -⟩ := may
    have empty : s.flash.queue = [] := by
      simpa [ticks, serves, released, Nat.not_lt.mpr early, Nat.not_lt.mpr late, Nat.not_lt.mpr time] using h
    rw [State.nextProg_empty empty]
  · rfl

theorem State.progEnd_blocked (h : s.flash.bor = true) (pulses : Nat) (pass : Bool) : s.progEnd pulses pass = s :=
  if_pos h

/-- The pulses of a program counted. -/
def State.pulsed (s : State) (n : Nat) : State := { s with flash := { s.flash with pulses := n } }

theorem State.progRest_eq (s : State) : s.progRest = { s with
    free := s.progRest.free
    flash := { s.flash with
      prog := none, progBad := false, resumeDue := false, st := s.progRest.flash.st,
      suspUs := s.progRest.flash.suspUs } } := by
  unfold State.progRest
  dsimp only
  split
  · split <;> rfl
  · rfl

/-- The stored word of a program that has failed over a word not erased is free (R186). -/
def State.overwritten (s : State) (w : Nat) : State :=
  s.drawn.setFword (s.physWord w) ⟨Config.overData s.free, Config.overBad s.free, none⟩

theorem State.progOver_eq (s : State) (w : Nat) (d : DWord) : s.progOver w d .sys =
    (((s.overwritten w).flashFail 2).raise 72 (.sector (w / 256)) (wordOf (w / 256 + 4096 + 16 * 65536))).pulsed 16 := rfl

theorem State.flash_progOver (s : State) (w : Nat) (d : DWord) :
    (s.progOver w d .sys).flash = { (s.overwritten w).flash with fail := true, cause := 2, pulses := 16 } := by
  rw [State.progOver_eq, State.pulsed, State.raise_flash]
  rfl

theorem State.queue_progOver (s : State) (w : Nat) (d : DWord) : (s.progOver w d .sys).flash.queue = s.flash.queue := by
  rw [State.flash_progOver]
  rfl

theorem State.fword_progOver (s : State) (w : Nat) (d : DWord) {x : Nat} (other : x ≠ s.physWord w) :
    (s.progOver w d .sys).fword x = s.fword x := by
  unfold State.fword
  rw [State.flash_progOver]
  exact SMap.get_set_ne _ _ _ other

theorem State.flashWaiters_progOver (s : State) (w : Nat) (d : DWord) :
    (s.progOver w d .sys).flashWaiters = s.flashWaiters := by
  rw [State.progOver_eq]
  exact State.flashWaiters_raise ((s.overwritten w).flashFail 2) _ _ _

theorem State.flashOnly_progRest (s : State) : s.FlashOnly s.progRest := by
  rw [State.progRest_eq]
  rfl

theorem State.fword_progRest (s : State) (x : Nat) : s.progRest.fword x = s.fword x := by
  rw [State.progRest_eq]
  rfl

section
variable {pulses w : Nat} {d : DWord} {j : Job} (released : s.flash.bor = false)
  (prog : s.flash.prog = some (.prog w d j)) (quiet : s.flash.queue.any FlashOp.acts = false)
include released prog quiet

theorem State.progEnd_passes (good : s.flash.progBad = false) :
    s.progEnd pulses true = (s.pulsed pulses).progRest.setFword (s.physWord w) (FWord.of d) := by
  have still : ((s.pulsed pulses).progRest.setFword (s.physWord w) (FWord.of d)).flash.queue.any FlashOp.acts = false := by
    rw [State.progRest_eq]
    exact quiet
  unfold State.progEnd
  rw [if_neg (by simp [released]), prog]
  dsimp only
  rw [if_neg (by simp [good]), if_pos rfl]
  exact State.pump_quiet still 4

/-- A program of the system path over a word that is not erased, at its pulse limit (R186). -/
theorem State.progEnd_over (own : j = .sys) (bad : s.flash.progBad = true) (pass : Bool) :
    s.progEnd pulses pass = (s.pulsed pulses).progRest.progOver w d .sys := by
  subst own
  have still : ((s.pulsed pulses).progRest.progOver w d .sys).flash.queue.any FlashOp.acts = false := by
    rw [State.queue_progOver, State.progRest_eq]
    exact quiet
  unfold State.progEnd
  rw [if_neg (by simp [released]), prog]
  dsimp only
  rw [if_pos bad]
  exact State.pump_quiet still 4

end

end

/-! ## Records of the erase journal (R199, R202) -/

section
variable {s : State}

/-- The next word of the active ring sector. -/
def State.journalNext (s : State) : Nat := (522 + s.flash.ring) * 256 + s.flash.ringWord

/-- A word of flash programmed with a record, which takes the next SEQ. -/
def State.recorded (s : State) (w : Nat) (d : DWord) : State :=
  let s1 := s.drawn.setFword w (FWord.of d)
  { s1 with flash := { s1.flash with seq := (s.flash.seq + 1) % 65536 } }

/-- A record in the next word of the active ring sector. -/
def State.journalled (s : State) (d : DWord) : State :=
  let s1 := s.recorded s.journalNext d
  { s1 with flash := { s1.flash with ringWord := s.flash.ringWord + 1 } }

theorem State.journalled_eq (s : State) (d : DWord) : s.journalled d = { s.recorded s.journalNext d with
    flash := { (s.recorded s.journalNext d).flash with
      ring := s.flash.ring, ringWord := s.flash.ringWord + 1 } } := rfl

theorem State.flashOnly_recorded (s : State) (w : Nat) (d : DWord) : s.FlashOnly (s.recorded w d) :=
  (s.flashOnly_drawn.trans (s.drawn.flashOnly_setFword w (FWord.of d))).trans (State.flashOnly_flash _ _)

theorem State.flashOnly_journalled (s : State) (d : DWord) : s.FlashOnly (s.journalled d) :=
  (s.flashOnly_recorded s.journalNext d).trans (State.flashOnly_flash _ _)

/-- Of the controller a record changes the words, the next SEQ and the place in the ring. -/
theorem State.flash_journalled (s : State) (d : DWord) : (s.journalled d).flash = { s.flash with
    words := (s.journalled d).flash.words, seq := (s.journalled d).flash.seq, ringWord := s.flash.ringWord + 1 } := rfl

theorem State.fword_journalled (s : State) (d : DWord) (x : Nat) :
    (s.journalled d).fword x = if x = s.journalNext then FWord.of d else s.fword x :=
  s.drawn.fword_setFword s.journalNext (FWord.of d) x

theorem State.putRecordIn_first (works : Config.recordFails s.free = false) (type sector aux w : Nat) (ws : List Nat) :
    s.putRecordIn type sector aux (w :: ws) = (s.recorded w (recWord type sector aux s.flash.seq), some w) := by
  rw [State.putRecordIn]
  dsimp only
  rw [if_neg (by simp [works]), State.recorded]

variable (room : s.flash.ringWord < 256) (blank : s.fword s.journalNext = FWord.erased)
include room blank

theorem State.journalWords_first : ∃ ws, s.journalWords = s.journalNext :: ws := by
  have here : ((List.range 256).filter fun i => s.flash.ringWord ≤ i).find?
      (fun i => (s.fword ((522 + s.flash.ring) * 256 + i)).isErased) = some s.flash.ringWord := by
    rw [List.find?_filter, List.find?_range_eq_some]
    refine ⟨?_, List.mem_range.mpr room, fun i below => ?_⟩
    · simpa [FWord.isErased, State.journalNext] using blank
    · simp [Nat.not_le.mpr below]
  unfold State.journalWords
  dsimp only
  rw [here]
  exact ⟨_, rfl⟩

/-- A record whose program does not fail goes into the next word of the active ring sector. -/
theorem State.putJournal_next (works : Config.recordFails s.free = false) (type sector aux : Nat) :
    s.putJournal type sector aux = s.journalled (recWord type sector aux s.flash.seq) := by
  obtain ⟨ws, words⟩ := State.journalWords_first room blank
  have ring : s.journalNext / 256 - 522 = s.flash.ring := by
    unfold State.journalNext
    omega
  have next : s.journalNext % 256 + 1 = s.flash.ringWord + 1 := by
    unfold State.journalNext
    omega
  have skipped : ((s.journalNext :: ws).takeWhile fun x => x != s.journalNext) = [] :=
    List.takeWhile_cons_of_neg (by simp)
  unfold State.putJournal
  dsimp only
  rw [words, State.putRecordIn_first works]
  dsimp only
  rw [ring, next, skipped]
  simp only [List.map_nil, List.sum_nil, BitVec.or_zero]
  exact (State.journalled_eq s _).symm

end

end Sys2Proof.Machine
end
section
namespace Sys2Proof.Machine

/-! ## The first pulse of an erase (R187, R202) -/

theorem exec_flashSlot (s : State) : exec .flashSlot s = .next (s.atSlot 2 State.flashSlot).ackPorts := rfl

/-- A slot's work on flash lets no port go on when nothing waits for the controller. -/
theorem State.atSlot_to {s m : State} {f : State → State} {k : Nat} (h : s.Settled) (ticks : s.ticking = true)
    (work : f (s.inSlot k) = m) (same : m.flashWaiters = s.flashWaiters) :
    Host.Outcome.next (s.atSlot k f).ackPorts = (.next m : Host.Outcome State Fault Refusal) := by
  rw [State.atSlot_inSlot ticks, work, State.ackPorts_settled (h.of_waiters same)]

theorem State.flashSlot_blocked {s : State} (h : s.flash.bor = true ∨ s.flash.prog.isSome = true ∨
    s.flash.st = .erasePulse ∨ s.flash.st = .eraseSusp ∨ s.flash.st = .suspProg ∨ s.testing 2 = true) :
    s.flashSlot = s := if_pos h

theorem Flash.nextErase_only {f : Flash} {e : EraseRun} (h : f.erases = [e]) : f.nextErase = some e := by
  unfold Flash.nextErase
  rw [h]
  cases wipe : e.isWipe <;> simp [wipe]

/-- The erase that waits alone, accepted. -/
def State.admitted (s : State) (x r : Nat) (j : Job) : State :=
  { s with flash := { s.flash with queue := [], erases := [⟨x, r, j, 0, 0⟩] } }

/-- The first pulse of an erase runs. -/
def State.firstPulse (s : State) (e : EraseRun) (p : Nat) (wipe : Bool) : State :=
  { s with flash := { s.flash with
      erases := [e], st := .erasePulse, sector := p, pulses := 1, suspCnt := 0, suspUs := 0, resumeDue := false,
      fail := false, cause := 0, lastWipe := wipe } }

theorem State.flashOnly_admitted (s : State) (x r : Nat) (j : Job) : s.FlashOnly (s.admitted x r j) := rfl

section
variable (s : State) (e : EraseRun) (p : Nat) (wipe : Bool)

theorem State.flashOnly_firstPulse : s.FlashOnly (s.firstPulse e p wipe) := rfl
theorem State.queue_firstPulse : (s.firstPulse e p wipe).flash.queue = s.flash.queue := rfl
theorem State.fword_firstPulse (a : Nat) : (s.firstPulse e p wipe).fword a = s.fword a := rfl

end

section
variable {s : State} {x r : Nat} {j : Job} (queue : s.flash.queue = [.erase x r j]) (still : s.flash.prog = none)
  (none : s.flash.erases = []) (may : s.mayErase x j = true)
include queue still none

theorem State.ready_only : s.ready = [.erase x r j] := by
  unfold State.ready Flash.running
  rw [queue, still, none]
  exact eligible_head (by simp) (by simp) []

include may

theorem State.newErases_only : s.newErases = [.erase x r j] := by
  have next (wipe : Bool) : s.nextOf wipe = if j.isWipe = wipe then some (.erase x r j) else Option.none := by
    unfold State.nextOf
    rw [State.ready_only queue still none]
    by_cases same : j.isWipe = wipe
    · simp [same, may]
    · simp [same]
  unfold State.newErases
  rw [none]
  cases h : j.isWipe <;> simp [next, h]

theorem State.flashAdmitNext_only : s.flashAdmitNext = s.admitted x r j := by
  unfold State.flashAdmitNext State.admitted
  rw [State.newErases_only queue still none may, List.foldl_cons, List.foldl_nil]
  dsimp only
  rw [queue, none, dropOp_head]
  rfl

/-- An INTENT record in the next word of the active ring sector, then the pulse. -/
theorem State.flashSlot_starts (released : s.flash.bor = false) (idle : s.flash.st = .idle) (free : s.testing 2 = false)
    (room : s.flash.ringWord < 256) (blank : s.fword s.journalNext = FWord.erased)
    (works : Config.recordFails s.free = false) : ∃ wipe, s.flashSlot =
      ((s.admitted x r j).journalled (recWord 0x4A (s.phys x) r s.flash.seq)).firstPulse
        ⟨x, r, j, 1, s.flash.ring⟩ (s.phys x) wipe := by
  have record : (s.admitted x r j).putJournal 0x4A (s.phys x) r =
      (s.admitted x r j).journalled (recWord 0x4A (s.phys x) r s.flash.seq) :=
    State.putJournal_next (s := s.admitted x r j) room blank works _ _ _
  have first : (s.admitted x r j).flash.nextErase = some ⟨x, r, j, 0, 0⟩ := Flash.nextErase_only rfl
  have place : (s.admitted x r j).phys x = s.phys x := rfl
  have go : ¬(s.flash.bor = true ∨ s.flash.prog.isSome = true ∨ s.flash.st = .erasePulse ∨ s.flash.st = .eraseSusp ∨
      s.flash.st = .suspProg ∨ s.testing 2 = true) := by simp [released, still, idle, free]
  unfold State.flashSlot
  rw [State.flashAdmitNext_only queue still none may]
  dsimp only
  rw [if_neg go, first]
  dsimp only
  rw [if_pos rfl, if_pos rfl, place, record]
  obtain ⟨n, written⟩ : ∃ n, (s.admitted x r j).journalled (recWord 0x4A (s.phys x) r s.flash.seq) = n := ⟨_, rfl⟩
  have flash : n.flash = { (s.admitted x r j).flash with
      words := n.flash.words, seq := n.flash.seq, ringWord := s.flash.ringWord + 1 } :=
    written ▸ (s.admitted x r j).flash_journalled _
  have ring : n.flash.ring = s.flash.ring := by rw [flash]; rfl
  have alone : n.flash.erases.filter (fun y => y != ⟨x, r, j, 0, 0⟩) = [] := by
    rw [flash]
    simp [State.admitted]
  have run : (⟨x, r, j, 0 + 1, n.flash.ring⟩ :: n.flash.erases.filter fun y => y != ⟨x, r, j, 0, 0⟩ : List EraseRun) =
      [⟨x, r, j, 1, s.flash.ring⟩] := by rw [ring, alone]
  rw [written, run]
  exact ⟨_, rfl⟩

end

/-! ## The end of a pulse (R187, R188, R202) -/

theorem exec_erasePulseEnd (s : State) (pass : Bool) :
    exec (.erasePulseEnd pass) s = .next (if s.flash.st = .erasePulse then (s.pulseEnd pass).settle else s) := rfl

theorem State.fword_eraseSector (s : State) (p x : Nat) :
    (s.eraseSector p).fword x = if x / 256 = p then FWord.erased else s.fword x := by
  have inside : (p * 256 ≤ x ∧ x < p * 256 + 256) ↔ x / 256 = p := by omega
  exact (SMap.get_clear _ _ _ _ _).trans (if_congr inside rfl rfl)

theorem State.sealedErased_shape (s : State) (sect : Nat) (j : Job) :
    s.sealedErased sect j = { s with sealed := (s.sealedErased sect j).sealed } := by
  unfold State.sealedErased
  split
  · rfl
  · split <;> rfl

theorem State.sealedErased_other (s : State) {sect : Nat} (j : Job) (other : sect ≠ 542 ∧ sect ≠ 543) :
    s.sealedErased sect j = s := by
  unfold State.sealedErased
  split
  · rfl
  · exact if_neg (by simp [other])

/-- The erase of the next ring sector, where it is asked for, is no mark (R202). -/
theorem State.ringAdvance_queue {s : State} (quiet : s.flash.queue.any FlashOp.acts = false) : ∃ q,
    s.ringAdvance = s.unqueued q ∧ q.any FlashOp.acts = false := by
  unfold State.ringAdvance
  split
  · split
    · exact ⟨_, rfl, quiet⟩
    · exact ⟨_, rfl, quiet⟩
  · exact ⟨_, rfl, quiet⟩

/-- The pulse of the first erase in progress is over. -/
def State.pulseTaken (s : State) (es : List EraseRun) : State :=
  { s with flash := { s.flash with erases := es, st := if es.isEmpty then .idle else .eraseGap } }

theorem State.pulseEnd_passes {s : State} {e : EraseRun} {es : List EraseRun} (first : s.flash.erases = e :: es) :
    s.pulseEnd true = (s.pulseTaken es).eraseDone e := by
  unfold State.pulseEnd
  rw [first]
  rfl

/-- The content of an erased sector and its sealed records gone. -/
def State.cleared (s : State) (e : EraseRun) : State :=
  (s.eraseSector (s.phys e.sect)).sealedErased e.sect e.job

theorem State.cleared_shape (s : State) (e : EraseRun) :
    s.cleared e = { s.eraseSector (s.phys e.sect) with sealed := (s.cleared e).sealed } := State.sealedErased_shape _ _ _

theorem State.flash_cleared (s : State) (e : EraseRun) :
    (s.cleared e).flash = (s.eraseSector (s.phys e.sect)).flash := by rw [State.cleared_shape]

theorem State.journalNext_cleared (s : State) (e : EraseRun) : (s.cleared e).journalNext = s.journalNext := by
  unfold State.journalNext
  rw [State.flash_cleared]
  rfl

theorem State.fword_cleared (s : State) (e : EraseRun) (x : Nat) :
    (s.cleared e).fword x = if x / 256 = s.phys e.sect then FWord.erased else s.fword x := by
  rw [State.cleared_shape]
  exact s.fword_eraseSector _ x

theorem State.flashOnly_unqueued (s : State) (q : List FlashOp) : s.FlashOnly (s.unqueued q) := rfl
theorem State.erases_unqueued (s : State) (q : List FlashOp) : (s.unqueued q).flash.erases = s.flash.erases := rfl
theorem State.fword_unqueued (s : State) (q : List FlashOp) (x : Nat) : (s.unqueued q).fword x = s.fword x := rfl

theorem State.flashOnly_pulseTaken (s : State) (es : List EraseRun) : s.FlashOnly (s.pulseTaken es) := rfl

section
variable {s : State} {e : EraseRun} (good : s.suspect (s.phys e.sect) = false) (other : ∀ k, e.job ≠ .wipe k)
  (quiet : s.flash.queue.any FlashOp.acts = false) (room : s.flash.ringWord < 256)
  (blank : s.fword s.journalNext = FWord.erased) (works : Config.recordFails s.free = false)
include good other quiet room blank works

/-- An erase that has passed its verify: its sector erased, then DONE in the next word of the active ring sector. -/
theorem State.eraseDone_records : ∃ q, s.eraseDone e =
    ((s.cleared e).journalled (recWord 0x4D (s.phys e.sect) e.reason s.flash.seq)).unqueued q := by
  have erased : (s.cleared e).fword (s.cleared e).journalNext = FWord.erased := by
    rw [State.journalNext_cleared, State.fword_cleared, blank, ite_self]
  have free : (s.cleared e).free = s.free := by rw [State.cleared_shape]; rfl
  have seq : (s.cleared e).flash.seq = s.flash.seq := by rw [State.flash_cleared]; rfl
  have record : (s.cleared e).putJournal 0x4D (s.phys e.sect) e.reason =
      (s.cleared e).journalled (recWord 0x4D (s.phys e.sect) e.reason s.flash.seq) := by
    rw [← seq]
    refine State.putJournal_next ?_ erased (by rw [free, works]) _ _ _
    rw [State.flash_cleared]
    exact room
  obtain ⟨n, written⟩ : ∃ n, (s.cleared e).journalled (recWord 0x4D (s.phys e.sect) e.reason s.flash.seq) = n := ⟨_, rfl⟩
  have still : n.flash.queue.any FlashOp.acts = false := by
    rw [← written, State.flash_journalled, State.flash_cleared]
    exact quiet
  obtain ⟨q, asked, silent⟩ := State.ringAdvance_queue still
  refine ⟨q, ?_⟩
  unfold State.eraseDone
  rw [State.cleared] at record written
  rw [State.cleared]
  dsimp only
  rw [record, written, if_neg (by simp [good])]
  split
  · next k wipe => exact absurd wipe (other k)
  · rw [asked]
    exact State.pump_quiet silent 4

theorem State.eraseDone_effect :
    (s.eraseDone e).flash.erases = s.flash.erases ∧
    (∀ x, (s.eraseDone e).fword x =
      if x = s.journalNext then FWord.of (recWord 0x4D (s.phys e.sect) e.reason s.flash.seq)
      else if x / 256 = s.phys e.sect then FWord.erased else s.fword x) ∧
    (e.sect ≠ 542 → e.sect ≠ 543 → (s.eraseDone e).sealed = s.sealed) ∧
    ({ s with sealed := (s.eraseDone e).sealed } : State).FlashOnly (s.eraseDone e) := by
  obtain ⟨q, done⟩ := State.eraseDone_records good other quiet room blank works
  have only : (s.cleared e).FlashOnly (s.eraseDone e) := by
    rw [done]
    exact (State.flashOnly_journalled _ _).trans (State.flashOnly_unqueued _ _)
  have sealed : (s.eraseDone e).sealed = (s.cleared e).sealed := only.sealed
  refine ⟨?_, fun x => ?_, fun upper lower => ?_, ?_⟩
  · rw [done, State.erases_unqueued, State.flash_journalled, State.flash_cleared]
    rfl
  · rw [done, State.fword_unqueued, State.fword_journalled, State.journalNext_cleared, State.fword_cleared]
  · rw [sealed, State.cleared, State.sealedErased_other _ _ ⟨upper, lower⟩]
    rfl
  · rw [sealed]
    exact (State.FlashOnly.of_flash (s.cleared_shape e)).trans only

end

end Sys2Proof.Machine
end
section
open Sys2Proof Sys2Proof.Machine

/-- Settles O30: programs and pulses by what starts them, what blocks them and how they end; the records by the next
word of the active ring sector. -/
theorem flashRunRows : Obligations.FlashRunRows := by
  unfold Obligations.FlashRunRows
  intro s h
  simp only [exec_programStart, exec_flashSlot, exec_erasePulseEnd]
  refine ⟨fun us w d j q first idle clear ticks serves early late time released st => ?_, fun us waits => ?_,
    fun blocked pulses pass => ?_,
    fun pulses w d j few released prog quiet => ⟨fun good => ?_, fun bad own pass => ?_⟩,
    fun ticks => ⟨fun blocked => ?_, fun x r j released still idle free queue none may room works blank => ?_⟩,
    fun e es st first => ⟨fun more => ?_, fun good other quiet room works blank => ?_⟩, fun st pass => ?_⟩
  · have starts := (State.programStart_starts ticks serves early late time released st
      (State.nextProg_first first idle clear)).trans (s.progStart_eq w d j)
    refine ⟨_, State.settle_to h starts rfl, rfl, ?_, rfl, rfl, rfl, rfl, rfl, rfl, rfl⟩
    rw [first]
    exact dropOp_head _ _
  · exact State.settle_to h (State.programStart_waits waits) rfl
  · have ends : exec (.programEnd pulses pass) s =
        onlyIf (Instr.programEnd pulses pass).WellFormed s (s.progEnd pulses pass).settle := rfl
    rw [ends, State.progEnd_blocked blocked, State.settle_settled h]
    exact congrArg Host.Outcome.next (ite_self s)
  · have ends := State.progEnd_passes (pulses := pulses) released prog quiet good
    have rest : (s.pulsed pulses).FlashOnly (s.pulsed pulses).progRest := State.flashOnly_progRest _
    have only : s.FlashOnly (((s.pulsed pulses).progRest).setFword (s.physWord w) (FWord.of d)) :=
      ((s.flashOnly_flash _).trans rest).trans (State.flashOnly_setFword _ _ _)
    rw [exec_programEnd few]
    refine ⟨_, State.settle_to h ends only.waiters, ?_, fun x other => ?_, ?_, ?_, only⟩
    · rw [State.fword_setFword, if_pos rfl]
      rfl
    · rw [State.fword_setFword, if_neg other, State.fword_progRest]
      rfl
    · rw [State.setFword, State.progRest_eq]
    · rw [State.setFword, State.progRest_eq]
      rfl
  · have ends := State.progEnd_over (pulses := pulses) released prog quiet own bad pass
    have place : (s.pulsed pulses).progRest.physWord w = s.physWord w := by rw [State.progRest_eq]; rfl
    have waiters : ((s.pulsed pulses).progRest.progOver w d .sys).flashWaiters = s.flashWaiters :=
      (State.flashWaiters_progOver _ w d).trans (State.flashOnly_progRest _).waiters
    rw [exec_programEnd few]
    refine ⟨_, State.settle_to h ends waiters, ?_, ?_, ?_, ?_, fun x other => ?_⟩
    · rw [State.flash_progOver]
    · rw [State.flash_progOver]
    · rw [State.flash_progOver]
    · rw [State.flash_progOver, State.overwritten, State.setFword, State.drawn, State.progRest_eq]
    · rw [State.fword_progOver _ _ _ (by rwa [place]), State.fword_progRest]
      rfl
  · exact State.atSlot_to h ticks (State.flashSlot_blocked blocked) rfl
  · obtain ⟨wipe, starts⟩ := State.flashSlot_starts (s := s.inSlot 2) queue still none may released idle free room blank
      works
    have only := ((s.inSlot 2).flashOnly_admitted x r j).trans ((State.flashOnly_journalled _
      (recWord 0x4A (s.phys x) r s.flash.seq)).trans
      (State.flashOnly_firstPulse _ ⟨x, r, j, 1, s.flash.ring⟩ (s.phys x) wipe))
    refine ⟨_, State.atSlot_to h ticks starts (only.waiters.trans rfl), rfl, rfl, ?_, rfl, rfl, ?_,
      fun a other => ?_, only⟩
    · rw [State.queue_firstPulse, State.flash_journalled]
      rfl
    · rw [State.fword_firstPulse, State.fword_journalled]
      exact if_pos rfl
    · rw [State.fword_firstPulse, State.fword_journalled]
      exact if_neg other
  · rw [if_pos st]
    exact State.settle_to h (State.pulseEnd_fails first more) rfl
  · rw [if_pos st]
    obtain ⟨erases, word, sealed, only⟩ :=
      State.eraseDone_effect (s := s.pulseTaken es) good other quiet room blank works
    have passes := State.pulseEnd_passes first
    refine ⟨_, State.settle_to h passes (only.waiters.trans rfl), erases, ?_, fun x other => ?_, sealed, only⟩
    · rw [word]
      exact if_pos rfl
    · rw [word]
      exact if_neg other
  · rw [if_neg st]

end
section
namespace Sys2Proof.Machine

/-! ## Which words the ledger's records take (R199, R202, R204) -/

theorem exec_ledgerRecovery {pulses : Nat} (h : pulses ≤ 24) (s : State) (fails pass : Bool) :
    exec (.ledgerRecovery fails pass pulses) s = .next (s.ledgerRecover fails pass pulses) :=
  congrArg Host.Outcome.next (if_pos (decide_eq_true h))

theorem State.fword_flash {s : State} {f : Flash} (words : f.words = s.flash.words) (x : Nat) :
    ({ s with flash := f } : State).fword x = s.fword x := by
  unfold State.fword
  rw [words]

section
variable (s : State) (type sector aux : Nat)

theorem State.fword_ledgerFail (p x : Nat) : (s.ledgerFail p).fword x = s.fword x := by
  unfold State.ledgerFail
  rw [State.fword_raise]
  rfl

/-- A word left torn by the program of a record that reached its limit (R197). -/
def State.tornRecord (s : State) (w : Nat) (d : DWord) : State :=
  (s.drawn.setFword w ⟨d, 3, none⟩).ledgerFail (w / 256)

theorem State.fword_tornRecord (w x : Nat) (d : DWord) :
    (s.tornRecord w d).fword x = if x = w then ⟨d, 3, none⟩ else s.fword x :=
  (State.fword_ledgerFail _ _ x).trans (s.drawn.fword_setFword w _ x)

theorem State.fword_recorded (w x : Nat) (d : DWord) :
    (s.recorded w d).fword x = if x = w then FWord.of d else s.fword x := s.drawn.fword_setFword w _ x

theorem State.putRecordIn_torn {s : State} (fails : Config.recordFails s.free = true) (w : Nat) (ws : List Nat) :
    s.putRecordIn type sector aux (w :: ws) =
      (s.tornRecord w (recWord type sector aux s.flash.seq)).putRecordIn type sector aux ws := by
  rw [State.putRecordIn]
  dsimp only
  rw [if_pos fails, State.tornRecord]

/-- A record changes no word but those it may go to. -/
theorem State.fword_putRecordIn_other {x : Nat} {ws : List Nat} (other : x ∉ ws) :
    (s.putRecordIn type sector aux ws).1.fword x = s.fword x := by
  induction ws generalizing s with
  | nil => rfl
  | cons w ws ih =>
    rw [List.mem_cons, not_or] at other
    obtain ⟨here, later⟩ := other
    cases fails : Config.recordFails s.free with
    | true => rw [State.putRecordIn_torn _ _ _ fails, ih _ later, State.fword_tornRecord, if_neg here]
    | false => rw [State.putRecordIn_first fails, State.fword_recorded, if_neg here]

/-- The first word that a record may go to is written, by the record or by its torn program. -/
theorem State.putRecordIn_writes_first {w : Nat} {ws : List Nat} (once : w ∉ ws)
    (data : recWord type sector aux s.flash.seq ≠ BitVec.allOnes 64) :
    (s.putRecordIn type sector aux (w :: ws)).1.fword w ≠ FWord.erased := by
  cases fails : Config.recordFails s.free with
  | true =>
    rw [State.putRecordIn_torn _ _ _ fails, State.fword_putRecordIn_other _ _ _ _ once, State.fword_tornRecord, if_pos rfl]
    intro torn
    have three : 3 = 0 := congrArg FWord.bad torn
    exact absurd three (by decide)
  | false =>
    rw [State.putRecordIn_first fails, State.fword_recorded, if_pos rfl]
    exact fun erased => data (congrArg FWord.data erased)

theorem State.fword_putJournal (x : Nat) :
    (s.putJournal type sector aux).fword x = (s.putRecordIn type sector aux s.journalWords).1.fword x := by
  unfold State.putJournal
  generalize s.putRecordIn type sector aux s.journalWords = q
  dsimp only
  split
  · rfl
  · refine State.fword_flash ?_ x
    rfl

theorem State.fword_grownWait (x : Nat) : (s.grownWait type sector aux).fword x = s.fword x := by
  unfold State.grownWait
  dsimp only
  split <;> rfl

theorem State.sector_of_mem_halfFree {w : Nat} (h : w ∈ s.halfFree s.halfNo) : w / 256 ≤ 521 := by
  have half : s.halfNo ≤ 1 := by
    unfold State.halfNo bitNat
    split <;> omega
  obtain ⟨i, range, rfl⟩ := List.mem_map.mp (List.mem_filter.mp h).1
  have low := List.mem_range.mp range
  omega

/-- The grown bad table ends with sector 521. -/
theorem State.fword_putGrown {x : Nat} (above : 521 < x / 256) : (s.putGrown type sector aux).fword x = s.fword x := by
  have other : x ∉ s.halfFree s.halfNo := fun h => absurd (s.sector_of_mem_halfFree h) (by omega)
  unfold State.putGrown
  dsimp only
  split
  · split
    · rw [State.fword_putRecordIn_other _ _ _ _ other]
    · rw [State.fword_grownWait, State.fword_putRecordIn_other _ _ _ _ other]
  · rw [State.fword_grownWait]

end

/-! ## Ledger recovery (R205) -/

/-- The sector of a cut erase erased again, before its DONE. -/
def State.recovered (s : State) (p : Nat) : State := (s.eraseSector p).sealedErased (s.logicalOf p) .sys

/-- REC of a recovery whose erase passed, and EV76. -/
def State.recoveryNoted (s : State) (p pulses : Nat) : State :=
  { s with flash := { s.flash with recSector := p, recKind := 2, recPulses := pulses % 32 } }.raise 76
    (.sector (s.logicalOf p)) (wordOf (p + 4096 * 2))

theorem State.fword_recoveryNoted (s : State) (p pulses x : Nat) : (s.recoveryNoted p pulses).fword x = s.fword x :=
  State.fword_raise _ _ _ _ x

/-- The CLEARs that are owed (R205). -/
def State.clearsPut (s : State) : State := s.each s.owedClears fun s p => (s.setSuspect p false).putGrown 0x36 p 0

theorem State.fword_clearsPut (s : State) {x : Nat} (above : 521 < x / 256) : s.clearsPut.fword x = s.fword x :=
  State.each_keeps (view := fun s => s.fword x) (fun s p _ => State.fword_putGrown (s.setSuspect p false) _ _ _ above) s

/-- A recovery whose erase passes: the sector erased, then its DONE, then what is owed. -/
theorem State.ledgerRecover_passes {s : State} {d : DWord} (cut : s.openIntent = some d) (sweep : s.sys.sweep = true)
    (run : s.sys.halted = false) (boot : s.sys.bootDone = false) (pulses : Nat) : s.ledgerRecover true true pulses =
      (((s.recovered (recSect d)).putJournal 0x4D (recSect d) 7).recoveryNoted (recSect d) pulses).clearsPut := by
  unfold State.ledgerRecover
  rw [if_neg (by simp [sweep, run, boot]), cut]
  simp only [Bool.true_or, if_true, and_self, if_neg (show ¬(2 = 3) by decide)]
  rfl

/-- A part whose journal holds the INTENT of an erase of sector 530, while the number of the active ring sector is 8:
one more than the last of the eight ring sectors 522 to 529 (R199). -/
def ninthRing : State :=
  { State.reset with
    sys := { Sys.reset with sweep := true },
    flash := { Flash.reset with words := [(522 * 256, FWord.of (recWord 0x4A 530 2 0))], ring := 8 } }

theorem ninthRing_cut : ninthRing.openIntent = some (recWord 0x4A 530 2 0) ∧ recSect (recWord 0x4A 530 2 0) = 530 := by
  decide +kernel

/-- Its journal continues with the first word of sector 530. -/
theorem ninthRing_journal : (ninthRing.recovered 530).journalWords =
    530 * 256 :: (List.range 7).map (fun i => (523 + i) * 256) := by
  decide +kernel

theorem ninthRing_record : recWord 0x4D 530 7 (ninthRing.recovered 530).flash.seq ≠ BitVec.allOnes 64 := by
  decide +kernel

end Sys2Proof.Machine
end
section
open Sys2Proof Sys2Proof.Machine

/-- Refutes O38: the statement holds for every number of the active ring sector, and a number above 7 names a sector
outside the ring. With 8 it names sector 530: the recovery of a cut erase of that sector erases it and then writes the
DONE of the erase, or the torn word of its program, into its first word, which does not read as erased. -/
theorem not_bootRows : ¬ Obligations.BootRows := by
  unfold Obligations.BootRows
  intro h
  obtain ⟨-, -, recovery, -⟩ := h ninthRing
  obtain ⟨-, -, recovers⟩ := recovery true true 1 (by decide)
  obtain ⟨cut, sect⟩ := ninthRing_cut
  obtain ⟨n, recovered, -, -, erased, -⟩ := recovers _ cut rfl rfl rfl
  rw [exec_ledgerRecovery (by decide)] at recovered
  have same : ninthRing.ledgerRecover true true 1 = n := Host.Outcome.next.inj recovered
  have blank := erased rfl rfl (by rw [sect]; decide) (530 * 256) (by rw [sect])
  rw [← same, State.ledgerRecover_passes cut rfl rfl rfl, State.fword_clearsPut _ (by decide),
    State.fword_recoveryNoted, sect, State.fword_putJournal, ninthRing_journal] at blank
  exact State.putRecordIn_writes_first _ _ _ _ (by decide) ninthRing_record blank

end
section
namespace Sys2Proof.Machine

/-! ## STORE and LOAD (R220, R221, R222, R224) -/

theorem exec_store (s : State) (t : Fin 32) : exec (.store t) s = .next (s.withRun t.val 0x38 State.runStore) := rfl
theorem exec_load (s : State) (t : Fin 32) : exec (.load t) s = .next (s.withRun t.val 0x39 State.runLoad) := rfl

/-- The slot that the next record goes to: the one not in force (R221). -/
def nextSlot : Option (Nat × Nat × List Byte) → Nat
  | some q => 1 - q.1
  | none => 0

/-- The GEN of the next record: the one after the GEN in force (R221). -/
def nextGen : Option (Nat × Nat × List Byte) → Nat
  | some q => q.2.1 + 1
  | none => 1

/-- A STORE goes on working, and the operations of its record join the flash operations (R221). -/
def State.storeRecord (s : State) (r : Run) (bs : List Byte) : State :=
  let f := s.inForce false r.ten
  (f.1.setRun r.id .working).enqueueNew
    (f.1.recordOps false r.ten (nextSlot f.2.1) (nextGen f.2.1) bs 1 (.cmd r.id))

/-- The end of a LOAD whose settings area may be read (R222). -/
def State.loadRecord (s : State) (r : Run) (w o n : Nat) : State :=
  let f := s.inForce false r.ten
  match f.2.1 with
  | some q => f.1.loadBody r w o n q.2.1 q.2.2
  | none => if f.2.2 then f.1.finish r 4 [] else f.1.ok r []

section
variable {s : State} {r : Run}

theorem State.loadRecord_body {w o n : Nat} {q : Nat × Nat × List Byte} (valid : (s.inForce false r.ten).2.1 = some q) :
    s.loadRecord r w o n = (s.inForce false r.ten).1.loadBody r w o n q.2.1 q.2.2 := by
  unfold State.loadRecord
  dsimp only
  rw [valid]

theorem State.loadRecord_empty {w o n : Nat} (none : (s.inForce false r.ten).2.1 = none)
    (read : (s.inForce false r.ten).2.2 = false) :
    s.loadRecord r w o n = (s.inForce false r.ten).1.finish r 0 [] := by
  unfold State.loadRecord
  dsimp only
  rw [none, read]
  rfl

theorem State.loadRecord_uncorrectable {w o n : Nat} (none : (s.inForce false r.ten).2.1 = none)
    (unread : (s.inForce false r.ten).2.2 = true) :
    s.loadRecord r w o n = (s.inForce false r.ten).1.finish r 4 [] := by
  unfold State.loadRecord
  dsimp only
  rw [none, unread]
  rfl

theorem State.runStore_held (test : s.testing 2 = true) : s.runStore r = s.hold (.run r.id) := if_pos (.inl test)
theorem State.runLoad_held (test : s.testing 2 = true) : s.runLoad r = s.hold (.run r.id) := if_pos (.inl test)

/-- What holds a STORE or a LOAD, as their check has it. -/
theorem State.record_unheld {w o n : Nat} (free : s.testing 2 = false) (unheld : s.rangeHeld r.ten w o n = false) :
    ¬(s.testing 2 = true ∨ s.rangeHeld r.ten w o n = true) := by
  rw [free, unheld]
  exact fun h => h.elim Bool.false_ne_true Bool.false_ne_true

section
variable {w o n k : Nat} (args : recordArgs r = (w, o, n, k)) (free : s.testing 2 = false)
  (unheld : s.rangeHeld r.ten w o n = false)
include args free unheld

theorem State.runStore_waits (earlier : s.storing r = true) : s.runStore r = s := by
  unfold State.runStore
  rw [args]
  exact (if_neg (State.record_unheld free unheld)).trans (if_pos earlier)

theorem State.runLoad_waits (earlier : s.storing r = true) : s.runLoad r = s := by
  unfold State.runLoad
  rw [args]
  exact (if_neg (State.record_unheld free unheld)).trans (if_pos earlier)

variable (alone : s.storing r = false)
include alone

theorem State.runStore_denied (other : (s.ten r.ten).wType w ≠ 2) : s.runStore r = s.finish r 2 [] := by
  unfold State.runStore
  rw [args]
  exact (if_neg (State.record_unheld free unheld)).trans ((if_neg (Bool.eq_false_iff.mp alone)).trans (if_pos other))

theorem State.runLoad_denied (other : (s.ten r.ten).wType w ≠ 2) : s.runLoad r = s.finish r 2 [] := by
  unfold State.runLoad
  rw [args]
  exact (if_neg (State.record_unheld free unheld)).trans ((if_neg (Bool.eq_false_iff.mp alone)).trans (if_pos other))

variable (scratch : (s.ten r.ten).wType w = 2) (on : s.up 5 = true) (unclamped : k = 0)
include scratch on unclamped

section
variable (clean : (s.under r).winErrs r.ten w false (wordOffs o n) = none)
include clean

theorem State.runStore_noSpace (long : 8176 < n) : s.runStore r = s.finish r 6 [] := by
  unfold State.runStore
  rw [args, unclamped]
  refine (if_neg (State.record_unheld free unheld)).trans ((if_neg (Bool.eq_false_iff.mp alone)).trans
    ((if_neg (not_not_intro scratch)).trans ?_))
  rw [clean]
  refine (if_neg (by simp [on])).trans ((if_pos long).trans ?_)
  rw [State.argClamps_zero]

/-- Content that is read whole, with nothing that keeps the area busy, becomes the next record. -/
theorem State.runStore_stores (fits : n ≤ 8176) {x : State} {bs : List Byte}
    (read : s.committedBytes r.ten w o n = (x, some bs)) (idle : x.testing 2 = false)
    (still : (areaSectors r.ten).any x.erasing = false) (quiet : x.flashBusy = false) :
    s.runStore r = x.storeRecord r bs := by
  unfold State.runStore
  rw [args, unclamped]
  refine (if_neg (State.record_unheld free unheld)).trans ((if_neg (Bool.eq_false_iff.mp alone)).trans
    ((if_neg (not_not_intro scratch)).trans ?_))
  rw [clean]
  refine (if_neg (by simp [on])).trans ((if_neg (by omega)).trans ?_)
  rw [read]
  refine (State.flashFor_now idle still quiet _).trans ?_
  rw [State.argClamps_zero]
  rfl

end

/-- With nothing that keeps the area busy, a LOAD ends with the record in force. -/
theorem State.runLoad_loads (clean : (s.under r).winErrs r.ten w true (wordOffs o n) = none)
    (still : (areaSectors r.ten).any s.erasing = false) (quiet : s.flashBusy = false) :
    s.runLoad r = s.loadRecord r w o n := by
  unfold State.runLoad
  rw [args, unclamped]
  refine (if_neg (State.record_unheld free unheld)).trans ((if_neg (Bool.eq_false_iff.mp alone)).trans
    ((if_neg (not_not_intro scratch)).trans ?_))
  rw [clean]
  refine (if_neg (by simp [on])).trans ((State.flashFor_now free still quiet _).trans ?_)
  rw [State.argClamps_zero]
  rfl

end

end

end Sys2Proof.Machine
end
section
open Sys2Proof Sys2Proof.Machine

/-- Settles O25: each command held, waiting, denied, or carried out by what its record finds. -/
theorem settingsCommands : Obligations.SettingsCommands := by
  unfold Obligations.SettingsCommands
  intro s t r
  simp only [exec_store, exec_load]
  obtain ⟨w, o, n, k, args⟩ : ∃ w o n k, recordArgs r = (w, o, n, k) := ⟨_, _, _, _, rfl⟩
  rw [args]
  refine ⟨fun test => ⟨fun run => ?_, fun run => ?_⟩, fun free unheld =>
    ⟨fun earlier => ⟨fun run => ?_, fun run => ?_⟩, fun alone unclamped run => ?_, fun alone unclamped run => ?_⟩⟩
  all_goals rw [State.withRun_some run]
  · rw [State.runStore_held test]
  · rw [State.runLoad_held test]
  · rw [State.runStore_waits args free unheld earlier]
  · rw [State.runLoad_waits args free unheld earlier]
  · refine ⟨fun other => ?_, fun scratch clean on => ⟨fun long => ?_, fun fits x bs read idle still quiet => ?_⟩⟩
    · rw [State.runStore_denied args free unheld alone other]
    · rw [State.runStore_noSpace args free unheld alone scratch on unclamped clean long]
    · rw [State.runStore_stores args free unheld alone scratch on unclamped clean fits read idle still quiet]
      rfl
  · refine ⟨fun other => ?_, fun scratch clean on still quiet => ?_⟩
    · rw [State.runLoad_denied args free unheld alone other]
    · rw [State.runLoad_loads args free unheld alone scratch on unclamped clean still quiet]
      exact ⟨fun none read => congrArg _ (State.loadRecord_empty none read),
        fun none unread => congrArg _ (State.loadRecord_uncorrectable none unread),
        fun q valid => congrArg _ (State.loadRecord_body valid)⟩

end

section
/-! PROOFS. The hops of the link (O44 to O46): what the operations on a port change and what they keep; then hop delay
and LINKCTL (O46). -/

namespace Sys2Proof.Machine

/-! ## The state of a port (R230, R255) -/

section
variable {s : State} {dn : Bool}

theorem State.hopIsUp_iff : s.hopIsUp dn = true ↔ s.linkOn dn = true ∧ (s.lport dn).st = .up := by
  simp [State.hopIsUp]

theorem State.receiving_iff : s.receiving dn = true ↔ s.linkOn dn = true ∧ (s.lport dn).st ≠ .off := by
  simp [State.receiving]

theorem State.receiving_eq_false : s.receiving dn = false ↔ s.linkOn dn = false ∨ (s.lport dn).st = .off := by
  rw [← Bool.not_eq_true, State.receiving_iff, not_and_or, Bool.not_eq_true, not_not]

theorem State.receiving_of_up (h : s.hopIsUp dn = true) : s.receiving dn = true := by
  obtain ⟨on, st⟩ := State.hopIsUp_iff.mp h
  exact State.receiving_iff.mpr ⟨on, by rw [st]; nofun⟩

theorem State.enabled_of_linkOn (on : s.linkOn dn = true) : (s.lport dn).en = true := by
  simp only [State.linkOn, Bool.and_eq_true] at on
  exact on.2

end

/-! ## A port or a class changed -/

section
variable (s : State) (dn : Bool)

@[simp] theorem State.lport_updLport_self (f : LinkPort → LinkPort) : (s.updLport dn f).lport dn = f (s.lport dn) := by
  cases dn <;> rfl

@[simp] theorem State.lport_updLport_other (f : LinkPort → LinkPort) :
    (s.updLport dn f).lport (!dn) = s.lport (!dn) := by cases dn <;> rfl

theorem State.lport_raise (e : Nat) (d : Dest) (v : Word) (b : Bool) : (s.raise e d v).lport b = s.lport b := by
  rw [State.lport, State.raise_link]; rfl

/-- The state of a port that works sends: what it has sent grows by the item. -/
theorem State.emit_enabled (en : (s.lport dn).en = true) (i : LinkItem) :
    s.emit dn i = s.updLport dn fun p => { p with sent := i :: p.sent } := if_pos en

theorem satAdd_eq_min (max n k : Nat) : satAdd max n k = min max (n + k) := by unfold satAdd; split <;> omega

theorem State.countCode_eq : s.countCode = { s with link := { s.link with code := min 65535 (s.link.code + 1) } } := by
  rw [← sat16_eq_min]
  rfl

theorem State.countCodes_eq (k : Nat) :
    s.countCodes k = { s with link := { s.link with code := min 65535 (s.link.code + k) } } := by
  rw [← satAdd_eq_min]
  rfl

end

/-! ## A change of nothing but the link -/

/-- `n` differs from `s` in nothing but the link. -/
def State.OnlyLink (s n : State) : Prop := n = { s with link := n.link }

theorem State.OnlyLink.trans {s m n : State} (h : s.OnlyLink m) (g : m.OnlyLink n) : s.OnlyLink n := by
  unfold State.OnlyLink at *
  rw [g, h]

theorem State.OnlyPorts.onlyLink {s n : State} (h : s.OnlyPorts n) : s.OnlyLink n := by
  obtain ⟨_, _, rfl⟩ := h
  rfl

theorem State.updLink_onlyLink (s : State) (f : Link → Link) : s.OnlyLink (s.updLink f) := rfl

/-! ## What a port keeps while frames and sets are sent (R230, R233, R234) -/

/-- A port's state, its HSEQ expected and the CREDIT it was given are kept, and what it has sent is sent still. -/
structure LinkPort.Sends (p q : LinkPort) : Prop where
  en : q.en = p.en
  st : q.st = p.st
  rxLock : q.rxLock = p.rxLock
  gotCredit : q.gotCredit = p.gotCredit
  expect : ∀ rsp, (q.cls rsp).expect = (p.cls rsp).expect
  credit : ∀ rsp, (q.cls rsp).credit = (p.cls rsp).credit
  sent : p.sent ⊆ q.sent

theorem LinkPort.Sends.refl (p : LinkPort) : p.Sends p := ⟨rfl, rfl, rfl, rfl, fun _ => rfl, fun _ => rfl, fun _ h => h⟩

/-- Both ports send at most, the code errors counted are kept and so is the power of PD_LINK. -/
structure State.Sends (s n : State) : Prop where
  port : ∀ dn, (s.lport dn).Sends (n.lport dn)
  code : n.link.code = s.link.code
  power : n.up 4 = s.up 4

theorem State.Sends.refl (s : State) : s.Sends s := ⟨fun _ => .refl _, rfl, rfl⟩

theorem State.Sends.trans {s m n : State} (h : s.Sends m) (g : m.Sends n) : s.Sends n where
  port dn :=
    let p := h.port dn
    let q := g.port dn
    { en := q.en.trans p.en
      st := q.st.trans p.st
      rxLock := q.rxLock.trans p.rxLock
      gotCredit := q.gotCredit.trans p.gotCredit
      expect := fun rsp => (q.expect rsp).trans (p.expect rsp)
      credit := fun rsp => (q.credit rsp).trans (p.credit rsp)
      sent := List.Subset.trans p.sent q.sent }
  code := g.code.trans h.code
  power := g.power.trans h.power

theorem State.Sends.linkOn {s n : State} (h : s.Sends n) (dn : Bool) : n.linkOn dn = s.linkOn dn := by
  rw [State.linkOn, h.power, (h.port dn).en, State.linkOn]

/-- Neither port is touched. -/
theorem State.Sends.of_ports {s n : State} (up : n.link.up = s.link.up := by rfl)
    (down : n.link.dn = s.link.dn := by rfl) (code : n.link.code = s.link.code := by rfl)
    (power : n.up 4 = s.up 4 := by rfl) : s.Sends n where
  port dn := by
    have same : n.lport dn = s.lport dn := by rw [State.lport, State.lport, up, down]
    rw [same]
    exact .refl _
  code := code
  power := power

section
variable (s : State) (dn : Bool)

theorem State.updLink_sends {f : Link → Link} (up : ∀ k, (f k).up = k.up := by intro; rfl)
    (down : ∀ k, (f k).dn = k.dn := by intro; rfl) (code : ∀ k, (f k).code = k.code := by intro; rfl) :
    s.Sends (s.updLink f) := .of_ports (up _) (down _) (code _)

theorem State.updLport_sends {f : LinkPort → LinkPort} (h : (s.lport dn).Sends (f (s.lport dn))) :
    s.Sends (s.updLport dn f) where
  port b := by
    by_cases same : b = dn
    · rw [same, State.lport_updLport_self]
      exact h
    · obtain rfl : b = !dn := Bool.eq_not.mpr same
      rw [State.lport_updLport_other]
      exact .refl _
  code := by cases dn <;> rfl
  power := rfl

theorem State.emit_sends (i : LinkItem) : s.Sends (s.emit dn i) := by
  unfold State.emit
  split
  · exact s.updLport_sends dn ⟨rfl, rfl, rfl, rfl, fun _ => rfl, fun _ => rfl, List.subset_cons_self _ _⟩
  · exact .refl s

theorem State.updCls_sends (rsp : Bool) {f : LinkCls → LinkCls}
    (expect : ∀ c, (f c).expect = c.expect := by intro; rfl) (credit : ∀ c, (f c).credit = c.credit := by intro; rfl) :
    s.Sends (s.updCls dn rsp f) := by
  refine s.updLport_sends dn ?_
  cases rsp
  · exact ⟨rfl, rfl, rfl, rfl, fun r => by cases r <;> simp [LinkPort.cls, expect],
      fun r => by cases r <;> simp [LinkPort.cls, credit], fun _ h => h⟩
  · exact ⟨rfl, rfl, rfl, rfl, fun r => by cases r <;> simp [LinkPort.cls, expect],
      fun r => by cases r <;> simp [LinkPort.cls, credit], fun _ h => h⟩

theorem State.raise_sends (e : Nat) (d : Dest) (v : Word) : s.Sends (s.raise e d v) :=
  .of_ports (by rw [State.raise_link]) (by rw [State.raise_link]) (by rw [State.raise_link]) (s.up_raise e d v 4)

theorem State.trySend_sends (n : Nat) : s.Sends (State.trySend n dn s) := by
  induction n generalizing s with
  | zero => exact .refl s
  | succ n ih =>
    unfold State.trySend
    dsimp only
    split
    · exact .refl s
    · split
      · exact ((s.updCls_sends dn _).trans (State.emit_sends _ dn _)).trans (ih _)
      · exact .refl s

theorem State.flushPort_sends : s.Sends (s.flushPort dn) := s.trySend_sends dn _

theorem State.sendOn_sends (relay : Bool) (b : List Byte) : s.Sends (s.sendOn dn relay b) :=
  (s.updCls_sends dn _).trans (State.flushPort_sends _ dn)

theorem State.sendUp_sends (b : List Byte) : s.Sends (s.sendUp b) := by
  unfold State.sendUp
  split
  · exact s.sendOn_sends false false b
  · exact .refl s

theorem State.notice_sends (kind ftag : Nat) : s.Sends (s.notice kind ftag) := s.sendUp_sends _

theorem State.freeRelay_sends (k : Nat) : s.Sends (s.freeRelay dn k) := by
  unfold State.freeRelay
  split
  · exact .refl s
  · exact (s.updCls_sends dn dn).trans (State.emit_sends _ dn _)

theorem State.breakDown_sends : s.Sends s.breakDown := by
  have unbound : s.Sends (s.updLink fun k => { k with bound := false }) := s.updLink_sends
  unfold State.breakDown
  dsimp only
  split
  · exact unbound.trans (State.emit_sends _ true _)
  · exact unbound

theorem State.dropFrames_sends : s.Sends (s.dropFrames dn) := by
  unfold State.dropFrames
  dsimp only
  split
  · exact .refl s
  · exact (((s.updCls_sends dn _).trans (State.updLink_sends _)).trans (State.raise_sends _ _ _ _)).trans
      (State.freeRelay_sends _ _ _)

theorem State.askDelay_sends : s.Sends (s.askDelay dn) :=
  (s.updLport_sends dn ⟨rfl, rfl, rfl, rfl, fun _ => rfl, fun _ => rfl, fun _ h => h⟩).trans (State.emit_sends _ dn _)

/-- The NOTICEs AWAKE that go out change the UP port and what is owed (R251). -/
theorem State.awakeSend_keeps : s.Sends s.awakeSend ∧ s.OnlyLink s.awakeSend := by
  have fold (l : List (Option Nat)) (m : State) :
      m.Sends (l.foldl (fun s n => s.notice 1 (n.getD 0)) m) ∧
        m.OnlyLink (l.foldl (fun s n => s.notice 1 (n.getD 0)) m) := by
    induction l generalizing m with
    | nil => exact ⟨.refl m, rfl⟩
    | cons n l ih =>
      obtain ⟨sends, only⟩ := ih (m.notice 1 (n.getD 0))
      exact ⟨(m.notice_sends 1 _).trans sends, (m.sendUp_onlyPorts _).onlyLink.trans only⟩
  unfold State.awakeSend
  split
  · obtain ⟨sends, only⟩ := fold s.link.awake (s.updLink fun k => { k with awake := [] })
    exact ⟨.trans (.of_ports) sends, .trans (s.updLink_onlyLink _) only⟩
  · exact ⟨.refl s, rfl⟩

end

/-! ## A hop that goes down, off or into training (R230, R231, R242, R253) -/

section
variable (s : State) (dn : Bool)

theorem State.lport_updCls_other (rsp : Bool) (f : LinkCls → LinkCls) :
    (s.updCls dn rsp f).lport (!dn) = s.lport (!dn) := s.lport_updLport_other dn _

theorem State.lport_emit_other (i : LinkItem) : (s.emit dn i).lport (!dn) = s.lport (!dn) := by
  unfold State.emit
  split
  · exact s.lport_updLport_other dn _
  · rfl

/-- Relay buffers freed on the other port leave a port as it was. -/
theorem State.lport_freeRelay_other (k : Nat) : (s.freeRelay (!dn) k).lport dn = s.lport dn := by
  unfold State.freeRelay State.sendCredit
  split
  · rfl
  · have emitted := State.lport_emit_other (s.updCls (!dn) (!dn) fun c => { c with freed := (c.freed + k) % 256 }) (!dn)
      (.credit (bitNat !dn) (((s.updCls (!dn) (!dn) fun c => { c with freed := (c.freed + k) % 256 }).lport (!dn)).cls
        (!dn)).freed)
    have changed := s.lport_updCls_other (!dn) (!dn) fun c => { c with freed := (c.freed + k) % 256 }
    rw [Bool.not_not] at emitted changed
    exact emitted.trans changed

theorem State.freeRelay_onlyPorts (k : Nat) : s.OnlyPorts (s.freeRelay dn k) := by
  unfold State.freeRelay
  split
  · exact .refl s
  · exact (s.updCls_onlyPorts dn dn _).trans (State.emit_onlyPorts _ dn _)

/-- No frame is left on a port. -/
def State.Dropped : Prop := (s.sending dn).unacked = [] ∧ (s.sending dn).queue = []

theorem State.dropFrames_dropped : (s.dropFrames dn).Dropped dn := by
  unfold State.Dropped State.dropFrames
  dsimp only
  split
  · next none =>
    obtain ⟨queue, unacked⟩ := Nat.add_eq_zero_iff.mp none
    exact ⟨List.eq_nil_of_length_eq_zero unacked, List.eq_nil_of_length_eq_zero queue⟩
  · rw [State.sending, State.lport_freeRelay_other, State.lport_raise]
    have emptied := s.sending_updSending dn fun c => { c with queue := [], unacked := [] }
    exact ⟨congrArg LinkCls.unacked emptied, congrArg LinkCls.queue emptied⟩

/-- Of the link a hop that changes its state changes that alone; its event changes nothing there. -/
theorem State.setHop_link (st : HopSt) : (s.setHop dn st).link = (s.updLport dn fun p => { p with st := st }).link := by
  unfold State.setHop
  split
  · next same => rw [← same]; cases dn <;> rfl
  · rw [State.raise_link]

theorem State.up_setHop (st : HopSt) (d : Nat) : (s.setHop dn st).up d = s.up d := by
  unfold State.setHop
  split
  · rfl
  · rw [State.up_raise]; rfl

theorem State.lport_setHop_self (st : HopSt) : (s.setHop dn st).lport dn = { s.lport dn with st := st } := by
  rw [State.lport, State.setHop_link, ← State.lport, State.lport_updLport_self]

theorem State.setHop_keeps (st : HopSt) :
    (s.setHop dn st).link.code = s.link.code ∧ (s.setHop dn st).linkOn dn = s.linkOn dn := by
  unfold State.linkOn
  rw [State.up_setHop, State.lport_setHop_self, State.setHop_link]
  exact ⟨by cases dn <;> rfl, rfl⟩

theorem State.breakDown_unbound : s.breakDown.link.bound = false := by
  unfold State.breakDown
  dsimp only
  split
  · obtain ⟨_, _, emitted⟩ := (s.updLink fun k => { k with bound := false }).emit_onlyPorts true .breakSet
    exact (congrArg (·.link.bound) emitted).trans rfl
  · rfl

/-- A port that trains has no lock, no CREDIT and no frame; the other port and the rest of the link stay. -/
theorem State.train_trains (on : s.linkOn dn = true) :
    ((s.train dn).lport dn).st = .training ∧ ((s.train dn).lport dn).rxLock = false ∧
      ((s.train dn).lport dn).gotCredit = false ∧ (s.train dn).Dropped dn ∧ (s.train dn).link.code = s.link.code ∧
      (s.train dn).link.bound = s.link.bound := by
  unfold State.train
  rw [if_neg (by simp [on])]
  dsimp only
  rw [State.Dropped, State.sending, State.lport_setHop_self, State.setHop_link, State.lport_updLport_self]
  cases dn <;> exact ⟨rfl, rfl, rfl, ⟨rfl, rfl⟩, rfl, rfl⟩

/-- A hop that goes DOWN retrains, with its frames dropped; the loss of UP leaves the device unbound (R231, R242). -/
theorem State.hopDown_retrains (on : s.linkOn dn = true) :
    ((s.hopDown dn).lport dn).st = .training ∧ (s.hopDown dn).Dropped dn ∧ (s.hopDown dn).link.code = s.link.code ∧
      (dn = false → (s.hopDown dn).link.bound = false) := by
  have dropped := s.dropFrames_sends dn
  obtain ⟨code, works⟩ := (s.dropFrames dn).setHop_keeps dn .down
  unfold State.hopDown
  generalize (s.dropFrames dn).setHop dn .down = m at code works ⊢
  have told : m.Sends (if dn then m.notice 3 0 else m.breakDown) := by
    split
    · exact m.notice_sends 3 0
    · exact m.breakDown_sends
  have works : (if dn then m.notice 3 0 else m.breakDown).linkOn dn = true :=
    (told.linkOn dn).trans (works.trans ((dropped.linkOn dn).trans on))
  obtain ⟨training, -, -, empty, count, bound⟩ := State.train_trains _ dn works
  refine ⟨training, empty, count.trans (told.code.trans (code.trans dropped.code)), ?_⟩
  rintro rfl
  exact bound.trans m.breakDown_unbound

/-- A hop that goes OFF has no lock and no CREDIT, and its frames are dropped (R231, R253). -/
theorem State.hopOff_off :
    ((s.hopOff dn).lport dn).st = .off ∧ ((s.hopOff dn).lport dn).rxLock = false ∧ (s.hopOff dn).Dropped dn := by
  have dropped := s.dropFrames_dropped dn
  unfold State.Dropped State.sending at dropped ⊢
  unfold State.hopOff
  rw [State.lport_updLport_self, State.lport_setHop_self]
  exact ⟨rfl, rfl, dropped⟩

end

/-! ## Hop delay and LINKCTL (R227, R230, R242) -/

section
variable {s : State} {dn : Bool}

theorem exec_dlyReq (s : State) (dn : Bool) (id : Option Byte) (turn : BitVec 16) :
    exec (.dlyReq dn id turn) s = .next (s.idSet dn id fun s i => s.dlyReq dn i turn.toNat) := rfl
theorem exec_dlyRsp (s : State) (dn : Bool) (id : Option Byte) (turn : BitVec 16) (round : Nat) :
    exec (.dlyRsp dn id turn round) s = .next (s.idSet dn id fun s i => s.dlyRsp dn i turn.toNat round) := rfl
theorem exec_delayRemeasure (s : State) (dn : Bool) :
    exec (.delayRemeasure dn) s = .next (if s.hopIsUp dn then s.askDelay dn else s) := rfl
theorem exec_linkctlBreak (s : State) (dn : Bool) (code : Option Byte) (notCode : Byte) :
    exec (.linkctlBreak dn code notCode) s = .next (s.linkctl dn code notCode 1) := rfl
theorem exec_linkctlSleep (s : State) (dn : Bool) (code : Option Byte) (notCode : Byte) :
    exec (.linkctlSleep dn code notCode) s = .next (s.linkctl dn code notCode 2) := rfl

/-- A set that is discarded: counted while the port receives (R227). -/
def State.discardSet (s : State) (dn : Bool) : State := if s.receiving dn then s.countCode else s

theorem State.discardSet_deaf (h : s.linkOn dn = false ∨ (s.lport dn).st = .off) : s.discardSet dn = s :=
  if_neg (by rw [State.receiving_eq_false.mpr h]; nofun)

theorem State.discardSet_receiving (h : s.receiving dn = true) :
    s.discardSet dn = { s with link := { s.link with code := min 65535 (s.link.code + 1) } } :=
  (if_pos h).trans s.countCode_eq

theorem State.idSet_some (id : Byte) (f : State → Nat → State) : s.idSet dn (some id) f = f s id.toNat := rfl
theorem State.idSet_none (f : State → Nat → State) : s.idSet dn none f = s.discardSet dn := rfl

theorem State.linkctl_none (notCode want : Byte) : s.linkctl dn none notCode want = s.discardSet dn := by
  unfold State.linkctl State.discardSet
  cases s.receiving dn <;> rfl

theorem State.linkctl_deaf (h : s.linkOn dn = false ∨ (s.lport dn).st = .off) (code : Option Byte)
    (notCode want : Byte) : s.linkctl dn code notCode want = s := if_pos (State.receiving_eq_false.mpr h)

/-- A LINKCTL that is heard. -/
theorem State.linkctl_some (h : s.receiving dn = true) (code notCode want : Byte) :
    s.linkctl dn (some code) notCode want =
      if notCode ≠ ~~~code then s.countCode
      else if code ≠ want then s
      else if code = 1 then (if dn then s else s.breakDown)
      else if (s.lport dn).st = .up then s.hopOff dn else s := if_neg (by simp [h])

theorem State.linkctl_unlike (h : s.receiving dn = true) {code notCode : Byte} (unlike : notCode ≠ ~~~code)
    (want : Byte) : s.linkctl dn (some code) notCode want =
      { s with link := { s.link with code := min 65535 (s.link.code + 1) } } :=
  (State.linkctl_some h code notCode want).trans ((if_pos unlike).trans s.countCode_eq)

section
variable (h : s.receiving dn = true) {code notCode : Byte} (like : notCode = ~~~code)
include h like

theorem State.linkctl_other {want : Byte} (other : code ≠ want) : s.linkctl dn (some code) notCode want = s :=
  (State.linkctl_some h code notCode want).trans ((if_neg (not_not.mpr like)).trans (if_pos other))

theorem State.linkctl_break (one : code = 1) :
    s.linkctl dn (some code) notCode 1 = if dn then s else s.breakDown :=
  (State.linkctl_some h code notCode 1).trans
    ((if_neg (not_not.mpr like)).trans ((if_neg (not_not.mpr one)).trans (if_pos one)))

theorem State.linkctl_sleep (two : code = 2) :
    s.linkctl dn (some code) notCode 2 = if (s.lport dn).st = .up then s.hopOff dn else s :=
  (State.linkctl_some h code notCode 2).trans
    ((if_neg (not_not.mpr like)).trans ((if_neg (not_not.mpr two)).trans (if_neg (by rw [two]; decide))))

end

theorem State.dlyReq_unlocked (h : s.linkOn dn = false ∨ (s.lport dn).rxLock = false) (id turn : Nat) :
    s.dlyReq dn id turn = s :=
  if_neg fun ⟨on, lock⟩ => h.elim (fun dead => Bool.false_ne_true (dead.symm.trans on))
    fun unlocked => Bool.false_ne_true (unlocked.symm.trans lock)

theorem State.dlyReq_locked (on : s.linkOn dn = true) (lock : (s.lport dn).rxLock = true) (id turn : Nat) :
    s.dlyReq dn id turn = s.updLport dn fun p => { p with sent := .dlyRsp id turn :: p.sent } :=
  (if_pos ⟨on, lock⟩).trans (s.emit_enabled dn (State.enabled_of_linkOn on) _)

theorem State.dlyRsp_other {id : Nat} (h : s.hopIsUp dn = false ∨ (s.lport dn).dlyId ≠ id) (turn round : Nat) :
    s.dlyRsp dn id turn round = s :=
  if_neg fun ⟨up, own⟩ => h.elim (fun down => Bool.false_ne_true (down.symm.trans up)) fun other => other own

theorem State.dlyRsp_own {id : Nat} (up : s.hopIsUp dn = true) (own : (s.lport dn).dlyId = id) (turn round : Nat) :
    s.dlyRsp dn id turn round = s.updLport dn fun p => { p with dly := ((round - turn) / 2 :: p.dly).take 8 } :=
  if_pos ⟨up, own⟩

/-- DLY_REQ goes out with the next ID on a port that works. -/
theorem State.askDelay_enabled (en : (s.lport dn).en = true) :
    s.askDelay dn = s.updLport dn fun p =>
      { p with dlyId := (p.dlyId + 1) % 256, sent := .dlyReq ((p.dlyId + 1) % 256) :: p.sent } := by
  have asked : ((s.updLport dn fun p => { p with dlyId := (p.dlyId + 1) % 256 }).lport dn).en = true := by
    rw [State.lport_updLport_self]
    exact en
  refine (State.emit_enabled _ dn asked _).trans ?_
  cases dn <;> rfl

/-- A change of one port: that port, the other port, and the rest. -/
theorem State.updLport_effect (s : State) (dn : Bool) (f : LinkPort → LinkPort) :
    (s.updLport dn f).lport dn = f (s.lport dn) ∧ (s.updLport dn f).lport (!dn) = s.lport (!dn) ∧
      s.OnlyLink (s.updLport dn f) :=
  ⟨s.lport_updLport_self dn f, s.lport_updLport_other dn f, rfl⟩

theorem State.breakDown_last (down : s.hopIsUp true = false) :
    s.breakDown = { s with link := { s.link with bound := false } } :=
  if_neg fun up => Bool.false_ne_true (down.symm.trans up)

theorem State.breakDown_goesOn (up : s.hopIsUp true = true) :
    s.breakDown.link.bound = false ∧ (s.breakDown.lport true).sent = .breakSet :: (s.lport true).sent := by
  refine ⟨s.breakDown_unbound, ?_⟩
  have goes : s.breakDown = (s.updLink fun k => { k with bound := false }).emit true .breakSet := if_pos up
  have en : ((s.updLink fun k => { k with bound := false }).lport true).en = true :=
    State.enabled_of_linkOn (State.hopIsUp_iff.mp up).1
  rw [goes, State.emit_enabled _ _ en]
  rfl

end

end Sys2Proof.Machine

section
open Sys2Proof Sys2Proof.Machine

/-- Settles O46: the delay sets by the port they come on, sets with a code error, the measurement, and each LINKCTL. -/
theorem delayAndControlRows : Obligations.DelayAndControlRows := by
  unfold Obligations.DelayAndControlRows
  intro s dn
  refine ⟨fun id turn round => ?_, fun c among turn round notCode => ?_, fun up => ?_, fun down => ?_,
    fun code notCode => ⟨fun deaf => ?_, fun on st => ?_⟩⟩
  · simp only [exec_dlyReq, exec_dlyRsp, State.idSet_some]
    refine ⟨fun on lock => ⟨_, rfl, ?_⟩, fun deaf => ?_, fun up own => ⟨_, rfl, ?_⟩, fun other => ?_⟩
    · rw [State.dlyReq_locked on lock]
      exact s.updLport_effect dn _
    · rw [State.dlyReq_unlocked deaf]
    · rw [State.dlyRsp_own up own]
      exact s.updLport_effect dn _
    · rw [State.dlyRsp_other other]
  · have discards : exec (c turn round notCode) s = .next (s.discardSet dn) := by
      simp only [List.mem_cons, List.not_mem_nil, or_false] at among
      rcases among with rfl | rfl | rfl | rfl
      · exact congrArg Host.Outcome.next (State.idSet_none _)
      · exact congrArg Host.Outcome.next (State.idSet_none _)
      · exact congrArg _ (State.linkctl_none notCode 1)
      · exact congrArg _ (State.linkctl_none notCode 2)
    rw [discards]
    refine ⟨fun deaf => ?_, fun on st => ?_⟩
    · rw [State.discardSet_deaf deaf]
    · rw [State.discardSet_receiving (State.receiving_iff.mpr ⟨on, st⟩)]
  · rw [exec_delayRemeasure, if_pos up, State.askDelay_enabled (State.enabled_of_linkOn (State.hopIsUp_iff.mp up).1)]
    exact ⟨_, rfl, s.updLport_effect dn _⟩
  · rw [exec_delayRemeasure, if_neg (by simp [down])]
  · rw [exec_linkctlBreak, exec_linkctlSleep, State.linkctl_deaf deaf, State.linkctl_deaf deaf]
    exact ⟨rfl, rfl⟩
  · have heard := State.receiving_iff.mpr ⟨on, st⟩
    simp only [exec_linkctlBreak, exec_linkctlSleep]
    refine ⟨fun unlike => ?_, fun like => ⟨fun other => ?_, fun other => ?_, fun one down => ?_, fun one up last => ?_,
      fun one up further => ⟨_, rfl, ?_⟩, fun two st => ?_, fun two st => ⟨_, rfl, ?_⟩⟩⟩
    · rw [State.linkctl_unlike heard unlike, State.linkctl_unlike heard unlike]
      exact ⟨rfl, rfl⟩
    · rw [State.linkctl_other heard like other]
    · rw [State.linkctl_other heard like other]
    · rw [State.linkctl_break heard like one, if_pos down]
    · rw [State.linkctl_break heard like one, if_neg (by simp [up]), State.breakDown_last last]
    · rw [State.linkctl_break heard like one, if_neg (by simp [up])]
      exact State.breakDown_goesOn further
    · rw [State.linkctl_sleep heard like two, if_neg st]
    · rw [State.linkctl_sleep heard like two, if_pos st]
      obtain ⟨off, -, dropped⟩ := s.hopOff_off dn
      exact ⟨off, dropped⟩

end
end

section
/-! PROOFS. CREDIT, receiver lock, training, loss and data symbols (O45). -/

namespace Sys2Proof.Machine

/-! ## A hop that comes UP (R230, R231, R234, R251) -/

section
variable {s : State} {dn : Bool}

theorem exec_creditReceive (s : State) (dn : Bool) (cls count : Byte) (codeErr : Bool) :
    exec (.creditReceive dn cls count codeErr) s = .next (s.creditIn dn cls count codeErr).awakeSend := rfl
theorem exec_receiverLock (s : State) (dn : Bool) : exec (.receiverLock dn) s = .next (s.receiverLock dn).awakeSend :=
  rfl
theorem exec_trainingTimeout (s : State) (dn : Bool) : exec (.trainingTimeout dn) s = .next (s.trainingTimeout dn) :=
  rfl
theorem exec_symbolLoss (s : State) (dn : Bool) (errs : Nat) :
    exec (.symbolLoss (dn, errs)) s = .next (s.symbolLoss dn errs) := rfl
theorem exec_dataModeSymbolsReceived (s : State) (dn : Bool) :
    exec (.dataModeSymbolsReceived dn) s = .next (s.dataSymbols dn) := rfl

/-- Locked and with a CREDIT a hop comes UP, and what it then sends follows. -/
theorem State.tryUp_comesUp (training : (s.lport dn).st = .training) (lock : (s.lport dn).rxLock = true)
    (got : (s.lport dn).gotCredit = true) : (s.setHop dn .up).Sends (s.tryUp dn) := by
  have comes : s.tryUp dn = (if dn then ((s.setHop dn .up).askDelay dn).notice 2 0
      else (s.setHop dn .up).askDelay dn).flushPort dn := if_pos ⟨training, lock, got⟩
  rw [comes]
  refine .trans (.trans (State.askDelay_sends _ dn) ?_) (State.flushPort_sends _ dn)
  split
  · exact State.notice_sends _ 2 0
  · exact .refl _

theorem State.tryUp_waits (h : ¬((s.lport dn).st = .training ∧ (s.lport dn).rxLock ∧ (s.lport dn).gotCredit)) :
    s.tryUp dn = s := if_neg h

/-- What the hop that comes UP is, at the end of the row. -/
theorem State.tryUp_up (training : (s.lport dn).st = .training) (lock : (s.lport dn).rxLock = true)
    (got : (s.lport dn).gotCredit = true) {n : State} (sends : (s.tryUp dn).Sends n) :
    (n.lport dn).st = .up ∧ (n.lport dn).rxLock = true ∧ (s.lport dn).sent ⊆ (n.lport dn).sent := by
  have port := ((State.tryUp_comesUp training lock got).trans sends).port dn
  rw [State.lport_setHop_self] at port
  exact ⟨port.st, port.rxLock.trans lock, port.sent⟩

/-! ### CREDIT -/

theorem State.creditIn_deaf (h : s.linkOn dn = false ∨ (s.lport dn).st = .off) (cls count : Byte) (codeErr : Bool) :
    s.creditIn dn cls count codeErr = s := if_pos (State.receiving_eq_false.mpr h)

section
variable (heard : s.receiving dn = true) {cls : Byte} {codeErr : Bool}
include heard

theorem State.creditIn_bad (bad : codeErr = true ∨ 2 ≤ cls.toNat) (count : Byte) :
    s.creditIn dn cls count codeErr = { s with link := { s.link with code := min 65535 (s.link.code + 1) } } :=
  (if_neg (by simp [heard])).trans ((if_pos bad).trans s.countCode_eq)

/-- The port with the CREDIT of a class. -/
def State.credited (s : State) (dn rsp : Bool) (count : Nat) : State :=
  (s.updCls dn rsp fun c => { c with credit := count }).updLport dn fun p => { p with gotCredit := true }

theorem State.creditIn_good (whole : codeErr = false) (known : cls.toNat ≤ 1) (count : Byte) :
    s.creditIn dn cls count codeErr = ((s.credited dn (cls.toNat == 1) count.toNat).tryUp dn).flushPort dn :=
  (if_neg (by simp [heard])).trans (if_neg (by rw [whole]; simp; omega))

end

theorem State.credited_port (s : State) (dn rsp : Bool) (count : Nat) :
    ((s.credited dn rsp count).lport dn).st = (s.lport dn).st ∧
      ((s.credited dn rsp count).lport dn).rxLock = (s.lport dn).rxLock ∧
      ((s.credited dn rsp count).lport dn).gotCredit = true ∧
      (((s.credited dn rsp count).lport dn).cls rsp).credit = count ∧
      ((s.credited dn rsp count).sending dn).queue = (s.sending dn).queue := by
  cases dn <;> cases rsp <;> exact ⟨rfl, rfl, rfl, rfl, rfl⟩

theorem State.flushPort_empty (h : (s.sending dn).queue = []) : s.flushPort dn = s := by
  unfold State.flushPort State.trySend
  dsimp only
  rw [h]

/-- A CREDIT on a hop that is UP and has nothing that waits. -/
theorem State.creditIn_up (up : s.hopIsUp dn = true) (empty : (s.sending dn).queue = []) {cls : Byte} {codeErr : Bool}
    (whole : codeErr = false) (known : cls.toNat ≤ 1) (count : Byte) :
    s.creditIn dn cls count codeErr = s.credited dn (cls.toNat == 1) count.toNat := by
  obtain ⟨st, -, -, -, queue⟩ := s.credited_port dn (cls.toNat == 1) count.toNat
  have stays : ((s.credited dn (cls.toNat == 1) count.toNat).lport dn).st ≠ .training := by
    rw [st, (State.hopIsUp_iff.mp up).2]
    nofun
  rw [State.creditIn_good (State.receiving_of_up up) whole known, State.tryUp_waits fun ⟨training, _⟩ => stays training,
    State.flushPort_empty (queue.trans empty)]

/-! ### Receiver lock, training and loss -/

/-- The port locked, with the CREDIT of both classes sent. -/
def State.lockedPort (s : State) (dn : Bool) : State :=
  s.updLport dn fun p => { p with
    rxLock := true, sent := .credit 1 (p.cls true).freed :: .credit 0 (p.cls false).freed :: p.sent }

section
variable (on : s.linkOn dn = true) (training : (s.lport dn).st = .training)
include on training

theorem State.receiverLock_locks (unlocked : (s.lport dn).rxLock = false) :
    s.receiverLock dn = (s.lockedPort dn).tryUp dn := by
  have en := State.enabled_of_linkOn on
  have stays : ((s.updLport dn fun p => { p with rxLock := true }).lport dn).en = true := by
    rw [State.lport_updLport_self]
    exact en
  refine (if_pos ⟨on, training, unlocked⟩).trans (congrArg (State.tryUp · dn) ?_)
  unfold State.sendCredit
  rw [State.emit_enabled _ dn stays, State.emit_enabled _ dn (by rw [State.lport_updLport_self]; exact stays)]
  cases dn <;> rfl

/-- A lock sends the CREDITs, and brings UP the hop that has had one. -/
theorem State.receiverLock_effect (unlocked : (s.lport dn).rxLock = false) {n : State}
    (sends : (s.receiverLock dn).Sends n) :
    (n.lport dn).rxLock = true ∧ (n.lport dn).st = (if (s.lport dn).gotCredit then .up else .training) ∧
      ((s.lockedPort dn).lport dn).sent ⊆ (n.lport dn).sent := by
  rw [State.receiverLock_locks on training unlocked] at sends
  have port : (s.lockedPort dn).lport dn = { s.lport dn with
      rxLock := true, sent := ((s.lockedPort dn).lport dn).sent } := by
    unfold State.lockedPort
    rw [State.lport_updLport_self]
  cases got : (s.lport dn).gotCredit with
  | true =>
    obtain ⟨up, lock, sent⟩ := State.tryUp_up (by rw [port]; exact training) (by rw [port])
      (by rw [port]; exact got) sends
    exact ⟨lock, up, sent⟩
  | false =>
    rw [State.tryUp_waits (by rw [port]; simp [got])] at sends
    have kept := sends.port dn
    exact ⟨kept.rxLock.trans (by rw [port]), (kept.st.trans (by rw [port])).trans training, kept.sent⟩

theorem State.trainingTimeout_off : s.trainingTimeout dn = s.hopOff dn := if_pos ⟨on, training⟩

theorem State.symbolLoss_training (errs : Nat) :
    s.symbolLoss dn errs = (s.countCodes errs).updLport dn fun p => { p with rxLock := false } := by
  have heard : s.receiving dn = true := State.receiving_iff.mpr ⟨on, by rw [training]; nofun⟩
  unfold State.symbolLoss
  rw [if_neg (by simp [heard]), training]

end

theorem State.symbolLoss_up (up : s.hopIsUp dn = true) (errs : Nat) :
    s.symbolLoss dn errs = (s.countCodes errs).hopDown dn := by
  unfold State.symbolLoss
  rw [if_neg (by simp [State.receiving_of_up up]), (State.hopIsUp_iff.mp up).2]

theorem State.dataSymbols_off (on : s.linkOn dn = true) (off : (s.lport dn).st = .off) :
    s.dataSymbols dn = s.train dn := if_pos ⟨on, off⟩

/-! ### A port that does not work -/

section
variable (dead : s.linkOn dn = false)
include dead

theorem State.receiverLock_dead : s.receiverLock dn = s := if_neg (by simp [dead])
theorem State.trainingTimeout_dead : s.trainingTimeout dn = s := if_neg (by simp [dead])
theorem State.dataSymbols_dead : s.dataSymbols dn = s := if_neg (by simp [dead])
theorem State.symbolLoss_dead (errs : Nat) : s.symbolLoss dn errs = s :=
  if_pos (State.receiving_eq_false.mpr (.inl dead))

end

end

end Sys2Proof.Machine

section
open Sys2Proof Sys2Proof.Machine

/-- Settles O45: a CREDIT by the state of its hop; then a hop that trains, that is off, that is lost, and a port that
does not work. -/
theorem hopRows : Obligations.HopRows := by
  unfold Obligations.HopRows
  intro s dn
  simp only [exec_creditReceive, exec_receiverLock, exec_trainingTimeout, exec_symbolLoss, exec_dataModeSymbolsReceived]
  refine ⟨fun cls count codeErr => ⟨fun deaf => ?_, fun on st => ⟨fun bad => ?_, fun whole known =>
    ⟨fun training lock => ⟨_, rfl, ?_⟩, fun up empty => ⟨_, rfl, ?_⟩⟩⟩⟩,
    fun on training => ⟨fun unlocked => ⟨_, rfl, ?_⟩, ⟨_, rfl, ?_⟩, fun errs => ⟨_, rfl, ?_⟩⟩,
    fun on off => ⟨_, rfl, ?_⟩, fun on up errs => ⟨_, rfl, ?_⟩, fun dead => ?_⟩
  · rw [State.creditIn_deaf deaf]
  · rw [State.creditIn_bad (State.receiving_iff.mpr ⟨on, st⟩) bad]
  · rw [State.creditIn_good (State.receiving_iff.mpr ⟨on, st⟩) whole known]
    obtain ⟨same, locked, got, -, -⟩ := s.credited_port dn (cls.toNat == 1) count.toNat
    exact (State.tryUp_up (same.trans training) (locked.trans lock) got
      ((State.flushPort_sends _ dn).trans (State.awakeSend_keeps _).1)).1
  · rw [State.creditIn_up (State.hopIsUp_iff.mpr ⟨on, up⟩) empty whole known]
    obtain ⟨-, -, got, credit, -⟩ := s.credited_port dn (cls.toNat == 1) count.toNat
    obtain ⟨sends, only⟩ := (s.credited dn (cls.toNat == 1) count.toNat).awakeSend_keeps
    have given : s.OnlyLink (s.credited dn (cls.toNat == 1) count.toNat) := rfl
    exact ⟨((sends.port dn).credit _).trans credit, (sends.port dn).gotCredit.trans got, given.trans only⟩
  · obtain ⟨lock, st, sent⟩ := State.receiverLock_effect on training unlocked (State.awakeSend_keeps _).1
    rw [State.lockedPort, State.lport_updLport_self] at sent
    exact ⟨lock, st, sent (.tail _ (.head _)), sent (.head _)⟩
  · rw [State.trainingTimeout_off on training]
    obtain ⟨off, unlocked, -⟩ := s.hopOff_off dn
    exact ⟨off, unlocked⟩
  · rw [State.symbolLoss_training on training, State.lport_updLport_self, State.countCodes_eq]
    refine ⟨rfl, training, ?_, rfl⟩
    cases dn <;> rfl
  · rw [State.dataSymbols_off on off]
    obtain ⟨training, unlocked, without, -⟩ := s.train_trains dn on
    exact ⟨training, unlocked, without⟩
  · rw [State.symbolLoss_up (State.hopIsUp_iff.mpr ⟨on, up⟩)]
    obtain ⟨training, ⟨unacked, queue⟩, code, unbound⟩ := (s.countCodes errs).hopDown_retrains dn on
    exact ⟨training, code.trans (satAdd_eq_min _ _ _), unacked, queue, unbound⟩
  · rw [State.receiverLock_dead dead, State.trainingTimeout_dead dead, State.dataSymbols_dead dead]
    exact ⟨rfl, rfl, fun errs => by rw [State.symbolLoss_dead dead], rfl⟩

end
end

section
/-! PROOFS. Frames, their acknowledgement and their repeat on a hop (O44). -/

namespace Sys2Proof.Machine

/-! ## What taking a frame leaves as it was (R229, R235, R236, Table 10.6) -/

section
variable (s : State)

theorem State.rspFrame_sends (type ten ftag : Nat) (tagged : Bool) (pay : List Byte) :
    s.Sends (s.rspFrame type ten ftag tagged pay).1 := by
  unfold State.rspFrame
  split
  · exact .of_ports
  · exact .refl s

theorem State.answer_sends (b : List Byte) (status retry info : Nat) : s.Sends (s.answer b status retry info) :=
  (s.rspFrame_sends _ _ _ _ _).trans (State.sendUp_sends _ _)

theorem State.countProto_sends : s.Sends s.countProto := s.updLink_sends

theorem State.localIn_sends (b : List Byte) (uni : Bool) : s.Sends (s.localIn b uni).1 := by
  unfold State.localIn
  dsimp only
  split
  · refine s.countProto_sends.trans ?_
    split
    · exact State.answer_sends _ b 2 0 0
    · exact .refl _
  · split
    · dsimp only
      split
      · exact s.answer_sends b 10 0 0
      · exact .refl s
    · split
      · exact .of_ports
      · exact .of_ports

theorem State.routeReq_sends (b : List Byte) : s.Sends (s.routeReq b) := by
  have taken : s.Sends (if s.isLocal (frDst b) then s.localIn b (frUnicast b) else (s, false)).1 := by
    split
    · exact s.localIn_sends b _
    · exact .refl s
  unfold State.routeReq
  dsimp only
  split
  · exact s.countProto_sends.trans (State.freeRelay_sends _ false 1)
  · generalize (if s.isLocal (frDst b) then s.localIn b (frUnicast b) else (s, false)) = r at taken ⊢
    refine taken.trans ?_
    split
    · exact State.sendOn_sends _ true _ b
    · have answered (on : Prop) [Decidable on] : r.1.Sends (if on then r.1.answer b 2 0 0 else r.1) := by
        split
        · exact r.1.answer_sends b 2 0 0
        · exact .refl _
      split
      · exact answered _
      · exact (answered _).trans (State.freeRelay_sends _ false 1)

theorem State.routeRsp_sends (b : List Byte) : s.Sends (s.routeRsp b) := by
  unfold State.routeRsp
  split
  · exact s.sendOn_sends false true b
  · exact (s.updLink_sends.trans (State.raise_sends _ _ _ _)).trans (State.freeRelay_sends _ true 1)

end

/-! ## A frame that ends on a port (R227, R232) -/

theorem exec_frameReceive (s : State) (dn : Bool) (hseq notHseq : Byte) (b : List Byte) (errs : Nat) (abort : Bool) :
    exec (.frameReceive dn hseq notHseq b errs abort) s = .next (s.frameIn dn hseq notHseq b errs abort) := rfl

/-- The bytes of a frame are as many as its LEN and AUTH say, and no more than a frame has. -/
abbrev FrWhole (b : List Byte) : Prop := b.length = frSize b ∧ frLen b ≤ 576

/-- The fault of a frame that a REASON names, where none goes before it. -/
abbrev NakFault (errs : Nat) (b : List Byte) (reason : Nat) : Prop :=
  (reason = 2 ∧ errs ≠ 0) ∨ (reason = 4 ∧ errs = 0 ∧ ¬FrWhole b) ∨
    (reason = 1 ∧ errs = 0 ∧ FrWhole b ∧ frFcsOk b = false)

/-- An HSEQ is among the last 8 that came before the one expected (R232). -/
abbrev TakenBefore (expect hseq : Nat) : Prop := 1 ≤ (expect + 256 - hseq) % 256 ∧ (expect + 256 - hseq) % 256 ≤ 8

/-- A frame with the next HSEQ of its class acknowledged. -/
def State.acked (s : State) (dn rsp : Bool) (hseq : Nat) : State :=
  (s.updCls dn rsp fun c => { c with expect := (c.expect + 1) % 256 }).emit dn (.ack (bitNat rsp) hseq)

/-- A wrong FCS counted. -/
def State.fcsCounted (s : State) (b : List Byte) : State :=
  if frFcsOk b then s else s.updLink fun k => { k with fcs := sat16 k.fcs }

/-- The REASON of a NAK (Table 10.2). -/
def nakReason (errs : Nat) (b : List Byte) : Nat :=
  if errs ≠ 0 then 2
  else if !decide (FrWhole b) then 4
  else if !frFcsOk b then 1
  else 3

/-- One fault and those that go before it decide the REASON, and the frame is not taken. -/
theorem nakReason_eq {errs : Nat} {b : List Byte} {reason : Nat} (h : NakFault errs b reason) :
    nakReason errs b = reason ∧ ¬(errs = 0 ∧ FrWhole b ∧ frFcsOk b = true) := by
  unfold nakReason
  obtain ⟨rfl, dirty⟩ | ⟨rfl, clean, short⟩ | ⟨rfl, clean, whole, bad⟩ := h
  · exact ⟨if_pos dirty, fun ⟨clean, _⟩ => dirty clean⟩
  · exact ⟨(if_neg (not_not.mpr clean)).trans (if_pos (by rw [decide_eq_false short]; rfl)),
      fun ⟨_, whole, _⟩ => short whole⟩
  · exact ⟨(if_neg (not_not.mpr clean)).trans ((if_neg (by rw [decide_eq_true whole]; nofun)).trans
      (if_pos (by rw [bad]; rfl))), fun ⟨_, _, good⟩ => Bool.false_ne_true (bad.symm.trans good)⟩

section
variable {s : State} {dn : Bool} {hseq notHseq : Byte} {b : List Byte} {errs : Nat}

theorem State.acked_port (on : s.linkOn dn = true) (rsp : Bool) (h : Nat) :
    (((s.acked dn rsp h).lport dn).cls rsp).expect = (((s.lport dn).cls rsp).expect + 1) % 256 ∧
      LinkItem.ack (bitNat rsp) h ∈ ((s.acked dn rsp h).lport dn).sent := by
  have en : ((s.updCls dn rsp fun c => { c with expect := (c.expect + 1) % 256 }).lport dn).en = true := by
    refine Eq.trans ?_ (State.enabled_of_linkOn on)
    cases dn <;> cases rsp <;> rfl
  unfold State.acked
  rw [State.emit_enabled _ dn en, State.lport_updLport_self]
  refine ⟨?_, .head _⟩
  cases dn <;> cases rsp <;> rfl

theorem State.frameIn_down (down : s.hopIsUp dn = false) (abort : Bool) :
    s.frameIn dn hseq notHseq b errs abort = s := if_pos down

variable (up : s.hopIsUp dn = true)
include up

theorem State.frameIn_abort : s.frameIn dn hseq notHseq b errs true = s.countCodes errs :=
  (if_neg (by simp [up])).trans (if_pos rfl)

theorem State.frameIn_unlike (unlike : notHseq ≠ ~~~hseq) :
    s.frameIn dn hseq notHseq b errs false = (s.countCodes errs).countCode :=
  (if_neg (by simp [up])).trans ((if_neg nofun).trans (if_pos unlike))

variable (like : notHseq = ~~~hseq)
include like

/-- A frame that is taken is acknowledged, and what its route sends follows. -/
theorem State.frameIn_taken (clean : errs = 0) (whole : FrWhole b) (good : frFcsOk b = true)
    (next : hseq.toNat = ((s.lport dn).cls (frRsp b)).expect) :
    ((s.countCodes errs).acked dn (frRsp b) hseq.toNat).Sends (s.frameIn dn hseq notHseq b errs false) := by
  have takes : errs = 0 ∧ decide (FrWhole b) = true ∧ frFcsOk b = true ∧
      hseq.toNat = ((s.lport dn).cls (frRsp b)).expect := ⟨clean, decide_eq_true whole, good, next⟩
  unfold State.frameIn
  dsimp only
  rw [if_neg (by simp [up]), if_neg nofun, if_neg (not_not.mpr like), if_pos takes, if_pos good]
  split
  · exact State.countProto_sends _
  · split
    · exact State.routeRsp_sends _ b
    · exact State.routeReq_sends _ b

/-- A frame that is not taken, and is none that was taken before, is answered NAK. -/
theorem State.frameIn_refused (unfit : ¬(errs = 0 ∧ FrWhole b ∧ frFcsOk b = true))
    (new : ¬TakenBefore ((s.lport dn).cls (frRsp b)).expect hseq.toNat) :
    s.frameIn dn hseq notHseq b errs false = ((s.countCodes errs).fcsCounted b).emit dn
      (.nak (bitNat (frRsp b)) ((s.lport dn).cls (frRsp b)).expect (nakReason errs b)) := by
  have refuses : ¬(errs = 0 ∧ decide (FrWhole b) = true ∧ frFcsOk b = true ∧
      hseq.toNat = ((s.lport dn).cls (frRsp b)).expect) := fun ⟨clean, whole, good, _⟩ =>
    unfit ⟨clean, of_decide_eq_true whole, good⟩
  unfold State.frameIn
  dsimp only
  rw [if_neg (by simp [up]), if_neg nofun, if_neg (not_not.mpr like), if_neg refuses, if_neg new]
  rfl

/-- What a NAK leaves: the code errors and a wrong FCS counted, the NAK sent, and nothing else. -/
theorem State.frameIn_nak {reason : Nat} (fault : NakFault errs b reason)
    (new : ¬TakenBefore ((s.lport dn).cls (frRsp b)).expect hseq.toNat) {n : State}
    (ends : s.frameIn dn hseq notHseq b errs false = n) :
    n.link.code = min 65535 (s.link.code + errs) ∧ (frFcsOk b = false → n.link.fcs = min 65535 (s.link.fcs + 1)) ∧
      (n.lport dn).sent =
        .nak (bitNat (frRsp b)) ((s.lport dn).cls (frRsp b)).expect reason :: (s.lport dn).sent ∧
      n = { s with link := n.link } := by
  obtain ⟨why, unfit⟩ := nakReason_eq fault
  have en := State.enabled_of_linkOn (State.hopIsUp_iff.mp up).1
  rw [State.frameIn_refused up like unfit new, why] at ends
  have same : ((s.countCodes errs).fcsCounted b).lport dn = s.lport dn := by unfold State.fcsCounted; split <;> rfl
  rw [State.emit_enabled _ dn (by rw [same]; exact en)] at ends
  subst ends
  rw [State.lport_updLport_self, same]
  unfold State.fcsCounted
  rw [State.countCodes_eq]
  refine ⟨?_, fun bad => ?_, rfl, ?_⟩
  · split <;> cases dn <;> rfl
  · rw [if_neg (by simp [bad]), ← sat16_eq_min]
    cases dn <;> rfl
  · split <;> rfl

end

/-! ## ACK, NAK and the repeat of frames (R227, R232, R233) -/

theorem exec_ackReceive (s : State) (dn : Bool) (cls hseq : Byte) (codeErr : Bool) :
    exec (.ackReceive dn cls hseq codeErr) s = .next (s.ackIn dn cls hseq codeErr) := rfl
theorem exec_nakReceive (s : State) (dn : Bool) (cls hseq reason : Byte) (codeErr : Bool) :
    exec (.nakReceive dn cls hseq reason codeErr) s = .next (s.nakIn dn cls codeErr) := rfl
theorem exec_retransmitTimeout (s : State) (dn rsp : Bool) :
    exec (.retransmitTimeout dn rsp) s = .next (s.retransmit dn rsp) := rfl

theorem State.setOk_bad {s : State} {dn : Bool} {cls : Byte} {codeErr : Bool} (bad : codeErr = true ∨ 2 ≤ cls.toNat) :
    s.setOk dn cls codeErr = false := by
  unfold State.setOk
  rcases bad with err | unknown
  · simp [err]
  · simp; omega

theorem clsSent_iff (dn : Bool) (cls : Byte) : clsSent dn cls = true ↔ cls.toNat = bitNat (!dn) := beq_iff_eq

theorem clsSent_received {dn : Bool} {cls : Byte} (names : cls.toNat = bitNat dn) : clsSent dn cls = false := by
  rw [← Bool.not_eq_true, clsSent_iff, names]
  cases dn <;> decide

section
variable {s : State} {dn : Bool} (up : s.hopIsUp dn = true) {cls : Byte} {codeErr : Bool}
include up

section
variable (bad : codeErr = true ∨ 2 ≤ cls.toNat)
include bad

theorem State.badSet_counts : s.badSet dn cls codeErr =
    { s with link := { s.link with code := min 65535 (s.link.code + 1) } } :=
  (if_pos ⟨State.receiving_of_up up, bad⟩).trans s.countCode_eq

theorem State.ackIn_bad (hseq : Byte) : s.ackIn dn cls hseq codeErr =
    { s with link := { s.link with code := min 65535 (s.link.code + 1) } } :=
  (if_pos (State.setOk_bad bad)).trans (State.badSet_counts up bad)

theorem State.nakIn_bad : s.nakIn dn cls codeErr =
    { s with link := { s.link with code := min 65535 (s.link.code + 1) } } :=
  (if_pos (State.setOk_bad bad)).trans (State.badSet_counts up bad)

end

section
variable (whole : codeErr = false)
include whole

theorem State.setOk_good {rsp : Bool} (names : cls.toNat = bitNat rsp) : s.setOk dn cls codeErr = true := by
  simp only [State.setOk, up, whole, names]
  cases rsp <;> rfl

/-- The class that the port receives has no frame to acknowledge or to repeat. -/
theorem State.ackIn_received (names : cls.toNat = bitNat dn) (hseq : Byte) : s.ackIn dn cls hseq codeErr = s := by
  unfold State.ackIn
  rw [if_neg (by simp [State.setOk_good up whole names])]
  dsimp only
  split
  · exact if_neg (by simp [clsSent_received names])
  · rfl

theorem State.nakIn_received (names : cls.toNat = bitNat dn) : s.nakIn dn cls codeErr = s := by
  exact (if_neg (by simp [State.setOk_good up whole names])).trans (if_neg (by simp [clsSent_received names]))

variable (names : cls.toNat = bitNat (!dn))
include names

theorem State.nakIn_sent : s.nakIn dn cls codeErr = s.resendAll dn :=
  (if_neg (by simp [State.setOk_good up whole names])).trans (if_pos ((clsSent_iff dn cls).mpr names))

theorem State.ackIn_unknown {hseq : Byte} (unknown : ∀ q ∈ (s.sending dn).unacked, q.hseq ≠ hseq.toNat) :
    s.ackIn dn cls hseq codeErr = s := by
  have none : (s.sending dn).unacked.findIdx? (fun q => q.hseq == hseq.toNat) = none :=
    List.findIdx?_eq_none_iff.mpr fun q hq => beq_eq_false_iff_ne.mpr (unknown q hq)
  unfold State.ackIn
  rw [if_neg (by simp [State.setOk_good up whole names])]
  dsimp only
  rw [none]

/-- An ACK takes its frame and those before it, and their relay buffers are freed. -/
theorem State.ackIn_takes {hseq : Byte} {i : Nat}
    (found : (s.sending dn).unacked.findIdx? (fun q => q.hseq == hseq.toNat) = some i)
    (empty : (s.sending dn).queue = []) {n : State} (ends : s.ackIn dn cls hseq codeErr = n) :
    (n.sending dn).unacked = (s.sending dn).unacked.drop (i + 1) ∧ n = { s with link := n.link } := by
  unfold State.ackIn at ends
  rw [if_neg (by simp [State.setOk_good up whole names])] at ends
  dsimp only at ends
  rw [found] at ends
  dsimp only at ends
  rw [if_pos ((clsSent_iff dn cls).mpr names)] at ends
  generalize ((s.sending dn).unacked.take (i + 1)).filter _ = held at ends
  have kept : ((s.updSending dn fun c => { c with unacked := (s.sending dn).unacked.drop (i + 1) }).freeRelay (!dn)
      held.length).sending dn = { s.sending dn with unacked := (s.sending dn).unacked.drop (i + 1) } := by
    rw [State.sending, State.lport_freeRelay_other, ← State.sending, State.sending_updSending]
  rw [State.flushPort_empty (by rw [kept]; exact empty)] at ends
  subst ends
  exact ⟨congrArg LinkCls.unacked kept,
    ((s.updSending_onlyPorts dn _).trans (State.freeRelay_onlyPorts _ _ _)).onlyLink⟩

end

end

/-! ### Every unacknowledged frame again, or the hop DOWN -/

theorem State.retransmit_sent {s : State} {dn : Bool} (up : s.hopIsUp dn = true) :
    s.retransmit dn (!dn) = s.resendAll dn := if_pos ⟨up, rfl⟩

theorem State.retransmit_received (s : State) (dn : Bool) : s.retransmit dn dn = s :=
  if_neg fun ⟨_, own⟩ => (Bool.eq_not_self dn).mp own

/-- Frames that are sent again leave a port as it was but for what it has sent. -/
theorem State.emitAll_effect (frames : List Sent) (s : State) (dn : Bool) :
    (frames.foldl (fun s q => s.emit dn (.frame q.hseq q.bytes)) s).sending dn = s.sending dn ∧
      s.OnlyPorts (frames.foldl (fun s q => s.emit dn (.frame q.hseq q.bytes)) s) := by
  induction frames generalizing s with
  | nil => exact ⟨rfl, .refl s⟩
  | cons q frames ih =>
    obtain ⟨sending, only⟩ := ih (s.emit dn (.frame q.hseq q.bytes))
    exact ⟨sending.trans (s.sending_emit dn _), (s.emit_onlyPorts dn _).trans only⟩

section
variable {s : State} {dn : Bool}

theorem State.resendAll_none (none : (s.sending dn).unacked = []) : s.resendAll dn = s :=
  if_pos (.inl (by rw [none]; rfl))

variable (apart : s.looped dn = false)
include apart

theorem State.resendAll_fails (fourth : ∃ q ∈ (s.sending dn).unacked, 4 ≤ q.tx) : s.resendAll dn = s.hopDown dn := by
  obtain ⟨q, among, times⟩ := fourth
  have some : (s.sending dn).unacked.isEmpty = false := List.isEmpty_eq_false_iff.mpr (List.ne_nil_of_mem among)
  have spent : ((s.sending dn).unacked.any fun q => 4 ≤ q.tx) = true :=
    List.any_eq_true.mpr ⟨q, among, decide_eq_true times⟩
  unfold State.resendAll
  dsimp only
  rw [if_neg (by simp [some, apart]), if_pos spent]

/-- Each frame is sent once more, and its repeat is counted. -/
theorem State.resendAll_repeats (some : (s.sending dn).unacked ≠ [])
    (few : ∀ q ∈ (s.sending dn).unacked, q.tx < 4) {n : State} (ends : s.resendAll dn = n) :
    (n.sending dn).unacked = (s.sending dn).unacked.map (fun q => { q with tx := q.tx + 1 }) ∧
      n.link.retries = min 65535 (s.link.retries + (s.sending dn).unacked.length) ∧ n = { s with link := n.link } := by
  have left : ((s.sending dn).unacked.any fun q => 4 ≤ q.tx) = false :=
    List.any_eq_false.mpr fun q among => by simpa using few q among
  unfold State.resendAll at ends
  dsimp only at ends
  rw [if_neg (by simp [some, apart]), if_neg (by simp [left])] at ends
  obtain ⟨sending, again⟩ := State.emitAll_effect (s.sending dn).unacked
    (s.updSending dn fun c => { c with unacked := c.unacked.map fun q => { q with tx := q.tx + 1 } }) dn
  rw [State.sending_updSending] at sending
  obtain ⟨u, d, ports⟩ := (s.updSending_onlyPorts dn _).trans again
  rw [ports] at ends sending
  subst ends
  exact ⟨congrArg LinkCls.unacked sending, satAdd_eq_min _ _ _, rfl⟩

end

end Sys2Proof.Machine

section
open Sys2Proof Sys2Proof.Machine

/-- Settles O44: a frame by the hop it comes on, its own faults and its HSEQ; an ACK or NAK by its faults, the class it
names and the frames that it finds. -/
theorem linkFrameRows : Obligations.LinkFrameRows := by
  unfold Obligations.LinkFrameRows
  intro s dn
  simp only [exec_frameReceive, exec_ackReceive, exec_nakReceive, exec_retransmitTimeout]
  refine ⟨fun hseq notH b errs abort => ⟨fun down => ?_, fun up cut => ?_, fun up ends => ⟨fun unlike => ?_,
      fun like => ⟨fun clean whole good next => ⟨_, rfl, ?_⟩, fun new reason fault => ⟨_, rfl, ?_⟩⟩⟩⟩,
    fun up cls hseq reason codeErr => ⟨fun bad => ?_, fun whole names => ?_, fun whole names =>
      ⟨fun unknown => ?_, fun i found empty => ⟨_, rfl, ?_⟩, fun none => ?_, fun some apart few => ⟨_, rfl, ?_⟩,
        fun apart fourth => ⟨_, rfl, ?_⟩, ?_⟩⟩, ?_⟩
  · rw [State.frameIn_down down]
  · rw [cut, State.frameIn_abort up, State.countCodes_eq]
  · have count : min 65535 (min 65535 (s.link.code + errs) + 1) = min 65535 (s.link.code + errs + 1) := by omega
    rw [ends, State.frameIn_unlike up unlike, State.countCode_eq, State.countCodes_eq, count]
  · obtain ⟨expect, acked⟩ := State.acked_port (s := s.countCodes errs) (dn := dn) (State.hopIsUp_iff.mp up).1 (frRsp b)
      hseq.toNat
    have port := (State.frameIn_taken up like clean whole good next).port dn
    rw [ends]
    exact ⟨(port.expect _).trans expect, port.sent acked⟩
  · exact State.frameIn_nak up like fault new (by rw [ends])
  · rw [State.ackIn_bad up bad, State.nakIn_bad up bad]
    exact ⟨rfl, rfl⟩
  · rw [State.ackIn_received up whole names, State.nakIn_received up whole names]
    exact ⟨rfl, rfl⟩
  · rw [State.ackIn_unknown up whole names unknown]
  · exact State.ackIn_takes up whole names found empty rfl
  · rw [State.nakIn_sent up whole names, State.resendAll_none none]
  · exact State.resendAll_repeats apart some few (State.nakIn_sent up whole names).symm
  · rw [State.nakIn_sent up whole names, State.resendAll_fails apart fourth]
    obtain ⟨training, dropped, -⟩ := s.hopDown_retrains dn (State.hopIsUp_iff.mp up).1
    exact ⟨training, dropped⟩
  · rw [State.retransmit_sent up, State.nakIn_sent up whole names]
  · rw [State.retransmit_received]

end
end

section
/-! PROOFS. The supplies (O51). -/

namespace Sys2Proof.Machine

/-! ## What the boot leaves as it was (Table 9.5, R200 to R205, R215) -/

/-- Doors, plain registers and the power controller, and whether memory has been swept. -/
def State.bootView (s : State) : SMap DoorSt × SMap Word × Pwr × Bool := (s.doors, s.regs, s.pwr, s.sys.sweep)

theorem State.bootView_of_rowView {s n : State} (h : n.rowView = s.rowView) : n.bootView = s.bootView := by
  obtain ⟨doors, regs, sys, pwr, -⟩ := State.rowView_eq h
  simp only [State.bootView, doors, regs, sys, pwr]

/-- What all the members of a list leave as it was. -/
theorem foldl_keeps {α β : Type} {view : State → β} {f : State → α → State} (hf : ∀ s a, view (f s a) = view s)
    (l : List α) (s : State) : view (l.foldl f s) = view s := by
  induction l generalizing s with
  | nil => rfl
  | cons a l ih => exact (ih (f s a)).trans (hf s a)

section
variable (s : State)

theorem State.rowView_updLport (dn : Bool) (f : LinkPort → LinkPort) : (s.updLport dn f).rowView = s.rowView := by
  obtain ⟨u, d, h⟩ := s.updLport_onlyPorts dn f
  rw [h]
  rfl

theorem State.rowView_setHop (dn : Bool) (st : HopSt) : (s.setHop dn st).rowView = s.rowView := by
  unfold State.setHop
  split
  · rfl
  · rw [State.rowView_raise, State.rowView_updLport]

theorem State.rowView_train (dn : Bool) : (s.train dn).rowView = s.rowView := by
  unfold State.train
  split
  · rfl
  · dsimp only
    rw [State.rowView_setHop, State.rowView_updLport]

theorem State.rowView_tapRelease : s.tapRelease.rowView = s.rowView := by
  unfold State.tapRelease
  split <;> rfl

theorem State.rowView_factoryCopy (sect : Nat) : (s.factoryCopy sect).1.rowView = s.rowView := s.rowView_readEach _

theorem State.rowView_factoryMap : s.factoryMap.1.rowView = s.rowView := by
  have first := s.rowView_factoryCopy 514
  have second := (State.rowView_factoryCopy (s.factoryCopy 514).1 515).trans first
  unfold State.factoryMap
  dsimp only
  split
  · exact first
  · split <;> exact second

theorem State.rowView_records (types sects : List Nat) : (s.records types sects).1.rowView = s.rowView :=
  s.rowView_readEach _

theorem State.rowView_applyGrown (d : DWord) : (s.applyGrown d).rowView = s.rowView := by
  unfold State.applyGrown
  split <;> rfl

theorem State.rowView_ringLoad (rings : List (List DWord)) : (s.ringLoad rings).rowView = s.rowView := by
  unfold State.ringLoad
  dsimp only
  split <;> rfl

theorem State.rowView_setFlash (f : Flash) : ({ s with flash := f } : State).rowView = s.rowView := rfl
theorem State.rowView_setRemap (i : Nat) (r : Remap) : (s.setRemap i r).rowView = s.rowView := rfl
theorem State.rowView_eraseSector (p : Nat) : (s.eraseSector p).rowView = s.rowView := rfl

/-- Loading the ledger changes flash, and what reading it counts and reports. -/
theorem State.rowView_ledgerLoad : s.ledgerLoad.rowView = s.rowView := by
  unfold State.ledgerLoad
  extract_lets old f h0 h1 js s1 half s2 s3 s4 top
  have read : s1.rowView = s.rowView := by
    rw [State.rowView_records, State.rowView_records, State.rowView_records, State.rowView_factoryMap,
      State.rowView_setFlash]
  have factory : s2.rowView = s1.rowView := foldl_keeps (fun s d => s.rowView_setRemap _ _) _ _
  have grown : s3.rowView = s2.rowView := foldl_keeps State.rowView_applyGrown _ _
  rw [State.rowView_setFlash, State.rowView_ringLoad, grown, factory, read]

theorem State.rowView_putJournal (type sector aux : Nat) : (s.putJournal type sector aux).rowView = s.rowView := by
  have put := s.rowView_putRecordIn type sector aux s.journalWords
  unfold State.putJournal
  generalize s.putRecordIn type sector aux s.journalWords = q at put ⊢
  dsimp only
  split
  · exact put
  · rw [State.rowView_setFlash]
    exact put

theorem State.rowView_tornSector (p : Nat) : (s.tornSector p).rowView = s.rowView := by
  unfold State.tornSector
  exact State.each_keeps (view := State.rowView) (fun s i _ => s.rowView_setFword _ _) s

theorem State.rowView_bootErase (sect : Nat) : (s.bootErase sect).1.rowView = s.rowView := by
  unfold State.bootErase
  dsimp only
  split
  · rw [State.rowView_putJournal, State.rowView_eraseSector, State.rowView_drawn, State.rowView_putJournal]
  · rw [State.rowView_ledgerFail, State.rowView_tornSector, State.rowView_putJournal, State.rowView_drawn,
      State.rowView_putJournal]

theorem State.rowView_bootSelect (leaf : Bool) (gen sect : Nat) :
    (s.bootSelect leaf gen sect).1.rowView = s.rowView := by
  unfold State.bootSelect
  extract_lets p e
  have erased : e.1.rowView = s.rowView := by
    dsimp only [e]
    split
    · exact s.rowView_bootErase _
    · rfl
  split
  · exact erased
  · split
    · rw [State.rowView_setFword, State.rowView_drawn, erased]
    · rw [State.rowView_ledgerFail, State.rowView_setFword, State.rowView_drawn, erased]

/-- A change of SYS that leaves the sweep. -/
theorem State.bootView_updSys {f : Sys → Sys} (hf : ∀ k, (f k).sweep = k.sweep) :
    (s.updSys f).bootView = s.bootView :=
  congrArg (fun b => (s.doors, s.regs, s.pwr, b)) (hf s.sys)

theorem State.bootView_leafRun (leaf : Bool) (hd im : List Byte) : (s.leafRun leaf hd im).bootView = s.bootView := by
  unfold State.leafRun
  rw [State.bootView_updSys, State.wrWhole_shape]
  · rfl
  · exact fun k => rfl

theorem State.bootView_leafChosen (leaf named : Bool) (gen sect : Nat) (hd im : List Byte) :
    (s.leafChosen leaf named gen sect hd im).bootView = s.bootView := by
  unfold State.leafChosen
  extract_lets s1 q
  have run : s1.bootView = s.bootView := s.bootView_leafRun leaf hd im
  split
  · rw [State.bootView_updSys, run]
    exact fun k => rfl
  · rw [State.bootView_updSys, State.bootView_of_rowView (State.rowView_bootSelect _ _ _ _), run]
    exact fun k => rfl

/-- The choice of a leaf leaves the sweep as it was. -/
theorem State.bootView_leafBoot : s.leafBoot.bootView = s.bootView := by
  have checked (n : State) (leaf : Bool) : (n.leafVerify leaf).1.bootView = n.bootView :=
    State.bootView_of_rowView (n.rowView_leafVerify leaf)
  have selected := State.bootView_of_rowView s.rowView_selector
  unfold State.leafBoot
  generalize s.selector = q at selected ⊢
  dsimp only
  split
  · rw [State.bootView_leafChosen, checked, State.bootView_updSys, selected]
    exact fun k => rfl
  · split
    · rw [State.bootView_leafChosen, checked, checked, State.bootView_updSys, selected]
      exact fun k => rfl
    · rw [State.bootView_updSys, checked, checked, State.bootView_updSys, selected]
      · exact fun k => rfl
      · exact fun k => rfl

/-- Every domain on, and banks HA and HB open. -/
def Pwr.booted (p : Pwr) : Pwr :=
  { p with
    st := .opened, phase := .idle, domOn := 0xFFFF, domReady := 0xFFFF, live := 0, enHeld := 0, fanHeld := 0,
    closed := p.closed &&& ~~~3 }

/-- The boot changes no door and no plain register. -/
theorem State.bootRom_effect (straps : BitVec 4) :
    (s.bootRom straps).bootView = (s.doors, s.regs, s.pwr.booted, true) := by
  obtain ⟨doors, regs, -, pwr, -⟩ := State.rowView_eq s.rowView_tapRelease
  unfold State.bootRom
  extract_lets s1 portA portB sys pwr0 seq s2
  have trained : (((s2.openBanks 3).train false).train true).ledgerLoad.rowView = (s2.openBanks 3).rowView := by
    rw [State.rowView_ledgerLoad, State.rowView_train, State.rowView_train]
  obtain ⟨l, e, opened, -⟩ := s2.openBanks_shape 3
  rw [State.bootView_leafBoot, State.bootView_of_rowView trained, opened]
  exact Prod.ext doors (Prod.ext regs (Prod.ext (Eq.trans (b := s1.pwr.booted) rfl (congrArg Pwr.booted pwr)) rfl))

end

/-! ## Supplies (R257 to R259) -/

theorem exec_vaoLoss (s : State) : exec .vaoLoss s = .next s.vaoLost := rfl
theorem exec_vaoReconnect (s : State) : exec .vaoReconnect s = .next s.vaoBack := rfl
theorem exec_bothSuppliesAbsent (s : State) : exec .bothSuppliesAbsent s = .next s.supplyLost := rfl
theorem exec_powerUp (s : State) : exec .powerUp s = .next s.powerUp := rfl

section
variable {s : State}

/-- With no program under way and no erase begun, a collapse cuts nothing. -/
theorem State.flashCut_idle (prog : s.flash.prog = none) (erases : ∀ e ∈ s.flash.erases, e.pulses = 0) :
    s.flashCut = s := by
  have none : (s.flash.erases.filter fun e => e.pulses != 0) = [] :=
    List.filter_eq_nil_iff.mpr fun e he => by simp [erases e he]
  unfold State.flashCut
  rw [prog, none]
  rfl

theorem State.vaoLost_none (h : s.pwr.vao = false ∨ s.pwr.st = .off) : s.vaoLost = s := if_pos h

/-- What a loss of VAO leaves: every register but those of AO at its reset value, and the part in Shuttered. -/
theorem State.vaoLost_enters (vao : s.pwr.vao = true) (st : s.pwr.st ≠ .off) : s.vaoLost =
    (s.resetKeep.cause 4).updPwr fun p => { p with
      st := .shuttered, domOn := 0, domReady := 0, closed := 0x3F, vao := false,
      shutSec := wordOf s.sys.rtcSec, left := 4, enHeld := (s.closeGen 0).pwr.enHeld,
      fanHeld := (s.closeGen 0).pwr.fanHeld } :=
  if_neg (by simp [vao, st])

theorem State.vaoBack_none (h : s.pwr.st ≠ .shuttered ∨ s.pwr.vao = true) : s.vaoBack = s :=
  if_neg fun ⟨st, vao⟩ => h.elim (· st) fun on => Bool.false_ne_true (vao.symm.trans on)

section
variable (st : s.pwr.st = .shuttered) (vao : s.pwr.vao = false)
include st vao

/-- While RESET_N is low only the supply and the source change. -/
theorem State.vaoBack_held (low : s.sys.resetN = false) :
    s.vaoBack = s.updPwr fun p => { p with vao := true, wakeSrc := srcBit 5, replayed := false } :=
  (if_pos ⟨st, vao⟩).trans (if_neg (by simp [State.updPwr, low]))

theorem State.vaoBack_boots (high : s.sys.resetN = true) : s.vaoBack =
    (s.updPwr fun p => { p with vao := true, wakeSrc := srcBit 5, replayed := false }).bootRom s.sys.straps :=
  (if_pos ⟨st, vao⟩).trans (if_pos high)

end

end

end Sys2Proof.Machine

section
open Sys2Proof Sys2Proof.Machine

/-- Settles O51: VAO lost and back, both supplies gone, and power-up. -/
theorem supplyRows : Obligations.SupplyRows := by
  unfold Obligations.SupplyRows
  intro s
  simp only [exec_vaoLoss, exec_vaoReconnect, exec_bothSuppliesAbsent, exec_powerUp]
  refine ⟨fun none => ?_, fun vao st => ⟨_, rfl, ?_⟩, fun st vao => ⟨fun low => ?_, fun high => ⟨_, rfl, ?_⟩⟩,
    fun none => ?_, ⟨_, rfl, ?_⟩, fun off => ?_, fun on => ?_⟩
  · rw [State.vaoLost_none none]
  · rw [State.vaoLost_enters vao st]
    exact ⟨rfl, rfl, rfl, rfl, rfl, rfl, rfl, rfl, rfl, rfl, fun t => rfl,
      fun prog erases => congrArg (·.flash.words) (State.flashCut_idle prog erases)⟩
  · rw [State.vaoBack_held st vao low]
    rfl
  · have boots := State.bootRom_effect
      (s.updPwr fun p => { p with vao := true, wakeSrc := srcBit 5, replayed := false }) s.sys.straps
    rw [State.vaoBack_boots st vao high]
    simp only [State.bootView, Prod.mk.injEq] at boots
    obtain ⟨doors, regs, pwr, sweep⟩ := boots
    rw [pwr]
    exact ⟨rfl, rfl, rfl, rfl, sweep, doors, regs⟩
  · rw [State.vaoBack_none none]
  · exact ⟨rfl, rfl, rfl, rfl, rfl, rfl, rfl, rfl, rfl, rfl, rfl,
      fun prog erases => congrArg (·.flash.words) (State.flashCut_idle prog erases)⟩
  · exact congrArg Host.Outcome.next (if_pos off)
  · exact congrArg Host.Outcome.next (if_neg on)

end
end

section
/-! PROOFS. Arrivals of the tick's sources, pulses of DSYNC_IN, and TICK sets (O41). -/

namespace Sys2Proof.Machine

theorem exec_dsyncEdge (s : State) (phase : Int) : exec (.dsyncEdge phase) s = .next (s.dsyncEdge phase) := rfl
theorem exec_dsyncClassify (s : State) (high : Nat) : exec (.dsyncClassify high) s = .next (s.dsyncClassify high) := rfl
theorem exec_tickSet (s : State) (flags low : Byte) (lead : BitVec 24) (chk : Byte) (codeErr : Bool) (phase : Int)
    (held : Nat) : exec (.tickSet flags low lead chk codeErr phase held) s =
      .next (s.tickSet flags low lead chk codeErr phase held) := rfl

/-! ## An arrival (R50, R52) -/

section
variable {s : State} {ds : Bool} {phase : Int} {flip ahead : Bool}

theorem State.arrival_still (h : s.ticking = false) : s.arrival ds phase flip ahead = s := if_pos (.inl h)

section
variable (ticks : s.ticking = true) (allows : srcAllows s.tick.srcF s.tick.dsyncF ds = true)
include ticks allows

section
variable (locked : s.tick.locked = true) (use : s.tick.use = some ds)
include locked use

/-- The first arrival in the window of a device locked to its source is this tick's. -/
theorem State.arrival_taken (window : phase.natAbs ≤ 8000) (first : (s.tick.lockOf ds).arrived = false) :
    s.arrival ds phase flip ahead = s.updTick fun k => { k.setLock ds ⟨0, 0, true⟩ with
      phase := phase, adj39 := phase, flipInd := flip } :=
  (if_neg (by simp [ticks, allows])).trans ((if_pos ⟨locked, use⟩).trans (if_pos ⟨window, first⟩))

theorem State.arrival_ignored (h : 8000 < phase.natAbs ∨ (s.tick.lockOf ds).arrived = true) :
    s.arrival ds phase flip ahead = s := by
  refine (if_neg (by simp [ticks, allows])).trans ((if_pos ⟨locked, use⟩).trans (if_neg fun ⟨window, first⟩ => ?_))
  rcases h with outside | another
  · exact absurd window (Nat.not_le.mpr outside)
  · exact Bool.false_ne_true (first.symm.trans another)

end

theorem State.arrival_holdover (st : s.tick.st = .holdover) :
    s.arrival ds phase flip ahead = s.countArrival ds (phaseIn s.periodUs phase) flip ahead := by
  have free : ¬(s.tick.locked = true ∧ s.tick.use = some ds) := by simp [Tick.locked, st]
  have none : ¬s.tick.use = some ds := by simp [Tick.use, st]
  exact (if_neg (by simp [ticks, allows])).trans ((if_neg free).trans ((if_neg none).trans (if_pos (.inl st))))

end

/-! ### The count of four (R52) -/

/-- The count of a source after an arrival. -/
def State.counted (s : State) (ds : Bool) (err : Int) : Lock :=
  if 0 < (s.tick.lockOf ds).count ∧ (phaseIn s.periodUs (err - (s.tick.lockOf ds).first)).natAbs ≤ 2000 then
    ⟨(s.tick.lockOf ds).count + 1, (s.tick.lockOf ds).first, true⟩
  else ⟨1, err, true⟩

theorem State.counted_first {err : Int} (none : (s.tick.lockOf ds).count = 0) : s.counted ds err = ⟨1, err, true⟩ :=
  if_neg fun ⟨one, _⟩ => absurd none (Nat.ne_of_gt one)

theorem State.counted_agrees {err : Int} (one : 0 < (s.tick.lockOf ds).count)
    (agrees : (phaseIn s.periodUs (err - (s.tick.lockOf ds).first)).natAbs ≤ 2000) :
    s.counted ds err = ⟨(s.tick.lockOf ds).count + 1, (s.tick.lockOf ds).first, true⟩ := if_pos ⟨one, agrees⟩

theorem State.countArrival_another {err : Int} (another : (s.tick.lockOf ds).arrived = true) :
    s.countArrival ds err flip ahead = s := if_pos another

section
variable {err : Int} (new : (s.tick.lockOf ds).arrived = false)
include new

theorem State.countArrival_counts (few : (s.counted ds err).count < 4) : s.countArrival ds err flip ahead =
    s.updTick fun k => { k.setLock ds (s.counted ds err) with phase := err } :=
  (if_neg (by simp [new])).trans (if_neg (Nat.not_le.mpr few))

/-- The fourth in a row ends the count. -/
theorem State.countArrival_ends (four : 4 ≤ (s.counted ds err).count) : s.countArrival ds err flip ahead =
    (s.updTick fun k => { k with
      slewFirst := (s.counted ds err).first, link := Lock.none, dsync := Lock.none }).approach ds err flip ahead :=
  (if_neg (by simp [new])).trans (if_pos four)

end

/-- A measured error of 1 us or less locks, and a larger one is approached by 1 us. -/
theorem State.approach_effect (s : State) (ds : Bool) (err : Int) (flip ahead : Bool) :
    (s.approach ds err flip ahead).tick.st =
        (if err.natAbs ≤ 1000 then if ds then .lockedDsync else .lockedLink else .slewing) ∧
      (s.approach ds err flip ahead).tick.num = s.tick.num ∧
      (s.approach ds err flip ahead).tick.adj39 =
        (if err.natAbs ≤ 1000 then err else if 0 < err then 1000 else -1000) := by
  unfold State.approach
  split
  · rw [State.raise_tick]
    cases ds <;> exact ⟨rfl, rfl, rfl⟩
  · cases ds <;> exact ⟨rfl, rfl, rfl⟩

end

/-! ## An edge of DSYNC_IN (R274, R444) -/

/-- The arrival that an edge of DSYNC_IN gives. -/
def State.dsArrival (s : State) (phase : Int) : State :=
  s.arrival true (phase + 5 * s.tick.dly) false (decide (phase + 5 * s.tick.dly ≤ 0))

section
variable {s : State} {phase : Int}

theorem State.dsyncEdge_held (held : s.genHeld 1 = true) : s.dsyncEdge phase = s := if_pos held

variable (free : s.genHeld 1 = false)
include free

theorem State.dsyncEdge_waits (waits : phase ≤ 0 ∧ 0 < phase + 5 * (s.tick.dly : Int) ∧ s.tick.st ≠ .lockedDsync) :
    s.dsyncEdge phase = s.updTick fun k => { k with laterDs := some (phase + 5 * s.tick.dly) } :=
  (if_neg (by simp [free])).trans (if_pos waits)

variable (now : ¬(phase ≤ 0 ∧ 0 < phase + 5 * (s.tick.dly : Int) ∧ s.tick.st ≠ .lockedDsync))
include now

/-- The pulse of an arrival that is this tick's is high until it is classified. -/
theorem State.dsyncEdge_marks (locked : (s.dsArrival phase).tick.st = .lockedDsync)
    (takes : (s.dsArrival phase).tick.dsync.arrived = true) (new : s.tick.dsync.arrived = false) :
    s.dsyncEdge phase = (s.dsArrival phase).updTick fun k => { k with dsHigh := true, dsWidth := 0, dsMark := 1 } :=
  (if_neg (by simp [free])).trans ((if_neg now).trans (if_pos ⟨locked, takes, new⟩))

theorem State.dsyncEdge_unmarked (h : (s.dsArrival phase).tick.st ≠ .lockedDsync ∨
    (s.dsArrival phase).tick.dsync.arrived = s.tick.dsync.arrived) : s.dsyncEdge phase = s.dsArrival phase := by
  refine (if_neg (by simp [free])).trans ((if_neg now).trans (if_neg fun ⟨locked, takes, new⟩ => ?_))
  rcases h with other | same
  · exact other locked
  · exact Bool.false_ne_true (new.symm.trans (same.symm.trans takes))

/-- The mark of a pulse leaves the state of the tick, its number and its change as the arrival makes them. -/
theorem State.dsyncEdge_tick : (s.dsyncEdge phase).tick.st = (s.dsArrival phase).tick.st ∧
    (s.dsyncEdge phase).tick.num = (s.dsArrival phase).tick.num ∧
    (s.dsyncEdge phase).tick.adj39 = (s.dsArrival phase).tick.adj39 := by
  by_cases marked : (s.dsArrival phase).tick.st = .lockedDsync ∧ (s.dsArrival phase).tick.dsync.arrived = true ∧
      s.tick.dsync.arrived = false
  · obtain ⟨locked, takes, new⟩ := marked
    rw [State.dsyncEdge_marks free now locked takes new]
    exact ⟨rfl, rfl, rfl⟩
  · have same : s.dsyncEdge phase = s.dsArrival phase :=
      (if_neg (by simp [free])).trans ((if_neg now).trans (if_neg marked))
    rw [same]
    exact ⟨rfl, rfl, rfl⟩

end

/-! ## The classification of a pulse (R31, R49, R444) -/

theorem clampNat_eq {lo hi : Nat} (h : lo ≤ hi) (v : Nat) : clampNat lo hi v = max lo (min hi v) := by
  unfold clampNat
  split
  · omega
  · split <;> omega

/-- A pulse classified: its width, the flip indication of the boundary to come, and the TICK_OUT of the boundary made
last. -/
def State.classified (s : State) (high : Nat) : State :=
  s.updTick fun k => { k with
    dsHigh := false, dsWidth := high,
    flipInd := if k.dsMark = 1 ∨ k.flipWait then
        decide (4000 ≤ high ∧ high ≤ 8000) && s.tick.st == .lockedDsync && s.tick.dsMark != 0
      else k.flipInd,
    tickOut := if k.dsMark = 2 ∧ k.st = .lockedDsync ∧ k.ctrl.bit 2 then s.tickPulse (clampNat 1000 8500 high)
      else k.tickOut }

section
variable {s : State} {high : Nat}

theorem State.dsyncClassify_none (h : s.tick.dsHigh = false) : s.dsyncClassify high = s := if_pos h

variable (wait : s.tick.flipWait = false)
include wait

/-- No step of the boundary has waited for the pulse. -/
theorem State.dsyncClassify_classifies (pulse : s.tick.dsHigh = true) : s.dsyncClassify high = s.classified high := by
  have none : (s.classified high).waitedSteps = s.classified high :=
    if_neg (by simp [State.classified, State.updTick, wait])
  exact (if_neg (by simp [pulse])).trans none

theorem State.flipInd_classified : (s.classified high).tick.flipInd = (if s.tick.dsMark = 1 then
    decide (4000 ≤ high ∧ high ≤ 8000) && s.tick.st == .lockedDsync else s.tick.flipInd) := by
  refine if_ctx_congr (by simp [wait]) (fun first => ?_) fun _ => rfl
  simp [first]

end

theorem State.tickOut_classified {s : State} {high : Nat} (made : s.tick.dsMark = 2) (st : s.tick.st = .lockedDsync)
    (shown : s.tick.ctrl.bit 2 = true) (free : s.genHeld 1 = false) :
    (s.classified high).tick.tickOut = max 1000 (min 8500 high) := by
  have pulse : s.tickPulse (clampNat 1000 8500 high) = clampNat 1000 8500 high := if_neg (by simp [free])
  exact (if_pos ⟨made, st, shown⟩).trans (pulse.trans (clampNat_eq (by decide) high))

/-! ## A TICK set (R227, R244, R245, R247) -/

section
variable (s : State)

theorem State.link_raise (e : Nat) (d : Dest) (v : Word) : (s.raise e d v).link = s.link := s.raise_link e d v

theorem State.link_endArms (kind : Nat) (cells : List Nat) : (s.endArms kind cells).link = s.link :=
  State.each_keeps (view := State.link) (fun s c _ => by exact (s.unarm c).raise_link _ _ _) s

theorem State.link_numberSet : s.numberSet.link = s.link := by
  unfold State.numberSet State.acntReset
  split
  · rfl
  · exact (State.each_keeps (view := State.link) (fun s t _ => s.updTen_link t _) _).trans rfl

theorem State.link_loadNumber (n : BitVec 48) (link within : Bool) : (s.loadNumber n link within).link = s.link := by
  have skipped : ((s.updTick fun k => { k with num := n }).numberSet.skipArms s.now (n.toNat + bitNat within)).link =
      s.link := (State.link_endArms _ _ _).trans (State.link_numberSet _)
  unfold State.loadNumber
  split
  · exact (State.raise_link _ _ _ _).trans skipped
  · exact skipped

theorem State.late_lowCheck (low : Nat) (next : Bool) : (s.lowCheck low next).link.late = s.link.late := by
  unfold State.lowCheck
  dsimp only
  split
  · split
    · rw [State.raise_link]; rfl
    · rfl
  · rfl

theorem State.late_ticknumMatch (low : Nat) (next : Bool) : (s.ticknumMatch low next).link.late = s.link.late := by
  unfold State.ticknumMatch
  split
  · split
    · dsimp only
      split
      · rfl
      · rw [State.link_loadNumber]; rfl
    · exact s.late_lowCheck low next
  · exact s.late_lowCheck low next

theorem State.link_approach (ds : Bool) (err : Int) (flip ahead : Bool) :
    (s.approach ds err flip ahead).link = s.link := by
  unfold State.approach
  split
  · exact State.raise_link _ _ _ _
  · rfl

theorem State.link_countArrival (ds : Bool) (err : Int) (flip ahead : Bool) :
    (s.countArrival ds err flip ahead).link = s.link := by
  cases new : (s.tick.lockOf ds).arrived with
  | true => rw [State.countArrival_another new]
  | false =>
    by_cases four : 4 ≤ (s.counted ds err).count
    · rw [State.countArrival_ends new four, State.link_approach]
      rfl
    · rw [State.countArrival_counts new (Nat.not_le.mp four)]
      rfl

/-- An arrival changes nothing of the link. -/
theorem State.link_arrival (ds : Bool) (phase : Int) (flip ahead : Bool) :
    (s.arrival ds phase flip ahead).link = s.link := by
  unfold State.arrival
  dsimp only
  split
  · rfl
  · split
    · split <;> rfl
    · split
      · split
        · exact s.link_approach _ _ _ _
        · rfl
      · split
        · exact s.link_countArrival _ _ _ _
        · rfl

end

/-- The LEAD and LOW of a TICK set noted. -/
def State.leadNoted (s : State) (low : Byte) (lead : BitVec 24) : State :=
  s.updLink fun k => { k with tickLead := lead.toNat, tickLow := low.toNat }

/-- A TICK that cannot go on in time is counted. -/
theorem State.late_tickOn {s : State} {flags low lead held : Nat} (dn : s.hopIsUp true = true)
    (short : lead < held + s.link.dn.delay) :
    (s.tickOn flags low lead held).link.late = min 65535 (s.link.late + 1) := by
  have goes : s.tickOn flags low lead held = ((s.updLink fun k => { k with late := sat16 k.late }).emit true
      (.tick (if 2 ≤ flags % 4 then flags else flags + 2) low 0)).raise 22 .granted 1 :=
    (if_neg (by simp [dn])).trans (if_pos short)
  obtain ⟨u, d, sent⟩ := (s.updLink fun k => { k with late := sat16 k.late }).emit_onlyPorts true
    (.tick (if 2 ≤ flags % 4 then flags else flags + 2) low 0)
  rw [goes, State.raise_link, sent]
  exact sat16_eq_min _

section
variable {s : State} {flags low chk : Byte} {lead : BitVec 24} {codeErr : Bool} {phase : Int} {held : Nat}

theorem State.tickSet_down (down : s.hopIsUp false = false) :
    s.tickSet flags low lead chk codeErr phase held = s := if_pos down

variable (up : s.hopIsUp false = true)
include up

theorem State.tickSet_bad (bad : codeErr = true ∨ chk ≠ tickChk flags low lead) :
    s.tickSet flags low lead chk codeErr phase held = s.countCode := (if_neg (by simp [up])).trans (if_pos bad)

variable (whole : codeErr = false) (valid : chk = tickChk flags low lead)
include whole valid

/-- A valid set with LATE is no arrival. -/
theorem State.tickSet_late (late : flags.getLsbD 1 = true) : s.tickSet flags low lead chk codeErr phase held =
    (s.leadNoted low lead).tickOn flags.toNat low.toNat lead.toNat held :=
  (if_neg (by simp [up])).trans ((if_neg (by simp [whole, valid])).trans (if_pos late))

/-- What follows a valid set's way to DN counts no more sets that are late. -/
theorem State.late_tickSet : (s.tickSet flags low lead chk codeErr phase held).link.late =
    ((s.leadNoted low lead).tickOn flags.toNat low.toNat lead.toNat held).link.late := by
  have numbered (m : State) (next : Bool) :
      (if s.numberFromLink then m.ticknumMatch low.toNat next else m).link.late = m.link.late := by
    split
    · exact m.late_ticknumMatch _ _
    · rfl
  unfold State.tickSet
  dsimp only
  rw [if_neg (by simp [up]), if_neg (by simp [whole, valid])]
  split
  · rfl
  · split
    · exact numbered _ _
    · split
      · exact numbered _ _
      · rw [State.link_arrival]
        exact numbered _ _

/-- On a device locked to the link a set whose LOW fits is an arrival. -/
theorem State.tickSet_arrives (timely : flags.getLsbD 1 = false) (alone : s.hopIsUp true = false)
    (locked : s.tick.st = .lockedLink) (allows : srcAllows s.tick.srcF s.tick.dsyncF false = true)
    (known : s.tick.ticknum = none)
    (fits : low.toNat = (s.now + bitNat (decide (phase ≤ (lead.toNat : Int)))) % 256) :
    s.tickSet flags low lead chk codeErr phase held =
      (s.leadNoted low lead).arrival false phase (flags.getLsbD 0) (decide (phase ≤ (lead.toNat : Int))) := by
  have on : (s.leadNoted low lead).tickOn flags.toNat low.toNat lead.toNat held = s.leadNoted low lead :=
    if_pos alone
  have given : s.numberFromLink = true := by simp [State.numberFromLink, Tick.use, locked, allows]
  have same : (s.leadNoted low lead).ticknumMatch low.toNat (decide (phase ≤ (lead.toNat : Int))) =
      s.leadNoted low lead := by
    have none : (s.leadNoted low lead).tick.ticknum = none := known
    unfold State.ticknumMatch
    rw [none]
    exact if_neg fun ⟨_, _, other⟩ => other fits.symm
  unfold State.tickSet
  dsimp only
  rw [if_neg (by simp [up]), if_neg (by simp [whole, valid]), if_neg (Bool.eq_false_iff.mp timely), if_pos given,
    if_neg (by simp [allows]), if_neg (by simp [locked])]
  refine congrArg (fun m : State => m.arrival false phase (flags.getLsbD 0) (decide (phase ≤ (lead.toNat : Int)))) ?_
  exact (congrArg (fun m : State => m.ticknumMatch low.toNat (decide (phase ≤ (lead.toNat : Int)))) on).trans same

end

theorem srcAllows_dsync {src : Nat} {en : Bool} (h : src = 2 ∨ (src = 0 ∧ en = true)) :
    srcAllows src en true = true := by
  rcases h with rfl | ⟨rfl, rfl⟩ <;> rfl

theorem srcAllows_link {src : Nat} (h : src ≤ 1) (en : Bool) : srcAllows src en false = true := by
  interval_cases src <;> rfl

end Sys2Proof.Machine

section
open Sys2Proof Sys2Proof.Machine

/-- Settles O41: an edge of DSYNC_IN by what its arrival finds, a pulse by what it marks, and a TICK set by the hops,
its faults and its flags. -/
theorem tickArrivalRows : Obligations.TickArrivalRows := by
  unfold Obligations.TickArrivalRows
  intro s phase edge waits
  simp only [exec_dsyncEdge, exec_dsyncClassify, exec_tickSet]
  refine ⟨fun held => ?_, fun free later => ?_, fun free now still => ?_, fun free now ticks src => ?_,
    fun high => ⟨fun none => ?_, fun pulse wait => ⟨_, rfl, ?_⟩⟩,
    fun flags low lead chk codeErr held => ⟨fun down => ?_, fun up bad => ?_, fun up whole valid =>
      ⟨fun alone => ⟨fun late => ?_, fun timely ticks locked src window new known fits => ?_⟩,
        fun dn short => ⟨_, rfl, ?_⟩⟩⟩⟩
  · rw [State.dsyncEdge_held held]
  · rw [State.dsyncEdge_waits free later]
    rfl
  · have none : s.dsArrival phase = s := State.arrival_still still
    rw [State.dsyncEdge_unmarked free now (.inr (by rw [none])), none]
  · have allows := srcAllows_dsync src
    have lock (st : s.tick.st = .lockedDsync) : s.tick.locked = true := by simp [Tick.locked, st]
    have use (st : s.tick.st = .lockedDsync) : s.tick.use = some true := by simp [Tick.use, st]
    refine ⟨fun locked window new => ?_, fun locked ignored => ?_, fun holdover new => ⟨fun first => ?_,
      fun agrees => ⟨fun one few => ?_, fun three => ⟨_, rfl, ?_⟩⟩⟩⟩
    · have taken : s.dsArrival phase = _ := State.arrival_taken ticks allows (lock locked) (use locked) window new
      rw [State.dsyncEdge_marks free now (by rw [taken]; exact locked) (by rw [taken]; rfl) new, taken]
      rfl
    · have none : s.dsArrival phase = s := State.arrival_ignored ticks allows (lock locked) (use locked) ignored
      rw [State.dsyncEdge_unmarked free now (.inr (by rw [none])), none]
    all_goals
      have arrives : s.dsArrival phase = s.countArrival true (phaseIn s.periodUs edge) false (decide (edge ≤ 0)) :=
        State.arrival_holdover ticks allows holdover
    · have counts := State.counted_first (s := s) (ds := true) (err := phaseIn s.periodUs edge) first
      have below : (s.counted true (phaseIn s.periodUs edge)).count < 4 := counts ▸ Nat.one_lt_succ_succ 2
      rw [State.countArrival_counts (s := s) (ds := true) new below, counts] at arrives
      rw [State.dsyncEdge_unmarked free now (.inl (by rw [arrives]; exact holdover ▸ nofun)), arrives]
      rfl
    · have counts := State.counted_agrees (s := s) (ds := true) one agrees
      have below : (s.counted true (phaseIn s.periodUs edge)).count < 4 := counts ▸ Nat.succ_lt_succ few
      rw [State.countArrival_counts (s := s) (ds := true) new below, counts] at arrives
      rw [State.dsyncEdge_unmarked free now (.inl (by rw [arrives]; exact holdover ▸ nofun)), arrives]
      rfl
    · have counts := State.counted_agrees (s := s) (ds := true) (three ▸ by decide) agrees
      have four : 4 ≤ (s.counted true (phaseIn s.periodUs edge)).count :=
        counts ▸ Nat.le_of_eq (congrArg (· + 1) three.symm)
      rw [State.countArrival_ends (s := s) (ds := true) new four] at arrives
      obtain ⟨st, num, adj⟩ := State.dsyncEdge_tick free now
      rw [st, num, adj, arrives]
      exact State.approach_effect _ true _ _ _
  · rw [State.dsyncClassify_none none]
  · rw [State.dsyncClassify_classifies wait pulse]
    exact ⟨State.flipInd_classified wait, State.tickOut_classified, rfl⟩
  · rw [State.tickSet_down down]
  · rw [State.tickSet_bad up bad, State.countCode_eq]
  · rw [State.tickSet_late up whole valid late]
    exact congrArg Host.Outcome.next (if_pos alone)
  · have allows := srcAllows_link src s.tick.dsyncF
    have lock : s.tick.locked = true := by simp [Tick.locked, locked]
    have use : s.tick.use = some false := by simp [Tick.use, locked]
    rw [State.tickSet_arrives up whole valid timely alone locked allows known fits,
      State.arrival_taken (s := s.leadNoted low lead) ticks allows lock use window new]
    rfl
  · rw [State.late_tickSet up whole valid, State.late_tickOn (s := s.leadNoted low lead) dn short]
    rfl

end
end

section
/-! PROOFS. The platform sequencer (O52). -/

namespace Sys2Proof.Machine

/-! ## Sets of rails -/

theorem getLsbD_railSet {ns : List Nat} (sorted : ns.Pairwise (· < ·)) {i : Nat} (hi : i < 24) :
    (railSet ns).getLsbD i = decide (i ∈ ns) := by
  have member : ((ns.map fun n => 2 ^ n).sum).testBit i = decide (i ∈ ns) := by
    rw [Bool.eq_iff_iff, ← Nat.mem_bitIndices, Nat.bitIndices_sum_map_two_pow sorted.sortedLT, decide_eq_true_iff]
  rw [railSet, BitVec.getLsbD_ofNat, member, decide_eq_true hi, Bool.true_and]

theorem getLsbD_railSet_filter (f : Nat → Bool) {i : Nat} (hi : i < 24) :
    (railSet ((List.range 24).filter f)).getLsbD i = f i := by
  rw [getLsbD_railSet (List.pairwise_lt_range.filter f) hi]
  simp [hi]

theorem getLsbD_railSet_one (n : Nat) {i : Nat} (hi : i < 24) : (railSet [n]).getLsbD i = decide (i = n) := by
  rw [getLsbD_railSet (List.pairwise_singleton _ n) hi]
  simp

theorem railsIn_one : ∀ i : Fin 24, railsIn (railSet [i.val]) = [i.val] := by decide

section
variable (s : State)

theorem State.getLsbD_actRails (act : Nat) (ns : BitVec 24) {i : Nat} (hi : i < 24) :
    (s.actRails act ns).getLsbD i = (ns.getLsbD i && s.railAct i == act) := by
  have twice : (railsIn ns).filter (fun n => s.railAct n == act) =
      (List.range 24).filter fun n => s.railAct n == act && ns.getLsbD n := List.filter_filter
  rw [State.actRails, twice, getLsbD_railSet_filter _ hi, Bool.and_comm]

/-- A rail is lost when it is enabled, watched, waited on no more, and low (R289). -/
theorem State.getLsbD_lostSet {i : Nat} (hi : i < 24) : s.lostSet.getLsbD i =
    (s.seq.en.getLsbD i && s.railPg i && !s.seq.wait.getLsbD i && !s.seq.manWait.getLsbD i && !s.seq.pg.getLsbD i) := by
  simp only [State.lostSet, BitVec.getLsbD_and, BitVec.getLsbD_not, getLsbD_railSet_filter _ hi, hi, decide_true,
    Bool.true_and]

/-! ## What an event and a record of rails change -/

theorem State.wrWhole_updSeqr (f : Seq → Seq) (a : Nat) (bs : List Byte) :
    (s.updSeqr f).wrWhole a bs = (s.wrWhole a bs).updSeqr f := by
  have bytes (bs : List Byte) (s : State) (a : Nat) : (s.updSeqr f).wrBytes a bs = (s.wrBytes a bs).updSeqr f := by
    induction bs generalizing s a with
    | nil => rfl
    | cons b bs ih => exact ih (s.wrByte a b) (a + 1)
  have checks (ns : List Nat) (s : State) :
      (s.updSeqr f).each ns (fun s i => s.setEcc ((a / 8 + i) * 8) .good) =
        (s.each ns fun s i => s.setEcc ((a / 8 + i) * 8) .good).updSeqr f := by
    induction ns generalizing s with
    | nil => rfl
    | cons n ns ih => exact ih (s.setEcc ((a / 8 + n) * 8) .good)
  unfold State.wrWhole
  rw [bytes, checks]

/-- An event neither reads nor changes the sequencer. -/
theorem State.raise_updSeqr (f : Seq → Seq) (e : Nat) (d : Dest) (v : Word) :
    (s.updSeqr f).raise e d v = (s.raise e d v).updSeqr f := by
  have put (t flags tick : Nat) : (s.updSeqr f).eqPut t e flags tick v = (s.eqPut t e flags tick v).updSeqr f :=
    congrArg (fun n : State => n.updTen t fun T => { T with eqTail := T.eqTail + 1 }) (s.wrWhole_updSeqr f _ _)
  have placed (t tick : Nat) : (s.updSeqr f).place t e tick v = (s.place t e tick v).updSeqr f := by
    unfold State.place
    rw [apply_ite (State.updSeqr · f), ← put]
    rfl
  have delivered (t : Nat) : (s.updSeqr f).deliver t e v = (s.deliver t e v).updSeqr f := by
    unfold State.deliver
    rw [apply_ite (State.updSeqr · f), ← placed]
    rfl
  unfold State.raise
  rw [apply_ite (State.updSeqr · f), apply_ite (State.updSeqr · f), apply_ite (State.updSeqr · f), ← delivered]
  rfl

/-- The union of rails one by one. -/
def anyRail (ns : List Nat) : BitVec 24 := ns.foldr (fun n m => railSet [n] ||| m) 0

theorem anyRail_railsIn (m : BitVec 24) : anyRail (railsIn m) = m := by
  have member (ns : List Nat) {i : Nat} (hi : i < 24) : (anyRail ns).getLsbD i = decide (i ∈ ns) := by
    induction ns with
    | nil => simp [anyRail]
    | cons n ns ih =>
      have one : anyRail (n :: ns) = railSet [n] ||| anyRail ns := rfl
      rw [one, BitVec.getLsbD_or, getLsbD_railSet_one n hi, ih, Bool.eq_iff_iff]
      simp
  refine BitVec.eq_of_getLsbD_eq fun i hi => ?_
  rw [member _ hi]
  simp [railsIn, hi]

/-- One rail that faults: recorded, waited on no more, and reported (R289). -/
def State.railOne (s : State) (kind n : Nat) : State :=
  (s.updSeqr fun q => { q with
    fault := q.fault ||| railSet [n], wait := q.wait &&& ~~~railSet [n],
    manWait := q.manWait &&& ~~~railSet [n] }).raise 253 .granted (wordOf (n + 256 * kind + 4096 * s.railAct n))

/-- Rails recorded: they are waited on no more. -/
def Seq.recorded (q : Seq) (ns : BitVec 24) : Seq :=
  { q with fault := q.fault ||| ns, wait := q.wait &&& ~~~ns, manWait := q.manWait &&& ~~~ns }

theorem Seq.recorded_zero (q : Seq) : q.recorded 0 = q := by
  have none (m : BitVec 24) : m ||| 0 = m := BitVec.or_zero
  have all (m : BitVec 24) : m &&& ~~~0 = m := (congrArg (m &&& ·) BitVec.not_zero).trans BitVec.and_allOnes
  unfold Seq.recorded
  rw [all, all, none]

theorem Seq.recorded_recorded (q : Seq) (a b : BitVec 24) : (q.recorded a).recorded b = q.recorded (a ||| b) := by
  simp only [Seq.recorded, BitVec.or_assoc, BitVec.and_assoc, BitVec.not_or]

/-- Rails that fault are recorded; the power controller and the registers stay. -/
theorem State.railRecord_effect (kind : Nat → Nat) (ns : BitVec 24) :
    (s.railRecord kind ns).seq = s.seq.recorded ns ∧ (s.railRecord kind ns).pwr = s.pwr ∧
      (s.railRecord kind ns).regs = s.regs := by
  have all (l : List Nat) (s : State) :
      (s.each l fun s n => s.railOne (kind n) n).seq = s.seq.recorded (anyRail l) ∧
      (s.each l fun s n => s.railOne (kind n) n).pwr = s.pwr ∧
      (s.each l fun s n => s.railOne (kind n) n).regs = s.regs := by
    induction l generalizing s with
    | nil => exact ⟨s.seq.recorded_zero.symm, rfl, rfl⟩
    | cons n l ih =>
      obtain ⟨seq, pwr, regs⟩ := ih (s.railOne (kind n) n)
      have here : (s.railOne (kind n) n).seq = s.seq.recorded (railSet [n]) := State.raise_seq _ _ _ _
      rw [here, Seq.recorded_recorded] at seq
      exact ⟨seq, pwr.trans (State.raise_pwr _ _ _ _), regs.trans (State.raise_regs _ _ _ _)⟩
  have recorded := all (railsIn ns) s
  rw [anyRail_railsIn] at recorded
  exact recorded

theorem State.railRecord_zero (kind : Nat → Nat) : s.railRecord kind 0 = s := rfl

theorem State.railRecord_one (kind : Nat → Nat) (i : Fin 24) :
    s.railRecord kind (railSet [i.val]) = s.railOne (kind i) i := by
  rw [State.railRecord, railsIn_one]
  rfl

/-- UP_DONE clears, and where it was set the shutters of DP and LC close (R293). -/
theorem State.dropUpDone_effect : s.dropUpDone.seq = { s.seq with upDone := false } ∧
    (s.seq.upDone = true → s.dropUpDone.pwr.closed = s.pwr.closed ||| 0x0C) ∧
    (s.seq.upDone = false → s.dropUpDone = s) ∧ s.dropUpDone.regs = s.regs := by
  cases done : s.seq.upDone with
  | true =>
    have drops : s.dropUpDone = (s.closeBanks 0x0C).updSeqr fun q => { q with upDone := false } := if_pos done
    obtain ⟨a, b, l, closes⟩ := s.closeBanks_shape 0x0C
    rw [drops, closes]
    exact ⟨rfl, fun _ => rfl, nofun, rfl⟩
  | false =>
    have same : s.dropUpDone = s := if_neg (by simp [done])
    rw [same]
    refine ⟨?_, nofun, fun _ => rfl, rfl⟩
    rw [← done]

end

/-! ## Sequences (R285, R286) -/

theorem State.railUp_congr {s n : State} (regs : n.regs = s.regs) : n.railUp = s.railUp :=
  funext fun k => congrArg (Word.fld · 0 5) (by rw [State.reg, regs, ← State.reg])

/-- The steps of a sequence go by the registers and the enables. -/
theorem State.stepRails_congr {s n : State} (regs : n.regs = s.regs) (en : n.seq.en = s.seq.en) (up : Bool) (st : Nat) :
    n.stepRails up st = s.stepRails up st := by
  have reg (a : Nat) : n.reg a = s.reg a := by rw [State.reg, regs, ← State.reg]
  have ups := State.railUp_congr regs
  have downs : n.railDn = s.railDn := funext fun k => congrArg (Word.fld · 8 5) (reg (railReg k 0))
  unfold State.stepRails
  rw [ups, downs, en]

theorem State.nextStep_congr {s n : State} (regs : n.regs = s.regs) (en : n.seq.en = s.seq.en) (up : Bool)
    (from_ : Nat) : n.nextStep up from_ = s.nextStep up from_ := by
  simp only [State.nextStep, State.stepRails_congr regs en]

/-- Some rail of a step has a DLY. -/
def State.stepDelays (s : State) (up : Bool) (st : Nat) : Bool := (s.stepRails up st).any fun n => s.railDly n != 0

theorem State.stepDelays_congr {s n : State} (regs : n.regs = s.regs) (en : n.seq.en = s.seq.en) (up : Bool)
    (st : Nat) : n.stepDelays up st = s.stepDelays up st := by
  have reg (a : Nat) : n.reg a = s.reg a := by rw [State.reg, regs, ← State.reg]
  simp only [State.stepDelays, State.stepRails_congr regs en, State.railDly, State.fld, reg]

section
variable {s : State} {k from_ : Nat}

theorem State.seqRun_ends (none : s.nextStep s.seqUp from_ = none) : State.seqRun (k + 1) from_ s = s.seqFinish := by
  unfold State.seqRun
  rw [none]

theorem State.seqRun_waits {st : Nat} (next : s.nextStep s.seqUp from_ = some st)
    (delays : s.stepDelays s.seqUp st = true) :
    State.seqRun (k + 1) from_ s = s.updSeqr fun q => { q with step := st, dlyRun := true, wait := 0 } := by
  unfold State.seqRun
  rw [next]
  exact if_pos delays

end

/-- What no step of a down sequence changes. -/
def State.downView (s : State) : Bool × Nat × BitVec 24 × Pwr := (s.seq.upDone, s.seq.result, s.seq.fault, s.pwr)

theorem State.downView_eq {s n : State} (h : n.downView = s.downView) :
    n.seq.upDone = s.seq.upDone ∧ n.seq.result = s.seq.result ∧ n.seq.fault = s.seq.fault ∧ n.pwr = s.pwr := by
  simpa only [State.downView, Prod.mk.injEq] using h

theorem State.downView_raise (s : State) (e : Nat) (d : Dest) (v : Word) : (s.raise e d v).downView = s.downView := by
  simp only [State.downView, State.raise_seq, State.raise_pwr]

theorem State.downView_seqRun {s : State} (down : s.seqUp = false) (k from_ : Nat) :
    (State.seqRun k from_ s).downView = s.downView := by
  induction k generalizing s from_ with
  | zero => rfl
  | succ k ih =>
    have drive {n : State} (down : n.seqUp = false) : n.seqDrive.seqUp = false ∧ n.seqDrive.downView = n.downView := by
      unfold State.seqDrive
      dsimp only
      rw [if_neg (by simp [down])]
      exact ⟨down, rfl⟩
    unfold State.seqRun
    split
    · have ends : s.seqFinish = (s.updSeqr fun q => { q with st := 0 }).ev252 2 := if_neg (by simp [down])
      rw [ends, State.ev252, State.downView_raise]
      rfl
    · next st _ =>
      dsimp only
      split
      · rfl
      · obtain ⟨still, same⟩ := drive (n := s.updSeqr fun q => { q with step := st, dlyRun := true, wait := 0 }) down
        split
        · exact (ih still _).trans same
        · exact same

/-- A down sequence about to take its first step. -/
def State.downStart (s : State) (st : Nat) : State :=
  s.dropUpDone.updSeqr fun q => { q with
    result := if q.st = 1 then 3 else q.result, st := st, wait := 0, dlyRun := false }

section
variable (s : State) {st : Nat}

theorem State.downStart_seq : (s.downStart st).seq = { s.seq with
    upDone := false, result := if s.seq.st = 1 then 3 else s.seq.result, st := st, wait := 0, dlyRun := false } := by
  obtain ⟨seq, -⟩ := s.dropUpDone_effect
  rw [State.downStart, State.updSeqr]
  dsimp only
  rw [seq]

theorem State.downStart_regs : (s.downStart st).regs = s.regs := s.dropUpDone_effect.2.2.2

theorem State.seqDown_eq : ∃ lost : BitVec 24,
    s.seqDown st = (State.seqRun 25 0 (s.downStart st)).railRecord (fun _ => 1) (s.seq.wait &&& lost) := ⟨_, rfl⟩

variable (down : 2 ≤ st)
include down

/-- A down sequence has cleared UP_DONE, and an up sequence under way is ABORTED. -/
theorem State.seqDown_effect : (s.seqDown st).seq.upDone = false ∧
    (s.seqDown st).seq.result = (if s.seq.st = 1 then 3 else s.seq.result) ∧
    (s.seqDown st).pwr = s.dropUpDone.pwr ∧ (s.seq.wait = 0 → (s.seqDown st).seq.fault = s.seq.fault) := by
  obtain ⟨lost, runs⟩ := s.seqDown_eq (st := st)
  have other : (s.downStart st).seqUp = false := by
    rw [State.seqUp, State.downStart_seq]
    exact beq_eq_false_iff_ne.mpr (by dsimp only; omega)
  obtain ⟨done, result, fault, pwr⟩ := State.downView_eq (State.downView_seqRun other 25 0)
  rw [State.downStart_seq] at done result fault
  obtain ⟨seq, power, -⟩ := (State.seqRun 25 0 (s.downStart st)).railRecord_effect (fun _ => 1) (s.seq.wait &&& lost)
  rw [runs]
  refine ⟨by rw [seq]; exact done, by rw [seq]; exact result, power.trans pwr, fun none => ?_⟩
  have waited : s.seq.wait &&& lost = 0 := by rw [none]; exact BitVec.zero_and
  rw [waited, State.railRecord_zero]
  exact fault

/-- It waits for the DLY of its first step with no enable changed. -/
theorem State.seqDown_waits {k : Nat} (next : s.nextStep false 0 = some k) (delays : s.stepDelays false k = true) :
    (s.seqDown st).seq.st = st ∧ (s.seqDown st).seq.step = k ∧ (s.seqDown st).seq.en = s.seq.en ∧
      (s.seqDown st).seq.dlyRun = true := by
  obtain ⟨lost, runs⟩ := s.seqDown_eq (st := st)
  have other : (s.downStart st).seqUp = false := by
    rw [State.seqUp, State.downStart_seq]
    exact beq_eq_false_iff_ne.mpr (by dsimp only; omega)
  have en : (s.downStart st).seq.en = s.seq.en := by rw [State.downStart_seq]
  have waits : State.seqRun 25 0 (s.downStart st) = _ := State.seqRun_waits
    (by rw [other, State.nextStep_congr s.downStart_regs en]; exact next)
    (by rw [other, State.stepDelays_congr s.downStart_regs en]; exact delays)
  obtain ⟨seq, -⟩ := (State.seqRun 25 0 (s.downStart st)).railRecord_effect (fun _ => 1) (s.seq.wait &&& lost)
  rw [runs, seq, waits]
  exact ⟨congrArg Seq.st s.downStart_seq, rfl, en, rfl⟩

end

/-! ## SEQ_CTRL (R285 to R287) -/

section
variable {s : State}

theorem State.cfgRow_seqCtrl (h : s.cfgReach 0 0x30060000 true = true) (v : Word) :
    s.cfgRow 0 0x30060000 v 0xF#4 = s.seqCtrlWrite v := by
  have put (be : BitVec 4) : s.cfgPut none 0x30060000 v be = (s.seqCtrlWrite (woBytes v be), 0) := rfl
  refine State.cfgRow_of h rfl ((put 0xF#4).trans ?_)
  rw [woBytes_all]

theorem exec_goUp_reached (h : s.cfgReach 0 0x30060000 true = true) : exec .goUp s = .next s.goUp :=
  congrArg Host.Outcome.next (State.cfgRow_seqCtrl h 1)

theorem exec_goDown_reached (h : s.cfgReach 0 0x30060000 true = true) : exec .goDown s = .next s.goDown :=
  congrArg Host.Outcome.next (State.cfgRow_seqCtrl h 2)

/-- An up sequence about to take its first step. -/
def State.upStart (s : State) : State := s.updSeqr fun q => { q with st := 1, wait := 0, dlyRun := false }

theorem State.goUp_idle (idle : s.seq.st = 0) : s.goUp = State.seqRun 25 0 s.upStart := if_pos idle

/-- GO_UP with no step to take is complete at once. -/
theorem State.goUp_complete (idle : s.seq.st = 0) (none : s.nextStep true 0 = none) : s.goUp =
    { s with seq := { s.seq with st := 0, wait := 0, dlyRun := false, upDone := true, result := 1 } }.raise
      252 .granted (wordOf (1 + 256 * s.seq.step)) := by
  have here : s.upStart.nextStep s.upStart.seqUp 0 = .none := (State.nextStep_congr rfl rfl true 0).trans none
  rw [State.goUp_idle idle, State.seqRun_ends here]
  exact if_pos rfl

theorem State.goUp_waits {k : Nat} (idle : s.seq.st = 0) (next : s.nextStep true 0 = some k)
    (delays : s.stepDelays true k = true) :
    s.goUp = { s with seq := { s.seq with st := 1, step := k, dlyRun := true, wait := 0 } } := by
  have here : s.upStart.nextStep s.upStart.seqUp 0 = some k := (State.nextStep_congr rfl rfl true 0).trans next
  have slow : s.upStart.stepDelays s.upStart.seqUp k = true := (State.stepDelays_congr rfl rfl true k).trans delays
  rw [State.goUp_idle idle, State.seqRun_waits here slow]
  rfl

theorem State.goUp_busy (busy : s.seq.st ≠ 0) : s.goUp = s.seqRej := if_neg busy

theorem State.goDown_starts (free : s.seq.st ≤ 1) : s.goDown = s.seqDown 2 := if_pos free

theorem State.goDown_busy (busy : 2 ≤ s.seq.st) : s.goDown = s.seqRej := if_neg (by omega)

theorem State.seqDown_doors (s : State) (st : Nat) :
    (s.seqDown st).doors = s.doors ∧ (s.seqDown st).regs = s.regs := by
  have keeps := s.loopView_seqDown (i := 0) st
  exact ⟨congrArg (fun q => q.1) keeps, congrArg (fun q => q.2.1) keeps⟩

/-! ## The end of a DLY (R285) -/

theorem State.seqDelayEnd_idle (idle : s.up 13 = false ∨ s.seq.st = 0 ∨ s.seq.dlyRun = false) : s.seqDelayEnd = s := by
  refine if_neg ?_
  rintro ⟨up, busy, runs⟩
  rcases idle with down | idle | done
  · exact absurd up (by simp [down])
  · exact busy idle
  · exact absurd runs (by simp [done])

/-- A step that waits goes no further. -/
theorem State.seqStepEnd_waits (waits : s.seq.wait ≠ 0) : s.seqStepEnd = s := if_neg fun h => waits h.2.2

theorem State.seqStepEnd_idle (idle : s.seq.st = 0) : s.seqStepEnd = s := if_neg fun h => h.1 idle

theorem State.seqDrive_up (up : s.seq.st = 1) : s.seqDrive = { s with seq := { s.seq with
    dlyRun := false
    en := s.seq.en ||| railSet ((s.stepRails true s.seq.step).filter fun n => !s.seq.en.getLsbD n)
    wait := railSet (((s.stepRails true s.seq.step).filter fun n => !s.seq.en.getLsbD n).filter fun n =>
      s.railPg n && !s.seq.pg.getLsbD n) } } := by
  have rising : s.seqUp = true := beq_iff_eq.mpr up
  unfold State.seqDrive
  rw [rising]
  exact if_pos rfl

theorem State.seqDelayEnd_drives (power : s.up 13 = true) (up : s.seq.st = 1) (runs : s.seq.dlyRun = true)
    (waits : s.seqDrive.seq.wait ≠ 0) : s.seqDelayEnd = s.seqDrive := by
  have drives : s.seqDelayEnd = s.seqDrive.seqStepEnd := if_pos ⟨power, by omega, runs⟩
  rw [drives, State.seqStepEnd_waits waits]

end

/-! ## One cycle of the power-goods (R289) -/

/-- The inputs as they read in a cycle in which no down sequence runs: a wait on a rail that reads good is over. -/
def State.pgRead (s : State) (pg : BitVec 24) : State := s.updSeqr fun q => { q with
  pg := pg, reread := false, manWait := q.manWait &&& ~~~pg, wait := q.wait &&& ~~~pg }

/-- The rails lost in this cycle and not before. -/
def State.newlyLost (s : State) (pg : BitVec 24) : BitVec 24 := (s.pgRead pg).lostSet &&& ~~~s.lostSet

/-- The rails that fault in this cycle. -/
def State.faulting (s : State) (pg late : BitVec 24) : BitVec 24 :=
  s.newlyLost pg ||| (late &&& ((s.pgRead pg).seq.wait ||| (s.pgRead pg).seq.manWait))

section
variable {s : State} {pg late : BitVec 24}

theorem State.getLsbD_newlyLost {i : Nat} (hi : i < 24) : (s.newlyLost pg).getLsbD i =
    (s.seq.en.getLsbD i && s.railPg i && !(s.seq.wait.getLsbD i && !pg.getLsbD i) &&
      !(s.seq.manWait.getLsbD i && !pg.getLsbD i) && !pg.getLsbD i && !s.lostSet.getLsbD i) := by
  have lost := (s.pgRead pg).getLsbD_lostSet hi
  rw [State.newlyLost, BitVec.getLsbD_and, lost]
  simp only [State.pgRead, State.updSeqr, BitVec.getLsbD_and, BitVec.getLsbD_not, hi, decide_true, Bool.true_and]
  rfl

/-- No rail is newly lost where each that read good still does. -/
theorem State.newlyLost_still (still : pg &&& s.seq.pg = s.seq.pg) : s.newlyLost pg = 0 := by
  refine BitVec.eq_of_getLsbD_eq fun i hi => ?_
  have bit : (pg.getLsbD i && s.seq.pg.getLsbD i) = s.seq.pg.getLsbD i := by rw [← BitVec.getLsbD_and, still]
  rw [State.getLsbD_newlyLost hi, s.getLsbD_lostSet hi]
  revert bit
  cases pg.getLsbD i <;> cases s.seq.pg.getLsbD i <;> simp +contextual

/-- The rails that read good, are watched and waited on no more, and fall are the ones newly lost. -/
theorem State.newlyLost_fell {f : BitVec 24} (waited : s.seq.wait = 0)
    (good : ∀ i, i < 24 → f.getLsbD i = true → s.seq.pg.getLsbD i = true ∧ s.seq.en.getLsbD i = true ∧
      s.railPg i = true ∧ s.seq.manWait.getLsbD i = false) : s.newlyLost (s.seq.pg &&& ~~~f) = f := by
  refine BitVec.eq_of_getLsbD_eq fun i hi => ?_
  have none : s.seq.wait.getLsbD i = false := by rw [waited]; exact BitVec.getLsbD_zero
  rw [State.getLsbD_newlyLost hi, s.getLsbD_lostSet hi, none, BitVec.getLsbD_and, BitVec.getLsbD_not, decide_eq_true hi]
  cases fell : f.getLsbD i with
  | true =>
    obtain ⟨pg, en, watched, man⟩ := good i hi fell
    simp [pg, en, watched, man]
  | false => cases s.seq.pg.getLsbD i <;> simp

/-- A cycle with no down sequence and no reading anew: what faults is recorded, with kind 2 unless it was lost, and
acted on. -/
theorem State.railCycle_up (up : s.seq.st ≤ 1) (read : s.seq.reread = false) : ∃ kind : Nat → Nat,
    (∀ n, (s.newlyLost pg).getLsbD n = false → kind n = 2) ∧ s.railCycle pg late =
      if s.faulting pg late = 0 then ((s.pgRead pg).railRecord kind (s.faulting pg late)).seqStepEnd
      else ((s.pgRead pg).railRecord kind (s.faulting pg late)).railAction 2 (s.faulting pg late) := by
  refine ⟨fun n => if (s.newlyLost pg).getLsbD n then 1 else 2, fun n held => by simp [held], ?_⟩
  have rising : decide (2 ≤ s.seq.st) = false := decide_eq_false (by omega)
  unfold State.railCycle
  rw [rising, read]
  simp only [Bool.false_eq_true, if_false, false_and]
  rfl

/-- A cycle outside a sequence in which nothing faults only ends waits. -/
theorem State.railCycle_quiet (idle : s.seq.st = 0) (read : s.seq.reread = false) (none : s.faulting pg late = 0) :
    s.railCycle pg late = s.pgRead pg := by
  obtain ⟨kind, -, cycle⟩ := State.railCycle_up (s := s) (pg := pg) (late := late) (by omega) read
  rw [cycle, if_pos none, none, State.railRecord_zero]
  exact State.seqStepEnd_idle idle

end

/-! ## The action of a fault (R289) -/

section
variable {s : State}

theorem State.actRails_eq_zero {act : Nat} {ns : BitVec 24}
    (other : ∀ i, i < 24 → ns.getLsbD i = true → s.railAct i ≠ act) : s.actRails act ns = 0 := by
  refine BitVec.eq_of_getLsbD_eq fun i hi => ?_
  rw [State.getLsbD_actRails s act ns hi]
  cases member : ns.getLsbD i with
  | true => simpa using other i hi member
  | false => simp

theorem State.actRails_ne_zero {act i : Nat} {ns : BitVec 24} (hi : i < 24) (member : ns.getLsbD i = true)
    (acts : s.railAct i = act) : s.actRails act ns ≠ 0 := fun none => by
  have bit := State.getLsbD_actRails s act ns hi
  rw [none, member, acts] at bit
  simp at bit

theorem State.railOff_effect (ns : BitVec 24) : (s.railOff ns).seq.en = s.seq.en &&& ~~~ns ∧
    (s.railOff ns).seq.fault = s.seq.fault := by
  obtain ⟨seq, -⟩ := s.dropUpDone_effect
  unfold State.railOff
  dsimp only [State.updSeqr]
  split
  · exact ⟨rfl, rfl⟩
  · rw [seq]
    exact ⟨rfl, rfl⟩

variable {k : Nat} {ns : BitVec 24} (any : ns ≠ 0) (up : s.seq.st ≤ 1)
include any up

theorem State.railAction_down (all : s.actRails 2 ns ≠ 0) : s.railAction (k + 1) ns = s.seqDown 3 := by
  unfold State.railAction
  rw [if_neg any, if_neg (by omega), if_pos all]

/-- RAIL_OFF with no wait under way is the end of it. -/
theorem State.railAction_off (waited : s.seq.wait = 0) (none : s.actRails 2 ns = 0) (off : s.actRails 1 ns ≠ 0) :
    s.railAction (k + 2) ns = s.railOff (s.actRails 1 ns) := by
  have lost (m : BitVec 24) : s.seq.wait &&& m = 0 := by rw [waited]; exact BitVec.zero_and
  unfold State.railAction
  rw [if_neg any, if_neg (by omega), if_neg (not_not_intro none), if_pos off]
  dsimp only
  rw [lost, State.railRecord_zero]
  exact if_pos rfl

theorem State.railAction_report (none : s.actRails 2 ns = 0) (stays : s.actRails 1 ns = 0) :
    s.railAction (k + 1) ns = s.seqStepEnd := by
  unfold State.railAction
  rw [if_neg any, if_neg (by omega), if_neg (not_not_intro none), if_neg (not_not_intro stays)]

end

/-! ## Rails that fall outside a sequence -/

section
variable {s : State} {f : BitVec 24}

/-- A rail's ACTION is a register. -/
theorem State.actRails_congr {n : State} (regs : n.regs = s.regs) (act : Nat) (ns : BitVec 24) :
    n.actRails act ns = s.actRails act ns := by
  have acts : n.railAct = s.railAct := funext fun k => congrArg (Word.fld · 16 2) (by rw [State.reg, regs, ← State.reg])
  rw [State.actRails, acts]
  rfl

variable (idle : s.seq.st = 0) (read : s.seq.reread = false) (some : f ≠ 0) (waited : s.seq.wait = 0)
  (good : ∀ i, i < 24 → f.getLsbD i = true → s.seq.pg.getLsbD i = true ∧ s.seq.en.getLsbD i = true ∧
    s.railPg i = true ∧ s.seq.manWait.getLsbD i = false)
include idle read some waited good

/-- Rails that fall in one cycle outside a sequence are recorded together, and the strongest of their actions is
applied to the state `r` with them recorded. -/
theorem State.railCycle_fell : ∃ r : State, s.railCycle (s.seq.pg &&& ~~~f) 0 = r.railAction 2 f ∧
    r.seq = (s.pgRead (s.seq.pg &&& ~~~f)).seq.recorded f ∧ r.pwr = s.pwr ∧ r.regs = s.regs ∧ r.seq.wait = 0 := by
  have faults : s.faulting (s.seq.pg &&& ~~~f) 0 = f := by
    rw [State.faulting, State.newlyLost_fell waited good]
    exact (congrArg (f ||| ·) BitVec.zero_and).trans BitVec.or_zero
  obtain ⟨kind, -, cycle⟩ := State.railCycle_up (s := s) (pg := s.seq.pg &&& ~~~f) (late := 0) (by omega) read
  obtain ⟨seq, pwr, regs⟩ := (s.pgRead (s.seq.pg &&& ~~~f)).railRecord_effect kind f
  rw [faults, if_neg some] at cycle
  refine ⟨_, cycle, seq, pwr, regs, ?_⟩
  have zero (m : BitVec 24) : 0 &&& m = 0 := BitVec.zero_and
  rw [seq]
  simp only [Seq.recorded, State.pgRead, State.updSeqr, waited, zero]

theorem State.railCycle_fell_effect : ∃ n : State, s.railCycle (s.seq.pg &&& ~~~f) 0 = n ∧
    n.seq.fault = s.seq.fault ||| f ∧
    (s.actRails 2 f = 0 → n.seq.en = s.seq.en &&& ~~~s.actRails 1 f) ∧
    (s.actRails 2 f = 0 → s.actRails 1 f = 0 → n.seq.pg = s.seq.pg &&& ~~~f ∧ n.pwr = s.pwr) ∧
    (s.actRails 2 f ≠ 0 → n.seq.upDone = false ∧ n.seq.result = s.seq.result) := by
  obtain ⟨r, cycle, seq, pwr, regs, waits⟩ := State.railCycle_fell idle read some waited good
  have st : r.seq.st = 0 := (congrArg Seq.st seq).trans idle
  have up : r.seq.st ≤ 1 := by omega
  have fault : r.seq.fault = s.seq.fault ||| f := by rw [seq]; rfl
  have en : r.seq.en = s.seq.en := by rw [seq]; rfl
  have acts (act : Nat) : r.actRails act f = s.actRails act f := State.actRails_congr regs act f
  by_cases all : s.actRails 2 f = 0
  · by_cases off : s.actRails 1 f = 0
    · have stays : r.railAction 2 f = r :=
        (State.railAction_report some up ((acts 2).trans all) ((acts 1).trans off)).trans (State.seqStepEnd_idle st)
      have whole : s.seq.en &&& ~~~(0 : BitVec 24) = s.seq.en :=
        (congrArg (s.seq.en &&& ·) BitVec.not_zero).trans BitVec.and_allOnes
      refine ⟨r, cycle.trans stays, fault, fun _ => ?_, fun _ _ => ⟨congrArg Seq.pg seq, pwr⟩, fun h => absurd all h⟩
      rw [off, whole, en]
    · have offs := State.railAction_off (k := 0) some up waits ((acts 2).trans all) (by rw [acts]; exact off)
      obtain ⟨ens, faults⟩ := r.railOff_effect (s.actRails 1 f)
      rw [acts] at offs
      refine ⟨_, cycle.trans offs, faults.trans fault, fun _ => ?_, fun _ h => absurd h off, fun h => absurd all h⟩
      rw [ens, en]
  · have downs := State.railAction_down (k := 1) some up (by rw [acts]; exact all)
    obtain ⟨done, result, -, faults⟩ := r.seqDown_effect (st := 3) (by omega)
    rw [if_neg (by omega)] at result
    exact ⟨_, cycle.trans downs, (faults waits).trans fault, fun h => absurd h all, fun h => absurd h all,
      fun _ => ⟨done, result.trans (by rw [seq]; rfl)⟩⟩

end

/-! ## A rail that times out on an up step -/

/-- An event takes no part in what the sequencer holds. -/
theorem State.raise_setSeq (s : State) (q : Seq) (e : Nat) (d : Dest) (v : Word) :
    { s with seq := q }.raise e d v = { s.raise e d v with seq := q } := s.raise_updSeqr (fun _ => q) e d v

section
variable {s : State} {i : Fin 24}

theorem railSet_one_ne_zero (i : Fin 24) : railSet [i.val] ≠ 0 := fun none => by
  have bit := getLsbD_railSet_one i.val i.isLt
  rw [none] at bit
  simp at bit

theorem State.actRails_one (act : Nat) :
    s.actRails act (railSet [i.val]) = if s.railAct i.val = act then railSet [i.val] else 0 := by
  rw [State.actRails, railsIn_one]
  by_cases acts : s.railAct i.val = act
  · rw [if_pos acts, List.filter_cons_of_pos (by simpa using acts)]
    rfl
  · rw [if_neg acts, List.filter_cons_of_neg (by simpa using acts)]
    rfl

/-- RAIL_OFF of one rail that no SEQ_MAN bit drives, where UP_DONE is clear. -/
theorem State.railOff_one (own : s.railManual i.val = false) (notUp : s.seq.upDone = false) :
    s.railOff (railSet [i.val]) = { s with seq := { s.seq with
      en := s.seq.en &&& ~~~railSet [i.val]
      manWait := s.seq.manWait &&& ~~~railSet [i.val]
      result := if s.seq.st = 1 then 2 else s.seq.result, st := 0, wait := 0, dlyRun := false } } := by
  have manual : railSet ((railsIn (railSet [i.val])).filter s.railManual) = 0 := by
    rw [railsIn_one, List.filter_cons_of_neg (by simp [own])]
    rfl
  have man : s.seq.man &&& ~~~(0 : BitVec 24) = s.seq.man :=
    (congrArg (s.seq.man &&& ·) BitVec.not_zero).trans BitVec.and_allOnes
  have same : s.dropUpDone = s := s.dropUpDone_effect.2.2.1 notUp
  unfold State.railOff
  dsimp only
  rw [manual, if_neg (railSet_one_ne_zero i).symm, same, State.updSeqr, man]

/-- The state in which that rail's fault is recorded and reported. -/
def State.timedOut (s : State) (i : Fin 24) : State :=
  { s.raise 253 .granted (wordOf (i.val + 256 * 2 + 4096 * 1)) with
    seq := (s.pgRead s.seq.pg).seq.recorded (railSet [i.val]) }

theorem State.timedOut_off (wait : s.seq.wait = railSet [i.val]) (up : s.seq.st = 1) (read : s.seq.reread = false)
    (act : s.railAct i.val = 1) (own : s.railManual i.val = false) (notUp : s.seq.upDone = false) :
    (s.timedOut i).railAction 2 (railSet [i.val]) =
      { s.raise 253 .granted (wordOf (i.val + 256 * 2 + 4096 * 1)) with seq := { s.seq with
        fault := s.seq.fault ||| railSet [i.val], wait := 0
        manWait := s.seq.manWait &&& ~~~s.seq.pg &&& ~~~railSet [i.val]
        en := s.seq.en &&& ~~~railSet [i.val], result := 2, st := 0, dlyRun := false } } := by
  have regs : (s.timedOut i).regs = s.regs := State.raise_regs _ _ _ _
  have waited : (s.timedOut i).seq.wait = 0 := by
    refine BitVec.eq_of_getLsbD_eq fun j hj => ?_
    simp only [State.timedOut, Seq.recorded, State.pgRead, State.updSeqr, wait, BitVec.getLsbD_and, BitVec.getLsbD_not]
    cases (railSet [i.val]).getLsbD j <;> simp
  have acts (k : Nat) : (s.timedOut i).actRails k (railSet [i.val]) = if 1 = k then railSet [i.val] else 0 := by
    rw [State.actRails_congr regs, State.actRails_one, act]
  have rising : (s.timedOut i).seq.st ≤ 1 := le_of_eq up
  have off : (s.timedOut i).actRails 1 (railSet [i.val]) ≠ 0 := by
    rw [acts, if_pos rfl]
    exact railSet_one_ne_zero i
  have offs := State.railAction_off (k := 0) (railSet_one_ne_zero i) rising waited (acts 2) off
  have owned : (s.timedOut i).railManual i.val = false := by rw [State.railManual, State.railUp_congr regs]; exact own
  rw [offs, acts, if_pos rfl, State.railOff_one owned notUp]
  simp only [State.timedOut, Seq.recorded, State.pgRead, State.updSeqr, up, read, if_pos, BitVec.and_assoc,
    BitVec.and_self]

variable (wait : s.seq.wait = railSet [i.val]) (low : s.seq.pg.getLsbD i.val = false)
include wait low

/-- The rail that a step waits for faults when its time is over. -/
theorem State.faulting_timeout : s.faulting s.seq.pg (railSet [i.val]) = railSet [i.val] := by
  rw [State.faulting, State.newlyLost_still BitVec.and_self]
  refine BitVec.eq_of_getLsbD_eq fun j hj => ?_
  simp only [State.pgRead, State.updSeqr, wait, BitVec.getLsbD_or, BitVec.getLsbD_and, BitVec.getLsbD_not, hj,
    decide_true, Bool.true_and, getLsbD_railSet_one i.val hj]
  by_cases here : j = i.val
  · rw [here, low]
    simp
  · simp [here]

/-- A rail that times out on an up step with ACTION 1: it faults with kind 2, and the sequence ends FAULTED. -/
theorem State.railCycle_timeout (up : s.seq.st = 1) (read : s.seq.reread = false) (act : s.railAct i.val = 1)
    (own : s.railManual i.val = false) (notUp : s.seq.upDone = false) :
    s.railCycle s.seq.pg (railSet [i.val]) =
      { s.raise 253 .granted (wordOf (i.val + 256 * 2 + 4096 * 1)) with seq := { s.seq with
        fault := s.seq.fault ||| railSet [i.val], wait := 0
        manWait := s.seq.manWait &&& ~~~s.seq.pg &&& ~~~railSet [i.val]
        en := s.seq.en &&& ~~~railSet [i.val], result := 2, st := 0, dlyRun := false } } := by
  obtain ⟨kind, timed, cycle⟩ :=
    State.railCycle_up (s := s) (pg := s.seq.pg) (late := railSet [i.val]) (by omega) read
  have kind2 : kind i.val = 2 := timed _ (by rw [State.newlyLost_still BitVec.and_self]; exact BitVec.getLsbD_zero)
  rw [State.faulting_timeout wait low, if_neg (railSet_one_ne_zero i), State.railRecord_one, kind2] at cycle
  have one : (s.pgRead s.seq.pg).railOne 2 i.val = s.timedOut i := by
    have acts : (s.pgRead s.seq.pg).railAct i.val = 1 := act
    rw [State.railOne, acts]
    exact s.raise_setSeq ((s.pgRead s.seq.pg).seq.recorded (railSet [i.val])) 253 .granted _
  rw [one] at cycle
  exact cycle.trans (State.timedOut_off wait up read act own notUp)

end

/-! ## SEQ_MAN (R284, R288) -/

section
variable {s : State}

theorem exec_seqManWrite_reached (h : s.cfgReach 0 0x30060014 true = true) (v : Word) :
    exec (.seqManWrite v) s = .next (s.seqMan v) := by
  have put (be : BitVec 4) :
      s.cfgPut none 0x30060014 v be = (s.seqMan (mergeBytes (s.getSeq 0x14) v be), 0) := rfl
  refine congrArg Host.Outcome.next (State.cfgRow_of h rfl ((put 0xF#4).trans ?_))
  rw [mergeBytes_all]

theorem State.seqMan_busy (busy : 2 ≤ s.seq.st) (v : Word) : s.seqMan v = s.seqRej := if_pos busy

/-- SEQ_MAN drives the manual rails alone. -/
theorem State.seqMan_free (free : s.seq.st ≤ 1) (v : Word) :
    (∀ i, i < 24 → (s.seqMan v).seq.en.getLsbD i = if s.railManual i then v.bit i else s.seq.en.getLsbD i) ∧
    (s.seqMan v).seq.man = v.setWidth 24 ∧ s.seqMan v = { s with seq := { s.seq with
      man := (s.seqMan v).seq.man, en := (s.seqMan v).seq.en, manWait := (s.seqMan v).seq.manWait } } := by
  have writes : s.seqMan v = _ := if_neg (by omega)
  rw [writes]
  refine ⟨fun i hi => ?_, rfl, rfl⟩
  simp only [State.updSeqr, BitVec.getLsbD_or, BitVec.getLsbD_and, BitVec.getLsbD_not, hi, decide_true, Bool.true_and,
    getLsbD_railSet_filter _ hi, BitVec.getLsbD_setWidth, Word.bit]
  cases s.railManual i <;> simp

/-! ## The two instructions of the power-goods -/

theorem State.pgChange_held (held : s.up 13 = false ∨ (s.genHeld 13 = true ∧ s.seq.reread = false))
    (pg late : BitVec 24) : s.pgChange pg late = s := if_pos held

theorem State.pgChange_seen (power : s.up 13 = true) (free : s.genHeld 13 = false) (pg late : BitVec 24) :
    s.pgChange pg late = s.railCycle pg late := if_neg (by simp [power, free])

theorem State.pgTimeout_held (held : s.up 13 = false ∨ s.seq.reread = true) (late : BitVec 24) :
    s.pgTimeout late = s := if_pos held

theorem State.pgTimeout_seen (power : s.up 13 = true) (read : s.seq.reread = false) (late : BitVec 24) :
    s.pgTimeout late = s.railCycle s.seq.pg late := if_neg (by simp [power, read])

/-- No rail faults where none falls and none that is waited on is late. -/
theorem State.faulting_none {pg late : BitVec 24} (still : pg &&& s.seq.pg = s.seq.pg)
    (none : late &&& (s.seq.wait ||| s.seq.manWait) = 0) : s.faulting pg late = 0 := by
  rw [State.faulting, State.newlyLost_still still]
  refine BitVec.eq_of_getLsbD_eq fun i hi => ?_
  have bit : (late &&& (s.seq.wait ||| s.seq.manWait)).getLsbD i = false := by rw [none]; exact BitVec.getLsbD_zero
  rw [BitVec.getLsbD_and, BitVec.getLsbD_or] at bit
  simp only [State.pgRead, State.updSeqr, BitVec.getLsbD_or, BitVec.getLsbD_and]
  revert bit
  cases late.getLsbD i <;> simp +contextual

/-- Read anew or not, the inputs as they stood only end waits. -/
theorem State.pgRead_eq (read : s.seq.reread = false) (pg : BitVec 24) : s.pgRead pg = { s with seq := { s.seq with
    pg := pg, manWait := s.seq.manWait &&& ~~~pg, wait := s.seq.wait &&& ~~~pg } } := by
  simp only [State.pgRead, State.updSeqr, read]

end

end Sys2Proof.Machine

section
open Sys2Proof Sys2Proof.Machine

/-- Settles O52: SEQ_CTRL by the sequence's first step, the power-goods by the rails that fault in one cycle. -/
theorem sequencerRows : Obligations.SequencerRows := by
  unfold Obligations.SequencerRows
  intro s
  refine ⟨fun reach => ⟨fun busy => ?_, fun busy => ?_, fun idle => ⟨fun none => ?_, fun k next delays => ?_⟩,
      fun free => ?_⟩, fun idle => congrArg _ (State.seqDelayEnd_idle idle), fun power up runs waits => ?_,
    fun held pg late => congrArg _ (State.pgChange_held held pg late),
    fun power free read idle => ⟨fun pg still => ?_, fun f some waited good => ?_⟩,
    fun held late => congrArg _ (State.pgTimeout_held held late),
    fun power read => ⟨fun late idle none => ?_, fun i wait low up act own notUp => ?_⟩,
    fun reach v => ⟨fun busy => ?_, fun free => ?_⟩⟩
  · rw [exec_goUp_reached reach, State.goUp_busy busy]
    rfl
  · rw [exec_goDown_reached reach, State.goDown_busy busy]
    rfl
  · rw [exec_goUp_reached reach, State.goUp_complete idle none]
  · rw [exec_goUp_reached reach, State.goUp_waits idle next delays]
  · obtain ⟨done, result, pwr, -⟩ := s.seqDown_effect (st := 2) (by omega)
    obtain ⟨-, closes, same, -⟩ := s.dropUpDone_effect
    obtain ⟨doors, regs⟩ := s.seqDown_doors 2
    refine ⟨_, (exec_goDown_reached reach).trans (congrArg _ (State.goDown_starts free)), done, fun up => ?_,
      fun low => ?_, fun k next delays => s.seqDown_waits (by omega) next delays, fun up => result.trans (if_pos up),
      doors, regs⟩
    · rw [pwr, closes up]
    · rw [pwr, same low]
  · have drive := s.seqDrive_up up
    refine congrArg Host.Outcome.next ((State.seqDelayEnd_drives power up runs ?_).trans drive)
    rw [drive]
    exact waits
  · have quiet := State.railCycle_quiet idle read (State.faulting_none (late := 0) still BitVec.zero_and)
    exact congrArg Host.Outcome.next
      ((State.pgChange_seen power free pg 0).trans (quiet.trans (State.pgRead_eq read pg)))
  · obtain ⟨n, cycle, fault, en, report, down⟩ := State.railCycle_fell_effect idle read some waited good
    refine ⟨n, congrArg Host.Outcome.next ((State.pgChange_seen power free _ 0).trans cycle), fault, fun acts => ?_,
      fun acts i hi => ?_, fun ⟨i, hi, fell, act⟩ => down (State.actRails_ne_zero hi fell act)⟩
    · have none : s.actRails 1 f = 0 := State.actRails_eq_zero fun i hi fell => (acts i hi fell).1
      have all : s.actRails 2 f = 0 := State.actRails_eq_zero fun i hi fell => (acts i hi fell).2
      refine ⟨?_, report all none⟩
      rw [en all, none]
      exact (congrArg (s.seq.en &&& ·) BitVec.not_zero).trans BitVec.and_allOnes
    · rw [en (State.actRails_eq_zero acts), BitVec.getLsbD_and, BitVec.getLsbD_not, State.getLsbD_actRails s 1 f hi,
        decide_eq_true hi, Bool.true_and]
  · have quiet := State.railCycle_quiet idle read (State.faulting_none BitVec.and_self none)
    exact congrArg Host.Outcome.next
      ((State.pgTimeout_seen power read late).trans (quiet.trans (State.pgRead_eq read s.seq.pg)))
  · refine ⟨_, rfl, congrArg Host.Outcome.next ((State.pgTimeout_seen power read _).trans
      ((State.railCycle_timeout wait low up read act own notUp).trans ?_))⟩
    have report := s.raise_setSeq { s.seq with fault := s.seq.fault ||| railSet [i.val] } 253 .granted
      (wordOf (i.val + 256 * 2 + 4096 * 1))
    rw [report]
  · rw [exec_seqManWrite_reached reach, State.seqMan_busy busy]
    rfl
  · obtain ⟨en, man, frame⟩ := State.seqMan_free free v
    exact ⟨_, exec_seqManWrite_reached reach v, en, man, frame⟩

end
end

section
/-! PROOFS. The end of an exit (O50). -/

namespace Sys2Proof.Machine

/-- An exit that lacks only the last restore stage of domain 0, with the keeper's door SHUT and its OPEN pending. R56
keeps that door OPEN, and the statement is about every state. -/
def keeperShut : State :=
  { State.reset with
    doors := [(0, .shut)]
    tens := [(0, { Tenant.reset 0 with doorPend := some false })]
    pwr := { Pwr.reset with
      st := .louvred, phase := .restoring, domOn := 0xFFFF, domReady := 0xFFFE, stage := [(0, 3)] } }

/-- Open is reached, and the keeper's door stays SHUT: no door write reaches it (R56). -/
theorem keeperShut_restored :
    (keeperShut.restoreStage 0 0).pwr.st = .opened ∧ (keeperShut.restoreStage 0 0).door 0 = .shut := by
  decide +kernel

end Sys2Proof.Machine

section
open Sys2Proof Sys2Proof.Machine

/-- Refutes O50: the statement has every tenant's door that was asked to open OPEN at the end of an exit, the keeper's
too. The model's boundary opens the doors of tenants 1 to 31 alone, so a keeper's door that is SHUT with a pending OPEN
stays SHUT. -/
theorem not_entryRestoreRows : ¬ Obligations.EntryRestoreRows := by
  unfold Obligations.EntryRestoreRows
  intro h
  obtain ⟨-, restores, -⟩ := h keeperShut
  obtain ⟨-, stages⟩ := restores 0 0
  obtain ⟨-, -, -, -, last⟩ := stages rfl (by decide)
  obtain ⟨n, done, -, -, -, -, -, -, -, doors⟩ := last (by decide) (by decide)
  have same : keeperShut.restoreStage 0 0 = n := Host.Outcome.next.inj done
  have opened : n.door 0 = .opened := doors 0 (by decide)
  have shut : n.door 0 = .shut := same ▸ keeperShut_restored.2
  exact absurd (shut.symm.trans opened) (by decide)

end
end

section
/-! PROOFS. A step and the front of the queue (O1, O6), and one cycle of CK_RTC (O2). -/

namespace Sys2Proof.Machine

theorem step_front (c : Instr) (q : List Instr) (s : State) :
    step { s with pending := c :: q } = exec c { s with pending := q } := rfl

theorem step_idle {s : State} (empty : s.pending = []) : step s = .next s.idleStep := by
  unfold step
  rw [empty]

theorem State.idleStep_of_reset {s : State} (asked : s.sys.resetPend = true) : s.idleStep = s.resetPulse 2 := by
  rw [State.idleStep, State.resetTake, if_pos asked, if_pos asked]

theorem State.idleStep_of_no_reset {s : State} (none : s.sys.resetPend = false) : s.idleStep = s.rtcCycle := by
  rw [State.idleStep, none]
  rfl

theorem State.rtcCycle_off {s : State} (off : s.pwr.st = .off) : s.rtcCycle = s := if_pos off

theorem State.rtcCycle_on {s : State} (on : s.pwr.st ≠ .off) :
    s.rtcCycle = { s with sys := s.sys.rtcNext, keys := { s.keys with cyc := s.keys.cyc + 1 } } := if_neg on

/-! ## The advance of TIME_SUB (R447) -/

theorem Sys.rtcStep_of_no_wrap {k : Sys} (h : k.rtcAcc + k.trimSize < 2 ^ 20) : k.rtcStep = 1 := if_pos h

theorem Sys.rtcStep_of_wrap {k : Sys} (h : 2 ^ 20 ≤ k.rtcAcc + k.trimSize) :
    k.rtcStep = if k.rtcTrim.getLsbD 7 then 2 else 0 := if_neg (Nat.not_lt.mpr h)

theorem Sys.rtcTime_of_load {k : Sys} {q : Nat × Nat} (load : k.rtcLoad = some q) : k.rtcTime = q := by
  rw [Sys.rtcTime, load]

theorem Sys.rtcTime_of_no_load {k : Sys} (idle : k.rtcLoad = none) :
    k.rtcTime = (if k.rtcSub + k.rtcStep < 32768 then k.rtcSec else (k.rtcSec + 1) % 2 ^ 32,
      (k.rtcSub + k.rtcStep) % 32768) := by
  rw [Sys.rtcTime, idle]

end Sys2Proof.Machine

section
open Sys2Proof Sys2Proof.Machine

/-- Settles O1: a step takes the front of the queue and runs it. -/
theorem stepRunsFrontCommand : Obligations.StepRunsFrontCommand := by
  unfold Obligations.StepRunsFrontCommand
  exact step_front

/-- Settles O6: what a step keeps (O5) has the queue's rest in it. -/
theorem queueIsFirstInFirstOut : Obligations.QueueIsFirstInFirstOut := by
  unfold Obligations.QueueIsFirstInFirstOut
  intro s t safe steps
  exact (State.StepsTo.kept safe steps).2

/-- Settles O2: a reset that was asked for, Off, or a cycle whose sub-count follows the load or the trim. -/
theorem idleStepIsOneRtcCycle : Obligations.IdleStepIsOneRtcCycle := by
  unfold Obligations.IdleStepIsOneRtcCycle
  intro s empty
  refine ⟨fun asked => ?_, fun none off => ?_, fun none on => ?_⟩
  · rw [step_idle empty, State.idleStep_of_reset asked]
  · rw [step_idle empty, State.idleStep_of_no_reset none, State.rtcCycle_off off]
  · rw [step_idle empty, State.idleStep_of_no_reset none, State.rtcCycle_on on]
    refine ⟨_, rfl, rfl, rfl, fun q load => ?_, fun idle => ?_, rfl, rfl⟩
    · have time := Sys.rtcTime_of_load load
      exact ⟨congrArg Prod.fst time, congrArg Prod.snd time⟩
    · have time := Sys.rtcTime_of_no_load idle
      have sub := congrArg Prod.snd time
      refine ⟨fun fits => ?_, fun wraps positive => ?_, fun wraps negative => ?_, congrArg Prod.fst time⟩
      · rwa [Sys.rtcStep_of_no_wrap fits] at sub
      · rwa [Sys.rtcStep_of_wrap wraps, positive] at sub
      · rwa [Sys.rtcStep_of_wrap wraps, negative] at sub

end
end

section
/-! PROOFS. BAT_Q and the coin cell (O53). -/

namespace Sys2Proof.Machine

/-! ## A config register reached (R25, R137) -/

/-- A write of a plain register changes no other one. -/
theorem State.writeReg_only (s : State) (a : Nat) (v : Word) (be : BitVec 4) :
    ∃ regs, (s.writeReg a v be).1 = { s with regs := regs } ∧
      ∀ b, b ≠ a → State.reg { s with regs := regs } b = s.reg b := by
  unfold State.writeReg
  split
  · exact ⟨_, rfl, fun b other => (s.reg_setReg _ _ b).trans (if_neg other)⟩
  · exact ⟨_, rfl, fun _ _ => rfl⟩

/-- The clamps of a config write change tenants, memory with its check bits, the events held and the counter of free
values; nothing else. -/
theorem State.cfgWriteNow_shape {s m : State} {a k : Nat} {v : Word} {be : BitVec 4}
    (put : s.cfgPut none a v be = (m, k)) (t : Nat) :
    ∃ tens mem ecc held free, s.cfgWriteNow t a v be =
      { m with tens := tens, mem := mem, ecc := ecc, held := held, free := free } := by
  simp only [State.cfgWriteNow, put]
  split
  · exact ⟨_, _, _, _, _, rfl⟩
  · exact ⟨_, _, _, _, _, State.clamps_shape _ _ _ _⟩

/-- A config row that reaches its register and that no self-test holds is the write with its clamps. -/
theorem State.cfgRow_reached {s : State} {t a : Nat} (h : s.cfgReach t (a / 4 * 4) true = true)
    (free : s.cfgHeld (a / 4 * 4) = false) (v : Word) (be : BitVec 4) :
    s.cfgRow t a v be = s.cfgWriteNow t (a / 4 * 4) v be := by
  simp [State.cfgRow, h, free]

theorem onlyIf_legal {ok : Bool} (legal : ok = true) (s t : State) : onlyIf ok s t = .next t :=
  congrArg Host.Outcome.next (if_pos legal)

/-! ## The charge (R291) -/

theorem signedOf_48_range (n : Nat) : -(2 ^ 47 : Int) ≤ signedOf 48 n ∧ signedOf 48 n < 2 ^ 47 := by
  unfold signedOf
  split <;> omega

theorem signedOf_twosOf_48 {q : Int} (low : -(2 ^ 47 : Int) ≤ q) (high : q < 2 ^ 47) :
    signedOf 48 (twosOf 48 q) = q := by
  unfold signedOf twosOf
  split <;> omega

section
variable {s : State}

theorem State.setCharge_fits {q : Int} (low : -(2 ^ 47 : Int) ≤ q) (high : q < 2 ^ 47) :
    s.setCharge q = { s with seq := { s.seq with batAcc := q } } := if_pos (signedOf_twosOf_48 low high)

theorem State.setCharge_beyond {q : Int} (beyond : q < -(2 ^ 47 : Int) ∨ (2 ^ 47 : Int) ≤ q) :
    s.setCharge q = { s with
      seq := { s.seq with batAcc := signedOf 48 (Config.chargeBeyond s.free).toNat }, free := s.free + 1 } := by
  refine if_neg fun same => ?_
  have range := signedOf_48_range (twosOf 48 q)
  omega

theorem exec_batQWrite_reached (h : s.cfgReach 0 0x30060218 true = true) (v : Word) :
    exec (.batQWrite v) s = .next (s.setCharge (signedOf 32 v.toNat * 1000000)) := by
  have put (be : BitVec 4) :
      s.cfgPut none 0x30060218 v be = (s.batQWrite (mergeBytes (s.getSeq 0x218) v be), 0) := rfl
  refine congrArg Host.Outcome.next (State.cfgRow_of h rfl ((put 0xF#4).trans ?_))
  rw [mergeBytes_all, State.batQWrite]

/-! ## The coin cell (R292) -/

theorem State.coinStart_held (h : s.up 13 = false ∨ s.seq.coinBusy = true) : s.coinStart = s := if_pos h

theorem State.coinStart_idle (power : s.up 13 = true) (idle : s.seq.coinBusy = false) :
    s.coinStart = if s.pwr.vao then { s with seq := { s.seq with coinBusy := true, coinSkip := false } }
      else { s with seq := { s.seq with coinSkip := true } } := if_neg (by simp [power, idle])

theorem exec_coinGo_reached (h : s.cfgReach 0 0x30060230 true = true) :
    exec .coinGo s = .next (s.cfgWriteNow 0 0x30060230 1 0x1#4) :=
  congrArg Host.Outcome.next (State.cfgRow_reached h rfl 1 0x1#4)

/-- A start reads the sequencer and the power alone. -/
theorem State.coinStart_seq_regs (s : State) (regs : SMap Word) :
    State.coinStart { s with regs := regs } = { s with regs := regs, seq := s.coinStart.seq } := by
  by_cases held : s.up 13 = false ∨ s.seq.coinBusy = true
  · rw [State.coinStart_held held]
    exact if_pos held
  · unfold State.coinStart
    rw [if_neg held]
    refine (if_neg held).trans ?_
    cases s.pwr.vao <;> rfl

/-- GO leaves the sequencer as a start on the present state does, and changes no register but COIN_CTRL, and no door. -/
theorem State.cfgWriteNow_coinGo (s : State) :
    (s.cfgWriteNow 0 0x30060230 1 0x1#4).seq = s.coinStart.seq ∧
      (∀ a, a ≠ 0x30060230 → (s.cfgWriteNow 0 0x30060230 1 0x1#4).reg a = s.reg a) ∧
      ∀ t, (s.cfgWriteNow 0 0x30060230 1 0x1#4).door t = s.door t := by
  obtain ⟨regs, written, others⟩ := s.writeReg_only 0x30060230 1 0x1#4
  have put : s.cfgPut none 0x30060230 1 0x1#4 =
      ((s.writeReg 0x30060230 1 0x1#4).1.coinStart, (s.writeReg 0x30060230 1 0x1#4).2) := rfl
  rw [written, State.coinStart_seq_regs] at put
  obtain ⟨_, _, _, _, _, row⟩ := State.cfgWriteNow_shape put 0
  rw [row]
  exact ⟨rfl, others, fun _ => rfl⟩

theorem exec_coinPeriod (s : State) :
    exec .coinPeriod s = .next (if s.fld 0x30060230 8 8 = 0 then s else s.coinStart) := rfl

theorem exec_coinMeasureEnd {mv : Nat} (legal : mv < 8192) : exec (.coinMeasureEnd mv) s = .next (s.coinEnd mv) :=
  onlyIf_legal (decide_eq_true legal) s (s.coinEnd mv)

theorem State.coinEnd_idle (h : s.up 13 = false ∨ s.seq.coinBusy = false) (mv : Nat) : s.coinEnd mv = s := if_pos h

theorem State.coinEnd_running (power : s.up 13 = true) (busy : s.seq.coinBusy = true) (mv : Nat) :
    s.coinEnd mv =
      (let low := decide (mv < s.fld 0x30060230 16 16)
       let r := { s with seq := { s.seq with coinBusy := false, coinMv := mv, coinLow := low } }
       if low then r.raise 255 .granted (wordOf mv) else r) := if_neg (by simp [power, busy])

end

end Sys2Proof.Machine

section
open Sys2Proof Sys2Proof.Machine

/-- Settles O53: a charge by whether it fits, and a measurement by what its start or its end finds. -/
theorem batteryRows : Obligations.BatteryRows := by
  unfold Obligations.BatteryRows
  intro s
  refine ⟨fun reach v => ⟨fun low high => ?_, fun beyond => ?_⟩, fun reach power => ?_, fun none => ?_,
    fun period power idle => ⟨fun vao => ?_, fun vao => ?_⟩, fun mv legal => ⟨fun none => ?_, fun power busy => ?_⟩⟩
  · rw [exec_batQWrite_reached reach, State.setCharge_fits low high]
  · obtain ⟨low, high⟩ := signedOf_48_range (Config.chargeBeyond s.free).toNat
    exact ⟨_, exec_batQWrite_reached reach v, by rw [State.setCharge_beyond beyond]; exact ⟨low, high, rfl⟩⟩
  · obtain ⟨seq, regs, doors⟩ := s.cfgWriteNow_coinGo
    refine ⟨_, exec_coinGo_reached reach, fun busy => ?_, fun idle vao => ?_, fun idle vao => ?_, regs, doors⟩
    · rw [seq, State.coinStart_held (.inr busy)]
    · rw [seq, State.coinStart_idle power idle, if_pos vao]
    · rw [seq, State.coinStart_idle power idle, vao]
      rfl
  · rw [exec_coinPeriod]
    rcases none with never | held
    · rw [if_pos never]
    · rw [State.coinStart_held held, ite_self]
  · rw [exec_coinPeriod, if_neg period, State.coinStart_idle power idle, if_pos vao]
  · rw [exec_coinPeriod, if_neg period, State.coinStart_idle power idle, vao]
    rfl
  · rw [exec_coinMeasureEnd legal, State.coinEnd_idle none]
  · rw [exec_coinMeasureEnd legal, State.coinEnd_running power busy]
    refine ⟨fun enough => ?_, fun low => ?_⟩
    · rw [decide_eq_false (by omega)]
      rfl
    · rw [decide_eq_true low]
      rfl

end
end

section
/-! PROOFS. The test access port and flash access (O58). -/

namespace Sys2Proof.Machine

section
variable {s : State} (works : s.tapWorks = true)

/-! ## Instructions (R432 to R435) -/

theorem State.tapLoad_dead (dead : s.tapWorks = false) (i : TapIr) : s.tapLoad i = s := if_neg (by simp [dead])

theorem State.tapScan_dead (dead : s.tapWorks = false) (i : TapIr) (pins : BitVec 474) : s.tapScan i pins = s :=
  if_neg (by simp [dead])

include works

theorem State.tapLoad_works (i : TapIr) : s.tapLoad i = { s with dbg := { s.dbg with ir := i } } := if_pos works

theorem State.tapScan_allowed {i : TapIr} (allows : s.tapAllows i = true) (pins : BitVec 474) :
    s.tapScan i pins = { s with dbg := { s.dbg with ir := i, bsr := pins } } := by
  simp only [State.tapScan, State.updDbg, works, allows, if_true]

theorem State.tapScan_refused {i : TapIr} (refuses : s.tapAllows i = false) (pins : BitVec 474) :
    s.tapScan i pins = { s with dbg := { s.dbg with ir := i } } := by
  simp only [State.tapScan, State.updDbg, works, refuses, if_true, Bool.false_eq_true, if_false]

omit works

theorem State.tapAllows_extest : s.tapAllows .extest = (!s.sys.resetN || !s.sys.locked) := rfl

/-! ## FLASH_ACC (R437) -/

theorem State.tapAllows_flashAcc : s.tapAllows .flashAcc = (!s.sys.locked || s.sys.halted) := rfl

theorem State.accDo_dead (dead : s.tapWorks = false) (f : State → State) : s.accDo f = s := by
  unfold State.accDo
  dsimp only
  rw [State.tapLoad_dead dead, if_neg (by simp [dead])]

include works

/-- FLASH_ACC as it acts when it is refused: BYPASS, the instruction register taken. -/
theorem State.accDo_refused (locked : s.sys.locked = true) (runs : s.sys.halted = false) (f : State → State) :
    s.accDo f = { s with dbg := { s.dbg with ir := .flashAcc } } := by
  unfold State.accDo
  dsimp only
  rw [State.tapLoad_works works]
  exact if_neg fun h => by simpa [State.tapAllows_flashAcc, locked, runs] using h.2

/-- FLASH_ACC when it is allowed and no read waits: its operation on the state with the instruction taken. -/
theorem State.accDo_allowed (allowed : s.sys.locked = false ∨ s.sys.halted = true) (idle : s.flash.accBusy = false)
    (f : State → State) : s.accDo f = f { s with dbg := { s.dbg with ir := .flashAcc } } := by
  unfold State.accDo
  dsimp only
  rw [State.tapLoad_works works]
  have allows : State.tapAllows { s with dbg := { s.dbg with ir := .flashAcc } } .flashAcc = true := by
    rcases allowed with h | h <;> simp [State.tapAllows_flashAcc, h]
  have served : State.accServe { s with dbg := { s.dbg with ir := .flashAcc } } =
      { s with dbg := { s.dbg with ir := .flashAcc } } := if_pos (.inl idle)
  rw [served]
  exact if_pos ⟨works, allows⟩

omit works

theorem accIn_iff (a : BitVec 21) : accIn a = true ↔ a.toNat < 0x40000 := by
  rw [accIn, decide_eq_true_eq]
  omega

/-! ### The word that a read returns (R159, R184) -/

/-- Of the eight bytes of a flash word, the four at byte 0 or byte 4. -/
theorem leNat_half_of_leBytes (d : DWord) {o : Nat} (half : o < 2) :
    leNat (bytesAt (leBytes 8 d.toNat) (4 * o) 4) = d.toNat / 2 ^ (32 * o) % 2 ^ 32 := by
  have lt := d.isLt
  obtain rfl | rfl : o = 0 ∨ o = 1 := by omega
  all_goals
    simp only [bytesAt, leBytes, List.range, List.range.loop, List.map, List.getD, leNat]
    simp
    omega

/-- Four bytes at a word's address lie in one flash word. -/
theorem flashWords_word (a : Nat) : flashWords (a * 4) 4 = [a / 2] := by
  have one : (a * 4 % 8 + 4 + 7) / 8 = 1 := by omega
  have word : a * 4 / 8 = a / 2 := by omega
  rw [flashWords, one, word]
  rfl

/-- A word of flash that reads without error, in a sector that is not suspect. -/
theorem State.flashBytes_good {a : Nat} (sound : s.suspect (s.phys (a * 4 / 0x800)) = false)
    (good : (s.fword (s.physWord (a / 2))).bad = 0) :
    s.flashBytes (a * 4) 4 =
      (s, some (bytesAt (leBytes 8 (s.fword (s.physWord (a / 2))).data.toNat) (4 * (a % 2)) 4)) := by
  have sector : a / 2 / 256 = a * 4 / 0x800 := by omega
  have read : s.flashRead (a / 2) = (s, some (s.fword (s.physWord (a / 2))).data) := by
    rw [State.flashRead, sector, if_neg (by simp [sound])]
    simp only [State.flashDecode, good]
  have half : a * 4 % 8 = 4 * (a % 2) := by omega
  simp only [State.flashBytes, flashWords_word, State.flashReads, read, half, Option.map_some, List.flatMap_cons,
    List.flatMap_nil, List.append_nil]

/-- A read that waits and need wait no longer. -/
theorem State.accServe_ready (busy : s.flash.accBusy = true) (ready : s.flashWaits (s.flash.accAddr / 0x800) = false)
    {bs : List Byte} (bytes : s.flashBytes s.flash.accAddr 4 = (s, some bs)) :
    s.accServe = { s with flash := { s.flash with
      accBusy := false, accErr := false, accData := wordOf (leNat bs) } } := by
  unfold State.accServe
  rw [if_neg (by simp [busy, ready])]
  dsimp only
  rw [bytes]
  rfl

/-- A read in the leaves that need not wait returns the word stored. -/
theorem State.accRead_word (works : s.tapWorks = true) (allowed : s.sys.locked = false ∨ s.sys.halted = true)
    (idle : s.flash.accBusy = false) {a : BitVec 21} (inside : a.toNat < 0x40000)
    (ready : s.flashWaits (a.toNat * 4 / 0x800) = false) (sound : s.suspect (s.phys (a.toNat * 4 / 0x800)) = false)
    (good : (s.fword (s.physWord (a.toNat / 2))).bad = 0) :
    let v := wordOf ((s.fword (s.physWord (a.toNat / 2))).data.toNat / 2 ^ (32 * (a.toNat % 2)))
    s.accRead a = { s with
      dbg := { s.dbg with ir := .flashAcc }, rdata := v,
      flash := { s.flash with accBusy := false, accErr := false, accAddr := a.toNat * 4, accData := v } } := by
  intro v
  have half := leNat_half_of_leBytes (s.fword (s.physWord (a.toNat / 2))).data (Nat.mod_lt a.toNat two_pos)
  have word : wordOf (leNat (bytesAt (leBytes 8 (s.fword (s.physWord (a.toNat / 2))).data.toNat) (4 * (a.toNat % 2)) 4)) =
      v := by
    rw [half]
    exact BitVec.eq_of_toNat_eq (by simp [v, wordOf])
  rw [← word]
  let asked : State := { s with
    dbg := { s.dbg with ir := .flashAcc },
    flash := { s.flash with accBusy := true, accErr := false, accAddr := a.toNat * 4 } }
  have served : asked.accServe = _ :=
    State.accServe_ready rfl ready (State.flashBytes_good (s := asked) (a := a.toNat) sound good)
  unfold State.accRead
  rw [State.accDo_allowed works allowed idle, if_pos (accIn_iff a |>.mpr inside)]
  exact congrArg (fun n : State => { n with rdata := n.flash.accData }) served

/-- A write in the leaves with no sequence begun is judged as a first step (R181). -/
theorem State.accWrite_first (works : s.tapWorks = true) (allowed : s.sys.locked = false ∨ s.sys.halted = true)
    (idle : s.flash.accBusy = false) {a : BitVec 21} (inside : a.toNat < 0x40000) (fresh : s.flash.seqWin = none)
    {v : Word} {q : Option SeqStep} {broke : Bool} (step : seqFirst (a.toNat * 4) v false = ⟨q, broke, none⟩) :
    s.accWrite a v = { s with
      dbg := { s.dbg with ir := .flashAcc },
      flash := { s.flash with accErr := false, seqWin := q, seqErr := s.flash.seqErr || broke } } := by
  unfold State.accWrite
  rw [State.accDo_allowed works allowed idle, if_pos (accIn_iff a |>.mpr inside)]
  simp only [State.seqStep, Bool.false_eq_true, if_false, fresh, seqWrite, step]

end

end Sys2Proof.Machine

section
open Sys2Proof Sys2Proof.Machine

/-- Settles O58: each instruction by whether the TAP works and allows it, and FLASH_ACC by its address. -/
theorem tapRows : Obligations.TapRows := by
  unfold Obligations.TapRows
  intro s pins
  refine ⟨fun dead c listed => ?_, fun works => ⟨fun c i listed => ?_, ?_, ?_, fun allowed => ?_, fun high locked => ?_⟩,
    fun a v c listed => ⟨fun dead => ?_, fun works locked runs => ?_⟩,
    fun works allowed idle => ⟨?_, fun a v beyond c listed => ?_, fun a inside ready sound good => ?_,
      fun a v inside fresh other => ?_, fun a first inside fresh => ?_⟩⟩
  · simp only [List.mem_cons, List.not_mem_nil, or_false] at listed
    have load (i : TapIr) := State.tapLoad_dead dead i
    have scan (i : TapIr) := State.tapScan_dead dead i pins
    have code : s.tapIdcode = s := if_neg (by simp [dead])
    rcases listed with rfl | rfl | rfl | rfl | rfl | rfl | rfl
    · exact congrArg Host.Outcome.next (load .idcode)
    · exact congrArg Host.Outcome.next (scan .extest)
    · exact congrArg Host.Outcome.next (scan .samplePreload)
    · exact congrArg Host.Outcome.next code
    · exact congrArg Host.Outcome.next (load .highz)
    · exact congrArg Host.Outcome.next (load .clamp)
    · exact congrArg Host.Outcome.next (load .bypass)
  · simp only [List.mem_cons, List.not_mem_nil, or_false, Prod.mk.injEq] at listed
    rcases listed with ⟨rfl, rfl⟩ | ⟨rfl, rfl⟩ | ⟨rfl, rfl⟩ | ⟨rfl, rfl⟩ <;>
      exact congrArg Host.Outcome.next (State.tapLoad_works works _)
  · have code : s.tapIdcode = _ := if_pos works
    rw [State.tapLoad_works works] at code
    exact congrArg Host.Outcome.next code
  · exact congrArg Host.Outcome.next (State.tapScan_allowed works rfl pins)
  · refine congrArg Host.Outcome.next (State.tapScan_allowed works ?_ pins)
    rcases allowed with h | h <;> simp [State.tapAllows_extest, h]
  · refine congrArg Host.Outcome.next (State.tapScan_refused works ?_ pins)
    simp [State.tapAllows_extest, high, locked]
  · simp only [List.mem_cons, List.not_mem_nil, or_false] at listed
    rcases listed with rfl | rfl | rfl <;> exact congrArg Host.Outcome.next (State.accDo_dead dead _)
  · simp only [List.mem_cons, List.not_mem_nil, or_false] at listed
    rcases listed with rfl | rfl | rfl <;> exact congrArg Host.Outcome.next (State.accDo_refused works locked runs _)
  · exact congrArg Host.Outcome.next (State.accDo_allowed works allowed idle _)
  · have out : ¬accIn a = true := by rw [accIn_iff]; omega
    simp only [List.mem_cons, List.not_mem_nil, or_false] at listed
    rcases listed with rfl | rfl
    · exact congrArg Host.Outcome.next ((State.accDo_allowed works allowed idle _).trans (if_neg out))
    · exact congrArg Host.Outcome.next ((State.accDo_allowed works allowed idle _).trans (if_neg out))
  · exact ⟨_, congrArg Host.Outcome.next (State.accRead_word works allowed idle inside ready sound good),
      rfl, rfl, rfl, rfl, rfl⟩
  · have row := State.accWrite_first works allowed idle inside fresh (if_neg other)
    rw [Bool.or_true, ← fresh] at row
    exact congrArg Host.Outcome.next row
  · have row := State.accWrite_first works allowed idle inside fresh (if_pos ⟨first, rfl⟩)
    rw [Bool.or_false] at row
    exact congrArg Host.Outcome.next row

end
end

section
/-! PROOFS. What the boot leaves as it was, RESET_N and the soft reset (O37). -/

namespace Sys2Proof.Machine

/-! ## What the boot leaves as it was (Table 9.5, R200 to R205, R215) -/

/-- The host ports, and of SYS what the pins, a reset and the end of the boot set. -/
def State.pinView (s : State) : HPort × HPort × BitVec 4 × BitVec 2 × Bool × Bool × BitVec 5 :=
  (s.portA, s.portB, s.sys.straps, s.sys.padsHigh, s.sys.resetN, s.sys.bootDone, s.sys.resetCause)

section
variable (s : State)

theorem State.pinView_raise (e : Nat) (d : Dest) (v : Word) : (s.raise e d v).pinView = s.pinView := by
  simp only [State.pinView, State.raise_portA, State.raise_portB, State.raise_sys]

theorem State.pinView_drawn : s.drawn.pinView = s.pinView := rfl
theorem State.pinView_setFword (w : Nat) (v : FWord) : (s.setFword w v).pinView = s.pinView := rfl
theorem State.pinView_setFlash (f : Flash) : ({ s with flash := f } : State).pinView = s.pinView := rfl
theorem State.pinView_setRemap (i : Nat) (r : Remap) : (s.setRemap i r).pinView = s.pinView := rfl
theorem State.pinView_eraseSector (p : Nat) : (s.eraseSector p).pinView = s.pinView := rfl

/-! ### Reads of flash (R159, R164, R166) -/

theorem State.pinView_ledgerFail (p : Nat) : (s.ledgerFail p).pinView = s.pinView := by
  unfold State.ledgerFail
  rw [State.pinView_raise, State.pinView_setFlash]

theorem State.pinView_putRecordIn (type sector aux : Nat) (ws : List Nat) :
    (s.putRecordIn type sector aux ws).1.pinView = s.pinView := by
  induction ws generalizing s with
  | nil => rfl
  | cons w ws ih =>
    unfold State.putRecordIn
    generalize recWord type sector aux s.flash.seq = d
    dsimp only
    split
    · rw [ih, State.pinView_ledgerFail, State.pinView_setFword, State.pinView_drawn]
    · rw [State.pinView_setFlash, State.pinView_setFword, State.pinView_drawn]

theorem State.pinView_grownWait (type sector aux : Nat) : (s.grownWait type sector aux).pinView = s.pinView := by
  unfold State.grownWait
  dsimp only
  split <;> rfl

theorem State.pinView_putGrown (type sector aux : Nat) : (s.putGrown type sector aux).pinView = s.pinView := by
  unfold State.putGrown
  dsimp only
  split
  · split
    · rw [State.pinView_putRecordIn]
    · rw [State.pinView_grownWait, State.pinView_putRecordIn]
  · rw [State.pinView_grownWait]

theorem State.pinView_countUe (region a : Nat) : (s.countUe region a).pinView = s.pinView := rfl
theorem State.pinView_setSuspect (p : Nat) (b : Bool) : (s.setSuspect p b).pinView = s.pinView := rfl
theorem State.pinView_setProt (q : Prot) : ({ s with prot := q } : State).pinView = s.pinView := rfl

theorem State.pinView_flashUe (w : Nat) : (s.flashUe w).pinView = s.pinView := by
  unfold State.flashUe
  dsimp only
  split
  · rfl
  · rw [State.pinView_raise]
    split
    · rw [State.pinView_countUe]
    · rw [State.pinView_putGrown, State.pinView_setSuspect, State.pinView_countUe]

theorem State.pinView_ceReached (i n : Nat) : (s.ceReached i n).pinView = s.pinView := by
  unfold State.ceReached
  split
  · rw [State.pinView_raise]
    rfl
  · rfl

theorem State.pinView_flashCe (w : Nat) (two : Bool) : (s.flashCe w two).pinView = s.pinView := by
  unfold State.flashCe
  split
  · rw [State.pinView_raise, State.pinView_ceReached, State.pinView_setProt]
  · rw [State.pinView_ceReached, State.pinView_setProt]

theorem State.pinView_flashDecode (w : Nat) : (s.flashDecode w).1.pinView = s.pinView := by
  unfold State.flashDecode
  dsimp only
  split
  · rfl
  · rw [State.pinView_flashCe]
  · rw [State.pinView_flashCe]
  · rw [State.pinView_flashUe]
  · split
    · rw [State.pinView_flashUe, State.pinView_drawn]
    · rw [State.pinView_flashCe, State.pinView_drawn]
    · rw [State.pinView_drawn]

theorem State.pinView_flashRead (w : Nat) : (s.flashRead w).1.pinView = s.pinView := by
  unfold State.flashRead
  split
  · rfl
  · exact s.pinView_flashDecode w

theorem State.pinView_flashReads (ws : List Nat) : (s.flashReads ws).1.pinView = s.pinView := by
  induction ws generalizing s with
  | nil => rfl
  | cons w ws ih => exact (ih _).trans (s.pinView_flashRead w)

theorem State.pinView_readEach (ws : List Nat) : (s.readEach ws).1.pinView = s.pinView := by
  induction ws generalizing s with
  | nil => rfl
  | cons w ws ih => exact (ih _).trans (s.pinView_flashRead w)

/-! ### The hops and the ledger (R200 to R205, R230) -/

theorem State.pinView_setHop (dn : Bool) (st : HopSt) : (s.setHop dn st).pinView = s.pinView := by
  unfold State.setHop
  split
  · rfl
  · rw [State.pinView_raise]
    rfl

theorem State.pinView_train (dn : Bool) : (s.train dn).pinView = s.pinView := by
  unfold State.train
  split
  · rfl
  · exact State.pinView_setHop _ _ _

theorem State.pinView_tapRelease : s.tapRelease.pinView = s.pinView := by
  unfold State.tapRelease
  split <;> rfl

theorem State.pinView_factoryCopy (sect : Nat) : (s.factoryCopy sect).1.pinView = s.pinView :=
  s.pinView_readEach (s.sectorWords sect)

theorem State.pinView_factoryMap : s.factoryMap.1.pinView = s.pinView := by
  have first := s.pinView_factoryCopy 514
  have second := (State.pinView_factoryCopy (s.factoryCopy 514).1 515).trans first
  unfold State.factoryMap
  dsimp only
  split
  · exact first
  · split <;> exact second

theorem State.pinView_records (types sects : List Nat) : (s.records types sects).1.pinView = s.pinView :=
  s.pinView_readEach _

theorem State.pinView_applyGrown (d : DWord) : (s.applyGrown d).pinView = s.pinView := by
  unfold State.applyGrown
  split <;> rfl

theorem State.pinView_ringLoad (rings : List (List DWord)) : (s.ringLoad rings).pinView = s.pinView := by
  unfold State.ringLoad
  dsimp only
  split <;> rfl

theorem State.pinView_ledgerLoad : s.ledgerLoad.pinView = s.pinView := by
  unfold State.ledgerLoad
  extract_lets old f h0 h1 js s1 half s2 s3 s4 top
  have read : s1.pinView = s.pinView := by
    rw [State.pinView_records, State.pinView_records, State.pinView_records, State.pinView_factoryMap,
      State.pinView_setFlash]
  have factory : s2.pinView = s1.pinView := foldl_keeps (fun s d => s.pinView_setRemap _ _) _ _
  have grown : s3.pinView = s2.pinView := foldl_keeps State.pinView_applyGrown _ _
  rw [State.pinView_setFlash, State.pinView_ringLoad, grown, factory, read]

/-! ### The leaf (R208 to R216) -/

theorem State.pinView_flashBytes (off n : Nat) : (s.flashBytes off n).1.pinView = s.pinView :=
  s.pinView_flashReads (flashWords off n)

theorem State.pinView_leafVerify (leaf : Bool) : (s.leafVerify leaf).1.pinView = s.pinView := by
  have head := s.pinView_flashBytes (8 * leafWord leaf) 256
  unfold State.leafVerify
  generalize s.flashBytes (8 * leafWord leaf) 256 = h at head
  dsimp only
  split
  · exact head
  · split
    · split
      · exact (State.pinView_flashBytes _ _ _).trans head
      · split <;> exact (State.pinView_flashBytes _ _ _).trans head
    · exact head

theorem State.pinView_selectors (sect : Nat) : (s.selectors sect).1.pinView = s.pinView :=
  s.pinView_readEach (s.sectorWords sect)

theorem State.pinView_selector : s.selector.1.pinView = s.pinView := by
  have both : ((s.selectors 512).1.selectors 513).1.pinView = s.pinView := by
    rw [State.pinView_selectors, State.pinView_selectors]
  unfold State.selector
  dsimp only
  generalize (s.selectors 512).1.selectors 513 = b at both ⊢
  split
  · exact both
  · exact both
  · exact both
  · split <;> exact both

theorem State.pinView_putJournal (type sector aux : Nat) : (s.putJournal type sector aux).pinView = s.pinView := by
  have put := s.pinView_putRecordIn type sector aux s.journalWords
  unfold State.putJournal
  generalize s.putRecordIn type sector aux s.journalWords = q at put ⊢
  dsimp only
  split
  · exact put
  · rw [State.pinView_setFlash]
    exact put

theorem State.pinView_tornSector (p : Nat) : (s.tornSector p).pinView = s.pinView := by
  unfold State.tornSector
  refine State.each_keeps (view := State.pinView) (fun s i _ => ?_) s
  rw [State.pinView_setFword]

theorem State.pinView_bootErase (sect : Nat) : (s.bootErase sect).1.pinView = s.pinView := by
  unfold State.bootErase
  dsimp only
  split
  · rw [State.pinView_putJournal, State.pinView_eraseSector, State.pinView_drawn, State.pinView_putJournal]
  · rw [State.pinView_ledgerFail, State.pinView_tornSector, State.pinView_putJournal, State.pinView_drawn,
      State.pinView_putJournal]

theorem State.pinView_bootSelect (leaf : Bool) (gen sect : Nat) :
    (s.bootSelect leaf gen sect).1.pinView = s.pinView := by
  unfold State.bootSelect
  extract_lets p e
  have erased : e.1.pinView = s.pinView := by
    dsimp only [e]
    split
    · exact s.pinView_bootErase _
    · rfl
  split
  · exact erased
  · split
    · rw [State.pinView_setFword, State.pinView_drawn, erased]
    · rw [State.pinView_ledgerFail, State.pinView_setFword, State.pinView_drawn, erased]

theorem State.pinView_leafRuns (leaf : Bool) (ver : Word) :
    (s.updSys fun k => { k with leaf := leaf, fwVer := ver }).pinView = s.pinView := rfl
theorem State.pinView_leafNamed (gen : Nat) (leaf : Bool) :
    (s.updSys fun k => { k with selGen := gen, selLeaf := leaf }).pinView = s.pinView := rfl
theorem State.pinView_leafOther (fallback leaf : Bool) (gen : Nat) :
    (s.updSys fun k => { k with fallback := fallback, selGen := gen, selLeaf := leaf }).pinView = s.pinView := rfl
theorem State.pinView_leafNone (gen : Nat) (leaf : Bool) :
    (s.updSys fun k => { k with halted := true, selGen := gen, selLeaf := leaf }).pinView = s.pinView := rfl
theorem State.pinView_bootCnt (n : Nat) : (s.updSys fun k => { k with bootCnt := n }).pinView = s.pinView := rfl

theorem State.pinView_wrWhole (a : Nat) (bs : List Byte) : (s.wrWhole a bs).pinView = s.pinView := by
  rw [State.wrWhole_shape]
  rfl

theorem State.pinView_leafRun (leaf : Bool) (hd im : List Byte) : (s.leafRun leaf hd im).pinView = s.pinView := by
  rw [State.leafRun, State.pinView_leafRuns, State.pinView_wrWhole]

theorem State.pinView_leafChosen (leaf named : Bool) (gen sect : Nat) (hd im : List Byte) :
    (s.leafChosen leaf named gen sect hd im).pinView = s.pinView := by
  unfold State.leafChosen
  dsimp only
  split
  · rw [State.pinView_leafNamed, State.pinView_leafRun]
  · rw [State.pinView_leafOther, State.pinView_bootSelect, State.pinView_leafRun]

theorem State.pinView_leafBoot : s.leafBoot.pinView = s.pinView := by
  have selected := s.pinView_selector
  unfold State.leafBoot
  generalize s.selector = q at selected ⊢
  dsimp only
  split
  · rw [State.pinView_leafChosen, State.pinView_leafVerify, State.pinView_bootCnt, selected]
  · split
    · rw [State.pinView_leafChosen, State.pinView_leafVerify, State.pinView_leafVerify, State.pinView_bootCnt, selected]
    · rw [State.pinView_leafNone, State.pinView_leafVerify, State.pinView_leafVerify, State.pinView_bootCnt, selected]

/-- The boot takes the straps, raises RESET_N and sets the ports by the straps. -/
theorem State.bootRom_pins (straps : BitVec 4) : (s.bootRom straps).pinView =
    ({ s.portA with sync := straps.getLsbD 0 }, { s.portB with sync := straps.getLsbD 1 }, straps, s.sys.padsHigh, true,
      s.sys.bootDone, s.sys.resetCause) := by
  have released := s.pinView_tapRelease
  unfold State.bootRom
  extract_lets s1 portA portB sys pwr seq s2
  obtain ⟨l, e, opened, -⟩ := s2.openBanks_shape 3
  rw [State.pinView_leafBoot, State.pinView_ledgerLoad, State.pinView_train, State.pinView_train, opened]
  simp only [State.pinView, Prod.mk.injEq] at released
  obtain ⟨a, b, -, pads, -, boot, cause⟩ := released
  simp only [State.pinView, s2, portA, portB, sys, s1, a, b, pads, boot, cause]
  rfl

/-- The boot does not read RESET_N. -/
theorem State.bootRom_resetN (level : Bool) (straps : BitVec 4) :
    State.bootRom { s with sys := { s.sys with resetN := level } } straps = s.bootRom straps := by
  have released : State.tapRelease { s with sys := { s.sys with resetN := level } } =
      { s.tapRelease with sys := { s.tapRelease.sys with resetN := level } } := by
    unfold State.tapRelease
    dsimp only
    split <;> rfl
  simp only [State.bootRom, released]
  rfl

end

/-! ## RESET_N (R136, R281) -/

theorem exec_resetAssert (s : State) : exec .resetAssert s = .next s.resetLow := rfl
theorem exec_resetRelease (s : State) (straps : BitVec 4) (high : BitVec 2) :
    exec (.resetRelease (straps, high)) s = .next (s.resetHigh straps high) := rfl

/-- The plain registers that a reset keeps: those of the PWR block. -/
theorem get_aoRegs (m : SMap Word) (a : Nat) :
    SMap.get regReset (aoRegs m) a =
      if 0x30050000 ≤ a ∧ a < 0x30050080 then SMap.get regReset m a else regReset a := by
  induction m with
  | nil => simp [aoRegs, SMap.get]
  | cons q m ih =>
    obtain ⟨j, v⟩ := q
    by_cases kept : 0x30050000 ≤ j ∧ j < 0x30050080
    · have head : aoRegs ((j, v) :: m) = (j, v) :: aoRegs m := by simp [aoRegs, kept]
      rw [head, SMap.get, SMap.get, ih]
      split
      · next same =>
        subst same
        rw [if_pos kept]
      · rfl
    · have head : aoRegs ((j, v) :: m) = aoRegs m := List.filter_cons_of_neg (by simpa using kept)
      rw [head, ih, SMap.get]
      split
      · next inside => rw [if_neg (by rintro rfl; exact kept inside)]
      · rfl

/-- Of the tenants a reset keeps TIME_SEC. -/
theorem State.get_aoTens (s : State) {t : Nat} (h : t < 32) :
    SMap.get Tenant.reset s.aoTens t = { Tenant.reset t with timeSec := (s.ten t).timeSec } := by
  have set (ns : List Nat) (m : SMap Tenant) : SMap.get Tenant.reset (ns.foldl (fun m t =>
      SMap.set Tenant.reset m t { Tenant.reset t with timeSec := (s.ten t).timeSec }) m) t =
        if t ∈ ns then { Tenant.reset t with timeSec := (s.ten t).timeSec } else SMap.get Tenant.reset m t := by
    induction ns generalizing m with
    | nil => rfl
    | cons n ns ih =>
      rw [List.foldl_cons, ih, SMap.get_set]
      by_cases rest : t ∈ ns
      · rw [if_pos rest, if_pos (List.mem_cons_of_mem n rest)]
      · rw [if_neg rest]
        by_cases same : t = n
        · rw [if_pos same, if_pos (same ▸ List.mem_cons_self), same]
        · rw [if_neg same, if_neg fun mem => (List.mem_cons.mp mem).elim same rest]
  rw [State.aoTens, set, if_pos (List.mem_range.mpr h)]

section
variable {s : State}

theorem State.resetLow_nothing (h : s.pwr.st = .off ∨ s.pwr.st = .shuttered) :
    s.resetLow = { s with sys := { s.sys with resetN := false } } := if_pos h

theorem State.resetLow_resets (off : s.pwr.st ≠ .off) (shuttered : s.pwr.st ≠ .shuttered) :
    s.resetLow = (s.resetKeep.cause 1).updSys fun k => { k with resetN := false } := if_neg (by simp [off, shuttered])

theorem State.resetHigh_idle (none : s.bootDue = false) (straps : BitVec 4) (high : BitVec 2) :
    s.resetHigh straps high = { s with sys := { s.sys with padsHigh := high, resetN := true } } :=
  if_neg (fun due : s.bootDue = true => Bool.false_ne_true (none.symm.trans due))

theorem State.resetHigh_boots (due : s.bootDue = true) (straps : BitVec 4) (high : BitVec 2) :
    s.resetHigh straps high = State.bootRom { s with sys := { s.sys with padsHigh := high } } straps := if_pos due

/-! ## SYS_RESET_CTRL (R145) -/

theorem exec_softReset (s : State) (v : Word) : exec (.softReset v) s = .next (s.pageRow 0 0x458 v 0xF#4) := rfl

theorem State.sysPut_softReset (s : State) (v : Word) : s.sysPut none 0x458 v 0xF#4 = s.softReset v := by
  have put (be : BitVec 4) : s.sysPut none 0x458 v be = s.softReset (woBytes v be) := rfl
  rw [put, woBytes_all]

theorem State.softReset_idle {v : Word} (go : v.bit 31 = false) : s.softReset v = (s, 0) := if_pos go

theorem State.softReset_keyless {v : Word} (go : v.bit 31 = true) (key : v.fld 0 16 ≠ 0xD961) :
    s.softReset v = (s, 1) := (if_neg (by simp [go])).trans (if_neg key)

theorem State.softReset_resets {v : Word} (go : v.bit 31 = true) (key : v.fld 0 16 = 0xD961) :
    s.softReset v = (s.resetPulse 2, 0) := (if_neg (by simp [go])).trans (if_pos key)

/-- A whole write of a keeper system register that clamps a field counts it. -/
theorem State.pageRow_sys_clamped {m : State} {off k : Nat} {v : Word} (h : s.Serves 0) (word : off % 4 = 0)
    (page : isPageReg off = false) (sys : isSysReg off = true) (put : s.sysPut none off v 0xF#4 = (m, k))
    (boot : m.sys.bootDone = true) : s.pageRow 0 off v 0xF#4 = m.clamps 0 (.host 0 (pageAddr 0 off)) k := by
  have aligned : off / 4 * 4 = off := by omega
  have reach : s.pageReach 0 off true = true := State.pageReach_of_serves h (by simp [sys])
  simp [State.pageRow, aligned, reach, State.regPut, page, put, boot]

/-- The reset of a pulse is that of a low RESET_N with another cause, and the boot at its release. -/
theorem State.resetPulse_eq_low_high (vao : s.pwr.vao = true) (off : s.pwr.st ≠ .off) (shuttered : s.pwr.st ≠ .shuttered) :
    State.resetHigh { s.resetLow with
      sys := { s.resetLow.sys with resetCause := s.sys.resetCause ||| 4#5 } } s.sys.straps s.sys.padsHigh =
        s.resetPulse 2 := by
  rw [State.resetLow_resets off shuttered, State.resetHigh_boots (by simp [State.bootDue, State.updSys, State.cause,
    State.resetKeep, Pwr.ao0, Pwr.reset, vao])]
  exact State.bootRom_resetN (s.resetKeep.cause 2) false s.sys.straps

end

end Sys2Proof.Machine

section
open Sys2Proof Sys2Proof.Machine

/-- Settles O37: a low RESET_N by the power state, its release by whether a boot is due, and a soft reset by GO and
KEY. -/
theorem resetRows : Obligations.ResetRows := by
  unfold Obligations.ResetRows
  intro s
  refine ⟨fun none => ?_, fun off shuttered => ⟨_, exec_resetAssert s, ?_⟩,
    fun straps high => ⟨fun none => ?_, fun due => ⟨_, exec_resetRelease s straps high, ?_⟩⟩,
    fun serves vao off shuttered v => ⟨fun idle => ?_, fun go key => ?_, fun go key => ?_⟩⟩
  · rw [exec_resetAssert, State.resetLow_nothing none]
  · rw [State.resetLow_resets off shuttered]
    exact ⟨rfl, rfl, rfl, rfl, rfl, rfl, rfl, fun t h => congrArg (·.timeSec) (s.get_aoTens h), fun t => rfl,
      fun a => get_aoRegs s.regs a, fun prog erases => congrArg (·.flash.words) (State.flashCut_idle prog erases)⟩
  · rw [exec_resetRelease, State.resetHigh_idle none]
  · let sampled : State := { s with sys := { s.sys with padsHigh := high } }
    have boots := sampled.bootRom_effect straps
    have pins := sampled.bootRom_pins straps
    rw [State.resetHigh_boots due]
    simp only [State.bootView, State.pinView, Prod.mk.injEq] at boots pins
    obtain ⟨doors, regs, pwr, sweep⟩ := boots
    obtain ⟨portA, portB, taken, pads, pin, -, -⟩ := pins
    refine ⟨taken, pads, pin, sweep, ?_, ?_, ?_, ?_, doors, regs⟩
    · rw [pwr]
      rfl
    · rw [pwr]
      rfl
    · rw [portA]
    · rw [portB]
  · rw [exec_softReset, State.pageRow_sys serves rfl rfl rfl ((s.sysPut_softReset v).trans (State.softReset_idle idle))]
  · have row := State.pageRow_sys_clamped serves rfl rfl rfl
      ((s.sysPut_softReset v).trans (State.softReset_keyless go key)) serves.1
    refine ⟨_, exec_softReset s v, ?_, ?_, ?_⟩
    · rw [row, State.clampCount_clamps_one]
    · rw [row, State.clamps_shape]
    · rw [row, State.clamps_shape]
  · refine ⟨s.resetLow, s.resetPulse 2, exec_resetAssert s, ?_, ?_⟩
    · rw [exec_resetRelease, State.resetPulse_eq_low_high vao off shuttered]
    · rw [exec_softReset,
        State.pageRow_sys serves rfl rfl rfl ((s.sysPut_softReset v).trans (State.softReset_resets go key))]

end
end

section
/-! PROOFS. The debug lock, the peephole and the restart of a service (O59). -/

namespace Sys2Proof.Machine

section
variable {s : State}

/-! ## The lock (R439 to R442) -/

theorem State.unlockAsk_fails (h : (s.ten 0).key = none ∨ s.unlockSoon = true) : s.unlockAsk = s.unlockFail :=
  if_pos (h.imp_left Option.isNone_iff_eq_none.mpr)

theorem State.unlockAsk_draws (key : (s.ten 0).key ≠ none) (late : s.unlockSoon = false) :
    s.unlockAsk = { s with
      free := s.free + 1,
      dbg := { s.dbg with chal := some (Config.challenge s.free), rdPos := 0, wrPos := 0, resp := [] } } :=
  if_neg (by simp [key, late])

theorem State.chalWrite_none (none : s.dbg.chal = none) (v : Word) : s.chalWrite v = s.unlockFail := by
  rw [State.chalWrite, none]

/-- A response word before the eighth, and the eighth. -/
theorem State.chalWrite_some {c : BitVec 128} (chal : s.dbg.chal = some c) (v : Word) :
    s.chalWrite v =
      (let n : State := { s with dbg := { s.dbg with
        resp := s.dbg.resp ++ leBytes 4 v.toNat, wrPos := s.dbg.wrPos + 1 } }
       if s.dbg.wrPos = 7 then n.unlockJudge c else n) := by
  rw [State.chalWrite, chal]
  exact if_congr Nat.succ_inj rfl rfl

theorem State.unlockJudge_key {key : BitVec 256} (held : (s.ten 0).key = some key) (c : BitVec 128) :
    s.unlockJudge c = if s.dbg.resp = dbgMac key c then { s with
        sys := { s.sys with locked := false },
        dbg := { s.dbg with chal := none, rdPos := 0, wrPos := 0, resp := [] } }
      else s.unlockFail := by
  rw [State.unlockJudge, held]

end

section
variable {s : State} (serves : s.Serves 0)
include serves

theorem exec_unlock_served : exec .unlock s = .next s.unlockAsk := by
  have put : s.sysPut none 0x478 2 0xF#4 = (s.dbgLock (woBytes 2 0xF#4), 0) := rfl
  rw [woBytes_all] at put
  exact congrArg Host.Outcome.next (State.pageRow_sys serves rfl rfl rfl put)

theorem exec_relock_served : exec .relock s = .next s.relock := by
  have put : s.sysPut none 0x478 4 0xF#4 = (s.dbgLock (woBytes 4 0xF#4), 0) := rfl
  rw [woBytes_all] at put
  exact congrArg Host.Outcome.next (State.pageRow_sys serves rfl rfl rfl put)

theorem exec_challengeResponse_served (v : Word) : exec (.challengeResponse v) s = .next (s.chalWrite v) := by
  have put (be : BitVec 4) : s.sysPut none 0x47C v be = (s.chalWrite (woBytes v be), 0) := rfl
  refine congrArg Host.Outcome.next (State.pageRow_sys serves rfl rfl rfl ((put 0xF#4).trans ?_))
  rw [woBytes_all]

theorem exec_challengeRead_served : exec .challengeRead s =
    .next { s with rdata := s.chalRead.2, dbg := { s.dbg with rdPos := (s.dbg.rdPos + 1) % 4 } } :=
  congrArg Host.Outcome.next (State.pageRowRead_of (State.pageReach_of_serves serves rfl))

end

section
variable {s : State}

/-- A word of a challenge, as a shift and as a quotient. -/
theorem challenge_word (c : BitVec 128) (i : Nat) :
    (c >>> (32 * i)).setWidth 32 = BitVec.ofNat 32 (c.toNat / 2 ^ (32 * i)) :=
  BitVec.eq_of_toNat_eq (by simp [Nat.shiftRight_eq_div_pow])

/-! ## The peephole (R438, R443) -/

theorem exec_peepGroupWrite_reached (h : s.cfgReach 0 0x300C0000 true = true) (v : Word) :
    exec (.peepGroupWrite v) s = .next (s.peepWrite v) := by
  have put (be : BitVec 4) :
      s.cfgPut none 0x300C0000 v be = (s.peepWrite (mergeBytes (s.cfgGet 0 0x300C0000) v be), 0) := rfl
  refine congrArg Host.Outcome.next (State.cfgRow_of h rfl ((put 0xF#4).trans ?_))
  rw [mergeBytes_all]

/-! ## The restart of a service (R171) -/

theorem exec_serviceRestart (s : State) (a : BitVec 32) :
    exec (.serviceRestart a) s = .next (s.serviceRestart a.toNat) := rfl

theorem State.serviceRestart_sound {a : Nat}
    (h : sramRegion (a / 8 * 8) ≠ some 0 ∨ s.eccOf (a / 8 * 8) ≠ .poisoned) : s.serviceRestart a = s := if_pos h

theorem State.serviceRestart_poisoned {a : Nat} (core : sramRegion (a / 8 * 8) = some 0)
    (bad : s.eccOf (a / 8 * 8) = .poisoned) :
    s.serviceRestart a =
      (let svc := (Config.serviceOf (a / 8 * 8)).toNat
       if (s.prot.restarts.any fun q => q.1 == svc) then s.resetPulse 3
       else ((s.failService (Config.serviceOf (a / 8 * 8))).updProt fun p => { p with
         restarts := SMap.set (fun _ => 0) p.restarts svc 1 }).raise 68 .granted (wordOf svc)) :=
  if_neg (by simp [core, bad])

/-- With no command at work a service that restarts ends none. -/
theorem State.failService_idle (idle : ∀ r ∈ s.runs, r.st ≠ .working) (svc : Byte) : s.failService svc = s := by
  have none : (s.runs.filter fun r => r.st == .working && Config.serviceRuns svc (slotOp r.slot)) = [] :=
    List.filter_eq_nil_iff.mpr fun r hr => by simp [idle r hr]
  rw [State.failService, none, List.foldl_nil]

/-- A reset that boots at once: BOOT_DONE clear, its cause beside the others, Open, and every door but the keeper's
shut. -/
theorem State.resetPulse_effect (s : State) (bit : Nat) :
    (s.resetPulse bit).sys.bootDone = false ∧
      (s.resetPulse bit).sys.resetCause = s.sys.resetCause ||| BitVec.ofNat 5 (2 ^ bit) ∧
      (s.resetPulse bit).pwr.st = .opened ∧ ∀ t, (s.resetPulse bit).door t = if t = 0 then .opened else .shut := by
  have boots := (s.resetKeep.cause bit).bootRom_effect s.sys.straps
  have pins := (s.resetKeep.cause bit).bootRom_pins s.sys.straps
  simp only [State.bootView, State.pinView, Prod.mk.injEq] at boots pins
  obtain ⟨doors, -, pwr, -⟩ := boots
  obtain ⟨-, -, -, -, -, boot, cause⟩ := pins
  refine ⟨boot, cause, (congrArg Pwr.st pwr).trans rfl, fun t => ?_⟩
  exact (congrArg (SMap.get doorReset · t) doors).trans rfl

end

end Sys2Proof.Machine

section
open Sys2Proof Sys2Proof.Machine

/-- Settles O59: the lock by its key, its challenge and the words of the response; then the peephole, and a service. -/
theorem debugRows : Obligations.DebugRows := by
  unfold Obligations.DebugRows
  intro s
  refine ⟨fun serves => ⟨fun fails => ?_, fun key late => ⟨_, exec_unlock_served serves, ?_⟩,
      ⟨_, exec_challengeRead_served serves, fun none => ?_, fun c chal => ?_, rfl⟩,
      fun v => ⟨fun none => ?_, fun c chal => ⟨fun early => ?_, fun last key held => ⟨fun matches_ => ?_, fun differs => ?_⟩⟩⟩,
      exec_relock_served serves⟩,
    fun reach v => ⟨fun locked => ?_, fun unlocked => ?_⟩,
    fun a => ⟨fun sound => ?_, fun core bad => ⟨fun first idle => ?_, fun second => ⟨_, exec_serviceRestart s a, ?_⟩⟩⟩⟩
  · rw [exec_unlock_served serves, State.unlockAsk_fails fails]
    rfl
  · rw [State.unlockAsk_draws key late]
    exact ⟨rfl, rfl⟩
  · simp only [State.chalRead, none]
  · simp only [State.chalRead, chal, challenge_word]
  · rw [exec_challengeResponse_served serves, State.chalWrite_none none]
    rfl
  · rw [exec_challengeResponse_served serves, State.chalWrite_some chal]
    exact congrArg Host.Outcome.next (if_neg early)
  · rw [exec_challengeResponse_served serves, State.chalWrite_some chal]
    refine congrArg Host.Outcome.next ((if_pos last).trans ?_)
    refine (State.unlockJudge_key ?_ c).trans (if_pos matches_)
    exact held
  · rw [exec_challengeResponse_served serves, State.chalWrite_some chal]
    refine congrArg Host.Outcome.next ((if_pos last).trans ?_)
    refine (State.unlockJudge_key ?_ c).trans (if_neg differs)
    exact held
  · rw [exec_peepGroupWrite_reached reach]
    exact congrArg Host.Outcome.next (if_pos locked)
  · rw [exec_peepGroupWrite_reached reach]
    exact congrArg Host.Outcome.next (if_neg (by simp [unlocked]))
  · rw [exec_serviceRestart, State.serviceRestart_sound sound]
  · rw [exec_serviceRestart, State.serviceRestart_poisoned core bad, State.failService_idle idle]
    exact congrArg Host.Outcome.next (if_neg (by simp [first]))
  · have resets : s.serviceRestart a.toNat = s.resetPulse 3 :=
      (State.serviceRestart_poisoned core bad).trans (if_pos second)
    rw [resets]
    exact s.resetPulse_effect 3

end
end

section
/-! PROOFS. Pattern engines: run, stop and the steps (O55). -/

namespace Sys2Proof.Machine

/-! ## One engine changed -/

section
variable (s : State) (k : Nat)

theorem State.updEngine_updEngine (f g : Engine → Engine) :
    (s.updEngine k f).updEngine k g = s.updEngine k fun e => g (f e) :=
  congrArg (fun m => { s with engines := m }) (SMap.upd_upd _ _ _ _ _)

/-- What becomes of an engine is all that its change sees. -/
theorem State.updEngine_congr {f g : Engine → Engine} (h : f (s.engine k) = g (s.engine k)) :
    s.updEngine k f = s.updEngine k g :=
  congrArg (fun e => { s with engines := SMap.set (fun _ => Engine.reset) s.engines k e }) h

theorem State.engine_updEngine_self (f : Engine → Engine) : (s.updEngine k f).engine k = f (s.engine k) :=
  (s.engine_updEngine k f k).trans (if_pos rfl)

theorem State.engine_updEngine_other (f : Engine → Engine) {m : Nat} (h : m ≠ k) :
    (s.updEngine k f).engine m = s.engine m := (s.engine_updEngine k f m).trans (if_neg h)

end

/-! ## RUN (R330) -/

theorem peReg_ctrl (k : Fin 4) : cfgBlock (peReg k.val 0) = 8 ∧ cfgOff (peReg k.val 0) = 0x2000 + k.val * 0x100 ∧
    peReg k.val 0 / 4 * 4 = peReg k.val 0 := by
  unfold cfgBlock cfgOff peReg
  omega

/-- No self-test holds PEk_CTRL. -/
theorem State.cfgHeld_engine (s : State) (k : Fin 4) : s.cfgHeld (peReg k.val 0) = false := by
  obtain ⟨block, off, -⟩ := peReg_ctrl k
  have lamp : ¬0x2000 + k.val * 0x100 < 0x1000 := by omega
  simp only [State.cfgHeld, block, off, lamp, decide_false, Bool.false_and]

theorem State.cfgPut_engine (s : State) (k : Fin 4) (v : Word) (be : BitVec 4) :
    s.cfgPut none (peReg k.val 0) v be = s.putEngine k.val 0 v be := by
  obtain ⟨block, off, -⟩ := peReg_ctrl k
  have lamp : ¬0x2000 + k.val * 0x100 < 0x1000 := by omega
  have engine : 0x2000 ≤ 0x2000 + k.val * 0x100 ∧ 0x2000 + k.val * 0x100 < 0x2400 := by omega
  have number : (0x2000 + k.val * 0x100 - 0x2000) / 0x100 = k.val := by omega
  have reg : (0x2000 + k.val * 0x100) % 0x100 = 0 := by omega
  simp only [State.cfgPut, block, off, if_neg lamp, if_pos engine, number, reg]

section
variable {s : State} {k : Fin 4} (reach : s.cfgReach (s.owner 2 k.val) (peReg k.val 0) true = true)
include reach

theorem State.cfgRow_engine {v : Word} {be : BitVec 4} {n : State} (put : s.putEngine k.val 0 v be = (n, 0)) :
    s.cfgRow (s.owner 2 k.val) (peReg k.val 0) v be = n := by
  have word := (peReg_ctrl k).2.2
  refine State.cfgRow_of ?_ ?_ ?_
  · rwa [word]
  · rw [word]
    exact s.cfgHeld_engine k
  · rw [word, State.cfgPut_engine, put]

/-- RUN starts the engine at START. -/
theorem exec_engineRun_reached (start : Fin 32) : exec (.engineRun k start) s = .next (s.engineGo k.val start.val) := by
  have field : (wordOf (1 + 256 * start.val)).fld 8 5 = start.val := by
    simp only [Word.fld, fieldOf, wordOf, BitVec.toNat_ofNat]
    omega
  have run : (wordOf (1 + 256 * start.val)).bit 0 = true := by
    rw [Word.bit, BitVec.getLsbD, wordOf, BitVec.toNat_ofNat, Nat.testBit_zero, decide_eq_true_eq]
    omega
  have put : s.putEngine k.val 0 (wordOf (1 + 256 * start.val)) 0xF#4 = (s.engineGo k.val start.val, 0) := by
    simp only [State.putEngine, if_true, mergeBytes_all, woBytes_all, field, run]
  exact congrArg Host.Outcome.next (State.cfgRow_engine reach put)

/-- A stop writes byte 0 alone: START stays as PEk_CTRL reads it. -/
theorem exec_engineStop_reached : exec (.engineStop k) s = .next (s.updEngine k.val fun e => { e with
    st := 0, left := 0, start := (s.engine k.val).start % 32 }) := by
  have field : (mergeBytes (s.getEngine k.val 0) 0 0x1#4).fld 8 5 = (s.engine k.val).start % 32 := by
    simp only [mergeBytes, State.getEngine, List.range, List.range.loop, List.map, leNat, Word.fld, fieldOf, wordOf,
      BitVec.toNat_ofNat]
    simp
    omega
  have stop : (woBytes 0 0x1#4).bit 0 = false := by decide
  have low : (0x1#4).getLsbD 0 = true := rfl
  have put : s.putEngine k.val 0 0 0x1#4 = (s.updEngine k.val fun e => { e with
      st := 0, left := 0, start := (s.engine k.val).start % 32 }, 0) := by
    simp only [State.putEngine, if_true, field, stop, low, Bool.false_eq_true, if_false, State.engineHalt,
      State.updEngine_updEngine]
  exact congrArg Host.Outcome.next (State.cfgRow_engine reach put)

end

/-! ## A step (R329, R330) -/

section
variable {s : State} {k : Nat}

theorem State.up_of_stepOp {op : Nat} (h : s.stepOp k = some op) : s.up 9 = true := by
  unfold State.stepOp at h
  split at h
  · next on => exact on.1
  · cases h

theorem State.engineStep_at {op : Nat} (h : s.stepOp k = some op) (f : State → Nat → State) :
    s.engineStep k op f = f s k := if_pos ⟨State.up_of_stepOp h, h⟩

theorem State.engineStep_else {op : Nat} (h : s.stepOp k ≠ some op) (f : State → Nat → State) :
    s.engineStep k op f = s := if_neg fun here => h here.2

/-- A step with time, or one of less than 32 without, goes on. -/
theorem State.engineNext_runs {timed : Bool} (h : timed = true ∨ (s.engine k).quick < 31) (pc ms : Nat) :
    s.engineNext k pc ms timed = s.updEngine k fun e => { e with
      pc := pc % 32, left := ms, quick := if timed then 0 else e.quick + 1 } := by
  have within : ¬32 ≤ (if timed then 0 else (s.engine k).quick + 1) := by
    cases timed
    · have few : (s.engine k).quick < 31 := h.resolve_left Bool.false_ne_true
      exact fun many => by simp at many; omega
    · exact fun many => by simp at many
  exact (if_neg within).trans (s.updEngine_congr k rfl)

theorem State.engineNext_timed (pc ms : Nat) : s.engineNext k pc ms true =
    s.updEngine k fun e => { e with pc := pc % 32, left := ms, quick := 0 } := State.engineNext_runs (.inl rfl) pc ms

theorem State.engineNext_untimed (few : (s.engine k).quick < 31) (pc ms : Nat) : s.engineNext k pc ms false =
    s.updEngine k fun e => { e with pc := pc % 32, left := ms, quick := e.quick + 1 } :=
  State.engineNext_runs (.inr few) pc ms

/-- The 32nd step in a row without time is an error. -/
theorem State.engineNext_error (h : 31 ≤ (s.engine k).quick) (pc ms : Nat) :
    s.engineNext k pc ms false = s.engineErr k := if_pos (by simpa using h)

theorem State.engineErr_eq : s.engineErr k = (s.updEngine k fun e => { e with st := 3 }).raise (176 + k) (.res 2 k)
    (wordOf (3 + (s.engine k).pc * 256)) := by
  rw [State.engineErr, State.engineEv, State.engine_updEngine_self, Nat.zero_mul, Nat.add_zero]

/-! ## Lanes (R330, R331) -/

/-- Engines, plain registers and doors. -/
def State.laneView (s : State) : SMap Engine × SMap Word × SMap DoorSt := (s.engines, s.regs, s.doors)

theorem State.laneView_ev180 (s : State) (n : Nat) : (s.ev180 n).laneView = s.laneView := by
  unfold State.ev180
  split
  · simp only [State.laneView, State.raise_engines, State.raise_regs, State.raise_doors]
  · rfl

theorem State.laneView_fadeTo (s : State) (n v ms : Nat) (cie : Bool) : (s.fadeTo n v ms cie).laneView = s.laneView := by
  unfold State.fadeTo State.fadeDone
  dsimp only
  split
  · rfl
  · split
    · exact State.laneView_ev180 _ n
    · rfl

/-- A channel that takes its target anew changes no engine, register or door. -/
theorem State.laneView_retarget (s : State) (n : Nat) : (s.retarget n).laneView = s.laneView := by
  unfold State.retarget
  split <;> exact State.laneView_fadeTo _ _ _ _ _

theorem State.laneView_setLane (s : State) (k j v ms : Nat) (cie : Bool) :
    (s.setLane k j v ms cie).laneView = (s.updEngine k fun e => { e with
      lanes := SMap.set (fun _ => Lane.reset) e.lanes j ⟨v, ms, cie⟩ }).laneView := by
  unfold State.setLane
  refine State.each_keeps (view := State.laneView) (fun s n _ => ?_) _
  split
  · exact s.laneView_retarget n
  · rfl

/-- The lanes of an engine after some take levels. -/
def lanesSet (ms : Nat) (cie : Bool) (lanes : SMap Lane) (lv : List (Nat × Nat)) : SMap Lane :=
  lv.foldl (fun m p => SMap.set (fun _ => Lane.reset) m p.1 ⟨p.2, ms, cie⟩) lanes

theorem get_lanesSet_other {ms : Nat} {cie : Bool} {j : Nat} {lv : List (Nat × Nat)} (h : j ∉ lv.map Prod.fst)
    (lanes : SMap Lane) :
    SMap.get (fun _ => Lane.reset) (lanesSet ms cie lanes lv) j = SMap.get (fun _ => Lane.reset) lanes j := by
  induction lv generalizing lanes with
  | nil => rfl
  | cons p lv ih =>
    rw [List.map_cons, List.mem_cons, not_or] at h
    exact (ih h.2 _).trans (SMap.get_set_ne _ _ _ h.1)

theorem get_lanesSet_mem {ms : Nat} {cie : Bool} {p : Nat × Nat} {lv : List (Nat × Nat)}
    (once : (lv.map Prod.fst).Nodup) (h : p ∈ lv) (lanes : SMap Lane) :
    SMap.get (fun _ => Lane.reset) (lanesSet ms cie lanes lv) p.1 = ⟨p.2, ms, cie⟩ := by
  induction lv generalizing lanes with
  | nil => cases h
  | cons q lv ih =>
    rw [List.map_cons, List.nodup_cons] at once
    rcases List.mem_cons.mp h with rfl | tail
    · exact (get_lanesSet_other once.1 _).trans (SMap.get_set_self _ _ _ _)
    · exact ih once.2 tail _

/-- Lanes that take levels: nothing but the lanes of their engine changes of engines, registers and doors. -/
theorem State.setLanes_effect (s : State) (k ms : Nat) (cie : Bool) (lv : List (Nat × Nat)) :
    let n := lv.foldl (fun s p => s.setLane k p.1 p.2 ms cie) s
    n.engine k = { s.engine k with lanes := lanesSet ms cie (s.engine k).lanes lv } ∧
      (∀ m, m ≠ k → n.engine m = s.engine m) ∧ n.regs = s.regs ∧ n.doors = s.doors := by
  induction lv generalizing s with
  | nil => exact ⟨rfl, fun _ _ => rfl, rfl, rfl⟩
  | cons p lv ih =>
    have one := s.laneView_setLane k p.1 p.2 ms cie
    simp only [State.laneView, Prod.mk.injEq] at one
    obtain ⟨engines, regs, doors⟩ := one
    have engine (m : Nat) : (s.setLane k p.1 p.2 ms cie).engine m = _ :=
      (congrArg (SMap.get (fun _ => Engine.reset) · m) engines).trans (s.engine_updEngine k _ m)
    obtain ⟨self, others, regs', doors'⟩ := ih (s.setLane k p.1 p.2 ms cie)
    refine ⟨self.trans ?_, fun m h => ((others m h).trans (engine m)).trans (if_neg h), regs'.trans regs,
      doors'.trans doors⟩
    rw [engine k, if_pos rfl]
    rfl

/-- A RAMP or ROTATE that is no error: the levels taken, and the engine at its next step. -/
theorem State.laneStep_effect {w : Word} (h : w.getLsbD 22 = true ∧ stepMs w ≠ 0 ∨ (s.engine k).quick < 31)
    (lv : List (Nat × Nat)) :
    let n := s.laneStep k w lv
    (∀ j, n.lane k j = SMap.get (fun _ => Lane.reset) (lanesSet (stepMs w) (w.bit 23) (s.engine k).lanes lv) j) ∧
      (n.engine k).pc = ((s.engine k).pc + 1) % 32 ∧ (n.engine k).left = (if w.getLsbD 22 then stepMs w else 0) ∧
      (n.engine k).st = (s.engine k).st ∧ (∀ m, m ≠ k → n.engine m = s.engine m) ∧ n.regs = s.regs ∧
      n.doors = s.doors := by
  intro n
  obtain ⟨self, others, regs, doors⟩ := s.setLanes_effect k (stepMs w) (w.bit 23) lv
  have runs : n = _ := State.engineNext_runs (h.imp (fun timed => by simp [Word.bit, timed]) (by rw [self]; exact id)) _ _
  have engine : n.engine k = _ := runs ▸ State.engine_updEngine_self _ k _
  rw [self] at engine
  refine ⟨fun j => ?_, ?_, ?_, ?_, fun m other => ?_, ?_, ?_⟩
  · rw [State.lane, engine]
  · rw [engine]
  · rw [engine]
    rfl
  · rw [engine]
  · rw [runs, State.engine_updEngine_other _ _ _ other, others m other]
  · rw [runs]
    exact regs
  · rw [runs]
    exact doors

theorem stepLanes_nodup (w : Word) : (stepLanes w).Nodup := List.nodup_range.filter _

theorem mem_stepLanes {w : Word} {j : Nat} : j ∈ stepLanes w ↔ j < 4 ∧ w.getLsbD (24 + j) = true := by
  simp [stepLanes, Word.bit]

/-- The members of a list in their places are the list. -/
theorem map_getD_range {α : Type} (l : List α) (d : α) : (List.range l.length).map (l.getD · d) = l :=
  List.ext_getElem (by simp) fun i _ h2 => by simp [List.getElem?_eq_getElem h2]

theorem fld_low5 (w : Word) : w.fld 0 5 % 32 = w.toNat % 32 := by simp [Word.fld, fieldOf]

/-- A LOOP without a count, and one with (R330). -/
theorem State.engineLoop_always (h : (s.stepWord k).toNat / 32 % 128 = 0) :
    s.engineLoop k = s.engineNext k ((s.stepWord k).fld 0 5) 0 false := if_pos h

theorem State.engineLoop_counts (h : (s.stepWord k).toNat / 32 % 128 ≠ 0) :
    let lc := (if (s.engine k).lc = 0 then (s.stepWord k).toNat / 32 % 128 else (s.engine k).lc) - 1
    s.engineLoop k = (s.updEngine k fun e => { e with lc := lc }).engineNext k
      (if lc = 0 then (s.engine k).pc + 1 else (s.stepWord k).fld 0 5) 0 false := if_neg h

theorem exec_engineError_at {s : State} {k : Fin 4} {op : Nat} (h : s.stepOp k.val = some op) :
    exec (.engineError k) s = .next (if 6 ≤ op ∧ s.up 9 then s.engineErr k.val else s) := by
  have row : exec (.engineError k) s = execEngineError k s := rfl
  rw [row, execEngineError, h]

theorem exec_engineError_none {s : State} {k : Fin 4} (h : s.stepOp k.val = none) :
    exec (.engineError k) s = .next s := by
  have row : exec (.engineError k) s = execEngineError k s := rfl
  rw [row, execEngineError, h]

/-- A RAMP takes one level into each selected lane. -/
theorem State.engineRamp_lane (s : State) (k : Nat) {j : Nat} (h : j < 4) :
    SMap.get (fun _ => Lane.reset) (lanesSet (stepMs (s.stepWord k)) ((s.stepWord k).bit 23) (s.engine k).lanes
      ((stepLanes (s.stepWord k)).map fun j => (j, (s.stepWord k).fld 0 12))) j =
        if (s.stepWord k).getLsbD (24 + j) then
          ⟨(s.stepWord k).toNat % 4096, stepMs (s.stepWord k), (s.stepWord k).getLsbD 23⟩
        else s.lane k j := by
  have level : (s.stepWord k).fld 0 12 = (s.stepWord k).toNat % 4096 := by simp [Word.fld, fieldOf]
  have keys : ((stepLanes (s.stepWord k)).map fun j => (j, (s.stepWord k).fld 0 12)).map Prod.fst =
      stepLanes (s.stepWord k) := by
    rw [List.map_map]
    exact List.map_id _
  split
  · next selected =>
    have mem : (j, (s.stepWord k).fld 0 12) ∈ (stepLanes (s.stepWord k)).map fun j => (j, (s.stepWord k).fld 0 12) :=
      List.mem_map.mpr ⟨j, mem_stepLanes.mpr ⟨h, selected⟩, rfl⟩
    rw [← level]
    exact get_lanesSet_mem (by rw [keys]; exact stepLanes_nodup _) mem _
  · next other => exact get_lanesSet_other (by rw [keys, mem_stepLanes]; exact fun here => other here.2) _

/-- The levels that a ROTATE gives its lanes. -/
def State.rotated (s : State) (k : Nat) : List (Nat × Nat) :=
  let w := s.stepWord k
  let ls := stepLanes w
  (List.range ls.length).map fun i => (ls.getD i 0,
    (s.lane k (ls.getD ((if w.bit 0 then i + 1 else i + ls.length - 1) % ls.length) 0)).level)

theorem State.rotated_keys (s : State) (k : Nat) : (s.rotated k).map Prod.fst = stepLanes (s.stepWord k) := by
  rw [State.rotated, List.map_map]
  exact map_getD_range _ _

end

end Sys2Proof.Machine

section
open Sys2Proof Sys2Proof.Machine

/-- Settles O55: RUN and a stop; a row whose step is another's; then each step by what its word says. -/
theorem engineRows : Obligations.EngineRows := by
  unfold Obligations.EngineRows
  intro s k
  refine ⟨fun reach => ⟨exec_engineRun_reached reach, _, exec_engineStop_reached reach, ?_⟩, fun c op listed other => ?_,
    fun here => ?_, fun here runs => ⟨_, congrArg Host.Outcome.next (State.engineStep_at here _), ?_⟩,
    fun here runs => ⟨_, congrArg Host.Outcome.next (State.engineStep_at here _), ?_⟩,
    fun here => ⟨fun timed => ?_, fun untimed few => ?_, fun untimed many => ?_⟩,
    fun here few => ⟨fun always => ?_, fun counts => ?_⟩, fun here few => ?_, fun op here unlisted => ?_, fun listed => ?_⟩
  · rw [State.engine_updEngine_self]
    exact ⟨rfl, rfl, rfl, rfl, Nat.mod_eq_of_lt, fun m => s.engine_updEngine_other _ _, rfl⟩
  · simp only [List.mem_cons, List.not_mem_nil, or_false, Prod.mk.injEq] at listed
    rcases listed with ⟨rfl, rfl⟩ | ⟨rfl, rfl⟩ | ⟨rfl, rfl⟩ | ⟨rfl, rfl⟩ | ⟨rfl, rfl⟩ | ⟨rfl, rfl⟩ <;>
      exact congrArg Host.Outcome.next (State.engineStep_else other _)
  · refine congrArg Host.Outcome.next ((State.engineStep_at here _).trans ?_)
    rw [State.engineEnd, State.engineEv, State.engine_updEngine_self, Nat.zero_mul, Nat.add_zero]
  · obtain ⟨lanes, pc, left, st, rest⟩ := State.laneStep_effect runs
      ((stepLanes (s.stepWord k.val)).map fun j => (j, (s.stepWord k.val).fld 0 12))
    exact ⟨fun j h => (lanes j).trans (s.engineRamp_lane k.val h), pc, left, st, rest⟩
  · obtain ⟨lanes, pc, -, st, rest⟩ := State.laneStep_effect runs (s.rotated k.val)
    have keys := s.rotated_keys k.val
    refine ⟨fun i h => (lanes _).trans ?_, fun j h => (lanes j).trans ?_, pc, st, rest⟩
    · have once : ((s.rotated k.val).map Prod.fst).Nodup := keys ▸ stepLanes_nodup _
      exact get_lanesSet_mem (lv := s.rotated k.val) once (List.mem_map.mpr ⟨i, List.mem_range.mpr h, rfl⟩) _
    · exact get_lanesSet_other (by rw [keys]; exact h) _
  · refine congrArg Host.Outcome.next ((State.engineStep_at here _).trans ?_)
    have yes : (stepMs (s.stepWord k.val) != 0) = true := bne_iff_ne.mpr timed
    rw [State.engineHold, yes, State.engineNext_timed]
    rfl
  · have zero : stepMs (s.stepWord k.val) = 0 := untimed
    refine congrArg Host.Outcome.next ((State.engineStep_at here _).trans ?_)
    rw [State.engineHold, zero]
    exact State.engineNext_untimed few _ _
  · have zero : stepMs (s.stepWord k.val) = 0 := untimed
    refine congrArg Host.Outcome.next ((State.engineStep_at here _).trans ?_)
    rw [State.engineHold, zero]
    exact (State.engineNext_error many _ _).trans State.engineErr_eq
  · refine congrArg Host.Outcome.next ((State.engineStep_at here _).trans ?_)
    rw [State.engineLoop_always always, State.engineNext_untimed few, fld_low5]
  · refine congrArg Host.Outcome.next ((State.engineStep_at here _).trans ?_)
    rw [State.engineLoop_counts counts, State.engineNext_untimed (by rwa [State.engine_updEngine_self]),
      State.updEngine_updEngine, apply_ite (· % 32), fld_low5]
    exact s.updEngine_congr _ rfl
  · refine congrArg Host.Outcome.next ((State.engineStep_at here _).trans ?_)
    have arg : (s.stepWord k.val).fld 0 12 = (s.stepWord k.val).toNat % 4096 := by simp [Word.fld, fieldOf]
    rw [State.engineEvent, State.engineNext_untimed (by rwa [State.engineEv, State.engine_raise]), State.engineEv, arg]
    exact State.updEngine_congr _ _ (by rw [State.engine_raise])
  · rw [exec_engineError_at here]
    exact congrArg Host.Outcome.next ((if_pos ⟨unlisted, State.up_of_stepOp here⟩).trans State.engineErr_eq)
  · rcases here : s.stepOp k.val with _ | op
    · exact exec_engineError_none here
    · rw [exec_engineError_at here, if_neg fun h => absurd (listed op here) (by omega)]

end
end

section
/-! PROOFS. Lamp channels: periods, targets, fades and fault clears (O54). -/

namespace Sys2Proof.Machine

/-! ## One channel changed -/

section
variable (s : State) (k : Nat)

theorem State.updLamp_updLamp (f g : Lamp → Lamp) : (s.updLamp k f).updLamp k g = s.updLamp k fun l => g (f l) :=
  congrArg (fun m => { s with lamps := m }) (SMap.upd_upd _ _ _ _ _)

/-- What becomes of a channel is all that its change sees. -/
theorem State.updLamp_congr {f g : Lamp → Lamp} (h : f (s.lamp k) = g (s.lamp k)) : s.updLamp k f = s.updLamp k g :=
  congrArg (fun l => { s with lamps := SMap.set (fun _ => Lamp.reset) s.lamps k l }) h

theorem State.lamp_updLamp_self (f : Lamp → Lamp) : (s.updLamp k f).lamp k = f (s.lamp k) :=
  (s.lamp_updLamp k f k).trans (if_pos rfl)

theorem State.lamp_updLamp_other (f : Lamp → Lamp) {m : Nat} (h : m ≠ k) : (s.updLamp k f).lamp m = s.lamp m :=
  (s.lamp_updLamp k f m).trans (if_neg h)

/-- The other channels, the plain registers and the engines. -/
def State.besideLamp : (Nat → Lamp) × SMap Word × SMap Engine :=
  (fun m => if m = k then Lamp.reset else s.lamp m, s.regs, s.engines)

theorem State.besideLamp_updLamp (f : Lamp → Lamp) : (s.updLamp k f).besideLamp k = s.besideLamp k := by
  refine Prod.ext (funext fun m => ?_) rfl
  by_cases h : m = k
  · simp only [State.besideLamp, h, if_true]
  · simp only [State.besideLamp, h, if_false, s.lamp_updLamp_other k f h]

theorem State.besideLamp_raise (e : Nat) (d : Dest) (v : Word) : (s.raise e d v).besideLamp k = s.besideLamp k := by
  simp only [State.besideLamp, State.lamp_raise, State.raise_regs, State.raise_engines]

theorem State.besideLamp_drawn : s.drawn.besideLamp k = s.besideLamp k := rfl

variable {s k} in
theorem State.besideLamp_eq {n : State} (h : n.besideLamp k = s.besideLamp k) :
    (∀ m, m ≠ k → n.lamp m = s.lamp m) ∧ n.regs = s.regs ∧ n.engines = s.engines := by
  simp only [State.besideLamp, Prod.mk.injEq] at h
  obtain ⟨lamps, regs, engines⟩ := h
  refine ⟨fun m other => ?_, regs, engines⟩
  have here := congrFun lamps m
  rwa [if_neg other, if_neg other] at here

/-! ## Fades (R326, R327) -/

theorem State.ev180_updLamp (f : Lamp → Lamp) : (s.updLamp k f).ev180 k =
    if s.rbit (lampReg k 0) 7 then
      (s.updLamp k f).raise 180 (.res 1 k) (wordOf (k + (f (s.lamp k)).out * 65536))
    else s.updLamp k f := by
  rw [State.ev180, State.lamp_updLamp_self]
  rfl

theorem State.fadeDone_eq : s.fadeDone k =
    (let r := s.updLamp k fun l => { l with out := l.target, fade := none }
     if s.rbit (lampReg k 0) 7 then r.raise 180 (.res 1 k) (wordOf (k + (s.lamp k).target * 65536)) else r) :=
  s.ev180_updLamp k _

theorem State.lamp_fadeDone : (s.fadeDone k).lamp k = { s.lamp k with out := (s.lamp k).target, fade := none } := by
  rw [State.fadeDone_eq]
  dsimp only
  split
  · rw [State.lamp_raise, State.lamp_updLamp_self]
  · rw [State.lamp_updLamp_self]

theorem State.besideLamp_fadeDone : (s.fadeDone k).besideLamp k = s.besideLamp k := by
  rw [State.fadeDone_eq]
  dsimp only
  split
  · rw [State.besideLamp_raise, State.besideLamp_updLamp]
  · rw [State.besideLamp_updLamp]

variable {s k}

theorem State.advOut_none (h : (s.lamp k).fade = none) (dt : Nat) : s.advOut k dt = s := by
  rw [State.advOut, h]

theorem State.advOut_ends {f : Fade} (h : (s.lamp k).fade = some f) {dt : Nat} (past : f.tot ≤ f.el + dt) :
    s.advOut k dt = s.fadeDone k := by
  rw [State.advOut, h]
  exact if_pos past

theorem State.advOut_goes {f : Fade} (h : (s.lamp k).fade = some f) {dt : Nat} (left : f.el + dt < f.tot) :
    s.advOut k dt = (s.updLamp k fun l => { l with
      out := min 4095 ((f.later dt).value s.cieLat), fade := some (f.later dt) }).drawn := by
  rw [State.advOut, h]
  exact if_neg (Nat.not_le.mpr left)

theorem State.advPf_none (h : (s.lamp k).pfFade = none) (dt : Nat) : s.advPf k dt = s := by
  rw [State.advPf, h]

theorem State.advPf_ends {f : Fade} (h : (s.lamp k).pfFade = some f) {dt : Nat} (past : f.tot ≤ f.el + dt) :
    s.advPf k dt = s.updLamp k fun l => { l with pf := f.b, pfFade := none } := by
  rw [State.advPf, h]
  exact if_pos past

theorem State.advPf_goes {f : Fade} (h : (s.lamp k).pfFade = some f) {dt : Nat} (left : f.el + dt < f.tot) :
    s.advPf k dt = (s.updLamp k fun l => { l with
      pf := (f.later dt).value s.cieLat, pfFade := some (f.later dt) }).drawn := by
  rw [State.advPf, h]
  exact if_neg (Nat.not_le.mpr left)

/-- A linear fade stands at its level in proportion. -/
theorem Fade.value_linear {f : Fade} (left : f.el < f.tot) (linear : f.cie = false) (lat : Int) :
    f.value lat = ((f.a : Int) + ((f.b : Int) - f.a) * (f.el / 1000 : Nat) / (f.tot / 1000 : Nat)).toNat := by
  rw [Fade.value, if_neg (Nat.not_le.mpr left), linear]
  rfl

/-- What time does to OUT: nothing without a fade, TARGET at its end, a level before it. -/
theorem State.advOut_effect (s : State) (k dt : Nat) : ∃ out fade,
    (s.advOut k dt).lamp k = { s.lamp k with out := out, fade := fade } ∧
      (s.advOut k dt).besideLamp k = s.besideLamp k ∧
      ((s.lamp k).fade = none → fade = none ∧ out = (s.lamp k).out) ∧
      ∀ f, (s.lamp k).fade = some f →
        (f.tot ≤ f.el + dt → fade = none ∧ out = (s.lamp k).target) ∧
        (f.el + dt < f.tot → fade = some { f with el := f.el + dt } ∧
          (f.cie = false → out = min 4095
            ((f.a : Int) + ((f.b : Int) - f.a) * ((f.el + dt) / 1000 : Nat) / (f.tot / 1000 : Nat)).toNat)) := by
  rcases h : (s.lamp k).fade with _ | f
  · rw [State.advOut_none h]
    exact ⟨(s.lamp k).out, (s.lamp k).fade, rfl, rfl, fun _ => ⟨h, rfl⟩, fun f other => absurd other (by simp)⟩
  · rcases Nat.lt_or_ge (f.el + dt) f.tot with left | past
    · rw [State.advOut_goes h left, State.lamp_drawn]
      refine ⟨_, _, s.lamp_updLamp_self k _, (State.besideLamp_drawn _ k).trans (s.besideLamp_updLamp k _),
        fun none => by simp at none, fun g same => ?_⟩
      cases same
      exact ⟨fun past => absurd past (by omega), fun _ => ⟨rfl, fun linear =>
        congrArg (min 4095) (Fade.value_linear (f := f.later dt) left linear _)⟩⟩
    · rw [State.advOut_ends h past]
      refine ⟨_, _, s.lamp_fadeDone k, s.besideLamp_fadeDone k, fun none => by simp at none, fun g same => ?_⟩
      cases same
      exact ⟨fun _ => ⟨rfl, rfl⟩, fun left => absurd left (by omega)⟩

/-- What time does to PF. -/
theorem State.advPf_effect (s : State) (k dt : Nat) : ∃ pf fade,
    (s.advPf k dt).lamp k = { s.lamp k with pf := pf, pfFade := fade } ∧
      (s.advPf k dt).besideLamp k = s.besideLamp k ∧
      ((s.lamp k).pfFade = none → fade = none ∧ pf = (s.lamp k).pf) ∧
      ∀ f, (s.lamp k).pfFade = some f →
        (f.tot ≤ f.el + dt → fade = none ∧ pf = f.b) ∧
        (f.el + dt < f.tot → fade = some { f with el := f.el + dt }) := by
  rcases h : (s.lamp k).pfFade with _ | f
  · rw [State.advPf_none h]
    exact ⟨(s.lamp k).pf, (s.lamp k).pfFade, rfl, rfl, fun _ => ⟨h, rfl⟩, fun f other => absurd other (by simp)⟩
  · rcases Nat.lt_or_ge (f.el + dt) f.tot with left | past
    · rw [State.advPf_goes h left, State.lamp_drawn]
      refine ⟨_, _, s.lamp_updLamp_self k _, (State.besideLamp_drawn _ k).trans (s.besideLamp_updLamp k _),
        fun none => by simp at none, fun g same => ?_⟩
      cases same
      exact ⟨fun past => absurd past (by omega), fun _ => rfl⟩
    · rw [State.advPf_ends h past]
      refine ⟨_, _, s.lamp_updLamp_self k _, s.besideLamp_updLamp k _, fun none => by simp at none, fun g same => ?_⟩
      cases same
      exact ⟨fun _ => ⟨rfl, rfl⟩, fun left => absurd left (by omega)⟩

end

/-! ## The switching period (R319 to R322, R335) -/

/-- Of a channel what its fades and its dimming period are about. -/
def Lamp.fades (l : Lamp) : Nat × Nat × Nat × Option Fade × Nat × Option Fade :=
  (l.perDone, l.target, l.out, l.fade, l.pf, l.pfFade)

section
variable (s : State) (k : Nat)

theorem State.lamp_lampFault (bit : BitVec 5) (pins : BitVec 3) : (s.lampFault k bit pins).lamp k =
    { (s.lamp k).rest with
      fault := (s.lamp k).fault ||| bit, pins := (s.lamp k).pins ||| pins, owed := 0, skip := false, test := false } := by
  unfold State.lampFault
  dsimp only
  rw [State.lamp_raise, State.lamp_updLamp_self]

theorem State.besideLamp_lampFault (bit : BitVec 5) (pins : BitVec 3) :
    (s.lampFault k bit pins).besideLamp k = s.besideLamp k := by
  unfold State.lampFault
  dsimp only
  rw [State.besideLamp_raise, State.besideLamp_updLamp]

theorem State.fades_lampFault (bit : BitVec 5) (pins : BitVec 3) :
    ((s.lampFault k bit pins).lamp k).fades = (s.lamp k).fades := by
  rw [State.lamp_lampFault]
  rfl

theorem Lamp.fades_pulse (l : Lamp) (mx : Nat) : (l.pulse mx).fades = l.fades := by
  unfold Lamp.pulse
  dsimp only
  split
  · rfl
  · split <;> rfl

theorem Lamp.fades_regulate (l : Lamp) (kp ki mx iCode : Nat) : (l.regulate kp ki mx iCode).fades = l.fades := rfl

theorem State.fades_lampSwitch (iCode : Nat) (oc : Bool) (vstr ledk : Nat) :
    (s.lampSwitch k iCode oc vstr ledk).fades = (s.lamp k).fades := by
  have kept := ((s.lamp k).pulse (s.lampMax k)).fades_regulate (s.fld (lampReg k 8) 0 8) (s.fld (lampReg k 8) 8 8)
    (s.lampMax k) iCode
  rw [← (s.lamp k).fades_pulse (s.lampMax k), ← kept]
  unfold State.lampSwitch
  dsimp only
  generalize ((s.lamp k).pulse (s.lampMax k)).regulate _ _ _ _ = r
  rfl

/-- The loop after a period, and the faults: the pulse's with the sample taken in. -/
theorem State.loop_lampSwitch (iCode : Nat) (oc : Bool) (vstr ledk : Nat) :
    let n := s.lampSwitch k iCode oc vstr ledk
    let r := ((s.lamp k).pulse (s.lampMax k)).regulate (s.fld (lampReg k 8) 0 8) (s.fld (lampReg k 8) 8 8)
      (s.lampMax k) iCode
    n.ePrev = r.ePrev ∧ n.duty = r.duty ∧ n.fault = r.fault ∧ n.pins = r.pins ∧ n.owed = r.owed ∧ n.skip = r.skip := by
  unfold State.lampSwitch
  dsimp only
  generalize ((s.lamp k).pulse (s.lampMax k)).regulate _ _ _ _ = r
  exact ⟨rfl, rfl, rfl, rfl, rfl, rfl⟩

/-- Without an over-current the pulse is not cut. -/
theorem State.tOn_lampSwitch (iCode vstr ledk : Nat) :
    (s.lampSwitch k iCode false vstr ledk).tOn = ((s.lamp k).pulse (s.lampMax k)).tOn := by
  unfold State.lampSwitch
  dsimp only
  exact if_neg Bool.false_ne_true

/-- A sample changes the duty word and the last error alone. -/
theorem Lamp.kept_regulate (l : Lamp) (kp ki mx iCode : Nat) :
    let r := l.regulate kp ki mx iCode
    r.fault = l.fault ∧ r.pins = l.pins ∧ r.owed = l.owed ∧ r.skip = l.skip := ⟨rfl, rfl, rfl, rfl⟩

/-- What a channel does in a period, before time passes for its fades. -/
def State.drive (iCode : Nat) (oc : Bool) (pinBad : BitVec 2) (vstr ledk : Nat) : State :=
  if s.lampLive k then s.lampPeriod k iCode oc pinBad vstr ledk else s.updLamp k Lamp.rest

theorem State.switchPeriod_on (on : s.up 9 = true) (iCode : Nat) (oc : Bool) (pinBad : BitVec 2) (vstr ledk : Nat) :
    s.switchPeriod k iCode oc pinBad vstr ledk =
      (((s.drive k iCode oc pinBad vstr ledk).updLamp k fun l => { l with perDone := l.perDone + 1 }).advOut k
        (s.lampP k)).advPf k (s.lampP k) := if_neg (by simp [on])

/-- A period changes no other channel, and neither fades nor the dimming period of its own. -/
theorem State.drive_fades (iCode : Nat) (oc : Bool) (pinBad : BitVec 2) (vstr ledk : Nat) :
    ((s.drive k iCode oc pinBad vstr ledk).lamp k).fades = (s.lamp k).fades ∧
      (s.drive k iCode oc pinBad vstr ledk).besideLamp k = s.besideLamp k := by
  unfold State.drive
  split
  · unfold State.lampPeriod
    extract_lets l l1 l2 s1 s2
    have switched : l1.fades = l.fades := by
      dsimp only [l1]
      split
      · exact s.fades_lampSwitch k iCode oc vstr ledk
      · rfl
    have first : (s1.lamp k).fades = l.fades := (congrArg Lamp.fades (State.lamp_updLamp_self _ k _)).trans switched
    have beside : s1.besideLamp k = s.besideLamp k := by
      rw [State.besideLamp_updLamp]
      split <;> rfl
    have second : (s2.lamp k).fades = l.fades ∧ s2.besideLamp k = s.besideLamp k := by
      dsimp only [s2]
      split
      · rw [State.fades_lampFault, State.besideLamp_lampFault]
        exact ⟨first, beside⟩
      · exact ⟨first, beside⟩
    split
    · rw [State.fades_lampFault, State.besideLamp_lampFault]
      exact second
    · exact second
  · refine ⟨?_, s.besideLamp_updLamp k _⟩
    rw [State.lamp_updLamp_self]
    rfl

variable {s k}

theorem State.drive_dead (dead : s.lampLive k = false) (iCode : Nat) (oc : Bool) (pinBad : BitVec 2) (vstr ledk : Nat) :
    s.drive k iCode oc pinBad vstr ledk = s.updLamp k Lamp.rest := if_neg (by simp [dead])

/-- The channel after its pulse and sample, or without one outside the on-window. -/
def State.lampSampled (s : State) (k iCode : Nat) (oc : Bool) (vstr ledk : Nat) : Lamp :=
  if (s.lamp k).onNow then s.lampSwitch k iCode oc vstr ledk else { s.lamp k with tOn := 0, ocCnt := 0 }

/-- A live period without a bad pad: 16 over-currents in a row are its only fault. -/
theorem State.drive_live (live : s.lampLive k = true) (iCode : Nat) (oc : Bool) (vstr ledk : Nat) :
    s.drive k iCode oc 0 vstr ledk =
      (let l := s.lampSampled k iCode oc vstr ledk
       let r := (if oc then s.drawn else s).updLamp k fun _ => { l with pinCnt := 0 }
       if 16 ≤ l.ocCnt then r.lampFault k 8 0 else r) := by
  refine (if_pos live).trans ?_
  have sampled : (if (s.lamp k).onNow then s.lampSwitch k iCode oc vstr ledk
    else { s.lamp k with tOn := 0, ocCnt := 0 }) = s.lampSampled k iCode oc vstr ledk := rfl
  rw [State.lampPeriod, sampled]
  generalize s.lampSampled k iCode oc vstr ledk = l
  exact if_neg (Nat.not_succ_le_zero 1)

theorem State.lampSampled_outside (dark : (s.lamp k).onNow = false) (iCode : Nat) (oc : Bool) (vstr ledk : Nat) :
    s.lampSampled k iCode oc vstr ledk = { s.lamp k with tOn := 0, ocCnt := 0 } := if_neg (by simp [dark])

theorem State.lampSampled_inside (lit : (s.lamp k).onNow = true) (iCode : Nat) (oc : Bool) (vstr ledk : Nat) :
    s.lampSampled k iCode oc vstr ledk = s.lampSwitch k iCode oc vstr ledk := if_pos lit

/-- Outside the on-window. -/
theorem State.drive_outside (live : s.lampLive k = true) (dark : (s.lamp k).onNow = false) (iCode : Nat) (oc : Bool)
    (vstr ledk : Nat) : s.drive k iCode oc 0 vstr ledk =
      (if oc then s.drawn else s).updLamp k fun _ => { s.lamp k with tOn := 0, ocCnt := 0, pinCnt := 0 } := by
  rw [State.drive_live live, State.lampSampled_outside dark]
  exact if_neg (Nat.not_succ_le_zero 15)

theorem State.ocCnt_lampSwitch (iCode vstr ledk : Nat) : (s.lampSwitch k iCode false vstr ledk).ocCnt = 0 := rfl

theorem State.ocCnt_lampSwitch_oc (pulse : 0 < ((s.lamp k).pulse (s.lampMax k)).tOn) (iCode vstr ledk : Nat) :
    (s.lampSwitch k iCode true vstr ledk).ocCnt = (s.lamp k).ocCnt + 1 := if_pos ⟨rfl, pulse⟩

/-- In the on-window without an over-current. -/
theorem State.drive_inside (live : s.lampLive k = true) (lit : (s.lamp k).onNow = true) (iCode vstr ledk : Nat) :
    s.drive k iCode false 0 vstr ledk =
      s.updLamp k fun _ => { s.lampSwitch k iCode false vstr ledk with pinCnt := 0 } := by
  have none := s.ocCnt_lampSwitch (k := k) iCode vstr ledk
  rw [State.drive_live live, State.lampSampled_inside lit]
  generalize s.lampSwitch k iCode false vstr ledk = l at none
  exact if_neg (by rw [none]; exact Nat.not_succ_le_zero 15)

/-- The sixteenth over-current in a row stops the channel. -/
theorem State.drive_oc (live : s.lampLive k = true) (lit : (s.lamp k).onNow = true)
    (pulse : 0 < ((s.lamp k).pulse (s.lampMax k)).tOn) (fifteen : (s.lamp k).ocCnt = 15) (iCode vstr ledk : Nat) :
    s.drive k iCode true 0 vstr ledk =
      (s.drawn.updLamp k fun _ => { s.lampSwitch k iCode true vstr ledk with pinCnt := 0 }).lampFault k 8 0 := by
  have count := State.ocCnt_lampSwitch_oc pulse iCode vstr ledk
  rw [State.drive_live live, State.lampSampled_inside lit]
  generalize s.lampSwitch k iCode true vstr ledk = l at count
  exact if_pos (by rw [count, fifteen])

end

/-! ### The pulse and the loop -/

section
variable {l : Lamp} {mx : Nat}

theorem Lamp.pulse_long (h : 60 ≤ min mx (l.duty / 16)) :
    l.pulse mx = { l with tOn := min mx (l.duty / 16), owed := 0, skip := false } := if_pos h

theorem Lamp.pulse_owed (h : min mx (l.duty / 16) < 60) (due : 60 ≤ l.owed + min mx (l.duty / 16)) :
    l.pulse mx = { l with tOn := 60, owed := l.owed + min mx (l.duty / 16) - 60, skip := true } :=
  (if_neg (Nat.not_le.mpr h)).trans (if_pos due)

theorem Lamp.pulse_skipped (h : min mx (l.duty / 16) < 60) (short : l.owed + min mx (l.duty / 16) < 60) :
    l.pulse mx = { l with tOn := 0, owed := l.owed + min mx (l.duty / 16), skip := true } :=
  (if_neg (Nat.not_le.mpr h)).trans (if_neg (Nat.not_le.mpr short))

/-- A pulse leaves the loop as it was. -/
theorem Lamp.pulse_loop (l : Lamp) (mx : Nat) :
    (l.pulse mx).duty = l.duty ∧ (l.pulse mx).ePrev = l.ePrev ∧ (l.pulse mx).ieff = l.ieff ∧
      (l.pulse mx).fault = l.fault := by
  unfold Lamp.pulse
  dsimp only
  split
  · exact ⟨rfl, rfl, rfl, rfl⟩
  · split <;> exact ⟨rfl, rfl, rfl, rfl⟩

theorem Lamp.iTarget_eq (l : Lamp) : (l.iTarget : Int) = max 41 (l.ieff : Int) := by
  unfold Lamp.iTarget
  split <;> omega

theorem clampInt_eq {lo hi : Int} (h : lo ≤ hi) (v : Int) : clampInt lo hi v = min (max v lo) hi := by
  unfold clampInt
  split
  · omega
  · split <;> omega

/-- The loop after a sample (R320). -/
theorem Lamp.regulate_loop (l : Lamp) (kp ki mx iCode : Nat) :
    let e : Int := (max 41 l.ieff : Int) - iCode
    let g : Int := ((kp : Int) * (e - l.ePrev) + (ki : Int) * e) / 64
    (l.regulate kp ki mx iCode).ePrev = e ∧
      ((l.regulate kp ki mx iCode).duty : Int) = min (max ((l.duty : Int) + g) 0) (16 * (mx : Int)) := by
  intro e g
  have target : (l.iTarget : Int) - iCode = e := by rw [Lamp.iTarget_eq]
  have held : (0 : Int) ≤ (16 * mx : Nat) := Int.natCast_nonneg _
  have duty : (l.regulate kp ki mx iCode).duty =
      (clampInt 0 (16 * mx : Nat) ((l.duty : Int) + (kp * (e - l.ePrev) + ki * e) / 64)).toNat := by
    rw [Lamp.regulate, target]
  refine ⟨target, ?_⟩
  rw [duty, clampInt_eq held, Int.toNat_of_nonneg (by omega), Nat.cast_mul]
  rfl

end

/-! ### The period whole -/

section
variable {s : State} {k : Nat}

/-- A channel that does not drive its outputs keeps its loop. -/
theorem State.drive_silent {pb : BitVec 2} (h : s.lampLive k = false ∨ (s.lamp k).onNow = false ∧ pb = 0) (i : Nat)
    (oc : Bool) (v d : Nat) :
    let m := (s.drive k i oc pb v d).lamp k
    m.tOn = 0 ∧ m.ocCnt = 0 ∧ m.pinCnt = 0 ∧ m.duty = (s.lamp k).duty ∧ m.ePrev = (s.lamp k).ePrev ∧
      m.fault = (s.lamp k).fault := by
  rcases live : s.lampLive k with _ | _
  · rw [State.drive_dead live, State.lamp_updLamp_self]
    exact ⟨rfl, rfl, rfl, rfl, rfl, rfl⟩
  · obtain ⟨dark, rfl⟩ := h.resolve_left (by simp [live])
    rw [State.drive_outside live dark, State.lamp_updLamp_self]
    exact ⟨rfl, rfl, rfl, rfl, rfl, rfl⟩

/-- A channel in its on-window: the pulse, the loop, and no fault. -/
theorem State.drive_lit (live : s.lampLive k = true) (lit : (s.lamp k).onNow = true) {pb : BitVec 2}
    (pads : pb = 0) {oc : Bool} (calm : oc = false) (i v d : Nat) :
    let l := s.lamp k
    let want := min (s.lampMax k) (l.duty / 16)
    let m := (s.drive k i oc pb v d).lamp k
    (60 ≤ want → m.tOn = want ∧ m.owed = 0 ∧ m.skip = false) ∧
      (want < 60 → m.skip = true ∧ (60 ≤ l.owed + want → m.tOn = 60 ∧ m.owed = l.owed + want - 60) ∧
        (l.owed + want < 60 → m.tOn = 0 ∧ m.owed = l.owed + want)) ∧
      (let e : Int := (max 41 l.ieff : Int) - i
       let g : Int := ((s.fld (lampReg k 8) 0 8 : Int) * (e - l.ePrev) + (s.fld (lampReg k 8) 8 8 : Int) * e) / 64
       m.ePrev = e ∧ (m.duty : Int) = min (max ((l.duty : Int) + g) 0) (16 * (s.lampMax k : Int))) ∧
      m.fault = l.fault := by
  subst pads calm
  intro l want m
  obtain ⟨duty, ePrev, ieff, fault⟩ := l.pulse_loop (s.lampMax k)
  have loop := (l.pulse (s.lampMax k)).regulate_loop (s.fld (lampReg k 8) 0 8) (s.fld (lampReg k 8) 8 8)
    (s.lampMax k) i
  rw [duty, ePrev, ieff] at loop
  obtain ⟨faultR, -, owedR, skipR⟩ := (l.pulse (s.lampMax k)).kept_regulate (s.fld (lampReg k 8) 0 8)
    (s.fld (lampReg k 8) 8 8) (s.lampMax k) i
  obtain ⟨ePrevS, dutyS, faultS, -, owedS, skipS⟩ := s.loop_lampSwitch k i false v d
  have tOnS := s.tOn_lampSwitch k i v d
  rw [← ePrevS, ← dutyS] at loop
  have after : m = { s.lampSwitch k i false v d with pinCnt := 0 } := by
    rw [← s.lamp_updLamp_self k fun _ => { s.lampSwitch k i false v d with pinCnt := 0 }, ← State.drive_inside live lit]
  generalize s.lampSwitch k i false v d = n at *
  rw [after]
  rw [tOnS, owedS.trans owedR, skipS.trans skipR]
  refine ⟨fun long => ?_, fun small => ⟨?_, fun due => ?_, fun short => ?_⟩, loop, faultS.trans (faultR.trans fault)⟩
  · rw [Lamp.pulse_long long]
    exact ⟨rfl, rfl, rfl⟩
  · rcases Nat.lt_or_ge (l.owed + want) 60 with short | due
    · rw [Lamp.pulse_skipped small short]
    · rw [Lamp.pulse_owed small due]
  · rw [Lamp.pulse_owed small due]
    exact ⟨rfl, rfl⟩
  · rw [Lamp.pulse_skipped small short]
    exact ⟨rfl, rfl⟩

/-- The sixteenth over-current in a row sets OC alone. -/
theorem State.drive_sixteenth (live : s.lampLive k = true) (lit : (s.lamp k).onNow = true)
    {pb : BitVec 2} (pads : pb = 0) {oc : Bool} (cut : oc = true)
    (long : 60 ≤ min (s.lampMax k) ((s.lamp k).duty / 16)) (fifteen : (s.lamp k).ocCnt = 15) (i v d : Nat) :
    let m := (s.drive k i oc pb v d).lamp k
    m.fault = (s.lamp k).fault ||| 8#5 ∧ m.tOn = 0 ∧ m.pins = (s.lamp k).pins := by
  subst pads cut
  have pulse : 0 < ((s.lamp k).pulse (s.lampMax k)).tOn := by
    rw [Lamp.pulse_long long]
    exact Nat.lt_of_lt_of_le (Nat.zero_lt_succ _) long
  have kept : (s.lampSwitch k i true v d).fault = (s.lamp k).fault ∧
      (s.lampSwitch k i true v d).pins = (s.lamp k).pins := by
    obtain ⟨-, -, -, fault⟩ := (s.lamp k).pulse_loop (s.lampMax k)
    have pins : ((s.lamp k).pulse (s.lampMax k)).pins = (s.lamp k).pins := by rw [Lamp.pulse_long long]
    obtain ⟨faultR, pinsR, -⟩ := ((s.lamp k).pulse (s.lampMax k)).kept_regulate (s.fld (lampReg k 8) 0 8)
      (s.fld (lampReg k 8) 8 8) (s.lampMax k) i
    obtain ⟨-, -, faultS, pinsS, -⟩ := s.loop_lampSwitch k i true v d
    exact ⟨faultS.trans (faultR.trans fault), pinsS.trans (pinsR.trans pins)⟩
  obtain ⟨fault, pins⟩ := kept
  rw [State.drive_oc live lit pulse fifteen, State.lamp_lampFault, State.lamp_updLamp_self]
  generalize s.lampSwitch k i true v d = l at fault pins
  refine ⟨congrArg (· ||| 8#5) fault, rfl, ?_⟩
  rw [← pins]
  exact BitVec.or_zero

/-- Without an over-current and a bad pad only the channel changes. -/
theorem State.drive_only {oc : Bool} {pb : BitVec 2} (h : s.lampLive k = false ∨ oc = false ∧ pb = 0) (i v d : Nat) :
    ∃ f, s.drive k i oc pb v d = s.updLamp k f := by
  rcases live : s.lampLive k with _ | _
  · exact ⟨_, State.drive_dead live _ _ _ _ _⟩
  · obtain ⟨rfl, rfl⟩ := h.resolve_left (by simp [live])
    rcases lit : (s.lamp k).onNow with _ | _
    · exact ⟨_, State.drive_outside live lit _ _ _ _⟩
    · exact ⟨_, State.drive_inside live lit _ _ _⟩

/-- The end of a period: the dimming period counts it, and the fades go on. -/
def State.elapse (s : State) (k dt : Nat) : State :=
  ((s.updLamp k fun l => { l with perDone := l.perDone + 1 }).advOut k dt).advPf k dt

/-- Without fades only the dimming period goes on. -/
theorem State.elapse_steady (out : (s.lamp k).fade = none) (pf : (s.lamp k).pfFade = none) (dt : Nat) :
    s.elapse k dt = s.updLamp k fun l => { l with perDone := l.perDone + 1 } := by
  rw [State.elapse, State.advOut_none, State.advPf_none]
  · rw [State.lamp_updLamp_self]
    exact pf
  · rw [State.lamp_updLamp_self]
    exact out

theorem State.elapse_effect (s : State) (k dt : Nat) : ∃ out fade pf pfFade,
    (s.elapse k dt).lamp k = { s.lamp k with
      perDone := (s.lamp k).perDone + 1, out := out, fade := fade, pf := pf, pfFade := pfFade } ∧
      (s.elapse k dt).besideLamp k = s.besideLamp k ∧
      ((s.lamp k).fade = none → fade = none ∧ out = (s.lamp k).out) ∧
      ((s.lamp k).pfFade = none → pfFade = none ∧ pf = (s.lamp k).pf) ∧
      (∀ f, (s.lamp k).fade = some f →
        (f.tot ≤ f.el + dt → fade = none ∧ out = (s.lamp k).target) ∧
        (f.el + dt < f.tot → fade = some { f with el := f.el + dt } ∧
          (f.cie = false → out = min 4095
            ((f.a : Int) + ((f.b : Int) - f.a) * ((f.el + dt) / 1000 : Nat) / (f.tot / 1000 : Nat)).toNat))) ∧
      ∀ f, (s.lamp k).pfFade = some f →
        (f.tot ≤ f.el + dt → pfFade = none ∧ pf = f.b) ∧
        (f.el + dt < f.tot → pfFade = some { f with el := f.el + dt }) := by
  have counted := s.lamp_updLamp_self k fun l => { l with perDone := l.perDone + 1 }
  have beside := s.besideLamp_updLamp k fun l => { l with perDone := l.perDone + 1 }
  unfold State.elapse
  generalize s.updLamp k _ = u at counted beside
  obtain ⟨out, fade, lampO, besideO, noneO, someO⟩ := u.advOut_effect k dt
  obtain ⟨pf, pfFade, lampP, besideP, noneP, someP⟩ := (u.advOut k dt).advPf_effect k dt
  rw [counted] at lampO noneO someO
  rw [lampO] at lampP noneP someP
  exact ⟨out, fade, pf, pfFade, lampP, besideP.trans (besideO.trans beside), noneO, noneP, someO, someP⟩

end

/-! ## Writes of a channel's registers (R326, R337) -/

theorem lampReg_place (k : Fin 16) {o : Nat} (h : o < 0x100) (word : o % 4 = 0) : cfgBlock (lampReg k.val o) = 8 ∧
    cfgOff (lampReg k.val o) = k.val * 0x100 + o ∧ lampReg k.val o / 4 * 4 = lampReg k.val o := by
  unfold cfgBlock cfgOff lampReg
  omega

/-- A self-test of the channel alone holds its registers. -/
theorem State.cfgHeld_lamp (s : State) (k : Fin 16) {o : Nat} (h : o < 0x100) (word : o % 4 = 0) :
    s.cfgHeld (lampReg k.val o) = (s.testUnit 6 == some k.val) := by
  obtain ⟨block, off, -⟩ := lampReg_place k h word
  have lamp : k.val * 0x100 + o < 0x1000 := by omega
  have unit : (k.val * 0x100 + o) / 0x100 = k.val := by omega
  simp only [State.cfgHeld, block, off, lamp, decide_true, Bool.true_and, unit]

theorem State.cfgPut_lamp (s : State) (k : Fin 16) {o : Nat} (h : o < 0x100) (word : o % 4 = 0) (v : Word)
    (be : BitVec 4) : s.cfgPut none (lampReg k.val o) v be = s.putLamp k.val o v be := by
  obtain ⟨block, off, -⟩ := lampReg_place k h word
  have lamp : k.val * 0x100 + o < 0x1000 := by omega
  have unit : (k.val * 0x100 + o) / 0x100 = k.val := by omega
  have reg : (k.val * 0x100 + o) % 0x100 = o := by omega
  simp only [State.cfgPut, block, off, if_pos lamp, unit, reg]

section
variable {s : State} {k : Fin 16} {o : Nat} (h : o < 0x100) (word : o % 4 = 0)
  (reach : s.cfgReach (s.owner 1 k.val) (lampReg k.val o) true = true)
include h word reach

theorem State.cfgRow_lamp (free : s.testUnit 6 ≠ some k.val) {v : Word} {be : BitVec 4} {n : State}
    (put : s.putLamp k.val o v be = (n, 0)) : s.cfgRow (s.owner 1 k.val) (lampReg k.val o) v be = n := by
  obtain ⟨-, -, place⟩ := lampReg_place k h word
  refine State.cfgRow_of ?_ ?_ ?_
  · rwa [place]
  · rw [place, s.cfgHeld_lamp k h word]
    exact beq_eq_false_iff_ne.mpr free
  · rw [place, s.cfgPut_lamp k h word, put]

theorem State.cfgRow_lamp_held (held : s.testUnit 6 = some k.val) {v : Word} {be : BitVec 4} :
    s.cfgRow (s.owner 1 k.val) (lampReg k.val o) v be =
      s.holdRow (.regWrite (s.owner 1 k.val) (lampReg k.val o) v be) := by
  obtain ⟨-, -, place⟩ := lampReg_place k h word
  rw [State.cfgRow_held (by rwa [place]) (by rw [place, s.cfgHeld_lamp k h word, held]; exact beq_self_eq_true _), place]

end

section
variable {s : State} {k : Nat}

theorem State.setTarget_same (free : s.follows k = none) {t : Nat} (h : t = (s.lamp k).target) :
    s.setTarget k t = s.updLamp k fun l => { l with own := t } := by
  have follows : (s.updLamp k fun l => { l with own := t }).follows k = none := free
  rw [State.setTarget, State.retarget, follows]
  dsimp only
  rw [State.fadeTo, State.lamp_updLamp_self]
  exact if_pos h

/-- Another level starts a fade from the present OUT, or moves it at once. -/
theorem State.setTarget_other (free : s.follows k = none) {t : Nat} (h : t ≠ (s.lamp k).target) :
    s.setTarget k t = (let ms := s.fadeMs k (s.lamp k).out t
      let r := s.updLamp k fun l => { l with
        own := t, target := t, fade := some ⟨l.out, t, 0, ms * 1000000, s.rbit (lampReg k 0) 6⟩ }
      if ms = 0 then r.fadeDone k else r) := by
  have follows : (s.updLamp k fun l => { l with own := t }).follows k = none := free
  rw [State.setTarget, State.retarget, follows]
  dsimp only
  rw [State.fadeTo, State.lamp_updLamp_self]
  dsimp only
  rw [if_neg h, State.updLamp_updLamp]
  rfl

theorem fields_fault (v : Word) : BitVec.ofNat 5 (v.fld 0 5) = BitVec.ofNat 5 v.toNat ∧
    BitVec.ofNat 3 (v.fld 8 3) = BitVec.ofNat 3 (v.toNat / 256) := by
  simp only [Word.fld, fieldOf, pow_zero, Nat.div_one]
  exact ⟨BitVec.eq_of_toNat_eq (by simp), BitVec.eq_of_toNat_eq (by simp)⟩

/-- The bits of LCn_FAULT that a write clears. -/
def Lamp.cleared (l : Lamp) (v : Word) : Lamp := { l with
  fault := l.fault &&& ~~~BitVec.ofNat 5 v.toNat, pins := l.pins &&& ~~~BitVec.ofNat 3 (v.toNat / 256) }

theorem State.lampClear_eq (v : Word) : s.lampClear k v =
    (let r := s.updLamp k fun l => l.cleared v
     if (s.lamp k).fault ≠ 0 ∧ (s.lamp k).fault &&& ~~~BitVec.ofNat 5 v.toNat = 0 then
      let r2 := (r.lampStart k).updLamp k fun l => { l with pf := 0, pfFade := none }
      if s.shut 3 then r2 else r2.pfTo k 4096
     else r) := by
  obtain ⟨bits, pins⟩ := fields_fault v
  rw [State.lampClear, bits, pins]
  dsimp only
  rw [State.lamp_updLamp_self]
  rfl

/-- A write that leaves a fault, or clears none. -/
theorem State.lampClear_stays {v : Word}
    (h : (s.lamp k).fault = 0 ∨ (s.lamp k).fault &&& ~~~BitVec.ofNat 5 v.toNat ≠ 0) :
    s.lampClear k v = s.updLamp k fun l => l.cleared v := by
  rw [State.lampClear_eq]
  exact if_neg fun both => h.elim both.1 fun left => left both.2

theorem lampFault_put (s : State) (k : Fin 16) (v : Word) :
    s.putLamp k.val 0x34 v 0xF#4 = (s.lampClear k.val v, 0) := by
  have all := woBytes_all v
  rw [State.putLamp, all]

/-- A channel that restarts: d and PF at 0. -/
def Lamp.restart (l : Lamp) : Lamp := { l.rest with duty := 0, ePrev := 0, owed := 0, pf := 0, pfFade := none }

/-- PF from 0 to 4,096. -/
theorem State.pfTo_up (pf : (s.lamp k).pf = 0) (still : (s.lamp k).pfFade = none) : s.pfTo k 4096 =
    s.updLamp k fun l => if s.fld (lampReg k 0x14) 0 16 = 0 then { l with pf := 4096, pfFade := none }
      else { l with pfFade := some ⟨0, 4096, 0, s.fld (lampReg k 0x14) 0 16 * 1000000, s.rbit (lampReg k 0) 6⟩ } := by
  have ms : s.fadeMs k (s.lamp k).pf 4096 = s.fld (lampReg k 0x14) 0 16 := if_pos (by omega)
  rw [State.pfTo, ms]
  refine s.updLamp_congr k ?_
  rw [still, pf]
  simp [Fade.start]

/-- The last FAULT bit goes: the channel restarts, and PF fades up while bank LC is released. -/
theorem State.lampClear_restarts {v : Word} (was : (s.lamp k).fault ≠ 0)
    (last : (s.lamp k).fault &&& ~~~BitVec.ofNat 5 v.toNat = 0) :
    let ms := s.fld (lampReg k 0x14) 0 16
    s.lampClear k v = s.updLamp k fun l => { (l.cleared v).restart with
      pf := if s.shut 3 = false ∧ ms = 0 then 4096 else 0,
      pfFade := if s.shut 3 = false ∧ ms ≠ 0 then
        some ⟨0, 4096, 0, ms * 1000000, s.rbit (lampReg k 0) 6⟩ else none } := by
  intro ms
  have restarted : ((s.updLamp k fun l => l.cleared v).lampStart k).updLamp k (fun l => { l with pf := 0, pfFade := none }) =
      s.updLamp k fun l => (l.cleared v).restart := by
    rw [State.lampStart, State.updLamp_updLamp, State.updLamp_updLamp]
    rfl
  rw [State.lampClear_eq]
  refine (if_pos ⟨was, last⟩).trans ?_
  rw [restarted]
  rcases shut : s.shut 3 with _ | _
  · have pf : ((s.updLamp k fun l => (l.cleared v).restart).lamp k).pf = 0 ∧
        ((s.updLamp k fun l => (l.cleared v).restart).lamp k).pfFade = none := by
      rw [State.lamp_updLamp_self]
      exact ⟨rfl, rfl⟩
    rw [if_neg Bool.false_ne_true, State.pfTo_up pf.1 pf.2, State.updLamp_updLamp]
    have regs : (s.updLamp k fun l => (l.cleared v).restart).fld (lampReg k 0x14) 0 16 = ms := rfl
    rw [regs]
    refine s.updLamp_congr k ?_
    generalize ms = t
    by_cases zero : t = 0
    · simp [zero, Lamp.restart]
    · simp [zero, Lamp.restart]
      rfl
  · rw [if_pos rfl]
    exact s.updLamp_congr k (by simp [Lamp.restart])

end

end Sys2Proof.Machine

section
open Sys2Proof Sys2Proof.Machine

/-- Settles O54: a switching period as its drive and what time does after it; a dimming period; TARGET; the end of a
fade, by which one has less left; LCn_FAULT. -/
theorem lampRows : Obligations.LampRows := by
  unfold Obligations.LampRows
  intro s k
  refine ⟨fun i v d oc pb hi hv hd => ?_, ⟨fun off => congrArg Host.Outcome.next (if_pos off), fun on =>
    ⟨_, congrArg Host.Outcome.next (if_neg (by simp [on])), s.lamp_updLamp_self k.val _,
      fun m => s.lamp_updLamp_other k.val _, rfl⟩⟩, fun reach v => ⟨fun held => ?_, fun free own => ?_⟩,
    fun out pf => ?_, fun f out first => ?_, fun g pf first => ?_, fun reach free v => ⟨fun stays => ?_, fun was last => ?_⟩⟩
  · have legal : exec (.switchingPeriod k i oc pb v d) s = .next (s.switchPeriod k.val i oc pb v d) :=
      onlyIf_legal (by simp [Instr.WellFormed, hi, hv, hd]) _ _
    refine ⟨fun off => legal.trans (congrArg Host.Outcome.next (if_pos off)), fun on => ⟨_,
      legal.trans (congrArg Host.Outcome.next (s.switchPeriod_on k.val on i oc pb v d)), ?_⟩⟩
    obtain ⟨same, beside⟩ := s.drive_fades k.val i oc pb v d
    have silent := fun h => State.drive_silent (s := s) (k := k.val) (pb := pb) h i oc v d
    have lit := fun live here pads calm =>
      State.drive_lit (s := s) (k := k.val) (pb := pb) (oc := oc) live here pads calm i v d
    have sixteenth := fun live here pads cut long fifteen =>
      State.drive_sixteenth (s := s) (k := k.val) (pb := pb) (oc := oc) live here pads cut long fifteen i v d
    have only := fun h => State.drive_only (s := s) (k := k.val) (oc := oc) (pb := pb) h i v d
    have whole : (((s.drive k.val i oc pb v d).updLamp k.val fun l => { l with perDone := l.perDone + 1 }).advOut k.val
        (s.lampP k.val)).advPf k.val (s.lampP k.val) = (s.drive k.val i oc pb v d).elapse k.val (s.lampP k.val) := rfl
    rw [whole]
    clear whole legal
    generalize s.drive k.val i oc pb v d = r at *
    simp only [Lamp.fades, Prod.mk.injEq] at same
    obtain ⟨perDone, target, outR, fadeR, pfR, pfFadeR⟩ := same
    have steady := fun out pf => State.elapse_steady (s := r) (k := k.val) out pf (s.lampP k.val)
    obtain ⟨out, fade, pf, pfFade, lamp, besideR, noFade, noPf, fades, pfFades⟩ := r.elapse_effect k.val (s.lampP k.val)
    obtain ⟨others, regs, engines⟩ := State.besideLamp_eq (besideR.trans beside)
    rw [fadeR] at steady noFade fades
    rw [pfFadeR] at steady noPf pfFades
    rw [outR] at noFade
    rw [pfR] at noPf
    rw [target] at fades
    rw [lamp]
    refine ⟨congrArg (· + 1) perDone, target, others, regs, engines, noFade, noPf, fades, pfFades, silent,
      fun live here pads => ⟨lit live here pads, sixteenth live here pads⟩, fun noneF noneP calm => ?_⟩
    obtain ⟨f, drive⟩ := only calm
    rw [steady noneF noneP, drive]
    rfl
  · exact congrArg Host.Outcome.next (State.cfgRow_lamp_held (by decide) rfl reach held)
  · have level : (mergeBytes (s.getLamp k.val 0x10) v 0xF#4).fld 0 12 = v.toNat % 4096 := by
      simp [mergeBytes_all, Word.fld, fieldOf]
    have put : s.putLamp k.val 0x10 v 0xF#4 = (s.setTarget k.val (v.toNat % 4096), 0) := by
      rw [← level]
      rfl
    have row : exec (.targetWrite k v) s = .next (s.setTarget k.val (v.toNat % 4096)) :=
      congrArg Host.Outcome.next (State.cfgRow_lamp (by decide) rfl reach free put)
    rw [row]
    refine ⟨fun same => congrArg Host.Outcome.next (State.setTarget_same own same), fun other slow =>
      congrArg Host.Outcome.next ?_, fun other atOnce => congrArg Host.Outcome.next ?_⟩
    · exact (State.setTarget_other own other).trans (if_neg slow)
    · refine (State.setTarget_other own other).trans ((if_pos atOnce).trans ?_)
      rw [State.fadeDone_eq, State.lamp_updLamp_self, State.updLamp_updLamp]
      rfl
  · refine congrArg Host.Outcome.next ?_
    rw [State.endFade, out, pf]
  · refine congrArg Host.Outcome.next ?_
    have ends : s.endFade k.val = s.fadeDone k.val := by
      rw [State.endFade, out]
      rcases pf : (s.lamp k.val).pfFade with _ | g
      · rfl
      · exact if_pos (first g pf)
    exact ends.trans (s.fadeDone_eq k.val)
  · refine congrArg Host.Outcome.next ?_
    have ends : s.endFade k.val = s.advPf k.val g.tot := by
      rw [State.endFade, pf]
      rcases out : (s.lamp k.val).fade with _ | f
      · rfl
      · exact if_neg (Nat.not_le.mpr (first f out))
    exact ends.trans (State.advPf_ends pf (Nat.le_add_left _ _))
  · have row := State.cfgRow_lamp (by decide) rfl reach free (lampFault_put s k v)
    exact congrArg Host.Outcome.next (row.trans (State.lampClear_stays stays))
  · have row := State.cfgRow_lamp (by decide) rfl reach free (lampFault_put s k v)
    refine ⟨_, congrArg Host.Outcome.next (row.trans (State.lampClear_restarts was last)), ?_,
      fun m => s.lamp_updLamp_other k.val _, rfl⟩
    rw [State.lamp_updLamp_self, Lamp.restart, Lamp.cleared, last]
    rfl

end
end

section
/-! PROOFS. Keys: column steps, shelf rows, stuck keys, masks; fans: tach edges and silence (O56). -/

namespace Sys2Proof.Machine

/-! ## The raw samples (R341, R342) -/

/-- A block of `w` ones from bit `a` on. -/
theorem testBit_ones (w a i : Nat) : ((2 ^ w - 1) * 2 ^ a).testBit i = decide (a ≤ i ∧ i < a + w) := by
  rw [Nat.testBit_mul_two_pow, Nat.testBit_two_pow_sub_one, Bool.decide_and]
  by_cases h : a ≤ i
  · simp only [h, decide_true, Bool.true_and]
    exact decide_eq_decide.mpr (by omega)
  · simp [h]

/-- The rows of a column replace its samples and no others. -/
theorem getLsbD_rawColumn (raw : BitVec 320) (kp : Bool) (c : Nat) (rows : BitVec 16) {i : Nat} (h : i < 320) :
    (rawColumn raw kp c rows).getLsbD i =
      if keyAt kp c 0 ≤ i ∧ i < keyAt kp c 0 + rowsOf kp then rows.getLsbD (i - keyAt kp c 0) else raw.getLsbD i := by
  have put : (rows.toNat % 2 ^ rowsOf kp * 2 ^ keyAt kp c 0).testBit i =
      (decide (keyAt kp c 0 ≤ i ∧ i < keyAt kp c 0 + rowsOf kp) && rows.getLsbD (i - keyAt kp c 0)) := by
    rw [Nat.testBit_mul_two_pow, Nat.testBit_mod_two_pow, BitVec.testBit_toNat, Bool.decide_and, Bool.and_assoc]
    by_cases low : keyAt kp c 0 ≤ i
    · have within : i - keyAt kp c 0 < rowsOf kp ↔ i < keyAt kp c 0 + rowsOf kp := by omega
      simp only [within]
    · simp [low]
  simp only [rawColumn, BitVec.getLsbD_or, BitVec.getLsbD_and, BitVec.getLsbD_not, BitVec.getLsbD_ofNat, h, decide_true,
    Bool.true_and, testBit_ones, put]
  split
  · next here => simp [here]
  · next other => simp [other]

/-! ## One key (R344) -/

/-- The evaluation of an unambiguous key: what becomes of its debounced state. -/
theorem Key.eval_debounced (q : Key) (k : Nat) (cfg : Word) (raw : Bool) (now : Nat) :
    (raw = q.down → (q.eval k cfg raw false now).1.down = q.down ∧ (q.eval k cfg raw false now).1.count = 0) ∧
      (raw = true → q.down = false → (q.eval k cfg raw false now).1.down = decide (q.count + 1 = cfg.fld 4 4)) ∧
      (raw = false → q.down = true → (q.eval k cfg raw false now).1.down = !decide (q.count + 1 = cfg.fld 8 4)) := by
  have kept (n : Key) : (n.stay k cfg).1.down = n.down ∧ (n.stay k cfg).1.count = n.count := by
    unfold Key.stay
    dsimp only
    split
    · exact ⟨rfl, rfl⟩
    · split
      · split <;> exact ⟨rfl, rfl⟩
      · split <;> exact ⟨rfl, rfl⟩
  have whole (n : Key) : (if n.down then (if q.down then n.stay k cfg else n.press k (cfg.bit 0) now)
      else if q.down then n.release k (cfg.bit 0) else (n, [])).1.down = n.down ∧
      (if n.down then (if q.down then n.stay k cfg else n.press k (cfg.bit 0) now)
      else if q.down then n.release k (cfg.bit 0) else (n, [])).1.count = n.count := by
    split
    · split
      · exact kept n
      · exact ⟨rfl, rfl⟩
    · split <;> exact ⟨rfl, rfl⟩
  obtain ⟨down, count⟩ := whole ({ q with amb := false }.debounce raw (cfg.fld 4 4) (cfg.fld 8 4))
  have downE : (q.eval k cfg raw false now).1.down = _ := down
  have countE : (q.eval k cfg raw false now).1.count = _ := count
  rw [downE, countE]
  clear down count downE countE whole kept
  refine ⟨fun same => ?_, fun pressed up => ?_, fun released low => ?_⟩
  · simp [Key.debounce, same]
  · by_cases due : q.count + 1 = cfg.fld 4 4 <;> simp [Key.debounce, pressed, up, due]
  · by_cases due : q.count + 1 = cfg.fld 8 4 <;> simp [Key.debounce, released, low, due]

/-! ## The keys of a matrix -/

/-- Keys, raw samples, plain registers and the power block. -/
def State.keyView (s : State) : SMap Key × BitVec 320 × SMap Word × Pwr :=
  (s.keys.keys, s.keys.raw, s.regs, s.pwr)

theorem State.keyView_keyRaise (s : State) (e : KeyEv) : (s.keyRaise e).keyView = s.keyView := by
  have counted : (if e.1 = 187 then { s with keys := { s.keys with ghosts := sat16 s.keys.ghosts } } else s).keyView =
      s.keyView := by
    split <;> rfl
  rw [← counted, State.keyRaise]
  simp only [State.keyView, State.raise_keys, State.raise_regs, State.raise_pwr]

theorem State.keyView_keyRaises (s : State) (es : List KeyEv) : (es.foldl State.keyRaise s).keyView = s.keyView := by
  induction es generalizing s with
  | nil => rfl
  | cons e es ih => exact (ih _).trans (s.keyView_keyRaise e)

/-- Keys stored, one after another. -/
def State.putKeys (s : State) (out : List (Nat × Key)) : State := out.foldl (fun s r => s.updKey r.1 fun _ => r.2) s

theorem State.putKeys_shape (s : State) (out : List (Nat × Key)) :
    ∃ keys, s.putKeys out = { s with keys := { s.keys with keys := keys } } := by
  induction out generalizing s with
  | nil => exact ⟨_, rfl⟩
  | cons r out ih =>
    obtain ⟨keys, rest⟩ := ih (s.updKey r.1 fun _ => r.2)
    exact ⟨keys, rest⟩

theorem State.key_putKeys_other {x : Nat} {out : List (Nat × Key)} (h : x ∉ out.map Prod.fst) (s : State) :
    (s.putKeys out).key x = s.key x := by
  induction out generalizing s with
  | nil => rfl
  | cons r out ih =>
    rw [List.map_cons, List.mem_cons, not_or] at h
    exact (ih h.2 _).trans ((s.key_updKey _ _ _).trans (if_neg h.1))

theorem State.key_putKeys_mem {r : Nat × Key} {out : List (Nat × Key)} (once : (out.map Prod.fst).Nodup) (h : r ∈ out)
    (s : State) : (s.putKeys out).key r.1 = r.2 := by
  induction out generalizing s with
  | nil => cases h
  | cons q out ih =>
    rw [List.map_cons, List.nodup_cons] at once
    rcases List.mem_cons.mp h with rfl | tail
    · exact (State.key_putKeys_other once.1 _).trans ((s.key_updKey _ _ _).trans (if_pos rfl))
    · exact ih once.2 tail _

theorem keysOf_nodup (kp : Bool) : (keysOf kp).Nodup := by
  cases kp
  · exact List.nodup_range
  · exact List.nodup_range.map fun a b h => by omega

/-- The keys after an evaluation. -/
def State.evaluated (s : State) (kp : Bool) : List (Nat × Key) := (keysOf kp).map fun k =>
  (k, ((s.key k).eval k (s.reg (keyCfg k)) (s.keys.rawOf k) ((s.keys.ghostsOf kp).contains k) s.keys.cyc).1)

theorem State.evaluated_keys (s : State) (kp : Bool) : (s.evaluated kp).map Prod.fst = keysOf kp := by
  rw [State.evaluated, List.map_map]
  exact List.map_id _

theorem State.keyView_keyEvals (s : State) (kp : Bool) :
    (s.keyEvals kp).keyView = (s.putKeys (s.evaluated kp)).keyView := by
  unfold State.keyEvals
  extract_lets ghosts out s1 evs
  have stored : s1 = s.putKeys (s.evaluated kp) := by
    rw [State.putKeys, State.evaluated, List.foldl_map]
    exact List.foldl_map
  rw [← stored]
  generalize s1 = r
  simp only [List.foldl, State.keyView_keyRaises]

theorem State.keyView_keyMatrix (s : State) (kp : Bool) :
    (s.keyMatrix kp).keyView = (s.putKeys (s.evaluated kp)).keyView := by
  rw [← s.keyView_keyEvals kp]
  unfold State.keyMatrix
  generalize s.keyEvals kp = r
  dsimp only
  split
  · rfl
  · generalize (if (keysOf false).all fun k => !r.keys.rawOf k && !(r.key k).down then r.keys.quiet + 1 else 0) = n
    split <;> rfl

/-! ## A column step (R341) -/

/-- The state with a column's rows in the raw samples. -/
def State.takeColumn (s : State) (kp : Bool) (c : Nat) (rows : BitVec 16) : State :=
  { s with keys := { s.keys with
    raw := rawColumn s.keys.raw kp c (if s.shut 4 then 0 else rows),
    active := s.keys.active || !kp, wakeScan := s.keys.wakeScan && kp } }

section
variable {s : State} {kp : Bool} {c : Nat} {rows : BitVec 16}

theorem State.keyColumn_unscanned (off : s.scanOn kp c = false) : s.keyColumn kp c rows = s := if_pos off

theorem State.keyColumn_middle (on : s.scanOn kp c = true) (more : c + 1 < colsOf kp) :
    s.keyColumn kp c rows = s.takeColumn kp c rows :=
  (if_neg (by simp [on])).trans (if_neg (Nat.ne_of_lt more))

theorem State.keyColumn_last (on : s.scanOn kp c = true) (last : c + 1 = colsOf kp) :
    s.keyColumn kp c rows = (s.takeColumn kp c rows).keyMatrix kp :=
  (if_neg (by simp [on])).trans (if_pos last)

/-- No key that was not held before: nothing wakes. -/
theorem State.keyWake_none {before : List Nat} (h : s.heldIn kp = before) : s.keyWake before kp = s := by
  refine if_neg ?_
  rw [h]
  simp

theorem State.keyWake_awake (awake : s.Awake) (before : List Nat) : s.keyWake before kp = s := by
  unfold State.keyWake
  split
  · exact State.takeWake_awake awake 2
  · rfl

theorem State.getLsbD_takeColumn {i : Nat} (h : i < 320) : (s.takeColumn kp c rows).keys.raw.getLsbD i =
    if keyAt kp c 0 ≤ i ∧ i < keyAt kp c 0 + rowsOf kp then !s.shut 4 && rows.getLsbD (i - keyAt kp c 0)
    else s.keys.raw.getLsbD i := by
  refine (getLsbD_rawColumn _ _ _ _ h).trans ?_
  rcases s.shut 4 with _ | _ <;> simp

/-- After the last column of an unambiguous scan every key of the matrix has been evaluated. -/
theorem State.keyStep_last (on : s.scanOn kp c = true) (last : c + 1 = colsOf kp) (awake : s.Awake)
    (clear : Keys.ghostsOf { s.keys with raw := rawColumn s.keys.raw kp c (if s.shut 4 then 0 else rows) } kp = []) :
    let raw := rawColumn s.keys.raw kp c (if s.shut 4 then 0 else rows)
    let n := s.keyStep kp c rows
    (∀ x, x ∈ keysOf kp → n.key x = ((s.key x).eval x (s.reg (keyCfg x)) (raw.getLsbD x) false s.keys.cyc).1) ∧
      (∀ x, x ∉ keysOf kp → n.key x = s.key x) ∧ n.keys.raw = raw ∧ n.regs = s.regs ∧ n.pwr = s.pwr := by
  intro raw n
  have ghosts : (s.takeColumn kp c rows).keys.ghostsOf kp = [] := clear
  obtain ⟨keys, shape⟩ := (s.takeColumn kp c rows).putKeys_shape ((s.takeColumn kp c rows).evaluated kp)
  have view := (s.takeColumn kp c rows).keyView_keyMatrix kp
  have parts := view
  rw [shape] at parts
  simp only [State.keyView, Prod.mk.injEq] at parts
  obtain ⟨-, samples, regs, pwr⟩ := parts
  have stepped : n = (s.takeColumn kp c rows).keyMatrix kp := by
    refine (congrArg (State.keyWake · (s.heldIn kp) kp) (State.keyColumn_last on last)).trans (State.keyWake_awake ?_ _)
    rwa [State.Awake, pwr]
  have key (x : Nat) : n.key x = ((s.takeColumn kp c rows).putKeys ((s.takeColumn kp c rows).evaluated kp)).key x := by
    rw [stepped]
    exact congrArg (fun v => SMap.get (fun _ => Key.reset) v.1 x) view
  refine ⟨fun x mem => (key x).trans ?_, fun x other => (key x).trans ?_, ?_, ?_, ?_⟩
  · have once := keysOf_nodup kp
    rw [← (s.takeColumn kp c rows).evaluated_keys kp] at once
    refine (State.key_putKeys_mem once (List.mem_map.mpr ⟨x, mem, rfl⟩) _).trans ?_
    rw [ghosts]
    rfl
  · exact State.key_putKeys_other (by rwa [State.evaluated_keys]) _
  · rw [stepped]
    exact samples
  · rw [stepped]
    exact regs
  · rw [stepped]
    exact pwr

end

/-! ## Shelf rows and stuck keys (R342, R352) -/

section
variable {s : State}

theorem State.shelfRow_idle (on : s.up 11 = true) (idle : s.keys.active = false) : s.shelfRow =
    { s with keys := { s.keys with wakeScan := true, quiet := 0, raw :=
      s.keys.raw &&& ~~~(BitVec.ofNat 320 (2 ^ 256 - 1)) } } := if_pos ⟨on, idle⟩

/-- The samples of the shelf matrix gone, those of the keypad kept. -/
theorem getLsbD_keypad (raw : BitVec 320) {i : Nat} (h : i < 320) :
    (raw &&& ~~~(BitVec.ofNat 320 (2 ^ 256 - 1))).getLsbD i = (decide (256 ≤ i) && raw.getLsbD i) := by
  rw [BitVec.getLsbD_and, BitVec.getLsbD_not, BitVec.getLsbD_ofNat, Nat.testBit_two_pow_sub_one, Bool.and_comm]
  have other : (!decide (i < 256)) = decide (256 ≤ i) := by
    rw [← decide_not]
    exact decide_eq_decide.mpr Nat.not_lt
  rw [← other]
  simp [h]

theorem State.keyRaise_ev188 (s : State) (k : Fin 320) (b : Bool) :
    s.keyRaise (ev188 k.val b) = s.raise 188 (.res 3 k.val) (wordOf (k.val + 65536 * bitNat b)) := by
  have key : (wordOf (k.val + 65536 * bitNat b)).fld 0 9 = k.val := by
    simp only [Word.fld, fieldOf, wordOf, BitVec.toNat_ofNat]
    rcases b with _ | _
    · simp only [bitNat, Bool.false_eq_true, if_false]
      omega
    · simp only [bitNat, if_true]
      omega
  unfold State.keyRaise ev188
  dsimp only
  rw [key, if_neg (by decide)]

/-! ## Masks (R346, R352) -/

theorem keyCfg_place (k : Fin 320) : cfgBlock (keyCfg k.val) = 9 ∧ cfgOff (keyCfg k.val) = 0x400 + 4 * k.val ∧
    keyCfg k.val / 4 * 4 = keyCfg k.val := by
  unfold cfgBlock cfgOff keyCfg
  omega

theorem State.cfgPut_key (s : State) (k : Fin 320) (v : Word) (be : BitVec 4) :
    s.cfgPut none (keyCfg k.val) v be = s.keyCfgWrite k.val v be := by
  obtain ⟨block, off, -⟩ := keyCfg_place k
  have key : 0x400 ≤ 0x400 + 4 * k.val ∧ 0x400 + 4 * k.val < 0x900 := by omega
  have number : (0x400 + 4 * k.val - 0x400) / 4 = k.val := by omega
  simp only [State.cfgPut, block, off, if_pos key, number]

theorem State.cfgRow_key {k : Fin 320} (reach : s.cfgReach (s.owner 3 k.val) (keyCfg k.val) true = true)
    (free : s.testing 7 = false) {v : Word} {be : BitVec 4} {n : State}
    (put : s.keyCfgWrite k.val v be = (n, 0)) : s.cfgRow (s.owner 3 k.val) (keyCfg k.val) v be = n := by
  obtain ⟨block, -, word⟩ := keyCfg_place k
  refine State.cfgRow_of ?_ ?_ ?_
  · rwa [word]
  · rw [word]
    simp only [State.cfgHeld, block, free]
  · rw [word, State.cfgPut_key, put]

end

/-! ### Fields written within their ranges (R25) -/

/-- What an unsigned field takes from a word is within its range. -/
def Fld.Fits (f : Fld) (v : Word) : Prop :=
  f.sgn = false ∧ f.mn ≤ (v.fld f.lo f.w : Int) ∧ (v.fld f.lo f.w : Int) ≤ f.mx

theorem Fld.fits_pf (lo w : Nat) (v : Word) : (pf lo w).Fits v := by
  have lt : (v.fld lo w : Int) < 2 ^ w := by exact_mod_cast fld_lt v lo w
  exact ⟨rfl, Int.natCast_nonneg _, Int.le_sub_one_of_lt lt⟩

theorem Fld.fits_uf {lo w mn mx : Nat} {v : Word} (low : mn ≤ v.fld lo w) (high : v.fld lo w ≤ mx) :
    (uf lo w mn mx).Fits v := ⟨rfl, Int.ofNat_le.mpr low, Int.ofNat_le.mpr high⟩

theorem Fld.write_fits {f : Fld} {v : Word} (h : f.Fits v) :
    clampInt f.mn f.mx (f.get v) = f.get v ∧ f.put (f.get v) = v.fld f.lo f.w * 2 ^ f.lo := by
  obtain ⟨unsigned, low, high⟩ := h
  have get : f.get v = (v.fld f.lo f.w : Int) := if_neg (by simp [unsigned])
  have put : twosOf f.w (v.fld f.lo f.w : Int) = v.fld f.lo f.w := by
    have small := Nat.mod_eq_of_lt (fld_lt v f.lo f.w)
    have cast : ((2 : Int) ^ f.w) = ((2 ^ f.w : Nat) : Int) := by push_cast; rfl
    rw [twosOf, cast, ← Int.natCast_mod, small, Int.toNat_natCast]
  rw [get]
  exact ⟨(if_neg (not_lt.mpr low)).trans (if_neg (not_lt.mpr high)), congrArg (· * 2 ^ f.lo) put⟩

/-- Fields that all fit are stored as they are, and nothing is clamped. -/
theorem writeFields_fit {fs : List Fld} {v : Word} (h : ∀ f ∈ fs, f.Fits v) :
    writeFields fs v = ((fs.map fun f => v.fld f.lo f.w * 2 ^ f.lo).sum, 0) := by
  have from_ (r : Nat × Nat) : fs.foldl (fun a f =>
      let i := f.get v
      let c := clampInt f.mn f.mx i
      (a.1 + f.put c, a.2 + if c = i then 0 else 1)) r =
      (r.1 + (fs.map fun f => v.fld f.lo f.w * 2 ^ f.lo).sum, r.2) := by
    induction fs generalizing r with
    | nil => rfl
    | cons f fs ih =>
      obtain ⟨kept, put⟩ := Fld.write_fits (h f List.mem_cons_self)
      rw [List.foldl_cons, ih fun g mem => h g (List.mem_cons_of_mem _ mem)]
      dsimp only
      rw [kept, put, if_pos rfl, List.map_cons, List.sum_cons]
      exact Prod.ext (by dsimp only; omega) rfl
  exact (from_ (0, 0)).trans (Prod.ext (Nat.zero_add _) rfl)

/-! ### KEYk_CFG -/

theorem lowSpec_high {a : Nat} (h : 0x30070000 ≤ a) : lowSpec a = none := by
  unfold lowSpec
  split <;> simp at h ⊢

theorem highSpec_key {a : Nat} (low : 0x30090400 ≤ a) (high : a < 0x30090900) : highSpec a = none := by
  unfold highSpec
  split <;> simp at low high ⊢

theorem regSpec_keyCfg (k : Fin 320) : regSpec (keyCfg k.val) =
    some (0x14640440#32, .fields [pf 0 2, uf 4 4 1 15, uf 8 4 1 15, uf 16 8 1 255, uf 24 8 1 255]) := by
  have page : keyCfg k.val / 0x10000 = 0x3009 := by unfold keyCfg; omega
  have off : 0x400 ≤ keyCfg k.val % 0x10000 ∧ keyCfg k.val % 0x10000 < 0x900 := by unfold keyCfg; omega
  have low : lowSpec (keyCfg k.val) = none := lowSpec_high (by unfold keyCfg; omega)
  have high : highSpec (keyCfg k.val) = none := highSpec_key (by unfold keyCfg; omega) (by unfold keyCfg; omega)
  have row : rowSpec (keyCfg k.val) =
      some (0x14640440#32, .fields [pf 0 2, uf 4 4 1 15, uf 8 4 1 15, uf 16 8 1 255, uf 24 8 1 255]) := by
    rw [rowSpec, page]
    exact if_pos off
  rw [regSpec, low, high, row]
  rfl

section
variable {s : State} {k : Fin 320} {v : Word}

/-- The fields of KEYk_CFG: MASK and REPEAT, and those above them. -/
def keyUpper : List Fld := [uf 4 4 1 15, uf 8 4 1 15, uf 16 8 1 255, uf 24 8 1 255]
def keyFields : List Fld := pf 0 2 :: keyUpper

theorem keyFields_fit (debP : 1 ≤ v.fld 4 4) (debR : 1 ≤ v.fld 8 4) (first : 1 ≤ v.fld 16 8) (next : 1 ≤ v.fld 24 8) :
    ∀ f ∈ keyFields, f.Fits v := by
  intro f mem
  simp only [keyFields, keyUpper, List.mem_cons, List.not_mem_nil, or_false] at mem
  rcases mem with rfl | rfl | rfl | rfl | rfl
  · exact Fld.fits_pf 0 2 v
  · exact Fld.fits_uf debP (Nat.le_of_lt_succ (fld_lt v 4 4))
  · exact Fld.fits_uf debR (Nat.le_of_lt_succ (fld_lt v 8 4))
  · exact Fld.fits_uf first (Nat.le_of_lt_succ (fld_lt v 16 8))
  · exact Fld.fits_uf next (Nat.le_of_lt_succ (fld_lt v 24 8))

/-- The word that the fields make. -/
def keyWord (v : Word) : Word := wordOf (keyFields.map fun f => v.fld f.lo f.w * 2 ^ f.lo).sum

/-- Fields above bit 0 leave it as it is. -/
theorem even_fields {fs : List Fld} (h : ∀ f ∈ fs, f.lo ≠ 0) (v : Word) :
    2 ∣ (fs.map fun f => v.fld f.lo f.w * 2 ^ f.lo).sum := by
  refine List.dvd_sum fun x mem => ?_
  obtain ⟨f, listed, rfl⟩ := List.mem_map.mp mem
  exact Dvd.dvd.mul_left (dvd_pow_self 2 (h f listed)) _

theorem keyWord_mask (v : Word) : (keyWord v).bit 0 = v.getLsbD 0 := by
  have upper : ∀ f ∈ keyUpper, f.lo ≠ 0 := by simp [keyUpper, uf]
  have even := even_fields upper v
  have first : v.fld (pf 0 2).lo (pf 0 2).w * 2 ^ (pf 0 2).lo = v.fld 0 2 := Nat.mul_one _
  have low : v.fld 0 2 % 2 = v.toNat % 2 := by
    simp only [Word.fld, fieldOf]
    omega
  rw [keyWord, keyFields, List.map_cons, List.sum_cons, first, Word.bit, BitVec.getLsbD, BitVec.getLsbD,
    Nat.testBit_zero, Nat.testBit_zero, wordOf, BitVec.toNat_ofNat, ← low]
  generalize (keyUpper.map fun f => v.fld f.lo f.w * 2 ^ f.lo).sum = rest at even
  exact decide_eq_decide.mpr (by omega)

/-- A KEYk_CFG whose fields are legal is stored without a clamp. -/
theorem State.writeReg_keyCfg (fits : ∀ f ∈ keyFields, f.Fits v) :
    s.writeReg (keyCfg k.val) v 0xF#4 = (s.setReg (keyCfg k.val) (keyWord v), 0) := by
  have rail (r : Nat × Nat) : railStep (keyCfg k.val) r = r := if_neg (by unfold keyCfg; omega)
  have spec : regSpec (keyCfg k.val) = some (0x14640440#32, .fields keyFields) := regSpec_keyCfg k
  have all : mergeBytes (s.reg (keyCfg k.val)) v 0xF#4 = v := mergeBytes_all _ _
  have written := writeFields_fit fits
  rw [State.writeReg, spec]
  dsimp only
  rw [RegSpec.write, all, written, rail, keyWord]

theorem State.key_updKey_self (s : State) (k : Nat) (f : Key → Key) : (s.updKey k f).key k = f (s.key k) :=
  (s.key_updKey k f k).trans (if_pos rfl)

theorem State.key_updKey_other (s : State) (k : Nat) (f : Key → Key) {m : Nat} (h : m ≠ k) :
    (s.updKey k f).key m = s.key m := (s.key_updKey k f m).trans (if_neg h)

/-- A key after a write of its MASK: a mask clears STUCK, and an unmasked key counts its stuck time from now. -/
def State.masking (s : State) (k : Nat) (mask : Bool) : Key := { s.key k with
  stuck := (s.key k).stuck && !mask, since := if s.keyMasked k && !mask then s.keys.cyc else (s.key k).since }

/-- The state with other keys. -/
def State.withKeys (s : State) (keys : SMap Key) : State := { s with keys := { s.keys with keys := keys } }

theorem State.updKey_withKeys (s : State) (k : Nat) (f : Key → Key) :
    s.updKey k f = s.withKeys (SMap.upd (fun _ => Key.reset) s.keys.keys k f) := rfl

theorem State.setReg_shape (s : State) (a : Nat) (w : Word) : ∃ regs, s.setReg a w = { s with regs := regs } := ⟨_, rfl⟩

theorem State.reg_withKeys (s : State) (keys : SMap Key) (a : Nat) : (s.withKeys keys).reg a = s.reg a := rfl

theorem State.withKeys_same (s : State) : s.withKeys s.keys.keys = s := rfl

theorem State.keyRaises_unstick (s u : State) (k : Fin 320) : ((s.key k.val).unstickEv k.val).foldl State.keyRaise u =
    if (s.key k.val).stuck then u.raise 188 (.res 3 k.val) (wordOf k.val) else u := by
  rw [Key.unstickEv]
  split
  · exact u.keyRaise_ev188 k false
  · rfl

/-- A legal write of KEYk_CFG: the register and the key, and EV188 for a STUCK that a mask clears. -/
theorem State.keyCfgWrite_effect (fits : ∀ f ∈ keyFields, f.Fits v) : ∃ u,
    (∃ keys, u = (s.setReg (keyCfg k.val) (keyWord v)).withKeys keys) ∧
      u.key k.val = s.masking k.val (v.getLsbD 0) ∧ (∀ m, m ≠ k.val → u.key m = s.key m) ∧
      s.keyCfgWrite k.val v 0xF#4 = (if v.getLsbD 0 = true ∧ (s.key k.val).stuck = true then
        u.raise 188 (.res 3 k.val) (wordOf k.val) else u, 0) := by
  have reg : (s.setReg (keyCfg k.val) (keyWord v)).keyMasked k.val = v.getLsbD 0 := by
    rw [State.keyMasked, State.rbit, State.reg_setReg, if_pos rfl, keyWord_mask]
  have key := s.key_setReg (keyCfg k.val) (keyWord v)
  unfold State.keyCfgWrite
  rw [State.writeReg_keyCfg fits]
  dsimp only
  rw [reg, State.keyRaises_unstick]
  generalize s.setReg (keyCfg k.val) (keyWord v) = r at key
  have self (f : Key → Key) : (r.updKey k.val f).key k.val = f (s.key k.val) :=
    (r.key_updKey_self k.val f).trans (congrArg f (key k.val))
  have others (f : Key → Key) (m : Nat) (other : m ≠ k.val) : (r.updKey k.val f).key m = s.key m :=
    (r.key_updKey_other k.val f other).trans (key m)
  rcases v.getLsbD 0 with _ | _
  · rcases was : s.keyMasked k.val with _ | _
    · refine ⟨r, ⟨_, r.withKeys_same.symm⟩, ?_, fun m _ => key m, by simp⟩
      rw [key, State.masking, was]
      simp
    · refine ⟨_, ⟨_, r.updKey_withKeys k.val fun q => { q with since := s.keys.cyc }⟩, ?_, others _, by simp⟩
      rw [self, State.masking, was]
      simp
  · refine ⟨_, ⟨_, r.updKey_withKeys k.val fun q => { q with stuck := false }⟩, ?_, others _, by simp⟩
    rw [self, State.masking]
    simp

end

/-! ## Fans (R382, R387) -/

section
variable {s : State} {k : Nat}

theorem State.fan_updFan_self (f : Fan → Fan) : (s.updFan k f).fan k = f (s.fan k) :=
  (s.fan_updFan k f k).trans (if_pos rfl)

/-- Outside Louvred no stall check follows. -/
theorem State.stallLouvred_else (h : s.pwr.st ≠ .louvred) : s.stallLouvred k = s := if_pos h

theorem State.tachEdge_open (h : s.pwr.st ≠ .louvred) (free : s.genHeld 12 = false) (us : Nat) :
    s.tachEdge k us = s.updFan k fun f => { f with
      edges := (us :: f.edges).take 4, silent := false,
      rpm := rpmOf ((us :: f.edges).take 4) (s.fld (fanReg k 8) 24 2 + 1) } := by
  refine (if_neg (by simp [free])).trans (State.stallLouvred_else ?_)
  exact h

theorem State.tachSilence_open (h : s.pwr.st ≠ .louvred) (on : s.up 12 = true) :
    s.tachSilence k = s.updFan k fun f => { f with silent := true, rpm := 0 } := by
  refine (if_pos on).trans (State.stallLouvred_else ?_)
  exact h

theorem rpmOf_few {es : List Nat} {ppr : Nat} (h : es.length < ppr) : rpmOf es ppr = 0 := if_pos h

theorem rpmOf_enough {es : List Nat} {ppr : Nat} (h : ppr ≤ es.length) (time : 0 < (es.take ppr).sum) :
    rpmOf es ppr = min 65535 (60000000 / (es.take ppr).sum) :=
  (if_neg (Nat.not_lt.mpr h)).trans (if_neg (Nat.ne_of_gt time))

end

end Sys2Proof.Machine

section
open Sys2Proof Sys2Proof.Machine

/-- Settles O56: a column step by where it stands in the scan; the idle matrix; the time a key has been held; its mask;
the last edges of a tach. -/
theorem keyAndFanRows : Obligations.KeyAndFanRows := by
  unfold Obligations.KeyAndFanRows
  intro s
  have legal (kp : Bool) (c : Fin 16) (rows : BitVec 16) (h : kp = true → c.val < 8) :
      exec (.keyColumnStep kp c rows) s =
        .next (if s.testing 7 then s.holdRow (.column kp c.val rows) else s.keyStep kp c.val rows) :=
    onlyIf_legal (by rcases kp with _ | _ <;> simp_all [Instr.WellFormed]) _ _
  refine ⟨fun kp c rows h held => (legal kp c rows h).trans (congrArg Host.Outcome.next (if_pos held)),
    fun kp c rows h free => ?_, fun on idle => ⟨_, congrArg Host.Outcome.next (State.shelfRow_idle on idle), rfl,
      fun i => getLsbD_keypad _, rfl, rfl⟩, fun busy => congrArg Host.Outcome.next (if_neg fun both => ?_),
    fun k more => ⟨fun on held once long => congrArg Host.Outcome.next ?_, fun short => congrArg Host.Outcome.next
      (if_neg fun all => ?_), fun reach free v debP debR first next => ?_⟩,
    fun held k us => congrArg Host.Outcome.next (if_pos held),
    fun off k => congrArg Host.Outcome.next (if_neg (by simp [off])),
    fun open_ k => ⟨fun free us => ⟨_, congrArg Host.Outcome.next (State.tachEdge_open open_ free us), ?_⟩,
      fun on => congrArg Host.Outcome.next (State.tachSilence_open open_ on)⟩⟩
  · have row := (legal kp c rows h).trans (congrArg Host.Outcome.next (if_neg (by simp [free])))
    refine ⟨fun off => row.trans (congrArg Host.Outcome.next ?_), fun on => ⟨fun more => ?_,
      fun last awake clear => ?_⟩⟩
    · rw [State.keyStep, State.keyColumn_unscanned off, State.keyWake_none rfl]
    · have middle : s.keyStep kp c.val rows = s.takeColumn kp c.val rows := by
        rw [State.keyStep, State.keyColumn_middle on more]
        exact State.keyWake_none rfl
      rw [row, middle]
      exact ⟨_, rfl, fun i => State.getLsbD_takeColumn, rfl, rfl, rfl⟩
    · obtain ⟨keys, others, rest⟩ := State.keyStep_last on last awake clear
      refine ⟨_, row, fun x mem => ?_, others, rest⟩
      rw [keys x mem]
      exact Key.eval_debounced _ _ _ _ _
  · exact busy.elim (fun off => by simp [off] at both) fun active => by simp [active] at both
  · refine (if_pos ⟨on, held, once, long⟩).trans ?_
    rw [State.keyRaise_ev188]
    rfl
  · obtain ⟨on, held, once, long⟩ := all
    have few := short.resolve_left (by simp [on])
    have few := few.resolve_left (by simp [held])
    have few := few.resolve_left (by simp [once])
    exact absurd long (Nat.not_le.mpr few)
  · have fits : ∀ f ∈ keyFields, f.Fits v := by
      have word := v.isLt
      apply keyFields_fit <;> simp only [Word.fld, fieldOf] <;> omega
    obtain ⟨u, ⟨keys, shape⟩, key, others, put⟩ := State.keyCfgWrite_effect (s := s) (k := k) fits
    have reg (a : Nat) : u.reg a = if a = keyCfg k.val then keyWord v else s.reg a := by
      rw [shape, State.reg_withKeys, State.reg_setReg]
    have mask : u.keyMasked k.val = v.getLsbD 0 := by
      rw [State.keyMasked, State.rbit, reg, if_pos rfl, keyWord_mask]
    have regs (a : Nat) (other : a ≠ keyCfg k.val) : u.reg a = s.reg a := (reg a).trans (if_neg other)
    obtain ⟨written, stored⟩ := s.setReg_shape (keyCfg k.val) (keyWord v)
    have frame : u = { s with regs := u.regs, keys := { s.keys with keys := u.keys.keys } } := by
      rw [shape, stored]
      rfl
    refine ⟨_, congrArg Host.Outcome.next (State.cfgRow_key reach free put), ?_⟩
    split
    · next tells =>
      have raised : (u.raise 188 (.res 3 k.val) (wordOf k.val)).keyMasked k.val = u.keyMasked k.val := by
        rw [State.keyMasked, State.rbit, State.reg_raise, State.keyMasked, State.rbit]
      refine ⟨raised.trans mask, fun a other => (State.reg_raise _ _ _ _ a).trans (regs a other),
        (State.key_raise _ _ _ _ _).trans key, fun m other => (State.key_raise _ _ _ _ m).trans (others m other), ?_⟩
      rw [State.raise_regs, State.raise_keys]
      exact congrArg (State.raise · 188 (.res 3 k.val) (wordOf k.val)) frame
    · exact ⟨mask, regs, key, others, frame⟩
  · rw [State.fan_updFan_self]
    exact ⟨⟨rfl, rfl, rfl, rpmOf_few, rpmOf_enough⟩, fun m other => (s.fan_updFan k.val _ m).trans (if_neg other), rfl⟩

end
end

section
/-! PROOFS. The converter: results, calibration, slices, reference, injected requests (O57). -/

namespace Sys2Proof.Machine

/-! ## Codes and result words (R356, R361, R362) -/

/-- The end of a channel's range, and its least code as a multiple of it. -/
def adcFull (n : Nat) : Int := if n < 16 then 32768 else 65536
def adcLeast (n : Nat) : Int := if n < 16 then -1 else 0

/-- A code held within its channel's range. -/
def heldCode (n : Nat) (x : Int) : Int := min (max x (adcLeast n * adcFull n)) (adcFull n - 1)

theorem codeIn_eq (n : Nat) (x : Int) : codeIn n x = heldCode n x := by
  unfold codeIn heldCode adcLeast adcFull
  split
  · exact clampInt_eq (by decide) x
  · exact clampInt_eq (by decide) x

theorem idealCode_eq (n : Nat) (v : Int) (r : Nat) : idealCode n v r =
    (heldCode n ((2 * adcFull n * v + r) / (2 * r)), decide ((r : Int) ≤ v ∨ v < adcLeast n * r)) := by
  unfold idealCode adcLeast
  refine Prod.ext (codeIn_eq n ((2 * adcFull n * v + r) / (2 * r))) ?_
  dsimp only
  split
  · rw [neg_one_mul]
    exact decide_eq_decide.mpr or_comm
  · rw [zero_mul]
    exact decide_eq_decide.mpr or_comm

/-- The input of a channel lies beyond its range. -/
def inputBeyond (n gain mv : Nat) (v : Int) : Bool :=
  decide (((mv * 1000000 : Nat) : Int) ≤ v * 2 ^ gain ∨ v * 2 ^ gain < adcLeast n * (mv * 1000000 : Nat))

/-- The code of an input without an error of its slice. -/
def inputCode (n gain mv : Nat) (v : Int) : Int :=
  heldCode n ((2 * adcFull n * (v * 2 ^ gain) + (mv * 1000000 : Nat)) / (2 * (mv * 1000000 : Nat)))

theorem sampleCode_eq (n gain mv : Nat) (v d : Int) : sampleCode n gain mv v d =
    (if inputBeyond n gain mv v then inputCode n gain mv v else heldCode n (inputCode n gain mv v + d),
      inputBeyond n gain mv v) := by
  rw [sampleCode, idealCode_eq, codeIn_eq]
  rfl

/-- The fields of a result word. -/
theorem resultWord_fields {a c src t : Nat} (code : a < 65536) (old : c ≤ 1) (from_ : src ≤ 1) (high single : Bool) :
    let w := wordOf (a + 2 ^ 16 * bitNat high + 2 ^ 17 * bitNat single + 2 ^ 18 * c + 2 ^ 20 * src + 2 ^ 24 * (t % 256))
    w.toNat % 65536 = a ∧ w.getLsbD 16 = high ∧ w.getLsbD 17 = single ∧ w.toNat / 2 ^ 20 % 16 = src ∧
      w.toNat / 2 ^ 24 = t % 256 := by
  intro w
  have bit (v : Bool) : bitNat v ≤ 1 ∧ decide (bitNat v = 1) = v := by cases v <;> decide
  obtain ⟨highBit, highIs⟩ := bit high
  obtain ⟨singleBit, singleIs⟩ := bit single
  have whole : w.toNat =
      a + 2 ^ 16 * bitNat high + 2 ^ 17 * bitNat single + 2 ^ 18 * c + 2 ^ 20 * src + 2 ^ 24 * (t % 256) :=
    Nat.mod_eq_of_lt (by omega)
  simp only [BitVec.getLsbD, Nat.testBit_eq_decide_div_mod_eq, whole]
  refine ⟨by omega, Eq.trans (decide_eq_decide.mpr ?_) highIs, Eq.trans (decide_eq_decide.mpr ?_) singleIs,
    by omega, by omega⟩
  · omega
  · omega

theorem twosOf_lt (x : Int) : twosOf 16 x < 65536 := by
  unfold twosOf
  omega

/-! ## Sequences (R363 to R366) -/

section
variable (s : State) (b : Bool)

/-- What of the part a sequence leaves as it was. -/
def State.seqView : SMap Chan × SMap Word × Therm × List Inj := (s.adc.chans, s.regs, s.therm, s.adc.inj)

theorem State.seqView_updSeq (f : SeqRun → SeqRun) : (s.updSeq b f).seqView = s.seqView := by cases b <;> rfl

/-- The converter but for the channels and the results of sequencer B, with plain registers and sensors. -/
def State.besideChans : Adc × SMap Word × Therm := ({ s.adc with chans := [], resB := [] }, s.regs, s.therm)

theorem State.chan_updChan_self (k : Nat) (f : Chan → Chan) : (s.updChan k f).chan k = f (s.chan k) :=
  (s.chan_updChan k f k).trans (if_pos rfl)

theorem State.chan_updChan_other (k : Nat) (f : Chan → Chan) {m : Nat} (h : m ≠ k) : (s.updChan k f).chan m = s.chan m :=
  (s.chan_updChan k f m).trans (if_neg h)

theorem State.besideChans_raise (e : Nat) (d : Dest) (v : Word) : (s.raise e d v).besideChans = s.besideChans := by
  simp only [State.besideChans, State.raise_adc, State.raise_regs, State.raise_therm]

/-- A result compared with its window: its channel's comparator alone changes. -/
theorem State.compare_effect (k : Nat) (w : Word) : ∃ out fresh,
    (s.compare k w).chan k = { s.chan k with out := out, fresh := fresh } ∧
      (∀ m, m ≠ k → (s.compare k w).chan m = s.chan m) ∧ (s.compare k w).besideChans = s.besideChans := by
  unfold State.compare
  dsimp only
  split
  · exact ⟨(s.chan k).out, (s.chan k).fresh, rfl, fun _ _ => rfl, rfl⟩
  · have self := s.chan_updChan_self k fun x => { x with out := s.outside k w, fresh := false }
    have others (m : Nat) (h : m ≠ k) :=
      s.chan_updChan_other k (fun x => { x with out := s.outside k w, fresh := false }) h
    refine ⟨s.outside k w, false, ?_⟩
    split
    · refine ⟨(State.chan_raise _ _ _ _ k).trans self, fun m h => (State.chan_raise _ _ _ _ m).trans (others m h), ?_⟩
      rw [State.besideChans_raise]
      rfl
    · exact ⟨self, others, rfl⟩

/-- A result: its channel's word, over-range flag and age. -/
theorem State.result_effect (k : Nat) (w : Word) :
    ((s.result k w).chan k).res = w ∧ ((s.result k w).chan k).ovr = w.bit 16 ∧ ((s.result k w).chan k).age = 0 ∧
      (∀ m, m ≠ k → (s.result k w).chan m = s.chan m) ∧ (s.result k w).besideChans = s.besideChans := by
  obtain ⟨out, fresh, self, others, beside⟩ :=
    (s.updChan k fun x => { x with res := w, ovr := w.bit 16, age := 0 }).compare_effect k w
  rw [State.chan_updChan_self] at self
  have others (m : Nat) (h : m ≠ k) := (others m h).trans (s.chan_updChan_other k _ h)
  unfold State.result
  dsimp only
  generalize (s.updChan k fun x => { x with res := w, ovr := w.bit 16, age := 0 }).compare k w = r at self others beside
  split
  · rw [State.chan_raise, self, State.besideChans_raise]
    exact ⟨rfl, rfl, rfl, fun m h => (State.chan_raise _ _ _ _ m).trans (others m h), beside⟩
  · rw [self]
    exact ⟨rfl, rfl, rfl, others, beside⟩

variable {s b}

theorem State.seqEnd_quiet (quiet : s.rbit (seqCtrl b) 9 = false) : s.seqEnd b = s := if_neg (by simp [quiet])

theorem State.refWaited_shape (s : State) : ∃ w, s.refWaited = { s with adc := { s.adc with refWait := w } } := by
  unfold State.refWaited
  split
  · exact ⟨_, rfl⟩
  · exact ⟨_, rfl⟩

theorem State.besideChans_eq {n m : State} (h : n.besideChans = m.besideChans) :
    (∀ b, n.seqOf b = m.seqOf b) ∧ n.adc.inj = m.adc.inj ∧ n.regs = m.regs ∧ n.therm = m.therm := by
  simp only [State.besideChans, Prod.mk.injEq] at h
  obtain ⟨adc, regs, therm⟩ := h
  have inj := congrArg Adc.inj adc
  have seqA := congrArg Adc.seqA adc
  have seqB := congrArg Adc.seqB adc
  refine ⟨fun b => ?_, inj, regs, therm⟩
  cases b
  · exact seqA
  · exact seqB

/-- A conversion made: the sequence runs none, and the word is B's for its entry. -/
def State.seqMade (s : State) (b : Bool) (entry : Nat) (w : Word) : State :=
  let s0 := s.updSeq b fun q => { q with run := none, made := q.made + 1 }
  if b then { s0 with adc := { s0.adc with resB := SMap.set (fun _ => 0) s0.adc.resB entry w } } else s0

theorem State.seqMade_effect (s : State) (b : Bool) (entry : Nat) (w : Word) :
    (s.seqMade b entry w).seqOf b = { s.seqOf b with run := none, made := (s.seqOf b).made + 1 } ∧
      (s.seqMade b entry w).seqOf (!b) = s.seqOf (!b) ∧ (s.seqMade b entry w).adc.inj = s.adc.inj ∧
      (∀ m, (s.seqMade b entry w).chan m = s.chan m) ∧ (s.seqMade b entry w).regs = s.regs ∧
      (s.seqMade b entry w).therm = s.therm := by
  cases b <;> exact ⟨rfl, rfl, rfl, fun _ => rfl, rfl, rfl⟩

theorem State.seqConvEnd_goes {c : Conv} (kept : c.drop = false) (xs : List PairSample) : s.seqConvEnd b c xs =
    (let w := s.resultWord b c.ch c.gain (bitNat b) xs
     let r := (s.seqMade b c.entry w).result c.ch w
     let e := if (r.nextConv b (r.seqOf b).left).isNone then (r.updSeq b fun q => { q with left := [] }).seqEnd b else r
     e.pairGo b (s.endInstant b (convCycles c.smp c.ovs))) := by
  rw [State.seqConvEnd, kept]
  rfl

/-- The last conversion of a sequence without INT, with no request waiting. -/
theorem State.seqConvEnd_last {c : Conv} (kept : c.drop = false) (left : (s.seqOf b).left = []) (queue : s.adc.inj = [])
    (quiet : s.rbit (seqCtrl b) 9 = false) (xs : List PairSample) :
    let w := s.resultWord b c.ch c.gain (bitNat b) xs
    let n := s.seqConvEnd b c xs
    n.seqOf b = { s.seqOf b with run := none, made := (s.seqOf b).made + 1, left := [] } ∧ n.seqOf (!b) = s.seqOf (!b) ∧
      (n.chan c.ch).res = w ∧ (n.chan c.ch).ovr = w.bit 16 ∧ (n.chan c.ch).age = 0 ∧
      (∀ m, m ≠ c.ch → n.chan m = s.chan m) ∧ n.regs = s.regs ∧ n.therm = s.therm := by
  intro w n
  obtain ⟨self, other, injM, chans, regsM, thermM⟩ := s.seqMade_effect b c.entry w
  obtain ⟨res, ovr, age, others, beside⟩ := (s.seqMade b c.entry w).result_effect c.ch w
  obtain ⟨seqs, injR, regsR, thermR⟩ := State.besideChans_eq beside
  have whole : n = _ := State.seqConvEnd_goes kept xs
  rw [whole]
  dsimp only
  clear whole
  generalize State.result (s.seqMade b c.entry w) c.ch w = r at res ovr age others seqs injR regsR thermR
  have selfR := (seqs b).trans self
  have leftR : (r.seqOf b).left = [] := by rw [selfR]; exact left
  have ends : (r.nextConv b (r.seqOf b).left).isNone = true := by rw [leftR]; rfl
  have view := r.seqView_updSeq b fun q => { q with left := [] }
  have selfU := r.seqOf_updSeq b b fun q => { q with left := [] }
  have otherU := r.seqOf_updSeq b (!b) fun q => { q with left := [] }
  rw [if_pos rfl, selfR] at selfU
  rw [if_neg (by cases b <;> decide)] at otherU
  rw [if_pos ends]
  generalize (r.updSeq b fun q => { q with left := [] }) = u at view selfU otherU
  simp only [State.seqView, Prod.mk.injEq] at view
  obtain ⟨chansU, regsU, thermU, injU⟩ := view
  have chan (m : Nat) : u.chan m = r.chan m := congrArg (SMap.get (fun _ => Chan.reset) · m) chansU
  have regs : u.regs = s.regs := regsU.trans (regsR.trans regsM)
  have still : u.rbit (seqCtrl b) 9 = false := by rw [State.rbit, State.reg, regs]; exact quiet
  rw [State.seqEnd_quiet still, State.pairGo_idle (injU.trans (injR.trans (injM.trans queue))) (by rw [selfU])]
  simp only [chan]
  exact ⟨selfU, otherU.trans ((seqs !b).trans other), res, ovr, age, fun m h => (others m h).trans (chans m), regs,
    thermU.trans (thermR.trans thermM)⟩

/-- The word that the last conversion leaves (R356, R361, R362). -/
theorem State.resultWord_effect (s : State) (b : Bool) (k gain : Nat) (xs : List PairSample) :
    let w := s.resultWord b k gain (bitNat b) xs
    let code := fun v d : Int => if inputBeyond k gain s.adc.vref v then inputCode k gain s.adc.vref v
      else heldCode k (inputCode k gain s.adc.vref v + d)
    let mean := (xs.map fun p => if s.pairDouble b then (code p.1 p.2.1 + code p.1 p.2.2) / 2 else code p.1 p.2.1).sum /
      (xs.length : Int)
    w.toNat % 65536 = twosOf 16 mean ∧ w.getLsbD 16 = xs.any (fun p => inputBeyond k gain s.adc.vref p.1) ∧
      w.getLsbD 17 = !s.pairDouble b ∧ w.toNat / 2 ^ 20 % 16 = bitNat b ∧ w.toNat / 2 ^ 24 = s.now % 256 := by
  intro w code mean
  have value : convValue k gain s.adc.vref (s.pairDouble b) xs = mean := by
    simp only [convValue, sampleCode_eq, List.length_map]
    rfl
  have word : w = wordOf (twosOf 16 mean + 2 ^ 16 * bitNat (xs.any fun p => inputBeyond k gain s.adc.vref p.1) +
      2 ^ 17 * bitNat (!s.pairDouble b) + 2 ^ 18 * bitNat (s.calOld b) + 2 ^ 20 * bitNat b + 2 ^ 24 * (s.now % 256)) := by
    simp only [w, State.resultWord, sampleCode_eq, value]
  have bit (v : Bool) : bitNat v ≤ 1 := by cases v <;> decide
  rw [word]
  exact resultWord_fields (twosOf_lt _) (bit _) (bit _) _ _

end

/-! ### The end of a conversion (R357, R361) -/

section
variable {s : State} {b : Bool}

theorem State.convEnd_unable (h : s.pairAble b = false ∨ s.adc.refRdy = false ∧ s.adc.refWait = false)
    (xs : List PairSample) : s.convEnd b xs = s := if_pos h

/-- Without an injected request the end is that of the sequence's conversion, if it has its samples. -/
theorem State.convEnd_seq (able : s.pairAble b = true) (ready : s.adc.refRdy = true ∨ s.adc.refWait = true)
    (inj : s.injOf b = none) (xs : List PairSample) : s.convEnd b xs =
      match (s.seqOf b).run with
      | some c => if xs.length = 2 ^ c.ovs then (s.seqConvEnd b c xs).refWaited else s
      | none => s := by
  have goes : ¬(s.pairAble b = false ∨ s.adc.refRdy = false ∧ s.adc.refWait = false) := by
    rintro (no | ⟨no, noWait⟩)
    · simp [able] at no
    · simp [no, noWait] at ready
  unfold State.convEnd
  rw [if_neg goes, inj]
  rcases (s.seqOf b).run with _ | c <;> rfl

/-- Nothing runs, or the samples are not as many as the conversion takes. -/
theorem State.convEnd_none {xs : List PairSample} (inj : s.injOf b = none)
    (h : ∀ c, (s.seqOf b).run = some c → xs.length ≠ 2 ^ c.ovs) : s.convEnd b xs = s := by
  by_cases off : s.pairAble b = false ∨ s.adc.refRdy = false ∧ s.adc.refWait = false
  · exact State.convEnd_unable off xs
  · have able : s.pairAble b = true := by
      rcases hb : s.pairAble b with _ | _
      · exact absurd (.inl hb) off
      · rfl
    have ready : s.adc.refRdy = true ∨ s.adc.refWait = true := by
      rcases hr : s.adc.refRdy with _ | _
      · rcases hw : s.adc.refWait with _ | _
        · exact absurd (.inr ⟨hr, hw⟩) off
        · exact .inr rfl
      · exact .inl rfl
    rw [State.convEnd_seq able ready inj]
    rcases run : (s.seqOf b).run with _ | c
    · rfl
    · exact if_neg (h c run)

end

/-! ## Calibration and slices (R357 to R360) -/

section
variable {s : State}

/-- The first slices older by one period. -/
def agedTo (n : Nat) (ages : SMap Nat) : SMap Nat :=
  (List.range n).foldl (fun m i => SMap.upd (fun _ => 0) m i fun n => satAdd 6 n 1) ages

theorem get_agedTo (n : Nat) (ages : SMap Nat) (i : Nat) : SMap.get (fun _ => 0) (agedTo n ages) i =
    if i < n then min 6 (SMap.get (fun _ => 0) ages i + 1) else SMap.get (fun _ => 0) ages i := by
  induction n with
  | zero => rfl
  | succ n ih =>
    unfold agedTo at ih ⊢
    rw [List.range_succ, List.foldl_append, List.foldl_cons, List.foldl_nil, SMap.get_upd]
    have one (a : Nat) : satAdd 6 a 1 = min 6 (a + 1) := by
      unfold satAdd
      split <;> omega
    by_cases here : i = n
    · have old := ih
      rw [if_neg (by omega)] at old
      rw [if_pos here, if_pos (by omega), one, ← old, here]
    · rw [if_neg here, ih]
      by_cases low : i < n
      · rw [if_pos low, if_pos (by omega)]
      · rw [if_neg low, if_neg (by omega)]

theorem State.calibrate_able (on : s.up 10 = true) (en : s.rbit 0x300A0000 0 = true) (ready : s.adc.refRdy = true)
    (still : s.adc.calRun = false) (free : s.testing 9 = false) : s.calibrate = { s with adc := { s.adc with
      calAge := agedTo 5 s.adc.calAge, calRun := decide (s.adc.spare < 5) } } :=
  if_neg (by simp [on, en, ready, still, free])

theorem calFails_eq_false {off gain : Int} :
    calFails off gain = false ↔ -256 ≤ off ∧ off ≤ 256 ∧ -100 ≤ gain ∧ gain ≤ 100 := by
  rw [calFails, decide_eq_false_iff_not]
  omega

theorem State.sliceSwap_able (on : s.up 10 = true) (en : s.rbit 0x300A0000 0 = true) (free : s.testing 9 = false)
    (off gain : Int) : s.sliceSwap off gain = (match s.adc.calPass with
      | some i => (s.calibrated i off gain).calPassGo (i + 1)
      | none => if s.adc.calRun = false ∨ 5 ≤ s.adc.spare then s else s.spareSwap off gain) :=
  if_neg (by simp [on, en, free])

theorem State.calPassGo_next {i j : Nat} (next : s.adc.nextSlice i = some j) :
    s.calPassGo i = { s with adc := { s.adc with calPass := some j } } := by
  rw [State.calPassGo, next]

theorem State.calPassGo_last {i : Nat} (last : s.adc.nextSlice i = none) : s.calPassGo i = s.refReady := by
  rw [State.calPassGo, last]

/-- A calibration within its limits. -/
theorem State.calibrated_good {off gain : Int} (good : -256 ≤ off ∧ off ≤ 256 ∧ -100 ≤ gain ∧ gain ≤ 100) (i : Nat) :
    s.calibrated i off gain = { s with adc := { s.adc with calAge := SMap.set (fun _ => 0) s.adc.calAge i 0 } } :=
  if_neg (by simp [calFails_eq_false.mpr good])

theorem oneOf_mem {xs : List Nat} (h : xs ≠ []) : oneOf xs ∈ xs := by
  unfold oneOf
  split
  · exact List.mem_singleton_self _
  · have pos := List.length_pos_iff.mpr h
    rw [List.getD_eq_getElem _ _ (Nat.mod_lt _ pos)]
    exact List.getElem_mem _

/-- The age of the slice in a lane. -/
def State.laneAge (s : State) (l : Nat) : Nat := SMap.get (fun _ => 0) s.adc.calAge (s.laneOf l)

/-- The oldest lane is one of the four, and no slice in a lane is older than its. -/
theorem State.oldestLane_oldest (s : State) :
    s.oldestLane < 4 ∧ ∀ m, m < 4 → s.laneAge m ≤ s.laneAge s.oldestLane := by
  have some_ : (List.range 4).filter (fun l => (List.range 4).all fun m => decide (s.laneAge m ≤ s.laneAge l)) ≠ [] := by
    obtain ⟨l, mem, most⟩ := (Finset.range 4).exists_max_image s.laneAge ⟨0, by decide⟩
    refine List.ne_nil_of_mem (a := l) (List.mem_filter.mpr ⟨by simpa using mem, ?_⟩)
    simpa using fun m h => most m (by simpa using h)
  have mem := oneOf_mem some_
  have lane : s.oldestLane = oneOf ((List.range 4).filter fun l => (List.range 4).all fun m =>
    decide (s.laneAge m ≤ s.laneAge l)) := rfl
  rw [← lane] at mem
  simpa using mem

theorem State.laneOf_setLaneOf (l v m : Nat) : (s.setLaneOf l v).laneOf m = if m = l then v else s.laneOf m :=
  SMap.get_set _ _ _ _ _

theorem State.sliceSwap_spare (on : s.up 10 = true) (en : s.rbit 0x300A0000 0 = true) (free : s.testing 9 = false)
    (pass : s.adc.calPass = none) (runs : s.adc.calRun = true) (spare : s.adc.spare < 5) (off gain : Int) :
    s.sliceSwap off gain = s.spareSwap off gain := by
  rw [State.sliceSwap_able on en free, pass]
  exact if_neg (by simp [runs, spare])

/-- The spare takes the lane whose slice is oldest, and that slice is the spare. -/
theorem State.spareSwap_good {off gain : Int} (good : -256 ≤ off ∧ off ≤ 256 ∧ -100 ≤ gain ∧ gain ≤ 100) :
    s.spareSwap off gain = { s with adc := { s.adc with
      lanes := SMap.set (fun l => l) s.adc.lanes s.oldestLane s.adc.spare, spare := s.laneOf s.oldestLane,
      calRun := false, calAge := SMap.set (fun _ => 0) s.adc.calAge s.adc.spare 0 } } := by
  unfold State.spareSwap
  rw [State.calibrated_good good]
  exact if_neg (by simp [calFails_eq_false.mpr good])

theorem State.spareSwap_bad {off gain : Int} (bad : ¬(-256 ≤ off ∧ off ≤ 256 ∧ -100 ≤ gain ∧ gain ≤ 100)) :
    s.spareSwap off gain = State.retire { s with adc := { s.adc with
      calRun := false, calAge := SMap.set (fun _ => 0) s.adc.calAge s.adc.spare 0 } } s.adc.spare 1 := by
  have fails : calFails off gain = true := by
    rcases h : calFails off gain with _ | _
    · exact absurd (calFails_eq_false.mp h) bad
    · rfl
  unfold State.spareSwap State.calibrated
  rw [fails]
  rfl

/-- What a retirement leaves as it was. -/
def State.sliceView (s : State) : SMap Word × SMap Chan × BitVec 5 × Bool :=
  (s.regs, s.adc.chans, s.adc.retired, s.adc.calRun)

theorem State.sliceView_refill (s : State) : s.refill.sliceView = s.sliceView := by
  unfold State.refill
  extract_lets want busy spare moved gaps r
  refine State.each_keeps (view := State.sliceView) (fun s l _ => ?_) s
  split
  · split <;> rfl
  · rfl

theorem State.sliceView_retire {i : Nat} (works : s.adc.retired.getLsbD i = false) (kind : Nat) :
    (s.retire i kind).sliceView =
      (s.regs, s.adc.chans, s.adc.retired ||| BitVec.ofNat 5 (2 ^ i), s.adc.calRun) := by
  have raised (n : State) (v : Word) : (n.raise 235 .granted v).sliceView = n.sliceView := by
    simp only [State.sliceView, State.raise_regs, State.raise_adc]
  unfold State.retire
  rw [if_neg (by simp [works]), raised, State.sliceView_refill]
  rfl

/-! ## The reference (R357) -/

theorem State.cfgPut_ref (s : State) (v : Word) :
    s.cfgPut none 0x300A0004 v 0xF#4 = s.refSelect v := by
  have whole := mergeBytes_all (wordOf s.adc.refSel) v
  have row : s.cfgPut none 0x300A0004 v 0xF#4 = s.refSelect (mergeBytes (wordOf s.adc.refSel) v 0xF#4) := rfl
  rw [row, whole]

theorem fld_sel (v : Word) : v.fld 0 2 = v.toNat % 4 := by
  simp only [Word.fld, fieldOf, pow_zero, Nat.div_one]
  rfl

/-- What a change of the reference does. -/
def State.refChanged (s : State) (sel : Nat) : State :=
  { s.loosen with adc := { s.loosen.adc with
    refSel := sel, refRdy := false, refBad := false, calAll := true, calPass := none, calRun := false,
    refWait := s.adc.refRdy && (s.pairRuns false || s.pairRuns true) } }

theorem State.refSelect_eq (s : State) (v : Word) : s.refSelect v =
    (let sel := min 2 (v.toNat % 4)
     let k := if v.toNat % 4 = 3 then 1 else 0
     if sel = s.adc.refSel then (s, k) else (s.refChanged sel, k)) := by
  rw [State.refSelect, fld_sel]
  rfl

/-- REF_RDY without a pass over the slices. -/
theorem State.refReady_plain (pass : s.adc.calPass = none) : s.refReady =
    ({ s with adc := { s.adc with refRdy := true, calAll := false } }.raise 238 .granted
      (wordOf (1 + 16 * s.adc.refSel))).pairsGo := by
  have same : { s.adc with refRdy := true, calAll := false, calPass := none } =
      { s.adc with refRdy := true, calAll := false } := by rw [← pass]
  rw [State.refReady, same]

theorem State.adc_clamps (s : State) (t : Nat) (p : Path) (k : Nat) : (s.clamps t p k).adc = s.adc :=
  (congrArg State.adc (s.clamps_shape t p k)).trans rfl

/-- SEL 3 is held at 2 and counts one clamp. -/
theorem State.cfgRow_selClamped {v : Word} (reach : s.cfgReach 0 0x300A0004 true = true) (free : s.testing 9 = false)
    (three : v.toNat % 4 = 3) :
    let n := s.cfgRow 0 0x300A0004 v 0xF#4
    n.adc.refSel = 2 ∧ (n.ten 0).clamps = min 65535 ((s.ten 0).clamps + 1) ∧ (s.adc.refSel = 2 → n.adc = s.adc) := by
  intro n
  have row (m : State) (put : s.cfgPut none 0x300A0004 v 0xF#4 = (m, 1)) (boot : m.sys = s.sys) (tens : m.tens = s.tens) :
      n.adc = m.adc ∧ (n.ten 0).clamps = min 65535 ((s.ten 0).clamps + 1) := by
    have booted : m.sys.bootDone = true := by
      rw [boot]
      exact State.bootDone_of_cfgReach reach
    have clamped : n = _ := State.cfgRow_clamped (a := 0x300A0004) reach free put Nat.one_ne_zero booted
    rw [clamped, State.adc_clamps, State.clampCount_clamps_one, State.ten_drawn, State.ten, tens]
    exact ⟨rfl, rfl⟩
  have select := (s.cfgPut_ref v).trans (s.refSelect_eq v)
  rw [three] at select
  by_cases same : s.adc.refSel = 2
  · obtain ⟨adc, count⟩ := row s (select.trans (if_pos same.symm)) rfl rfl
    rw [adc]
    exact ⟨same, count, fun _ => rfl⟩
  · obtain ⟨adc, count⟩ := row (s.refChanged 2) (select.trans (if_neg fun two => same two.symm)) rfl rfl
    rw [adc]
    exact ⟨rfl, count, fun two => absurd two same⟩

/-- A settled reference. -/
def State.withRef (s : State) (mv : Nat) : State := { s with adc := { s.adc with
  refBad := false, refWait := false, vref := if s.adc.refSel = 0 then 2500 else mv } }

theorem State.refSettled_able {mv : Nat} (on : s.up 10 = true) (ready : s.adc.refRdy = false)
    (pass : s.adc.calPass = none) : s.refSettled mv =
      if s.adc.refSel = 1 ∧ ¬(1000 ≤ mv ∧ mv ≤ 2700) then
        { s with adc := { s.adc with refBad := true, refWait := false } }.raise 238 .granted
          (wordOf (2 + 16 * s.adc.refSel))
      else if s.adc.calAll then (s.withRef mv).calPassGo 0 else (s.withRef mv).refReady :=
  if_neg (by simp [on, ready, pass])

/-! ## Injected requests (R367) -/

theorem adcReg_inj (k : Fin 32) : cfgBlock (adcReg k.val 0x0C) = 10 ∧ cfgOff (adcReg k.val 0x0C) = 0x100C + k.val * 0x20 ∧
    adcReg k.val 0x0C / 4 * 4 = adcReg k.val 0x0C := by
  unfold cfgBlock cfgOff adcReg
  omega

theorem State.cfgPut_inject (s : State) (k : Fin 32) (v : Word) :
    s.cfgPut none (adcReg k.val 0x0C) v 0xF#4 = s.injectGo k.val v := by
  obtain ⟨block, off, -⟩ := adcReg_inj k
  have chan : 0x1000 ≤ 0x100C + k.val * 0x20 ∧ 0x100C + k.val * 0x20 < 0x1400 := by omega
  have number : (0x100C + k.val * 0x20 - 0x1000) / 0x20 = k.val := by omega
  have reg : (0x100C + k.val * 0x20) % 0x20 = 0x0C := by omega
  have whole := woBytes_all v
  simp only [State.cfgPut, block, off, State.putAdc, if_pos chan, number, reg, State.putChan, whole]

theorem State.cfgRow_inject {k : Fin 32} (reach : s.cfgReach (s.owner 4 k.val) (adcReg k.val 0x0C) true = true)
    (free : s.testing 9 = false) {v : Word} {n : State} (put : s.injectGo k.val v = (n, 0)) :
    s.cfgRow (s.owner 4 k.val) (adcReg k.val 0x0C) v 0xF#4 = n := by
  obtain ⟨block, -, word⟩ := adcReg_inj k
  refine State.cfgRow_of ?_ ?_ ?_
  · rwa [word]
  · rw [word]
    simp only [State.cfgHeld, block, free]
  · rw [word, State.cfgPut_inject, put]

/-- Requests queued or running. -/
def State.requests (s : State) : List Inj := s.adc.inj ++ s.adc.injA.toList ++ s.adc.injB.toList

/-- The request that a word asks for. -/
def injOfWord (k : Nat) (v : Word) : Inj :=
  ⟨k, v.getLsbD 1, v.toNat / 4 % 8, v.toNat / 32 % 1024, v.toNat / 32768 % 8, false, false⟩

/-- A queue with one request more. -/
def State.queued (s : State) (i : Inj) : State := { s with adc := { s.adc with inj := s.adc.inj ++ [i] } }

theorem fields_inject (v : Word) : v.fld 2 3 = v.toNat / 4 % 8 ∧ v.fld 5 10 = v.toNat / 32 % 1024 ∧
    v.fld 15 3 = v.toNat / 32768 % 8 := by
  simp only [Word.fld, fieldOf]
  omega

section
variable {k : Nat} {v : Word} (low : 20 ≤ v.toNat / 32 % 1024) (high : v.toNat / 32 % 1024 ≤ 1000)
include low high

/-- A write of ADCn_INJ whose SMP is legal. -/
theorem State.injectGo_eq (s : State) : s.injectGo k v =
    if v.getLsbD 0 = false then (s, 0)
    else if s.injPend k ∨ 4 ≤ s.requests.length then (s.updChan k fun c => { c with injRej := true }, 0)
    else
      let b := v.getLsbD 1
      let i := injOfWord k v
      let first := (s.injNext b).isNone && (s.injOf b).isNone
      (if s.rbit (seqCtrl b) 8 ∧ s.adcReady b ∧ s.entering = false ∧ first ∧ (s.seqOf b).run.isSome then
        (s.queued i).injAbort b i else (s.queued i).pairGo b s.someInstant, 0) := by
  obtain ⟨gain, smp, ovs⟩ := fields_inject v
  have held : clampNat 20 1000 (v.toNat / 32 % 1024) = v.toNat / 32 % 1024 := by
    rw [clampNat_eq (by decide)]
    omega
  unfold State.injectGo
  rw [gain, smp, ovs, held]
  dsimp only
  rw [if_pos rfl]
  rfl

end

theorem State.injPend_iff (s : State) (k : Nat) : s.injPend k = true ↔ ∃ i ∈ s.requests, i.ch = k := by
  simp only [State.injPend, List.any_eq_true, beq_iff_eq, State.requests]

theorem State.adc_fits (s : State) (t : Instant) (cycles : Nat) : (s.fits t cycles).1.adc = s.adc := by
  unfold State.fits
  split
  · rfl
  · split <;> rfl

theorem State.injOf_injStart (s : State) (b : Bool) (t : Instant) (i : Inj) : (s.injStart b t i).injOf b = some i := by
  cases b <;> rfl

/-- A sequence that goes on takes nothing from the requests. -/
theorem State.inj_seqGo (s : State) (b : Bool) (t : Instant) : (s.seqGo b t).adc.inj = s.adc.inj := by
  have updated (n : State) (f : SeqRun → SeqRun) : (n.updSeq b f).adc.inj = n.adc.inj := by cases b <;> rfl
  have ended (n : State) : (n.seqEnd b).adc.inj = n.adc.inj := by
    unfold State.seqEnd
    split
    · rw [State.raise_adc]
    · rfl
  unfold State.seqGo
  dsimp only
  split
  · rfl
  · split
    · rw [ended, updated]
    · split <;> rw [updated, State.adc_fits]

/-- The oldest request, when it is not one that waits for slot 0. -/
theorem State.injGo_first {b : Bool} {i : Inj} (next : s.injNext b = some i) (stay : s.entering = false)
    (now : i.late = false) (t : Instant) : s.injGo b t =
      (let r := s.fits t (convCycles i.smp i.ovs)
       if r.2 then r.1.injStart b t i
       else { r.1 with adc := { r.1.adc with
         inj := r.1.adc.inj.map fun x => if x = i then { x with late := true } else x } }) := by
  rw [State.injGo, next]
  exact if_neg (by simp [stay, now])

/-- A request for an idle pair starts, or waits for slot 0. -/
theorem State.pairGo_first {b : Bool} {i : Inj} (ready : s.adcReady b = true) (idle : s.pairRuns b = false)
    (next : s.injNext b = some i) (stay : s.entering = false) (now : i.late = false) (t : Instant) :
    (s.pairGo b t).injOf b = some i ∨ { i with late := true } ∈ (s.pairGo b t).adc.inj := by
  simp only [State.pairRuns, Bool.or_eq_false_iff] at idle
  obtain ⟨run, inj⟩ := idle
  have goes : s.pairGo b t =
      if ((s.injGo b t).injOf b).isSome then s.injGo b t else (s.injGo b t).seqGo b t :=
    if_neg (by simp [ready, run, inj])
  have listed : i ∈ s.adc.inj := List.mem_of_find?_eq_some next
  have step := State.injGo_first next stay now t
  dsimp only at step
  rw [goes]
  split at step
  · have starts : (s.injGo b t).injOf b = some i := by rw [step, State.injOf_injStart]
    rw [starts]
    exact .inl starts
  · have late : { i with late := true } ∈ (s.injGo b t).adc.inj := by
      rw [step]
      dsimp only
      rw [State.adc_fits]
      exact List.mem_map.mpr ⟨i, listed, if_pos rfl⟩
    right
    split
    · exact late
    · rw [State.inj_seqGo]
      exact late

/-- A request behind those of the other pair. -/
theorem State.injNext_queued {b : Bool} {i : Inj} (first : s.injNext b = none) (pair : i.pairB = b) :
    (s.queued i).injNext b = some i := by
  have none_ : s.adc.inj.find? (fun i => i.pairB == b) = none := first
  rw [State.injNext, State.queued, List.find?_append, none_]
  simp [pair]

end

end Sys2Proof.Machine

section
open Sys2Proof Sys2Proof.Machine

/-- Settles O57: a conversion's end; calibration; a slice's calibration by the pass or the spare; the reference; an
injected request. -/
theorem conversionRows : Obligations.ConversionRows := by
  unfold Obligations.ConversionRows
  intro s
  refine ⟨fun b xs one most => ?_, fun off => congrArg Host.Outcome.next (if_pos off), fun on en ready still free => ?_,
    fun off gain => ?_, fun reach free v => ?_, fun mv => ?_, fun k reach free v low high => ?_⟩
  · have row : exec (.conversionEnd b xs) s = .next (s.convEnd b xs) :=
      onlyIf_legal (by simp only [Instr.WellFormed, one, most, decide_true, Bool.and_true]) _ _
    refine ⟨fun nothing => row.trans (congrArg Host.Outcome.next ?_),
      fun c able ready inj run samples kept left queue quiet => ⟨_, row, ?_⟩⟩
    · rcases nothing with off | unready | ⟨inj, none_⟩ | ⟨c, inj, run, other⟩
      · exact State.convEnd_unable (.inl off) xs
      · exact State.convEnd_unable (.inr unready) xs
      · exact State.convEnd_none inj fun c run => absurd run (by simp [none_])
      · exact State.convEnd_none inj fun d same => by
          rw [run, Option.some.injEq] at same
          rwa [← same]
    · have ends : s.convEnd b xs = (s.seqConvEnd b c xs).refWaited := by
        rw [State.convEnd_seq able ready inj, run]
        exact if_pos samples
      obtain ⟨seq, other, res, ovr, age, chans, regs, therm⟩ := State.seqConvEnd_last kept left queue quiet xs
      obtain ⟨code, high, single, source, tick⟩ := s.resultWord_effect b c.ch c.gain xs
      obtain ⟨wait, shape⟩ := (s.seqConvEnd b c xs).refWaited_shape
      rw [ends, shape]
      generalize s.seqConvEnd b c xs = r at *
      have seqs (d : Bool) : State.seqOf { r with adc := { r.adc with refWait := wait } } d = r.seqOf d := by
        cases d <;> rfl
      rw [seqs, seqs, seq]
      have word : (State.chan { r with adc := { r.adc with refWait := wait } } c.ch).res = _ := res
      have flag : (State.chan { r with adc := { r.adc with refWait := wait } } c.ch).ovr = _ := ovr
      rw [word, flag]
      refine ⟨rfl, rfl, rfl, ⟨code.trans (Nat.mod_eq_of_lt (twosOf_lt _)).symm, high, single, source, tick, rfl, age⟩,
        chans, regs, therm, other⟩
  · have runs := State.calibrate_able on en ready still free
    have aged := get_agedTo 5 s.adc.calAge
    generalize agedTo 5 s.adc.calAge = ages at runs aged
    exact ⟨_, congrArg Host.Outcome.next runs, rfl, fun i h => (aged i).trans (if_pos h), rfl⟩
  · refine ⟨fun unable => congrArg Host.Outcome.next (if_pos unable), fun on en free => ⟨fun i pass good => ?_,
      fun pass none_ => congrArg Host.Outcome.next ?_, fun pass runs spare => ⟨fun good => ?_, fun bad works => ?_⟩⟩⟩
    · have ends : s.sliceSwap off gain = (s.calibrated i off gain).calPassGo (i + 1) := by
        rw [State.sliceSwap_able on en free, pass]
      rw [State.calibrated_good good] at ends
      exact ⟨fun j next => congrArg Host.Outcome.next (ends.trans (State.calPassGo_next next)),
        fun last => congrArg Host.Outcome.next (ends.trans (State.calPassGo_last last))⟩
    · rw [State.sliceSwap_able on en free, pass]
      exact if_pos none_
    · obtain ⟨lane, oldest⟩ := s.oldestLane_oldest
      have ends := (State.sliceSwap_spare on en free pass runs spare off gain).trans (State.spareSwap_good good)
      refine ⟨_, s.oldestLane, congrArg Host.Outcome.next ends, lane, ?_, rfl, fun m _ other => ?_, rfl, oldest, ?_, rfl,
        rfl⟩
      · exact (s.laneOf_setLaneOf _ _ _).trans (if_pos rfl)
      · exact (s.laneOf_setLaneOf _ _ m).trans (if_neg other)
      · exact SMap.get_set_self (fun _ => 0) s.adc.calAge s.adc.spare 0
    · have ends := (State.sliceSwap_spare on en free pass runs spare off gain).trans (State.spareSwap_bad bad)
      have kept := State.sliceView_retire (s := { s with adc := { s.adc with
        calRun := false, calAge := SMap.set (fun _ => 0) s.adc.calAge s.adc.spare 0 } }) works 1
      simp only [State.sliceView, Prod.mk.injEq] at kept
      obtain ⟨regs, chans, retired, still⟩ := kept
      exact ⟨_, congrArg Host.Outcome.next ends, retired, still, regs, chans⟩
  · have held : s.cfgHeld 0x300A0004 = false := free
    have word : 0x300A0004 / 4 * 4 = 0x300A0004 := rfl
    have select := (s.cfgPut_ref v).trans (s.refSelect_eq v)
    refine ⟨fun same legal => ?_, fun legal other => ?_, fun three => ?_⟩
    · have sel : min 2 (v.toNat % 4) = s.adc.refSel := by omega
      have put : s.cfgPut none 0x300A0004 v 0xF#4 = (s, 0) := by
        rw [select]
        dsimp only
        rw [if_pos sel, if_neg (by omega)]
      exact congrArg Host.Outcome.next (State.cfgRow_of (a := 0x300A0004) reach held put)
    · have sel : min 2 (v.toNat % 4) = v.toNat % 4 := by omega
      have put : s.cfgPut none 0x300A0004 v 0xF#4 = (s.refChanged (v.toNat % 4), 0) := by
        rw [select]
        dsimp only
        rw [sel, if_neg other, if_neg (by omega)]
      exact congrArg Host.Outcome.next (State.cfgRow_of (a := 0x300A0004) reach held put)
    · exact ⟨_, rfl, State.cfgRow_selClamped reach free three⟩
  · refine ⟨fun unable => congrArg Host.Outcome.next (if_pos unable), fun on ready pass => ?_⟩
    have settled := State.refSettled_able (mv := mv) on ready pass
    refine ⟨fun external bad => congrArg Host.Outcome.next (settled.trans ((if_pos ⟨external, by omega⟩).trans ?_)),
      fun fits => ?_⟩
    · rw [external]
    · have goes := settled.trans (if_neg (by omega))
      refine ⟨fun i due next => congrArg Host.Outcome.next (goes.trans ((if_pos due).trans (State.calPassGo_next next))),
        fun last => congrArg Host.Outcome.next (goes.trans ?_)⟩
      rcases due : s.adc.calAll with _ | _
      · rw [if_neg Bool.false_ne_true, State.refReady_plain (s := s.withRef mv) pass]
        rfl
      · have none_ : (s.withRef mv).adc.nextSlice 0 = none := last.resolve_left (by simp [due])
        rw [if_pos rfl, State.calPassGo_last none_, State.refReady_plain (s := s.withRef mv) pass]
        rfl
  · have put := State.injectGo_eq (k := k.val) low high s
    refine ⟨fun noGo => congrArg Host.Outcome.next (State.cfgRow_inject reach free (put.trans (if_pos noGo))),
      fun go => ?_⟩
    have put := put.trans (if_neg (by simp only [go]; exact Bool.false_ne_true.symm))
    refine ⟨fun refused => congrArg Host.Outcome.next (State.cfgRow_inject reach free (put.trans (if_pos ?_))),
      fun others few => ?_⟩
    · exact refused.imp (s.injPend_iff k.val).mpr id
    · have fresh : ¬(s.injPend k.val = true ∨ 4 ≤ s.requests.length) := by
        rintro (pend | many)
        · obtain ⟨i, mem, same⟩ := (s.injPend_iff k.val).mp pend
          exact others i mem same
        · exact absurd many (Nat.not_le.mpr few)
      have put := put.trans (if_neg fresh)
      refine ⟨fun unready => ?_, fun ready idle first stay => ?_⟩
      · have goes : s.injectGo k.val v = (s.queued (injOfWord k.val v), 0) :=
          put.trans (congrArg (·, 0) ((if_neg fun all =>
            absurd (unready.symm.trans all.2.1) Bool.false_ne_true).trans (if_pos (.inl unready))))
        exact congrArg Host.Outcome.next (State.cfgRow_inject reach free goes)
      · have none_ : ¬(s.seqOf (v.getLsbD 1)).run.isSome = true := by
          rw [State.pairRuns, Bool.or_eq_false_iff] at idle
          rw [idle.1]
          exact Bool.false_ne_true
        have goes : s.injectGo k.val v =
            ((s.queued (injOfWord k.val v)).pairGo (v.getLsbD 1) s.someInstant, 0) :=
          put.trans (congrArg (·, 0) (if_neg fun all => none_ all.2.2.2.2))
        exact ⟨_, congrArg Host.Outcome.next (State.cfgRow_inject reach free goes),
          State.pairGo_first (s := s.queued (injOfWord k.val v)) ready idle (State.injNext_queued first rfl) stay rfl _⟩

end
end
